-- ==== Sys2Proof/Word.lean ====
section
/-! DEFINITION. The words of the part and the named places of bits in them. -/
namespace Sys2Proof.Machine

abbrev Byte := BitVec 8
abbrev W16 := BitVec 16
abbrev W32 := BitVec 32
abbrev W64 := BitVec 64

/-- A field of a register: its lowest bit and its width (the field tables of the spec). -/
structure Fld where
  lo : Nat
  len : Nat
  deriving DecidableEq, Repr

/-- The kinds of register page (R54). -/
inductive PageKind where
  | glob | mbox | pwr | cool | stage | shunt | xlat | fault | inval | time | sec
  | func | coach | vec | mtx | cmem | dray | tlb | tally | depot | hbm | link | couple
  | hostif | clk | rst | doorbell
  deriving DecidableEq, Repr

/-- Sparse data by key: keys strictly rising, no entry equal to what an unlisted key reads as. -/
abbrev SMap (α : Type) := List (Nat × α)

end Sys2Proof.Machine
end

