-- ==== Sys2Proof/Machine/Types.lean ====
section
/-! DEFINITION. What a command brings with it: names of contexts, pages and commands of a page, and the outcomes of
physical events. -/
namespace Sys2Proof.Machine

/-- A coach context: coach c and its side, fore or aft (R75). -/
structure Ctx where
  coach : Fin 64
  aft : Bool
  deriving DecidableEq, Repr

/-- A register page (R54). -/
structure PageId where
  kind : PageKind
  inst : Nat
  deriving DecidableEq, Repr

/-- A command written to a page's PAGE_CMD (R57, R61): the master, its tag, the argument, and the generation that the
ostler expects (R73); other masters carry none. -/
structure Launch where
  m : BitVec 16
  tag : BitVec 8
  arg : BitVec 48
  gen : Option W64
  deriving DecidableEq, Repr

/-- How a slot of the flash reads back when its image is verified (R45, R494): as it was written, or not. -/
structure Verdict where
  intact : Bool
  deriving DecidableEq, Repr

/-- The kinds of Selfan packet (R417). -/
inductive PktType where
  | write | read | writeRsp | readRsp
  deriving DecidableEq, Repr

/-- A Selfan packet without its link numbering (R417). `bytes` is the payload of a WRITE or READ_RSP and the requested
length of a READ. -/
structure Packet where
  typ : PktType
  notify : Bool
  cls : Nat
  hop : Nat
  route : BitVec 16
  dst : BitVec 16
  src : BitVec 16
  off : Nat
  win : Nat
  tag : BitVec 32
  status : Byte
  bytes : Nat
  data : List Byte
  deriving DecidableEq, Repr

/-- What a packet is on the link (R417): its four header words and its payload. -/
structure Flits where
  w0 : BitVec 64
  w1 : BitVec 64
  w2 : BitVec 64
  w3 : BitVec 64
  data : List Byte
  deriving DecidableEq, Repr

/-- What a configuration read asks for (R406, R407, R409, R410, R412). -/
inductive CfgField where
  /-- Device ID, Revision ID, class code. -/
  | ids
  /-- TotalVFs, First VF Offset, VF Stride, Device ID of a virtual function, NumVFs. -/
  | sriov
  /-- BAR pair 0/1, 2/3 or 4/5: its size, and 1 when it is prefetchable. -/
  | bar (i : Fin 3)
  /-- Table size, function mask, BAR of table and Pending Bit Array, their offsets. -/
  | msix
  /-- Bus Master Enable, payload and read request sizes programmed and supported, Relaxed Ordering, ID-Based Ordering, ECRC. -/
  | control
  /-- Uncorrectable errors noted by AER. -/
  | aer
  /-- Groups, window base and size, MC_Receive. -/
  | multicast
  deriving DecidableEq, Repr

/-- A request to a function's configuration structures (R406, R409, R410, R412), and to the MSI-X structures in its BAR4/5
(R407), which no other command of the table reaches. -/
inductive CfgAccess where
  | bme (on : Bool)
  | msixMask (mask : Bool)
  | payload (bytes : Nat)
  | readReq (bytes : Nat)
  | ordering (relaxed ido : Bool)
  | ecrc (on : Bool)
  /-- Clears the errors of AER whose bits are 1. -/
  | aerClear (bits : BitVec 32)
  | numVfs (n : Nat)
  | multicast (base size : Nat) (receive : BitVec 64)
  | read (field : CfgField)
  /-- BAR4/5: a read of `n` bytes, a write. -/
  | tableRead (off n : Nat)
  | tableWrite (off : Nat) (data : List Byte)
  /-- A write that the part does not act on, or a read of what the manual does not give. -/
  | other
  deriving DecidableEq, Repr

/-- What a frame of Ethernet mode carries (R422): a packet, the acknowledgement or NAK of a peer, or the priorities that flow
control pauses from now on. -/
inductive EthBody where
  | packet (f : Flits)
  | pause (priorities : BitVec 8)
  | ack (src : BitVec 16) (good : Bool) (lseq : BitVec 12)
  deriving DecidableEq, Repr

/-- A write to the register space (R56): master, offset from BAR0, size, value, and the generation that the ostler
expects. -/
structure Wr where
  m : BitVec 16
  off : Nat
  size : Nat
  val : BitVec 64
  gen : Option (BitVec 64)
  deriving DecidableEq, Repr

/-- An error that a unit detects and reports (R434, R450): its cause, the unit, the address or 0, whether both copies
failed, and whether a restore met it. -/
structure Detected where
  cause : Nat
  unit : BitVec 16
  addr : Nat
  both : Bool
  restore : Bool
  deriving DecidableEq, Repr

/-- The 1 ms averages that the allocator measures, in mW (R466): input, HBM, hub and conversion power; each rake's power
at its highest permitted point and at 400 MHz for its present activity; and the energy since the last allocation in mJ. -/
structure Powers where
  input : Nat
  hbm : Nat
  hub : Nat
  conv : Nat
  top : Vector Nat 4
  low : Vector Nat 4
  mj : Nat
  deriving DecidableEq, Repr

/-- A reading of the temperature sensors in tenths of a degree C (R474): the hottest die sensor of each rake and of the
hub, each HBM stack, the plate inlet, the plate outlet and the hotter sensor of the plate body. -/
structure Temps where
  die : Vector Int 4
  hub : Int
  stack : Vector Int 16
  inlet : Int
  outlet : Int
  body : Int
  deriving DecidableEq, Repr

/-- How an MCTP message arrives (R485): its transport (0 SMBus, 1 I3C, 2 PCIe on link 0, 3 PCIe on link 1), the address that it
is sent to (7 bits on the buses, a function on PCIe), whether the PEC of every packet is right (SMBus), the payload bytes of its
packets (the last may be shorter), its length, and whether every packet of it came in sequence. -/
structure Mctp where
  t : Fin 4
  addr : Nat
  pecOk : Bool
  pkt : Nat
  len : Nat
  inSeq : Bool
  deriving DecidableEq, Repr

/-- What the check of an image finds, part by part (R494), and the version the image carries. -/
structure ImageCheck where
  keyOk : Bool
  sigOk : Bool
  bodyOk : Bool
  svn : Fin 65
  deriving DecidableEq, Repr, Inhabited

/-- A cause of a MODULE reset (R33, R50). -/
inductive ModCause where
  | sag48
  | sagRail (rail : Nat)
  | perst
  | cmd
  | therm
  | leak
  | debug
  | watchdog
  deriving DecidableEq, Repr

/-- What the event log records (R507). -/
inductive LogCode where
  /-- A reset with its causes, as RST.RESET_CAUSE names them. -/
  | reset (causes : W64)
  /-- A stop: its kind, and its source as COOL.TEMPS.TRIP_SRC numbers it. -/
  | stop (c : ModCause) (src : Nat)
  | levelC (cause : Nat)
  | update (step : Nat)
  | arbCommit (value : Nat)
  | dbgUnlock | dbgRefused | dbgLock
  deriving DecidableEq, Repr

/-- An entry of the event log: its always-on stamp and what it records; `Config.logBytes` is its 32 B (R507). -/
structure EvtEntry where
  stamp : W64
  code : LogCode
  deriving DecidableEq, Repr

/-- A read of a register, or a write to it. -/
inductive RegAcc where
  | read (m : BitVec 16) (off size : Nat)
  | write (w : Wr)
  deriving DecidableEq, Repr

/-- A source that reaches INT_PEND of a context (R129): number `n` of those on their way, or a message that the shunter
posts. -/
inductive PendSource where
  | posted (n : Nat)
  | shunt (x : Ctx)
  deriving DecidableEq, Repr

end Sys2Proof.Machine
end

