-- ==== Sys2Proof/Syntax.lean ====
section
/-! DEFINITION. The commands of the part: one constructor for every row of the table of operations and events,
with what the sender of the command brings (the master, the operands of a register write, the data that crosses the
lands, the outcome of a physical event). -/
namespace Sys2Proof
open Sys2Proof.Machine

inductive Instr where
  /-- VSTBY33_RISE (R33): vstby33 rises above 3.0 V and starts a power-on reset with start-up step 1. -/
  | vstby33Rise
  /-- VSTBY33_FALL (R33): vstby33 falls below 2.9 V and the whole module takes a power-on reset. -/
  | vstby33Fall
  /-- POR_RELEASE (R40): 10 ms after vstby33 reaches 3.0 V, power-on reset is released and the always-on counter starts. -/
  | porRelease
  /-- MAIN_POWER_GOOD (R40): vin48 has stayed at or above 45.0 V for 1 ms, which defines T0 and starts step 2. -/
  | mainPowerGood (mv : Nat)
  /-- HUB_RAILS_UP (R40): Step 2 completes with the hub rails ramped and the PCIe core ready to train, and step 3 begins. -/
  | hubRailsUp (fail : Bool)
  /-- OSTLER_IMAGE_VERIFY (R45): The ostler finishes loading and verifying slot A or slot B at step 3 and runs the image that verifies. -/
  | ostlerImageVerify (a b : Verdict)
  /-- COOLANT_CHECK (R47): Step 4 begins once cool_leak_n is high, flow is at least 0.5 L/min and the inlet is at most 40 degrees C. -/
  | coolantCheck
  /-- COOL_FAIL (R47): After 10 s of waiting for coolant, COOL_FAIL is set and start-up stops in a held failure state. -/
  | coolFail
  /-- RAIL_RAMP_DONE (R40): Rake, HBM and Selfan PHY rails finish ramping in staggered groups at step 4, or RAIL_FAIL is set. -/
  | railRampDone (fail : Option (Fin 18))
  /-- HBM_TRAINING_DONE (R40): Step 5 completes with all stacks trained (with up to two short retrains), HBM zeroed with valid CRC and the depot invalidated, or HBM_FAIL is set. -/
  | hbmTrainingDone (fail : Option (Fin 16))
  /-- RAKE_RELEASE (R40): At step 6 the rake PLLs lock, coaches are held at their reset vectors, and the shunter and governor start. -/
  | rakeRelease
  /-- MODULE_READY (R42): Step 7 opens stage 0, READY is set, configuration requests complete normally and mod_ready rises. -/
  | moduleReady
  /-- PERST0_ASSERT (R33): perst0_n is asserted and the module takes a MODULE reset. -/
  | perst0Assert
  /-- MODULE_RESET_RELEASE (R33): 20 ms after the last MODULE reset cause clears, start-up restarts from step 2. -/
  | moduleResetRelease
  /-- PERST0_DEASSERT (R41): perst0_n deasserts and link 0 becomes due to train within 20 ms. -/
  | perst0Deassert
  /-- PERST1_CHANGE (R33): perst1_n changes on a bifurcated module and holds or releases link 1 in LINK reset. -/
  | perst1Change (high : Bool)
  /-- HOST_LINK_TRAIN (R41): Training of a host link begins at the later of T0 + 15 ms and 20 ms after its perst deasserts. -/
  | hostLinkTrain (l : Fin 2)
  /-- REFCLK_SWITCH (R21): A change in presence of pcie_refclk0 switches domain 21 glitch-free between the references and increments REFCLK_LOSS. -/
  | refclkSwitch (present : Bool)
  /-- JTAG_TRST (R38): jtag_trst_n resets only the TAP controller. -/
  | jtagTrst (high : Bool)
  /-- OSTLER_WATCHDOG (R33): The 2 s ostler watchdog expires and resets the ostler, or before step 6 acts as a MODULE cause. -/
  | ostlerWatchdog
  /-- OSTLER_BOOT (R33): After an OSTLER reset the ostler finishes re-verifying its image and the management buses stop NACKing. -/
  | ostlerBoot (a b : Verdict)
  /-- SNAP (R29): The SNAP command launches a matched strobe that captures every domain counter into SNAP_CNT, SNAP_RUN and SNAP_EPOCH. -/
  | snap (l : Launch)
  /-- MODULE_RESET (R39): The RST MODULE_RESET command causes a MODULE reset with cause CMD. -/
  | moduleReset (l : Launch)
  /-- RAKE_RESET (R36): The RAKE_RESET command resets one rake's PLL, coaches and memories, or is refused with BAD_ARG or NOT_IDLE. -/
  | rakeReset (l : Launch)
  /-- OSTLER_RESET (R33): The OSTLER_RESET command resets the ostler and its mailbox while the data path runs on. -/
  | ostlerReset (l : Launch)
  /-- REGISTER_WRITE (R71): A write to a register with no row of its own is judged by the checks of R71 and accepted, refused or chocks its master. -/
  | registerWrite (w : Wr)
  /-- COMMAND_END (R61): A running command ends, setting ERR, DONE, PROGRESS and CMD_DONE and clearing BUSY. -/
  | commandEnd (p : PageId)
  /-- EVT_ENABLE_WRITE (R58): A write to PAGE_EVT_EN that raises an enable while its event bit is 1 sends one MSI-X message. -/
  | evtEnableWrite (w : Wr)
  /-- ERR_POP (R59): Writing POP removes the head error record, or does nothing when the queue is empty. -/
  | errPop (w : Wr)
  /-- DISCARD (R66): Writing PAGE_CTL.DISCARD returns every STAGED shadow to its applied value and clears PEND. -/
  | discard (w : Wr)
  /-- CHOCK_RELEASE (R70): The owner's write of RELEASE resumes the named chocked master from its frozen state. -/
  | chockRelease (w : Wr)
  /-- READ_TO_CLEAR (R39): A read of an RC register returns its count and clears it. -/
  | readToClear (m : BitVec 16) (off size : Nat)
  /-- LIT (R88): Pushes the 15-bit literal of the instruction word. -/
  | lit (x : Ctx) (v : BitVec 15)
  /-- NOP (R89): Does nothing. -/
  | nop (x : Ctx)
  /-- LITW (R89): Pushes the following operand word. -/
  | litw (x : Ctx)
  /-- DROP (R89): Removes the top data-stack entry. -/
  | drop (x : Ctx)
  /-- DUP (R89): Duplicates the top data-stack entry. -/
  | dup (x : Ctx)
  /-- SWAP (R89): Exchanges the top two entries. -/
  | swap (x : Ctx)
  /-- OVER (R89): Copies the second entry to the top. -/
  | over (x : Ctx)
  /-- ROT (R89): Rotates the third entry to the top. -/
  | rot (x : Ctx)
  /-- NIP (R89): Removes the second entry. -/
  | nip (x : Ctx)
  /-- TUCK (R89): Copies the top entry below the second. -/
  | tuck (x : Ctx)
  /-- PICK (R89): Pushes entry n, with its three-step underflow and operand checks. -/
  | pick (x : Ctx)
  /-- DROP2 (R89): Removes the top two entries. -/
  | drop2 (x : Ctx)
  /-- DUP2 (R89): Duplicates the top two entries. -/
  | dup2 (x : Ctx)
  /-- SWAP2 (R89): Exchanges the top two pairs. -/
  | swap2 (x : Ctx)
  /-- DEPTH (R89): Pushes the data-stack depth. -/
  | depth (x : Ctx)
  /-- TOR (R89): Moves the top data entry to the return stack. -/
  | tor (x : Ctx)
  /-- FROMR (R89): Moves the top return entry to the data stack. -/
  | fromr (x : Ctx)
  /-- RFETCH (R89): Copies the top return entry to the data stack. -/
  | rfetch (x : Ctx)
  /-- RDEPTH (R89): Pushes the return-stack depth. -/
  | rdepth (x : Ctx)
  /-- ADD (R89): Adds two words and sets C to the carry. -/
  | add (x : Ctx)
  /-- ADC (R89): Adds two words and C, setting C to the carry. -/
  | adc (x : Ctx)
  /-- SUB (R89): Subtracts and sets C on borrow. -/
  | sub (x : Ctx)
  /-- SBB (R89): Subtracts with borrow and sets C. -/
  | sbb (x : Ctx)
  /-- NEG (R89): Negates in two's complement. -/
  | neg (x : Ctx)
  /-- INC (R89): Adds 1. -/
  | inc (x : Ctx)
  /-- DEC (R89): Subtracts 1. -/
  | dec (x : Ctx)
  /-- MUL (R89): Pushes the unsigned 32-bit product. -/
  | mul (x : Ctx)
  /-- MULS (R89): Pushes the signed 32-bit product. -/
  | muls (x : Ctx)
  /-- UDIVMOD (R89): Pushes unsigned quotient and remainder, with the defined result for b = 0. -/
  | udivmod (x : Ctx)
  /-- AND (R89): Bitwise AND. -/
  | and_ (x : Ctx)
  /-- OR (R89): Bitwise OR. -/
  | or_ (x : Ctx)
  /-- XOR (R89): Bitwise XOR. -/
  | xor (x : Ctx)
  /-- NOT (R89): Bitwise complement. -/
  | not_ (x : Ctx)
  /-- SHL (R89): Shifts left by n modulo 16. -/
  | shl (x : Ctx)
  /-- SHR (R89): Logical right shift by n modulo 16. -/
  | shr (x : Ctx)
  /-- SAR (R89): Arithmetic right shift by n modulo 16. -/
  | sar (x : Ctx)
  /-- ROL (R89): Rotates left by n modulo 16. -/
  | rol (x : Ctx)
  /-- EQ (R89): Pushes the flag a = b. -/
  | eq (x : Ctx)
  /-- NE (R89): Pushes the flag a differs from b. -/
  | ne (x : Ctx)
  /-- LTU (R89): Pushes the unsigned less-than flag. -/
  | ltu (x : Ctx)
  /-- LTS (R89): Pushes the signed less-than flag. -/
  | lts (x : Ctx)
  /-- GEU (R89): Pushes the unsigned greater-or-equal flag. -/
  | geu (x : Ctx)
  /-- GES (R89): Pushes the signed greater-or-equal flag. -/
  | ges (x : Ctx)
  /-- ZEQ (R89): Pushes the flag a = 0. -/
  | zeq (x : Ctx)
  /-- RDSR (R90): Reads a special register, raising the privilege trap for supervisor registers at task level. -/
  | rdsr (x : Ctx) (n : BitVec 7)
  /-- WRSR (R90): Writes a special register, including INT_ACK and CMP arming, with privilege and read-only rules. -/
  | wrsr (x : Ctx) (n : BitVec 7)
  /-- CNT (R89): Pushes the 64-bit coach cycle counter, a logged input of the stage. -/
  | cnt (x : Ctx)
  /-- FETCH (R91): Loads one control-memory word. -/
  | fetch (x : Ctx)
  /-- STORE (R91): Stores one control-memory word. -/
  | store (x : Ctx)
  /-- FETCHP (R91): Loads a word and pushes the incremented address. -/
  | fetchp (x : Ctx)
  /-- STOREP (R91): Stores a word and pushes the incremented address. -/
  | storep (x : Ctx)
  /-- FETCH4 (R91): Loads four consecutive words. -/
  | fetch4 (x : Ctx)
  /-- STORE4 (R91): Stores four consecutive words. -/
  | store4 (x : Ctx)
  /-- BR (R92): Continues at the operand address. -/
  | br (x : Ctx)
  /-- BZ (R92): Branches when the popped flag is 0. -/
  | bz (x : Ctx)
  /-- BNZ (R92): Branches when the popped flag is non-zero. -/
  | bnz (x : Ctx)
  /-- CALL (R92): Pushes the return address and continues at the operand. -/
  | call (x : Ctx)
  /-- RET (R92): Continues at the popped return address. -/
  | ret (x : Ctx)
  /-- BRX (R92): Continues at the popped address. -/
  | brx (x : Ctx)
  /-- CALLX (R92): Calls the popped address. -/
  | callx (x : Ctx)
  /-- LOOP (R93): Arms a hardware loop with LS, LE and LC, or skips it when n = 0. -/
  | loop (x : Ctx)
  /-- ENDLOOP (R94): Leaves the current loop when LC is non-zero. -/
  | endloop (x : Ctx)
  /-- LPUSH (R92): Saves the loop registers on the return stack. -/
  | lpush (x : Ctx)
  /-- LPOP (R92): Restores the loop registers from the return stack. -/
  | lpop (x : Ctx)
  /-- WAITEV (R99): Waits for a masked event, then pushes and clears the matching bits. -/
  | waitev (x : Ctx)
  /-- SENDEV (R100): Sends an event to a context, a dray stream gate or the host. -/
  | sendev (x : Ctx)
  /-- EVENT_DELIVER (R101): A sent event, dray completion event or INBOUND reaches the target's event register, or is discarded and counted in EV_DROP. -/
  | eventDeliver (n : Nat)
  /-- WAITUNTIL (R102): Waits until the coach counter reaches t or a masked event is set. -/
  | waituntil (x : Ctx)
  /-- WAITUNTIL_EXPIRE (R102): The counter reaches a WAITUNTIL target with no event set, and the wait pushes 0. -/
  | waituntilExpire (x : Ctx)
  /-- WAIT_RELEASE (R99): A waiting instruction finds its condition met (event, claim, queue room, engine completion) and completes. -/
  | waitRelease (x : Ctx)
  /-- EVPOLL (R99): Pushes and clears matching events without waiting. -/
  | evpoll (x : Ctx)
  /-- EVPEEK (R99): Pushes EVENTS without clearing. -/
  | evpeek (x : Ctx)
  /-- EVCLR (R99): Clears the masked event bits. -/
  | evclr (x : Ctx)
  /-- SYSCALL (R125): Enters ENTRY[n] at supervisor level saving SYS_RA and SYS_ST, or traps when disabled. -/
  | syscall (x : Ctx) (n : BitVec 4)
  /-- SYSRET (R124): Restores C, LVL and BRAKE from SYS_ST and continues at SYS_RA. -/
  | sysret (x : Ctx)
  /-- TRET (R123): Returns from a handler through the DF, trap or shadow pair and releases held engine entries. -/
  | tret (x : Ctx)
  /-- BRAKE (R126): Sets STATUS.BRAKE to mask asynchronous events. -/
  | brake (x : Ctx)
  /-- UNBRAKE (R126): Clears STATUS.BRAKE. -/
  | unbrake (x : Ctx)
  /-- SETMODE (R138): Sets LVL and BRAKE from the operand, or raises OPERAND. -/
  | setmode (x : Ctx)
  /-- TSTABLE (R132): Sets STABLE and clears DF. -/
  | tstable (x : Ctx)
  /-- VCLAIM (R80): Claims the vector engine without issuing a vector instruction. -/
  | vclaim (x : Ctx)
  /-- VCLAIM_GRANT (R80): A claim is granted after any save and restore of vector state, and VGRANT is set. -/
  | vclaimGrant (c : Fin 64)
  /-- VCLAIM_LIMIT_EXPIRE (R81): A claim waits VCLAIM_LIMIT cycles, forcing aft to release or raising VLIMIT. -/
  | vclaimLimitExpire (c : Fin 64) (aft : Bool) (hi : Nat)
  /-- VREL (R82): Waits for issued vector work to complete and releases vector ownership. -/
  | vrel (x : Ctx)
  /-- TRAP_ENTRY (R118): At an instruction boundary the selected cause is entered as a task, supervisor or double-fault entry. -/
  | trapEntry (x : Ctx) (hi : Nat)
  /-- INT_PEND_SET (R129): A hub source (SAG, THERMAL, ERROR, SHUNT, HOST) reaches a context's INT_PEND after the crossings. -/
  | intPendSet (p : PendSource)
  /-- CMP_MATCH (R130): The coach counter reaches the armed CMP target, sets INT_PEND bit 5 and disarms. -/
  | cmpMatch (x : Ctx)
  /-- BRAKE_LIMIT_EXPIRE (R128): BRAKE has stayed 1 for BRAKE_LIMIT x 256 cycles and one hang report goes to the shunter and stage controller. -/
  | brakeLimitExpire (x : Ctx)
  /-- HUB_STOP (R127): A context reaches the boundary at which a STOP, quiesce, switch or siding takes effect and stops. -/
  | hubStop (x : Ctx) (hi : Nat)
  /-- START (R109): The COACH START command runs a context from its PC. -/
  | start (c : Fin 64) (l : Launch)
  /-- STOP (R109): The COACH STOP command stops a context at its next boundary. -/
  | stop (c : Fin 64) (l : Launch)
  /-- VFLUSH (R109): Saves the vector state of VOWN.TAG and leaves the engine unowned with TAG 0. -/
  | vflush (c : Fin 64) (l : Launch)
  /-- EV_SET (R107): A write to EV_SET sets event bits in the selected context. -/
  | evSet (w : Wr)
  /-- CM_DATA (R108): A read or write of CM_DATA transfers control-memory words at CM_ADDR and advances it. -/
  | cmData (a : RegAcc)
  /-- VSETVL (R185): Queues a configuration entry setting VL. -/
  | vsetvl (x : Ctx)
  /-- VSETTYPE (R185): Queues a configuration entry setting VTYPE and clipping VL. -/
  | vsettype (x : Ctx)
  /-- VSETCTL (R185): Queues a configuration entry setting VCTL bits 15:0. -/
  | vsetctl (x : Ctx)
  /-- VSETACCS (R185): Queues a configuration entry setting VCTL.ACCS. -/
  | vsetaccs (x : Ctx)
  /-- VFADD (R194): Issues a floating add, vector or scalar form (VFADDS). -/
  | vfadd (x : Ctx) (sc : Bool)
  /-- VFSUB (R194): Issues a floating subtract (or VFSUBS). -/
  | vfsub (x : Ctx) (sc : Bool)
  /-- VFMUL (R194): Issues a floating multiply (or VFMULS). -/
  | vfmul (x : Ctx) (sc : Bool)
  /-- VFMIN (R194): Issues an IEEE minimum (or VFMINS). -/
  | vfmin (x : Ctx) (sc : Bool)
  /-- VFMAX (R194): Issues an IEEE maximum (or VFMAXS). -/
  | vfmax (x : Ctx) (sc : Bool)
  /-- VFMA (R194): Issues a fused multiply-add (or VFMAS). -/
  | vfma (x : Ctx) (sc : Bool)
  /-- VFMS (R194): Issues a fused multiply-subtract (or VFMSS). -/
  | vfms (x : Ctx) (sc : Bool)
  /-- VFNMA (R194): Issues a negated fused multiply-add (or VFNMAS). -/
  | vfnma (x : Ctx) (sc : Bool)
  /-- VFSGNJ (R194): Issues a sign injection (or VFSGNJS). -/
  | vfsgnj (x : Ctx) (sc : Bool)
  /-- VFABS (R194): Issues an absolute value. -/
  | vfabs (x : Ctx)
  /-- VFNEG (R194): Issues a negation. -/
  | vfneg (x : Ctx)
  /-- VFRECE (R196): Issues a reciprocal estimate. -/
  | vfrece (x : Ctx)
  /-- VFRSQE (R196): Issues a reciprocal square-root estimate. -/
  | vfrsqe (x : Ctx)
  /-- VFRECS (R194): Issues the reciprocal Newton step 2 - a x b (or VFRECSS). -/
  | vfrecs (x : Ctx) (sc : Bool)
  /-- VFRSQS (R194): Issues the square-root Newton step (3 - a x b) / 2 (or VFRSQSS). -/
  | vfrsqs (x : Ctx) (sc : Bool)
  /-- VADD (R197): Issues an integer or ACC128 add (or VADDS). -/
  | vadd (x : Ctx) (sc : Bool)
  /-- VSUB (R197): Issues an integer or ACC128 subtract (or VSUBS). -/
  | vsub (x : Ctx) (sc : Bool)
  /-- VMUL (R197): Issues a low-half integer multiply (or VMULS). -/
  | vmul (x : Ctx) (sc : Bool)
  /-- VMULH (R197): Issues a high-half integer multiply (or VMULHS). -/
  | vmulh (x : Ctx) (sc : Bool)
  /-- VMIN (R197): Issues an integer minimum (or VMINS). -/
  | vmin (x : Ctx) (sc : Bool)
  /-- VMAX (R197): Issues an integer maximum (or VMAXS). -/
  | vmax (x : Ctx) (sc : Bool)
  /-- VAND (R197): Issues a bitwise AND (or VANDS). -/
  | vand (x : Ctx) (sc : Bool)
  /-- VOR (R197): Issues a bitwise OR (or VORS). -/
  | vor (x : Ctx) (sc : Bool)
  /-- VXOR (R197): Issues a bitwise XOR (or VXORS). -/
  | vxor (x : Ctx) (sc : Bool)
  /-- VSHL (R197): Issues a left shift (or VSHLI). -/
  | vshl (x : Ctx) (sc : Bool)
  /-- VSHR (R197): Issues a right shift (or VSHRI). -/
  | vshr (x : Ctx) (sc : Bool)
  /-- VPOPC (R197): Issues a population count. -/
  | vpopc (x : Ctx)
  /-- VCVT (R198): Issues a conversion to a target format, including MX encoding with scales in vs1. -/
  | vcvt (x : Ctx)
  /-- VRESCALE (R198): Issues a conversion of ACC128 elements to a new scale. -/
  | vrescale (x : Ctx)
  /-- VCADD (R200): Issues the compensated add of value, remainder and increment. -/
  | vcadd (x : Ctx)
  /-- VMV (R201): Issues a register move. -/
  | vmv (x : Ctx)
  /-- VBCAST (R201): Issues a broadcast of a scalar. -/
  | vbcast (x : Ctx)
  /-- VMERGE (R201): Issues a masked merge of two groups. -/
  | vmerge (x : Ctx)
  /-- VMEQ (R202): Issues an equal compare into a mask. -/
  | vmeq (x : Ctx) (sc : Bool)
  /-- VMNE (R202): Issues a not-equal compare into a mask. -/
  | vmne (x : Ctx) (sc : Bool)
  /-- VMLT (R202): Issues a less-than compare. -/
  | vmlt (x : Ctx) (sc : Bool)
  /-- VMLE (R202): Issues a less-or-equal compare. -/
  | vmle (x : Ctx) (sc : Bool)
  /-- VMGT (R202): Issues a greater-than compare. -/
  | vmgt (x : Ctx) (sc : Bool)
  /-- VMGE (R202): Issues a greater-or-equal compare. -/
  | vmge (x : Ctx) (sc : Bool)
  /-- VFSUMO (R204): Issues an ordered floating sum, resumable from VRESUME. -/
  | vfsumo (x : Ctx)
  /-- VFSUMT (R205): Issues a fixed-tree floating sum. -/
  | vfsumt (x : Ctx)
  /-- VXSUM (R206): Issues an exact sum into ACC128. -/
  | vxsum (x : Ctx)
  /-- VXDOT (R206): Issues an exact dot product into ACC128. -/
  | vxdot (x : Ctx)
  /-- VFMAXR (R203): Issues a floating maximum reduction. -/
  | vfmaxr (x : Ctx)
  /-- VFMINR (R203): Issues a floating minimum reduction. -/
  | vfminr (x : Ctx)
  /-- VISUM (R203): Issues a wrapping integer sum. -/
  | visum (x : Ctx)
  /-- VIMAXR (R203): Issues an integer maximum reduction. -/
  | vimaxr (x : Ctx)
  /-- VIMINR (R203): Issues an integer minimum reduction. -/
  | viminr (x : Ctx)
  /-- VANDR (R203): Issues an AND reduction. -/
  | vandr (x : Ctx)
  /-- VORR (R203): Issues an OR reduction. -/
  | vorr (x : Ctx)
  /-- VXORR (R203): Issues an XOR reduction. -/
  | vxorr (x : Ctx)
  /-- VCOMPRESS (R207): Issues a masked compress. -/
  | vcompress (x : Ctx)
  /-- VEXPAND (R207): Issues a masked expand. -/
  | vexpand (x : Ctx)
  /-- VIOTA (R207): Issues a prefix count of mask bits. -/
  | viota (x : Ctx)
  /-- VID (R207): Issues an element-index write. -/
  | vid (x : Ctx)
  /-- VRGATHER (R207): Issues a register gather by index. -/
  | vrgather (x : Ctx)
  /-- VSLIDEUP (R207): Issues a slide up by x. -/
  | vslideup (x : Ctx)
  /-- VSLIDEDN (R207): Issues a slide down by x. -/
  | vslidedn (x : Ctx)
  /-- VINS (R208): Issues an insert of a scalar into element 0. -/
  | vins (x : Ctx)
  /-- VEXT (R208): Waits for earlier entries and pushes element 0. -/
  | vext (x : Ctx)
  /-- VEXTH (R208): Waits and pushes the high half of an ACC128 element 0. -/
  | vexth (x : Ctx)
  /-- VRDCFG (R208): Waits for every earlier entry and pushes VL, VTYPE, VCTL or VRESUME. -/
  | vrdcfg (x : Ctx)
  /-- VMAND (R209): Issues a mask AND. -/
  | vmand (x : Ctx)
  /-- VMOR (R209): Issues a mask OR. -/
  | vmor (x : Ctx)
  /-- VMXOR (R209): Issues a mask XOR. -/
  | vmxor (x : Ctx)
  /-- VMANDN (R209): Issues a mask AND-NOT. -/
  | vmandn (x : Ctx)
  /-- VMNOT (R209): Issues a mask NOT. -/
  | vmnot (x : Ctx)
  /-- VMSET (R209): Issues a mask set to all ones. -/
  | vmset (x : Ctx)
  /-- VMCLR (R209): Issues a mask clear. -/
  | vmclr (x : Ctx)
  /-- VMMV (R209): Issues a mask move. -/
  | vmmv (x : Ctx)
  /-- VMPOP (R209): Pushes the number of set mask bits below VL. -/
  | vmpop (x : Ctx)
  /-- VMFIRST (R209): Pushes the lowest set mask position below VL. -/
  | vmfirst (x : Ctx)
  /-- VLDR (R211): Issues a load of core-memory rows into a register group. -/
  | vldr (x : Ctx)
  /-- VSTR (R211): Issues a store of a register group into core-memory rows. -/
  | vstr (x : Ctx)
  /-- VLD (R212): Issues a unit-stride load from virtual memory. -/
  | vld (x : Ctx)
  /-- VST (R212): Issues a unit-stride store. -/
  | vst (x : Ctx)
  /-- VLDS (R212): Issues a strided load. -/
  | vlds (x : Ctx)
  /-- VSTS (R212): Issues a strided store. -/
  | vsts (x : Ctx)
  /-- VLDX (R212): Issues a gather. -/
  | vldx (x : Ctx)
  /-- VSTX (R212): Issues a scatter. -/
  | vstx (x : Ctx)
  /-- VEC_ENTRY_START (R190): A queued vector entry starts when ordering allows, after its head checks. -/
  | vecEntryStart (c : Fin 64)
  /-- VEC_ELEMENT_RESPONSE (R213): A response to a vector element access is written and its credit or slot returns. -/
  | vecElementResponse (c : Fin 64) (i : Nat)
  /-- VEC_ENTRY_COMPLETE (R191): A vector entry completes, commits flags and tally and clears VRESUME. -/
  | vecEntryComplete (c : Fin 64) (mem : Bool) (cycles replays : Nat) (third : Bool)
  /-- VZERO (R220): The VEC VZERO command clears every vector register and the configuration. -/
  | vzero (c : Fin 64) (l : Launch)
  /-- VREG_DATA (R219): A read or write of VREG_DATA accesses a vector register word and advances WORD. -/
  | vregData (a : RegAcc)
  /-- MISSUE (R227): Captures an 8-word matrix descriptor into the context's matrix queue. -/
  | missue (x : Ctx)
  /-- MWAIT (R96): Waits until every matrix entry of the context has committed or trapped. -/
  | mwait (x : Ctx)
  /-- MSTAT (R258): Waits for matrix entries and pushes and clears the sticky status. -/
  | mstat (x : Ctx)
  /-- MATRIX_ENTRY_START (R232): A matrix entry starts when spacing, shadow bank and HOLD allow, and runs its Check stage. -/
  | matrixEntryStart (c : Fin 64) (half : Bool)
  /-- MATRIX_PREPARE (R235): An entry waiting on an overlapping D tile begins its Prepare after that entry commits. -/
  | matrixPrepare (c : Fin 64) (half : Bool) (rows : Nat)
  /-- MATRIX_ENTRY_CLOSE (R250): At Close the overflow decision and residue check of every cell are made. -/
  | matrixEntryClose (c : Fin 64) (half mismatch : Bool)
  /-- MATRIX_ENTRY_COMMIT (R251): The last D row is written and MTXDONE, flags, tally, MSTAT and SR_CTR_M take effect. -/
  | matrixEntryCommit (c : Fin 64) (half mismatch : Bool)
  /-- MTX_MODE_CHANGE (R253): When the array empties, a pending SPLIT value applies and HOLD clears. -/
  | mtxModeChange (c : Fin 64)
  /-- CLEAR (R180): The TALLY CLEAR command zeroes every count and bin. -/
  | clear (i : Fin 128) (l : Launch)
  /-- DRGO (R323): Captures a 16-word dray descriptor and queues it on a stream. -/
  | drgo (x : Ctx)
  /-- DRWAIT (R96): Waits until a stream has no queued or active descriptor. -/
  | drwait (x : Ctx)
  /-- DRSTAT (R96): Pushes a stream's status. -/
  | drstat (x : Ctx)
  /-- DRAY_DESC_START (R328): A descriptor at the head of its stream, with its gate satisfied, is checked and starts. -/
  | drayDescStart (c : Fin 64) (k : Fin 8)
  /-- DRAY_BURST_ISSUE (R326): A burst is translated and issued once it has a credit, bank room and no interlock. -/
  | drayBurstIssue (c : Fin 64) (k : Fin 8) (wr : Bool) (n : Nat)
  /-- DRAY_DESC_COMPLETE (R326): When every burst is performed the descriptor completes, notifies and advances counters. -/
  | drayDescComplete (c : Fin 64) (k : Fin 8)
  /-- CMEM_FABRIC_ACCESS (R278): An access to core memory through the fabric port is served as a row access or fails with ROW_ACCESS. -/
  | cmemFabricAccess (w : BitVec 16) (cls a n : Nat) (d : Option (List Byte))
  /-- PART_WRITE (R281): A write to CMEM.PART[i] is checked for overlap, range, power and use, and refused with a record on failure. -/
  | partWrite (w : Wr)
  /-- QPOWER (R284): The CMEM QPOWER command sets the powered quarters. -/
  | qpower (c : Fin 64) (l : Launch)
  /-- QUARTER_READY (R284): 20 us after power-on a quarter becomes ready and reads zero. -/
  | quarterReady (c : Fin 64) (q : Fin 4)
  /-- ZERO (R310): The CMEM ZERO command writes zero to a range of rows in class 4. -/
  | zero (c : Fin 64) (l : Launch)
  /-- BUFZERO (R310): The CMEM BUFZERO command sets all four operand buffers to zero. -/
  | bufzero (c : Fin 64) (l : Launch)
  /-- OBUF_DATA (R309): A read or write of OBUF_DATA accesses an operand-buffer word and advances WORD. -/
  | obufData (a : RegAcc)
  /-- DEPOT_ACCESS (R294): An access reaches its depot slice and is served as hit, boot recall, miss or addressable access. -/
  | depotAccess (w : BitVec 16) (cls a n : Nat) (d : Option (List Byte)) (noalloc parity : Bool)
  /-- DEPOT_LINE_FILL (R293): A line fetched from HBM arrives, is allocated and serves the waiting access. -/
  | depotLineFill (i : Fin 16) (l : Nat)
  /-- SPLIT (R299): The DEPOT SPLIT command changes the slice's addressable eighths. -/
  | split (i : Fin 16) (l : Launch)
  /-- WRITEBACK_RAISE (R299): Write-backs of a depot command still outstanding 20 ms after acceptance are raised to class 3. -/
  | writebackRaise (i : Fin 16)
  /-- FLUSH (R301): Writes back every dirty line and leaves it valid. -/
  | flush (i : Fin 16) (l : Launch)
  /-- FLUSH_INVAL (R301): Writes back every dirty line and invalidates every valid line. -/
  | flushInval (i : Fin 16) (l : Launch)
  /-- HBM_READ (R317): A read of an HBM block checks its CRC, retries once and holds and reports on a second failure. -/
  | hbmRead (w : BitVec 16) (a fails : Nat) (scrub : Bool)
  /-- HBM_WRITE (R316): A write stores a whole block with new CRC or merges a partial write. -/
  | hbmWrite (w : BitVec 16) (a : Nat) (d : List Byte) (fails : Nat × Nat)
  /-- SCRUB (R318): The HBM SCRUB command reads and checks every block of the stack in class 4. -/
  | scrub (i : Fin 16) (l : Launch)
  /-- PATROL_START (R318): PATROL_S seconds after a pass ends, the controller starts a scrub pass itself. -/
  | patrolStart (i : Fin 16)
  /-- FREIGHT_DRAY_GRANT (R331): A waiting job is granted a freight dray under the reserved and class rules. -/
  | freightDrayGrant
  /-- FREIGHT_JOB_END (R332): A freight-dray job ends once its log record and target write are accepted. -/
  | freightJobEnd (id : Nat)
  /-- PAGE_WALK (R347): A translation miss starts a walk on a free walker. -/
  | pageWalk (r : Fin 4)
  /-- WALK_READ_RESPONSE (R347): A table-entry read returns and the walk continues, fills the caches or fails. -/
  | walkReadResponse (r : Fin 4) (id : Nat)
  /-- OUTRIDER_WALK (R350): An outrider starts a class-4 walk for a page of a declared tile ahead. -/
  | outriderWalk (c : Fin 64) (k : Fin 8)
  /-- FAULT_RECORD_WRITE (R355): A waiting fault record is written to the ring once space exists, and Q_TAIL advances. -/
  | faultRecordWrite
  /-- FAULT_Q_ENABLE (R371): Setting FAULT Q_CTL.EN restarts the fault ring with PHASE 1. -/
  | faultQEnable (w : Wr)
  /-- RESOLVE (R356): The FAULT RESOLVE command closes an open entry with RETRY or ABORT. -/
  | resolve (l : Launch)
  /-- INVAL_MULTICAST (R358): A multicast posted write delivers an invalidation descriptor into the FIFO. -/
  | invalMulticast (l : Fin 2) (a : Nat) (bytes : List Byte)
  /-- DESC_IN (R358): A write of DESC_IN word 3 enqueues an invalidation descriptor. -/
  | descIn (w : Wr)
  /-- INVAL_ACCEPT (R360): The head descriptor is accepted and removes its translations from every cache. -/
  | invalAccept
  /-- DRAIN_RAISE (R362): Accesses not drained 10 us after acceptance are raised to class 1. -/
  | drainRaise
  /-- INVAL_COMPLETION (R363): After draining, a completion record is written to the host or dropped. -/
  | invalCompletion
  /-- DOORBELL (R376): A write of SQ_TAIL announces submission entries. -/
  | doorbell (w : Wr)
  /-- QCTL_ENABLE (R404): Setting QCTL.EN restarts both rings of a queue at index 0. -/
  | qctlEnable (w : Wr)
  /-- ENTRY_TAKE (R377): The shunter reads the next entry of a queue in rotation and advances SQ_HEAD. -/
  | entryTake (q : Fin 1024) (w : Vector (BitVec 64) 8)
  /-- TASK_ENTRY (R384): A TASK entry is checked and accepted for placement or completes with an error. -/
  | taskEntry (h : BitVec 16)
  /-- XFER_ENTRY (R382): An XFER entry copies between host and device memory through freight drays. -/
  | xferEntry
  /-- POST_ENTRY (R383): A POST entry sets the HOST interrupt of a named task. -/
  | postEntry
  /-- END_ENTRY (R383): An END entry ends a named task. -/
  | endEntry
  /-- MIGRATE_ENTRY (R366): A MIGRATE entry copies pages and optionally registers a reloadable source. -/
  | migrateEntry
  /-- ADVISE_ENTRY (R368): An ADVISE entry adds or clears advice ranges. -/
  | adviseEntry
  /-- TASK_PLACE (R388): A waiting task is placed on a coach: partition, optional clear, code load and initial image. -/
  | taskPlace
  /-- TASK_DISPATCH (R392): An idle context takes the best ready task, whose state is restored and started. -/
  | taskDispatch (x : Ctx)
  /-- TASK_SWITCH (R393): The shunter decides to preempt a context for a higher-priority or time-sliced task. -/
  | taskSwitch
  /-- SLICE_EXPIRE (R392): A task reaches its time slice with an equal-priority task ready. -/
  | sliceExpire (x : Ctx)
  /-- SIDE_TASK (R396): The shunter sides the task of a faulting requester. -/
  | sideTask
  /-- VLIMIT_SWITCH (R397): On VLIMIT the shunter switches aft to another ready task. -/
  | vlimitSwitch (c : Fin 64)
  /-- CTX_DONE (R395): A dray-stream write of CTX_DONE ends the context's task or readies its supervisor code. -/
  | ctxDone (w : Wr)
  /-- TASK_END (R394): A task ends, frees its partition and context, and its completion is written. -/
  | taskEnd (h : BitVec 16)
  /-- END (R403): The SHUNT END command ends a task by handle. -/
  | endTask (l : Launch)
  /-- FENCE (R398): The SHUNT FENCE command fences a coach and relocates its tasks. -/
  | fence (l : Launch)
  /-- UNFENCE (R398): The SHUNT UNFENCE command clears FENCED. -/
  | unfence (l : Launch)
  /-- RELOCATE_GROUP (R399): A relocation group moves to a target coach with its partitions and operand buffers. -/
  | relocateGroup (c : Fin 64)
  /-- CONFIG_REQUEST (R42): A configuration request is answered with Retry Status or completed normally. -/
  | configRequest (f : Fin 16) (w : CfgAccess)
  /-- HOST_BAR2_ACCESS (R408): A BAR2 access is served within the function's window or denied. -/
  | hostBar2Access (f : Fin 16) (a n : Nat) (d : Option (List Byte))
  /-- HOST_COMPLETION (R332): A completion for a module read arrives on the host link and is logged and delivered. -/
  | hostCompletion (id : Nat) (data : List Byte) (err : Bool)
  /-- HOST_COMPLETION_TIMEOUT (R410): A module read gets no completion within 50 ms and ends with an error. -/
  | hostCompletionTimeout (id : Nat)
  /-- LINK_RESET (R413): A hot reset or link down discards received host requests and holds module traffic. -/
  | linkReset (l : Fin 2)
  /-- HOST_LINK_UP (R413): A host link comes up and held reads are reissued. -/
  | hostLinkUp (l : Fin 2) (gen width : Nat) (flit : Bool)
  /-- HOST_HOLD_EXPIRE (R413): Held host traffic exceeds HOLD_LIMIT; writes are discarded and reads end with errors. -/
  | hostHoldExpire (l : Fin 2) (id : Option Nat)
  /-- SELFAN_WRITE (R425): An inbound WRITE packet is accepted and checked, then performed, refused or suppressed as duplicate. -/
  | selfanWrite (p : Fin 10) (f : Flits)
  /-- SELFAN_READ (R425): An inbound READ packet is checked and served by a freight dray. -/
  | selfanRead (p : Fin 10) (f : Flits)
  /-- SELFAN_WRITE_RSP (R424): A WRITE_RSP arrives and ends or frees an outstanding write. -/
  | selfanWriteRsp (p : Fin 10) (f : Flits)
  /-- SELFAN_READ_RSP (R424): A READ_RSP arrives and delivers data to its job. -/
  | selfanReadRsp (p : Fin 10) (f : Flits)
  /-- LINK_CONTROL_FLIT (R419): A link-control flit delivers acknowledgements, NAKs and credits. -/
  | linkControlFlit (p : Fin 10) (nak : Bool) (lseq : BitVec 12) (credits : Vector Nat 10) (good : Bool)
  /-- REPLAY_TIMEOUT (R419): No acknowledgement for 2 us makes the port replay from the oldest packet. -/
  | replayTimeout (p : Fin 10)
  /-- ETHERNET_FRAME (R422): An Ethernet-mode frame is received, filtered and its packet handled end to end. -/
  | ethernetFrame (p : Fin 10) (etype : BitVec 16) (dst : BitVec 48) (fcs : Bool) (b : EthBody)
  /-- ETH_REPLAY_TIMEOUT (R422): The per-peer replay timer RTO expires and packets are replayed. -/
  | ethReplayTimeout (n : Fin 1024)
  /-- PORT_LOCK_LOSS (R19): A port loses receive lock and its domain switches to sf_refclk. -/
  | portLockLoss (p : Fin 10)
  /-- COUPLING_TIMEOUT (R424): A coupled job without response after TMO ends with TIMEOUT. -/
  | couplingTimeout (n : Fin 1024) (wr : Bool) (tag : BitVec 32)
  /-- NOTIFY_DELIVER (R428): A WRITE with NOTIFY is performed once RX_OSN is contiguous and sets INBOUND or drops. -/
  | notifyDeliver (id : Nat)
  /-- COUPLE_ENTRY_WRITE (R430): A write to a window or peer entry is applied or refused as malformed. -/
  | coupleEntryWrite (w : Wr)
  /-- TRAIN (R433): The LINK TRAIN command trains a Selfan port. -/
  | train (p : Fin 10) (l : Launch)
  /-- DOWN (R433): The LINK DOWN command takes a port down. -/
  | down (p : Fin 10) (l : Launch)
  /-- LINK_TRAIN_DONE (R433): Port training finishes with the port up or TRAIN_FAIL. -/
  | linkTrainDone (p : Fin 10) (ok : Bool) (seen : BitVec 16)
  /-- STAGE_TIMER_EXPIRE (R441): STAGE.TIMER reaches STAGE_LEN and a post is requested. -/
  | stageTimerExpire
  /-- STAGING_POST (R442): A post request is taken and the Hold and Quiesce phases begin. -/
  | stagingPost
  /-- POST_QUIESCED (R442): Every context is quiesced and the Save and Mirror phases run. -/
  | postQuiesced
  /-- POST_COMMIT (R442): The mirror finishes; halves swap, WRITTEN clears, the log truncates and Release applies deferred writes. -/
  | postCommit
  /-- POST_QUIESCE_TIMEOUT (R442): Quiesce exceeds POST_WAIT_MS and the post is abandoned with POST_LATE. -/
  | postQuiesceTimeout
  /-- POST_RETRY (R442): 100 ms after an abandoned post its request is taken again. -/
  | postRetry
  /-- LOG_OVERFLOW (R449): The log stays full for FULL_MS without a commit, a level-C event. -/
  | logOverflow
  /-- RECOVERY_EVENT (R450): A detected error reaches the stage controller and is handled at level A, B or C. -/
  | recoveryEvent (d : Option Detected)
  /-- LEVEL_A_REPAIR_DONE (R450): A level-A repair completes, held accesses complete and CNT_A increments. -/
  | levelARepairDone
  /-- ROLLBACK_STOP (R452): A level-B event stops every context, abandons started work and awaits depot commands. -/
  | rollbackStop
  /-- ROLLBACK_RESTORE (R452): The Discard and Restore phases close faults and rewrite dirty granules and the image. -/
  | rollbackRestore
  /-- ROLLBACK_RESTART (R452): Restore and relocation finish and re-execution begins with STATE 4. -/
  | rollbackRestart
  /-- REEXEC_DATA_APPLY (R454): A DATA record whose earlier records are reached is applied or delivered. -/
  | reexecDataApply
  /-- DIVERGE (R455): A task's re-execution mismatches its records or leaves them unreached for 1 s and the task ends. -/
  | diverge (h : BitVec 16)
  /-- REEXEC_END (R456): Every record is reached and the module returns to live execution. -/
  | reexecEnd
  /-- ARM (R463): The STAGE ARM command mirrors guarded granules and takes a post that arms the page. -/
  | arm (l : Launch)
  /-- DISARM (R463): The STAGE DISARM command stops images, mirrors and log at the next post. -/
  | disarm (l : Launch)
  /-- POST (R463): The STAGE POST command requests a post. -/
  | post (l : Launch)
  /-- ROLLBACK (R463): The STAGE ROLLBACK command raises a level-B event with cause COMMAND. -/
  | rollback (l : Launch)
  /-- ABANDON (R461): The STAGE ABANDON command ends every task and opens a new stage with a post. -/
  | abandon (l : Launch)
  /-- REGISTER (R439): The STAGE REGISTER command registers a reloadable source. -/
  | register (l : Launch)
  /-- RELEASE (R463): The STAGE RELEASE command ends a registration. -/
  | release (l : Launch)
  /-- GOVERNOR_ALLOCATE (R466): Every 100 us the allocator shares the rake budget and may limit HBM bandwidth. -/
  | governorAllocate (p : Powers)
  /-- RAKE_LOOP (R466): Every 10 us a rake loop moves its operating point and EPOCH increments. -/
  | rakeLoop (r : Fin 4) (mw : Nat)
  /-- SAG_WARNING (R472): A supply crosses its warning threshold; clocks stretch, SAG is posted and a post requested. -/
  | sagWarning (n : Fin 22) (mv : Nat)
  /-- SAG_CLEAR (R472): 1 ms after every supply clears, stretching stops and the HBM limit lifts. -/
  | sagClear
  /-- SUPPLY_RESET (R473): vin48 or a rail falls below its reset threshold and a MODULE reset follows. -/
  | supplyReset (n : Fin 22) (mv : Nat)
  /-- THERMAL_SAMPLE (R474): Every 10 us the governor reads all sensors and throttles, warns or trips. -/
  | thermalSample (t : Temps)
  /-- LEAK_STOP (R481): cool_leak_n low after the 1 ms filter starts the stop sequence. -/
  | leakStop
  /-- STOP_RESET (R481): 5 ms after a leak stop or trip the module takes a MODULE reset. -/
  | stopReset
  /-- FLOW_UPDATE (R476): Every 10 ms the flow is recomputed from cool_flow pulses and P_cool updates. -/
  | flowUpdate (pulses : Nat)
  /-- DEMAND_UPDATE (R478): Every 10 ms the coolant demand and cool_pwm duty are recomputed. -/
  | demandUpdate (max100 p1ms : Nat)
  /-- CDU_INLET_READ (R480): Every 100 ms the module reads INLET from the coolant distribution unit. -/
  | cduInletRead (t : Option (BitVec 16))
  /-- CDU_DEMAND_WRITE (R480): The module writes DEMAND to the coolant distribution unit. -/
  | cduDemandWrite (ok : Bool)
  /-- CDU_STATUS_WRITE (R480): The module writes STATUS on a change or every 1 s. -/
  | cduStatusWrite (ok : Bool)
  /-- SET_ENDPOINT_ID (R488): MCTP Set Endpoint ID. -/
  | setEndpointId (k : Mctp) (eid : Byte)
  /-- GET_ENDPOINT_ID (R488): MCTP Get Endpoint ID. -/
  | getEndpointId (k : Mctp)
  /-- GET_ENDPOINT_UUID (R488): MCTP Get Endpoint UUID. -/
  | getEndpointUuid (k : Mctp)
  /-- GET_MCTP_VERSION_SUPPORT (R488): MCTP Get MCTP Version Support. -/
  | getMctpVersionSupport (k : Mctp)
  /-- GET_MESSAGE_TYPE_SUPPORT (R488): MCTP Get Message Type Support. -/
  | getMessageTypeSupport (k : Mctp)
  /-- SETDASA (R485): The I3C controller assigns a dynamic address by SETDASA. -/
  | setdasa (a : BitVec 7)
  /-- ENTDAA (R485): The I3C controller assigns a dynamic address by ENTDAA. -/
  | entdaa (a : BitVec 7)
  /-- GET_TID (R489): PLDM GetTID. -/
  | getTid (k : Mctp)
  /-- SET_TID (R489): PLDM SetTID. -/
  | setTid (k : Mctp) (tid : Byte)
  /-- GET_PLDM_VERSION (R489): PLDM GetPLDMVersion. -/
  | getPldmVersion (k : Mctp) (type : Nat)
  /-- GET_PLDM_TYPES (R489): PLDM GetPLDMTypes. -/
  | getPldmTypes (k : Mctp)
  /-- GET_PLDM_COMMANDS (R489): PLDM GetPLDMCommands. -/
  | getPldmCommands (k : Mctp) (type : Nat)
  /-- SET_EVENT_RECEIVER (R487): PLDM SetEventReceiver registers an event receiver. -/
  | setEventReceiver (k : Mctp) (on : Bool)
  /-- GET_PDR_REPOSITORY_INFO (R489): PLDM GetPDRRepositoryInfo. -/
  | getPdrRepositoryInfo (k : Mctp)
  /-- GET_PDR (R489): PLDM GetPDR. -/
  | getPdr (k : Mctp) (i : Nat)
  /-- GET_SENSOR_READING (R490): PLDM GetSensorReading returns a recent numeric reading. -/
  | getSensorReading (k : Mctp) (i : Nat) (late : Bool)
  /-- GET_STATE_SENSOR_READINGS (R490): PLDM GetStateSensorReadings. -/
  | getStateSensorReadings (k : Mctp) (i : Nat) (late : Bool)
  /-- SET_NUMERIC_EFFECTER_VALUE (R490): PLDM SetNumericEffecterValue writes CAP_MGMT by compare-and-act. -/
  | setNumericEffecterValue (k : Mctp) (v : Nat) (gen : W64)
  /-- GET_NUMERIC_EFFECTER_VALUE (R489): PLDM GetNumericEffecterValue. -/
  | getNumericEffecterValue (k : Mctp) (late : Bool)
  /-- QUERY_DEVICE_IDENTIFIERS (R489): PLDM QueryDeviceIdentifiers. -/
  | queryDeviceIdentifiers (k : Mctp)
  /-- GET_FIRMWARE_PARAMETERS (R491): PLDM GetFirmwareParameters. -/
  | getFirmwareParameters (k : Mctp)
  /-- REQUEST_UPDATE (R495): PLDM RequestUpdate enters update mode or is refused. -/
  | requestUpdate (k : Mctp)
  /-- PASS_COMPONENT_TABLE (R489): PLDM PassComponentTable. -/
  | passComponentTable (k : Mctp) (id : Nat)
  /-- UPDATE_COMPONENT (R491): PLDM UpdateComponent starts transfer of the ostler image. -/
  | updateComponent (k : Mctp) (id len : Nat)
  /-- FIRMWARE_DATA_RESPONSE (R491): A response to RequestFirmwareData arrives and its data is written to slot A. -/
  | firmwareDataResponse (k : Mctp) (d : List Byte)
  /-- ACTIVATE_FIRMWARE (R491): PLDM ActivateFirmware activates by OSTLER reset. -/
  | activateFirmware (k : Mctp) (selfContained : Bool)
  /-- GET_STATUS (R489): PLDM GetStatus. -/
  | getStatus (k : Mctp)
  /-- CANCEL_UPDATE_COMPONENT (R489): PLDM CancelUpdateComponent. -/
  | cancelUpdateComponent (k : Mctp)
  /-- CANCEL_UPDATE (R489): PLDM CancelUpdate. -/
  | cancelUpdate (k : Mctp)
  /-- GET_VERSION (R492): SPDM GET_VERSION. -/
  | getVersion (k : Mctp)
  /-- GET_CAPABILITIES (R492): SPDM GET_CAPABILITIES. -/
  | getCapabilities (k : Mctp)
  /-- NEGOTIATE_ALGORITHMS (R492): SPDM NEGOTIATE_ALGORITHMS, refused without the HSS ExtAsym entry. -/
  | negotiateAlgorithms (k : Mctp) (offer : Bool)
  /-- GET_DIGESTS (R492): SPDM GET_DIGESTS. -/
  | getDigests (k : Mctp)
  /-- GET_CERTIFICATE (R492): SPDM GET_CERTIFICATE. -/
  | getCertificate (k : Mctp) (slot off len : Nat)
  /-- CHALLENGE (R499): SPDM CHALLENGE signs with the next HSS index. -/
  | challenge (k : Mctp) (slot : Nat) (cut : Bool)
  /-- GET_MEASUREMENTS (R493): SPDM GET_MEASUREMENTS returns the five measurement blocks. -/
  | getMeasurements (k : Mctp) (i : Nat) (signed cut : Bool)
  /-- BOTTOM_TREE_READY (R500): The background preparation of the next HSS bottom tree completes. -/
  | bottomTreeReady
  /-- GET_INFO (R505): Mailbox GET_INFO returns SVN, slot and anti-rollback value. -/
  | getInfo (l : Launch)
  /-- FW_BEGIN (R505): Mailbox FW_BEGIN copies slot A to slot B and erases slot A. -/
  | fwBegin (l : Launch)
  /-- FW_WRITE (R505): Mailbox FW_WRITE writes buffer bytes into slot A. -/
  | fwWrite (l : Launch)
  /-- FW_VERIFY (R494): Mailbox FW_VERIFY verifies slot A. -/
  | fwVerify (l : Launch)
  /-- FW_ACTIVATE (R505): Mailbox FW_ACTIVATE ends the update, optionally with an OSTLER reset. -/
  | fwActivate (l : Launch)
  /-- ARB_COMMIT (R497): Mailbox ARB_COMMIT raises the anti-rollback fuses. -/
  | arbCommit (l : Launch)
  /-- CFG_READ (R506): Mailbox CFG_READ returns a configuration item. -/
  | cfgRead (l : Launch)
  /-- CFG_WRITE (R506): Mailbox CFG_WRITE writes a configuration item to flash. -/
  | cfgWrite (l : Launch)
  /-- LOG_READ (R507): Mailbox LOG_READ returns event-log entries. -/
  | logRead (l : Launch)
  /-- DBG_NONCE (R501): Mailbox DBG_NONCE issues a new debug nonce. -/
  | dbgNonce (l : Launch)
  /-- DBG_UNLOCK (R502): Mailbox DBG_UNLOCK checks a token and unlocks debug. -/
  | dbgUnlock (l : Launch)
  /-- DBG_LOCK (R502): Mailbox DBG_LOCK clears the unlock. -/
  | dbgLock (l : Launch)
  /-- BYPASS (R503): TAP BYPASS instruction. -/
  | bypass
  /-- IDCODE (R503): TAP IDCODE reads 0x1641_6793. -/
  | idcode
  /-- SAMPLE_PRELOAD (R503): TAP SAMPLE/PRELOAD instruction. -/
  | samplePreload
  /-- EXTEST (R503): TAP EXTEST, available with permission or in reset or held failure. -/
  | extest
  /-- CLAMP (R503): TAP CLAMP instruction. -/
  | clamp
  /-- HIGHZ (R503): TAP HIGHZ instruction. -/
  | highz
  /-- DBG_TOKEN (R501): TAP DBG_TOKEN shifts in a debug token for checking. -/
  | dbgToken (t : List Byte)
  /-- TAP_DBG_NONCE (R503): TAP DBG_NONCE shifts out the debug nonce. -/
  | tapDbgNonce
  /-- DBG_ACCESS (R503): TAP DBG_ACCESS performs register accesses as master 0x7000. -/
  | dbgAccess (a : RegAcc)
  /-- DBG_RESET (R503): TAP DBG_RESET causes a MODULE reset with cause DEBUG. -/
  | dbgReset
  /-- LEAK_CLEAR (R482): cool_leak_n returns high after a leak, which clears the leak cause and starts the 20 ms before start-up restarts. -/
  | leakClear
  /-- DRAY_BURST_RESPONSE (R329): A dray burst is performed at its target or its read response is written, and its read credit returns. -/
  | drayBurstResponse (c : Fin 64) (k : Fin 8) (u i : Nat)
  /-- MATRIX_FILL_END (R226): A matrix entry ends its fill at cycle 199, or later after a delay or replay, and releases the dray writes to its rows held under R226. -/
  | matrixFillEnd (c : Fin 64) (half : Bool) (cycles : Nat)
  /-- SUPPLY_WARNING_CLEARS (R470): A supply stays above its warning threshold plus the margin for 1 ms, leaves warning and clears its RAIL_WARN bit. -/
  | supplyWarningClears (n : Fin 22) (mv : Nat)
  /-- REFCLK_LOSS (R39): pcie_refclk1, sf_refclk or the always-on oscillator is lost or returns, which updates CLK.REFCLK_STAT and counts in REFCLK_LOSS. -/
  | refclkLoss (which : Fin 3) (present : Bool)
  /-- VERIFY_COMPLETE (R494): Verification of an image received by PLDM firmware update finishes, and the ostler sends VerifyComplete. -/
  | verifyComplete
  deriving DecidableEq, Repr

end Sys2Proof
end

