-- ==== Sys2Proof/Config.lean ====
section
/-! DEFINITION. What the spec leaves open and the machine goes on with: free values, constants without a body, so
that a claim about the model holds whatever they are. Each is applied to what it may depend on, or to the counter
`tick` of the state for a fresh value. -/
namespace Sys2Proof.Config
open Sys2Proof.Machine

/-- Cycles that domain `d` counts in idle step number `n` (R26: a counter counts its own domain's cycles, and no
row of the table is a clock tick). -/
opaque elapsed : Nat → Nat → Nat

/-- Skew of domain `d` in snapshot number `n`, in cycles around the common instant (R30): 0, 1 or 2, less 1. -/
opaque snapSkew : Nat → Nat → Fin 3

/-- A byte that the spec leaves open, by its device physical address and the number of the event that left it. -/
opaque freeByte : Nat → Nat → Byte

/-- A word that the spec leaves open, numbered by the counter `tick`. -/
opaque freeWord : Nat → BitVec 64

/-- Whether the last request of a coupled write asks for a notification, by peer and output sequence number: no rule says
what sets NOTIFY (R417, R428). -/
opaque notifies : Nat → Nat → Bool

/-- Whether a fused multiply-add of zero, infinity and a quiet NaN sets INVALID: IEEE 754-2019 leaves it to the
implementation, and R195 only refers to it. -/
opaque fmaQuietInvalid : Bool

/-- What a vector group whose registers run past v31 holds there (VXDOT's vs1, which R203 leaves unchecked). -/
opaque beyondVreg : Nat → BitVec 32768

/-- vdd_rake in mV of the operating points between the lowest and the highest (R466). -/
opaque pointMv : Nat → Nat

/-- The module's identity number in fuses (R508), its MCTP endpoint UUID (R488), and the digests that it reports: of the
certificate chain (0), the ROM (1) and the two public keys (3, 4) (R493). -/
opaque deviceId : BitVec 64
opaque uuid : BitVec 128
opaque digest : Nat → Nat

/-- The SHA-256 of an image, by its bytes (R493). -/
opaque imageDigest : List (Nat × BitVec 8) → Nat

/-- What the check of an image slot finds, by the bytes that updates have written there (R494). -/
opaque imageCheck : List (Nat × BitVec 8) → ImageCheck

/-- Where the 64 B body lies in the bytes of a debug token, which no rule states, and whether the token's signature verifies
over it under a key whose hash the fuses hold (R501). -/
opaque tokenBody : List (BitVec 8) → List (BitVec 8)
opaque tokenSigned : List (BitVec 8) → Bool

/-- The SHA-256 of the module configuration, by its items ILV, TID and CAP_MGMT_BOOT (R493). -/
opaque cfgDigest : Nat → Nat → Nat → Nat

/-- The identity key (R498): its 60 B public key, and the certificate chain of slot 0, by the key that it binds. -/
opaque identityKey : Vector (BitVec 8) 60
opaque certificate : Vector (BitVec 8) 60 → List (BitVec 8)

/-- The parts of a signature (R498): the top-level signature over the public key of bottom tree `t`, that key, and the
bottom-level signature with index `i` over the data signed. -/
opaque topSignature : Nat → Vector (BitVec 8) 1772
opaque bottomKey : Nat → Vector (BitVec 8) 56
opaque bottomSignature : Nat → List Nat → Vector (BitVec 8) 1452

/-- Bytes of a post image that lie in the stack `s`, at a tick: the layout of an image is left open (R444; log entry 104). -/
opaque imageBytes : Nat → Nat → Nat

/-- The 32 B in which an entry of the event log lies in flash: its stamp, its code and its detail, in a layout that no rule
states (R507). -/
opaque logBytes : EvtEntry → Vector (BitVec 64) 4

/-- The mailbox buffer after GET_INFO, word `i`, by the versions of slots A and B, in a layout that no rule states, and the
bytes that it fills (R505). -/
opaque infoWord : Nat → Nat → Nat → BitVec 64
opaque infoLen : Fin 2049

end Sys2Proof.Config
end

