-- ==== Sys2Proof/Machine/Keys.lean ====
section
/-! DEFINITION. The BAR0 offsets of the registers, by name (the page bases of R54 and the offsets of each page's
register table), and the places of their fields. -/
namespace Sys2Proof.Machine

/-- The base of a page in the register space (R54). -/
def pageBase : PageKind → Nat → Nat
  | .glob, _ => 0x00000000
  | .mbox, _ => 0x00001000
  | .pwr, _ => 0x00002000
  | .cool, _ => 0x00003000
  | .stage, _ => 0x00004000
  | .shunt, _ => 0x00005000
  | .xlat, _ => 0x00006000
  | .fault, _ => 0x00007000
  | .inval, _ => 0x00008000
  | .time, _ => 0x00009000
  | .sec, _ => 0x0000A000
  | .func, f => 0x00010000 + f * 0x1000
  | .coach, c => 0x01000000 + c * 0x10000
  | .vec, c => 0x01001000 + c * 0x10000
  | .mtx, c => 0x01002000 + c * 0x10000
  | .cmem, c => 0x01003000 + c * 0x10000
  | .dray, c => 0x01004000 + c * 0x10000
  | .tlb, c => 0x01005000 + c * 0x10000
  | .tally, t => 0x01006000 + (t / 2) * 0x10000 + (t % 2) * 0x1000
  | .depot, s => 0x02000000 + s * 0x1000
  | .hbm, s => 0x02100000 + s * 0x1000
  | .link, p => 0x03000000 + p * 0x1000
  | .couple, k => 0x03010000 + k * 0x1000
  | .hostif, _ => 0x03800000
  | .clk, _ => 0x03C00000
  | .rst, _ => 0x03C01000
  | .doorbell, q => 0x04000000 + q * 0x1000

namespace K

abbrev timeSnapSeq : Nat := pageBase .time 0 + 0x100
abbrev timeSnapRun : Nat := pageBase .time 0 + 0x108
abbrev timeSnapEpoch (i : Nat) : Nat := pageBase .time 0 + 0x120 + 8 * i
abbrev timeEpoch (i : Nat) : Nat := pageBase .time 0 + 0x140 + 8 * i
abbrev timeSnapCnt (i : Nat) : Nat := pageBase .time 0 + 0x200 + 8 * i
abbrev timeSnapLat (i : Nat) : Nat := pageBase .time 0 + 0x400 + 8 * i
abbrev clkStraps : Nat := pageBase .clk 0 + 0x100
abbrev clkClkValid : Nat := pageBase .clk 0 + 0x108
abbrev clkRefclkStat : Nat := pageBase .clk 0 + 0x110
abbrev clkRefclkLoss : Nat := pageBase .clk 0 + 0x118
abbrev rstResetCause : Nat := pageBase .rst 0 + 0x100
abbrev rstBootStat : Nat := pageBase .rst 0 + 0x108
abbrev rstResetCount : Nat := pageBase .rst 0 + 0x110
abbrev rstLastResetStamp : Nat := pageBase .rst 0 + 0x118
/-- PAGE_ID of the page at base `b` (R57). -/
abbrev pageId (b : Nat) : Nat := b + 0x00
/-- PAGE_CAP of the page at base `b` (R57). -/
abbrev pageCap (b : Nat) : Nat := b + 0x08
/-- PAGE_CTL of the page at base `b` (R57). -/
abbrev pageCtl (b : Nat) : Nat := b + 0x10
/-- PAGE_STAT of the page at base `b` (R57). -/
abbrev pageStat (b : Nat) : Nat := b + 0x18
/-- PAGE_CMD of the page at base `b` (R57). -/
abbrev pageCmd (b : Nat) : Nat := b + 0x20
/-- PAGE_CMD_STAT of the page at base `b` (R57). -/
abbrev pageCmdStat (b : Nat) : Nat := b + 0x28
/-- PAGE_EVT of the page at base `b` (R57). -/
abbrev pageEvt (b : Nat) : Nat := b + 0x30
/-- PAGE_EVT_EN of the page at base `b` (R57). -/
abbrev pageEvtEn (b : Nat) : Nat := b + 0x38
/-- PAGE_ERR_HEAD of the page at base `b` (R57). -/
abbrev pageErrHead (b : Nat) : Nat := b + 0x40
/-- PAGE_ERR_CNT of the page at base `b` (R57). -/
abbrev pageErrCnt (b : Nat) : Nat := b + 0x48
/-- PAGE_ACCESS of the page at base `b` (R57). -/
abbrev pageAccess (b : Nat) : Nat := b + 0x50
/-- PAGE_CHOCK of the page at base `b` (R57). -/
abbrev pageChock (b : Nat) : Nat := b + 0x58
/-- PAGE_GEN of the page at base `b` (R57). -/
abbrev pageGen (b : Nat) : Nat := b + 0x60
/-- PAGE_ERR_ADDR of the page at base `b` (R57). -/
abbrev pageErrAddr (b : Nat) : Nat := b + 0x68
/-- PAGE_ERR_STAMP of the page at base `b` (R57). -/
abbrev pageErrStamp (b : Nat) : Nat := b + 0x70
abbrev globModId : Nat := pageBase .glob 0 + 0x100
abbrev globModCap : Nat := pageBase .glob 0 + 0x108
abbrev globModState : Nat := pageBase .glob 0 + 0x110
abbrev globEvtSum : Nat := pageBase .glob 0 + 0x118
abbrev globScratch (i : Nat) : Nat := pageBase .glob 0 + 0x120 + 8 * i
abbrev coachCtxStat (c i : Nat) : Nat := pageBase .coach c + 0x100 + 8 * i
abbrev coachVown (c : Nat) : Nat := pageBase .coach c + 0x110
abbrev coachVclaimLimit (c : Nat) : Nat := pageBase .coach c + 0x118
abbrev coachDraySide (c : Nat) : Nat := pageBase .coach c + 0x120
abbrev coachEvSet (c : Nat) : Nat := pageBase .coach c + 0x128
abbrev coachEvDrop (c : Nat) : Nat := pageBase .coach c + 0x130
abbrev coachCmAddr (c : Nat) : Nat := pageBase .coach c + 0x138
abbrev coachCmData (c : Nat) : Nat := pageBase .coach c + 0x140
abbrev coachCycle (c : Nat) : Nat := pageBase .coach c + 0x148
abbrev tallyTallyCtl (t : Nat) : Nat := pageBase .tally t + 0x100
abbrev tallyTallyLo (t : Nat) : Nat := pageBase .tally t + 0x108
abbrev tallyTallyHi (t : Nat) : Nat := pageBase .tally t + 0x110
abbrev tallyTallyVreg (t : Nat) : Nat := pageBase .tally t + 0x118
abbrev tallyFlags (t : Nat) : Nat := pageBase .tally t + 0x120
abbrev tallySrSeed (t : Nat) : Nat := pageBase .tally t + 0x128
abbrev tallySrCtrV (t : Nat) : Nat := pageBase .tally t + 0x130
abbrev tallySrCtrM (t : Nat) : Nat := pageBase .tally t + 0x138
abbrev tallySrCtrD (t i : Nat) : Nat := pageBase .tally t + 0x140 + 8 * i
abbrev tallyCntTotal (t : Nat) : Nat := pageBase .tally t + 0x180
abbrev tallyCntZero (t : Nat) : Nat := pageBase .tally t + 0x188
abbrev tallyCntSub (t : Nat) : Nat := pageBase .tally t + 0x190
abbrev tallyCntInf (t : Nat) : Nat := pageBase .tally t + 0x198
abbrev tallyCntNan (t : Nat) : Nat := pageBase .tally t + 0x1A0
abbrev tallyCntFlush (t : Nat) : Nat := pageBase .tally t + 0x1A8
abbrev tallyBin (t i : Nat) : Nat := pageBase .tally t + 0x200 + 8 * i
abbrev vecVqStat (c : Nat) : Nat := pageBase .vec c + 0x100
abbrev vecVstate (c : Nat) : Nat := pageBase .vec c + 0x108
abbrev vecVresume (c : Nat) : Nat := pageBase .vec c + 0x110
abbrev vecVfault (c : Nat) : Nat := pageBase .vec c + 0x118
abbrev vecVfaultAddr (c : Nat) : Nat := pageBase .vec c + 0x120
abbrev vecVdiscard (c : Nat) : Nat := pageBase .vec c + 0x128
abbrev vecVarithCyc (c : Nat) : Nat := pageBase .vec c + 0x130
abbrev vecVmemCyc (c : Nat) : Nat := pageBase .vec c + 0x138
abbrev vecVreplay (c : Nat) : Nat := pageBase .vec c + 0x140
abbrev vecVregSel (c : Nat) : Nat := pageBase .vec c + 0x148
abbrev vecVregData (c : Nat) : Nat := pageBase .vec c + 0x150
abbrev mtxMtxCtl (c : Nat) : Nat := pageBase .mtx c + 0x100
abbrev mtxMtxStat (c : Nat) : Nat := pageBase .mtx c + 0x108
abbrev mtxMfault (c i : Nat) : Nat := pageBase .mtx c + 0x110 + 8 * i
abbrev mtxMrescale (c i : Nat) : Nat := pageBase .mtx c + 0x120 + 8 * i
abbrev mtxMreplay (c : Nat) : Nat := pageBase .mtx c + 0x130
abbrev mtxMdiscard (c : Nat) : Nat := pageBase .mtx c + 0x138
abbrev mtxFillCyc (c : Nat) : Nat := pageBase .mtx c + 0x140
abbrev mtxCellSteps (c : Nat) : Nat := pageBase .mtx c + 0x148
abbrev cmemQpwr (c : Nat) : Nat := pageBase .cmem c + 0x100
abbrev cmemPart (c i : Nat) : Nat := pageBase .cmem c + 0x108 + 8 * i
abbrev cmemRowsRd (c : Nat) : Nat := pageBase .cmem c + 0x148
abbrev cmemRowsWr (c : Nat) : Nat := pageBase .cmem c + 0x150
abbrev cmemBankWait (c : Nat) : Nat := pageBase .cmem c + 0x158
abbrev cmemObufSel (c : Nat) : Nat := pageBase .cmem c + 0x160
abbrev cmemObufData (c : Nat) : Nat := pageBase .cmem c + 0x168
abbrev depotSplit (s : Nat) : Nat := pageBase .depot s + 0x100
abbrev depotPfCtl (s : Nat) : Nat := pageBase .depot s + 0x108
abbrev depotBootCtl (s : Nat) : Nat := pageBase .depot s + 0x110
abbrev depotHits (s : Nat) : Nat := pageBase .depot s + 0x118
abbrev depotMisses (s : Nat) : Nat := pageBase .depot s + 0x120
abbrev depotBootHits (s : Nat) : Nat := pageBase .depot s + 0x128
abbrev depotPfIssued (s : Nat) : Nat := pageBase .depot s + 0x130
abbrev depotPfUsed (s : Nat) : Nat := pageBase .depot s + 0x138
abbrev depotWritebacks (s : Nat) : Nat := pageBase .depot s + 0x140
abbrev depotTrkArmed (s : Nat) : Nat := pageBase .depot s + 0x148
abbrev depotParityFixed (s : Nat) : Nat := pageBase .depot s + 0x150
abbrev depotHeldReq (s : Nat) : Nat := pageBase .depot s + 0x158
abbrev drayStreamStat (c i : Nat) : Nat := pageBase .dray c + 0x100 + 8 * i
abbrev drayStreamErr (c i : Nat) : Nat := pageBase .dray c + 0x140 + 8 * i
abbrev drayBytesRd (c : Nat) : Nat := pageBase .dray c + 0x180
abbrev drayBytesWr (c : Nat) : Nat := pageBase .dray c + 0x188
abbrev drayCreditWait (c : Nat) : Nat := pageBase .dray c + 0x190
abbrev drayFreightWait (c : Nat) : Nat := pageBase .dray c + 0x198
abbrev hbmHbmCfg (s : Nat) : Nat := pageBase .hbm s + 0x100
abbrev hbmScrubCtl (s : Nat) : Nat := pageBase .hbm s + 0x108
abbrev hbmScrubPos (s : Nat) : Nat := pageBase .hbm s + 0x110
abbrev hbmCrcRetry (s : Nat) : Nat := pageBase .hbm s + 0x118
abbrev hbmCrcErr (s : Nat) : Nat := pageBase .hbm s + 0x120
abbrev hbmRdBytes (s : Nat) : Nat := pageBase .hbm s + 0x128
abbrev hbmWrBytes (s : Nat) : Nat := pageBase .hbm s + 0x130
abbrev hbmScrubPasses (s : Nat) : Nat := pageBase .hbm s + 0x138
abbrev xlatAsidTbl : Nat := pageBase .xlat 0 + 0x100
abbrev xlatWalks : Nat := pageBase .xlat 0 + 0x108
abbrev xlatWalkReads : Nat := pageBase .xlat 0 + 0x110
abbrev xlatTcHits : Nat := pageBase .xlat 0 + 0x118
abbrev xlatTcMisses : Nat := pageBase .xlat 0 + 0x120
abbrev xlatOrWalks : Nat := pageBase .xlat 0 + 0x128
abbrev xlatAdvUsed : Nat := pageBase .xlat 0 + 0x130
abbrev faultQBase : Nat := pageBase .fault 0 + 0x100
abbrev faultQCtl : Nat := pageBase .fault 0 + 0x108
abbrev faultQTail : Nat := pageBase .fault 0 + 0x110
abbrev faultQHead : Nat := pageBase .fault 0 + 0x118
abbrev faultOpen : Nat := pageBase .fault 0 + 0x120
abbrev faultSeqNext : Nat := pageBase .fault 0 + 0x128
abbrev faultOpenView : Nat := pageBase .fault 0 + 0x130
abbrev faultFaults : Nat := pageBase .fault 0 + 0x138
abbrev faultCoalesced : Nat := pageBase .fault 0 + 0x140
abbrev faultWaitFull : Nat := pageBase .fault 0 + 0x148
abbrev faultAdvLost : Nat := pageBase .fault 0 + 0x150
abbrev invalSlot : Nat := pageBase .inval 0 + 0x100
abbrev invalFifoStat : Nat := pageBase .inval 0 + 0x108
abbrev invalLastAcc : Nat := pageBase .inval 0 + 0x110
abbrev invalLastDone : Nat := pageBase .inval 0 + 0x118
abbrev invalDoneCount : Nat := pageBase .inval 0 + 0x120
abbrev invalBadDesc : Nat := pageBase .inval 0 + 0x128
abbrev invalLostCpl : Nat := pageBase .inval 0 + 0x130
abbrev invalDrainMax : Nat := pageBase .inval 0 + 0x138
abbrev invalDescIn (i : Nat) : Nat := pageBase .inval 0 + 0x200 + 8 * i
abbrev tlbTlbHits (c : Nat) : Nat := pageBase .tlb c + 0x100
abbrev tlbTlbMisses (c : Nat) : Nat := pageBase .tlb c + 0x108
abbrev tlbFaults (c : Nat) : Nat := pageBase .tlb c + 0x110
abbrev tlbMissWait (c : Nat) : Nat := pageBase .tlb c + 0x118
abbrev tlbOrBase (c i : Nat) : Nat := pageBase .tlb c + 0x180 + 16 * i
abbrev tlbOrCtl (c i : Nat) : Nat := pageBase .tlb c + 0x188 + 16 * i
abbrev shuntShuntCtl : Nat := pageBase .shunt 0 + 0x100
abbrev shuntShuntStat : Nat := pageBase .shunt 0 + 0x108
abbrev shuntCtxDone : Nat := pageBase .shunt 0 + 0x110
abbrev shuntHangRec : Nat := pageBase .shunt 0 + 0x118
abbrev shuntDispatches : Nat := pageBase .shunt 0 + 0x120
abbrev shuntPreempts : Nat := pageBase .shunt 0 + 0x128
abbrev shuntSidings : Nat := pageBase .shunt 0 + 0x130
abbrev shuntCoachCfg (i : Nat) : Nat := pageBase .shunt 0 + 0x200 + 8 * i
abbrev doorbellSqBase (q : Nat) : Nat := pageBase .doorbell q + 0x100
abbrev doorbellQctl (q : Nat) : Nat := pageBase .doorbell q + 0x108
abbrev doorbellSqTail (q : Nat) : Nat := pageBase .doorbell q + 0x110
abbrev doorbellSqHead (q : Nat) : Nat := pageBase .doorbell q + 0x118
abbrev doorbellCqBase (q : Nat) : Nat := pageBase .doorbell q + 0x120
abbrev doorbellCqTail (q : Nat) : Nat := pageBase .doorbell q + 0x128
abbrev doorbellCqHead (q : Nat) : Nat := pageBase .doorbell q + 0x130
abbrev doorbellEntries (q : Nat) : Nat := pageBase .doorbell q + 0x138
abbrev funcMemWin (f : Nat) : Nat := pageBase .func f + 0x100
abbrev funcMemLim (f : Nat) : Nat := pageBase .func f + 0x108
abbrev funcFstat (f : Nat) : Nat := pageBase .func f + 0x110
abbrev funcMemDeny (f : Nat) : Nat := pageBase .func f + 0x118
abbrev hostifLinkStat (i : Nat) : Nat := pageBase .hostif 0 + 0x100 + 8 * i
abbrev hostifHoldLimit : Nat := pageBase .hostif 0 + 0x110
abbrev hostifHeld : Nat := pageBase .hostif 0 + 0x118
abbrev hostifMsixDrop : Nat := pageBase .hostif 0 + 0x120
abbrev hostifMcDrop : Nat := pageBase .hostif 0 + 0x128
abbrev coupleWinCtl (k i : Nat) : Nat := pageBase .couple k + 0x100 + 32 * i
abbrev coupleWinBase (k i : Nat) : Nat := pageBase .couple k + 0x108 + 32 * i
abbrev coupleWinSize (k i : Nat) : Nat := pageBase .couple k + 0x110 + 32 * i
abbrev coupleWinCnt (k i : Nat) : Nat := pageBase .couple k + 0x118 + 32 * i
abbrev couplePeerCtl (k i : Nat) : Nat := pageBase .couple k + 0x900 + 24 * i
abbrev couplePeerMac (k i : Nat) : Nat := pageBase .couple k + 0x908 + 24 * i
abbrev couplePeerOsn (k i : Nat) : Nat := pageBase .couple k + 0x910 + 24 * i
abbrev coupleCplCfg (k : Nat) : Nat := pageBase .couple k + 0xF00
abbrev coupleCplMac (k : Nat) : Nat := pageBase .couple k + 0xF08
abbrev coupleUnknownSrc (k : Nat) : Nat := pageBase .couple k + 0xF10
abbrev coupleDupCnt (k : Nat) : Nat := pageBase .couple k + 0xF18
abbrev linkPortCfg (p : Nat) : Nat := pageBase .link p + 0x100
abbrev linkPortStat (p : Nat) : Nat := pageBase .link p + 0x108
abbrev linkRetries (p : Nat) : Nat := pageBase .link p + 0x110
abbrev linkCrcErr (p : Nat) : Nat := pageBase .link p + 0x118
abbrev linkFecCorr (p : Nat) : Nat := pageBase .link p + 0x120
abbrev linkFecUncorr (p : Nat) : Nat := pageBase .link p + 0x128
abbrev linkTxPkts (p : Nat) : Nat := pageBase .link p + 0x130
abbrev linkRxPkts (p : Nat) : Nat := pageBase .link p + 0x138
abbrev linkTxBytes (p : Nat) : Nat := pageBase .link p + 0x140
abbrev linkRxBytes (p : Nat) : Nat := pageBase .link p + 0x148
abbrev linkCreditWait (p : Nat) : Nat := pageBase .link p + 0x150
abbrev linkFwdPkts (p : Nat) : Nat := pageBase .link p + 0x158
abbrev linkFwdDrop (p : Nat) : Nat := pageBase .link p + 0x160
abbrev linkEthDrop (p : Nat) : Nat := pageBase .link p + 0x168
abbrev stageGuard : Nat := pageBase .stage 0 + 0x100
abbrev stageImgBase : Nat := pageBase .stage 0 + 0x108
abbrev stageLogBase : Nat := pageBase .stage 0 + 0x110
abbrev stageStageLen : Nat := pageBase .stage 0 + 0x118
abbrev stageLogCtl : Nat := pageBase .stage 0 + 0x120
abbrev stageStageStat : Nat := pageBase .stage 0 + 0x128
abbrev stageStageNo : Nat := pageBase .stage 0 + 0x130
abbrev stageTimer : Nat := pageBase .stage 0 + 0x138
abbrev stageLogUsed : Nat := pageBase .stage 0 + 0x140
abbrev stageLastPost : Nat := pageBase .stage 0 + 0x148
abbrev stageLastRb : Nat := pageBase .stage 0 + 0x150
abbrev stageEvtInfo : Nat := pageBase .stage 0 + 0x158
abbrev stageEvtAddr : Nat := pageBase .stage 0 + 0x160
abbrev stageEvtStamp : Nat := pageBase .stage 0 + 0x168
abbrev stageCntA : Nat := pageBase .stage 0 + 0x170
abbrev stageCntB : Nat := pageBase .stage 0 + 0x178
abbrev stageCntC : Nat := pageBase .stage 0 + 0x180
abbrev stageRegDst : Nat := pageBase .stage 0 + 0x188
abbrev stageRegSrc : Nat := pageBase .stage 0 + 0x190
abbrev stageRegCtl : Nat := pageBase .stage 0 + 0x198
abbrev stageRegUsed : Nat := pageBase .stage 0 + 0x1A0
abbrev pwrCap : Nat := pageBase .pwr 0 + 0x100
abbrev pwrRakeLim (i : Nat) : Nat := pageBase .pwr 0 + 0x108 + 8 * i
abbrev pwrSagCfg : Nat := pageBase .pwr 0 + 0x128
abbrev pwrPwrStat : Nat := pageBase .pwr 0 + 0x130
abbrev pwrPModule : Nat := pageBase .pwr 0 + 0x138
abbrev pwrRakeStat (i : Nat) : Nat := pageBase .pwr 0 + 0x140 + 8 * i
abbrev pwrSagCnt : Nat := pageBase .pwr 0 + 0x160
abbrev pwrRailWarn : Nat := pageBase .pwr 0 + 0x168
abbrev pwrEnergy : Nat := pageBase .pwr 0 + 0x170
abbrev coolCoolCfg : Nat := pageBase .cool 0 + 0x100
abbrev coolCoolStat : Nat := pageBase .cool 0 + 0x108
abbrev coolDemand : Nat := pageBase .cool 0 + 0x110
abbrev coolTemps : Nat := pageBase .cool 0 + 0x118
abbrev mboxMbArg : Nat := pageBase .mbox 0 + 0x100
abbrev mboxMbLen : Nat := pageBase .mbox 0 + 0x108
abbrev mboxMbResp : Nat := pageBase .mbox 0 + 0x110
abbrev mboxMbStat : Nat := pageBase .mbox 0 + 0x118
abbrev mboxMbBuf (i : Nat) : Nat := pageBase .mbox 0 + 0x800 + 8 * i
abbrev secSecStat : Nat := pageBase .sec 0 + 0x100
abbrev secDeviceId : Nat := pageBase .sec 0 + 0x108
abbrev secSigUsed : Nat := pageBase .sec 0 + 0x110
end K

namespace F

abbrev timeSnapCntDomain : Fld := ⟨58, 6⟩
abbrev timeSnapCntCount : Fld := ⟨0, 58⟩
abbrev timeSnapLatLatCyc : Fld := ⟨0, 8⟩
abbrev timeSnapLatPeriodPs : Fld := ⟨8, 24⟩
abbrev rstResetCausePor : Fld := ⟨0, 1⟩
abbrev rstResetCauseSag48 : Fld := ⟨1, 1⟩
abbrev rstResetCauseSagRail : Fld := ⟨2, 1⟩
abbrev rstResetCausePerst : Fld := ⟨3, 1⟩
abbrev rstResetCauseCmd : Fld := ⟨4, 1⟩
abbrev rstResetCauseTherm : Fld := ⟨5, 1⟩
abbrev rstResetCauseLeak : Fld := ⟨6, 1⟩
abbrev rstResetCauseOstler : Fld := ⟨7, 1⟩
abbrev rstResetCauseRake : Fld := ⟨8, 1⟩
abbrev rstResetCauseCoach : Fld := ⟨9, 1⟩
abbrev rstResetCauseDebug : Fld := ⟨10, 1⟩
abbrev rstResetCauseLink : Fld := ⟨11, 1⟩
abbrev rstResetCauseRakeId : Fld := ⟨16, 2⟩
abbrev rstResetCauseCoachId : Fld := ⟨18, 6⟩
abbrev rstResetCauseRailId : Fld := ⟨24, 8⟩
abbrev rstBootStatPhase : Fld := ⟨0, 4⟩
abbrev rstBootStatReady : Fld := ⟨4, 1⟩
abbrev rstBootStatImage : Fld := ⟨5, 1⟩
abbrev rstBootStatRecovery : Fld := ⟨6, 1⟩
abbrev rstBootStatCoolHold : Fld := ⟨7, 1⟩
abbrev rstBootStatBootFail : Fld := ⟨8, 1⟩
abbrev rstBootStatRailFail : Fld := ⟨9, 1⟩
abbrev rstBootStatHbmFail : Fld := ⟨10, 1⟩
abbrev rstBootStatCoolFail : Fld := ⟨11, 1⟩
abbrev rstBootStatFailUnit : Fld := ⟨12, 4⟩
abbrev rstBootStatReadyMs : Fld := ⟨32, 32⟩
abbrev pageIdType : Fld := ⟨0, 16⟩
abbrev pageIdInstance : Fld := ⟨16, 16⟩
abbrev pageIdLayout : Fld := ⟨32, 8⟩
abbrev pageCapCmd : Fld := ⟨0, 1⟩
abbrev pageCapLong : Fld := ⟨1, 1⟩
abbrev pageCapStaged : Fld := ⟨2, 1⟩
abbrev pageCapHeld : Fld := ⟨3, 1⟩
abbrev pageCapMasters : Fld := ⟨4, 1⟩
abbrev pageCapNmaster : Fld := ⟨16, 16⟩
abbrev pageCtlEvtVec : Fld := ⟨0, 11⟩
abbrev pageCtlEvtFunc : Fld := ⟨12, 4⟩
abbrev pageCtlEvtOstler : Fld := ⟨16, 1⟩
abbrev pageCtlDiscard : Fld := ⟨17, 1⟩
abbrev pageStatRun : Fld := ⟨0, 1⟩
abbrev pageStatPend : Fld := ⟨1, 1⟩
abbrev pageStatChocked : Fld := ⟨2, 1⟩
abbrev pageStatLastRefused : Fld := ⟨16, 16⟩
abbrev pageStatRefused : Fld := ⟨32, 32⟩
abbrev pageCmdCode : Fld := ⟨0, 8⟩
abbrev pageCmdTag : Fld := ⟨8, 8⟩
abbrev pageCmdArg : Fld := ⟨16, 48⟩
abbrev pageCmdStatBusy : Fld := ⟨0, 1⟩
abbrev pageCmdStatDone : Fld := ⟨1, 1⟩
abbrev pageCmdStatErr : Fld := ⟨8, 8⟩
abbrev pageCmdStatCode : Fld := ⟨16, 8⟩
abbrev pageCmdStatTag : Fld := ⟨24, 8⟩
abbrev pageCmdStatIssuer : Fld := ⟨32, 16⟩
abbrev pageCmdStatProgress : Fld := ⟨48, 10⟩
abbrev pageEvtCmdDone : Fld := ⟨0, 1⟩
abbrev pageEvtRefused : Fld := ⟨1, 1⟩
abbrev pageEvtErrRec : Fld := ⟨2, 1⟩
abbrev pageEvtChock : Fld := ⟨3, 1⟩
abbrev pageEvtStale : Fld := ⟨4, 1⟩
abbrev pageEvtApplied : Fld := ⟨5, 1⟩
abbrev pageEvtBlock : Fld := ⟨16, 48⟩
abbrev pageEvtEnCmdDone : Fld := ⟨0, 1⟩
abbrev pageEvtEnRefused : Fld := ⟨1, 1⟩
abbrev pageEvtEnErrRec : Fld := ⟨2, 1⟩
abbrev pageEvtEnChock : Fld := ⟨3, 1⟩
abbrev pageEvtEnStale : Fld := ⟨4, 1⟩
abbrev pageEvtEnApplied : Fld := ⟨5, 1⟩
abbrev pageEvtEnBlock : Fld := ⟨16, 48⟩
abbrev pageErrHeadValid : Fld := ⟨0, 1⟩
abbrev pageErrHeadOvf : Fld := ⟨1, 1⟩
abbrev pageErrHeadPop : Fld := ⟨2, 1⟩
abbrev pageErrHeadCode : Fld := ⟨8, 8⟩
abbrev pageErrHeadMaster : Fld := ⟨16, 16⟩
abbrev pageErrHeadDetail : Fld := ⟨32, 32⟩
abbrev pageErrCntDepth : Fld := ⟨0, 4⟩
abbrev pageErrCntTotal : Fld := ⟨16, 32⟩
abbrev pageErrCntLost : Fld := ⟨48, 16⟩
abbrev pageAccessFunc : Fld := ⟨0, 16⟩
abbrev pageAccessOstler : Fld := ⟨16, 1⟩
abbrev pageAccessDebug : Fld := ⟨17, 1⟩
abbrev pageAccessSupv : Fld := ⟨18, 1⟩
abbrev pageAccessOwner : Fld := ⟨32, 16⟩
abbrev pageChockChocked : Fld := ⟨0, 1⟩
abbrev pageChockRelease : Fld := ⟨1, 1⟩
abbrev pageChockCause : Fld := ⟨4, 4⟩
abbrev pageChockMaster : Fld := ⟨16, 16⟩
abbrev pageChockPending : Fld := ⟨32, 16⟩
abbrev pageChockReleaseId : Fld := ⟨48, 16⟩
abbrev pageErrAddrAddr : Fld := ⟨0, 64⟩
abbrev pageErrStampStamp : Fld := ⟨0, 64⟩
abbrev globModIdPart : Fld := ⟨0, 16⟩
abbrev globModIdStepping : Fld := ⟨16, 8⟩
abbrev globModIdGen : Fld := ⟨24, 8⟩
abbrev globModCapRakes : Fld := ⟨0, 4⟩
abbrev globModCapCoaches : Fld := ⟨4, 8⟩
abbrev globModCapStacks : Fld := ⟨12, 8⟩
abbrev globModCapPorts : Fld := ⟨20, 4⟩
abbrev globModCapFuncs : Fld := ⟨24, 5⟩
abbrev globModCapHbmGib : Fld := ⟨32, 16⟩
abbrev globModStateReady : Fld := ⟨0, 1⟩
abbrev globModStateHeldFail : Fld := ⟨1, 1⟩
abbrev globModStateRecovery : Fld := ⟨2, 1⟩
abbrev globModStateBifur : Fld := ⟨3, 1⟩
abbrev globModStateStage : Fld := ⟨4, 3⟩
abbrev globModStateLimiter : Fld := ⟨8, 3⟩
abbrev globModStateDbg : Fld := ⟨11, 1⟩
abbrev globEvtSumGlob : Fld := ⟨0, 1⟩
abbrev globEvtSumMbox : Fld := ⟨1, 1⟩
abbrev globEvtSumPwr : Fld := ⟨2, 1⟩
abbrev globEvtSumCool : Fld := ⟨3, 1⟩
abbrev globEvtSumStage : Fld := ⟨4, 1⟩
abbrev globEvtSumShunt : Fld := ⟨5, 1⟩
abbrev globEvtSumXlat : Fld := ⟨6, 1⟩
abbrev globEvtSumFault : Fld := ⟨7, 1⟩
abbrev globEvtSumInval : Fld := ⟨8, 1⟩
abbrev globEvtSumTime : Fld := ⟨9, 1⟩
abbrev globEvtSumSec : Fld := ⟨10, 1⟩
abbrev globEvtSumFunc : Fld := ⟨16, 1⟩
abbrev globEvtSumCoachpg : Fld := ⟨17, 1⟩
abbrev globEvtSumDepot : Fld := ⟨18, 1⟩
abbrev globEvtSumHbm : Fld := ⟨19, 1⟩
abbrev globEvtSumLink : Fld := ⟨20, 1⟩
abbrev globEvtSumCouple : Fld := ⟨21, 1⟩
abbrev globEvtSumHostif : Fld := ⟨22, 1⟩
abbrev globEvtSumClkrst : Fld := ⟨23, 1⟩
abbrev globEvtSumDoorbell : Fld := ⟨24, 1⟩
abbrev globScratchData : Fld := ⟨0, 64⟩
abbrev coachCtxStatPc : Fld := ⟨0, 16⟩
abbrev coachCtxStatState : Fld := ⟨16, 3⟩
abbrev coachCtxStatWait : Fld := ⟨19, 3⟩
abbrev coachCtxStatLvl : Fld := ⟨22, 1⟩
abbrev coachCtxStatBrake : Fld := ⟨23, 1⟩
abbrev coachCtxStatShadow : Fld := ⟨24, 1⟩
abbrev coachCtxStatEvents : Fld := ⟨32, 16⟩
abbrev coachCtxStatTask : Fld := ⟨48, 16⟩
abbrev coachVownOwner : Fld := ⟨0, 2⟩
abbrev coachVownDirty : Fld := ⟨2, 1⟩
abbrev coachVownClaimF : Fld := ⟨3, 1⟩
abbrev coachVownClaimA : Fld := ⟨4, 1⟩
abbrev coachVownTag : Fld := ⟨16, 16⟩
abbrev coachVownLimitHits : Fld := ⟨32, 32⟩
abbrev coachVclaimLimitCycles : Fld := ⟨0, 32⟩
abbrev coachDraySideSide : Fld := ⟨0, 8⟩
abbrev coachEvSetEv : Fld := ⟨0, 12⟩
abbrev coachEvSetSide : Fld := ⟨16, 1⟩
abbrev coachEvDropCount : Fld := ⟨0, 32⟩
abbrev coachCmAddrAddr : Fld := ⟨0, 16⟩
abbrev coachCmDataData : Fld := ⟨0, 64⟩
abbrev coachCycleCount : Fld := ⟨0, 64⟩
abbrev tallyTallyCtlEn : Fld := ⟨0, 1⟩
abbrev tallyTallyCtlMem : Fld := ⟨1, 1⟩
abbrev tallyTallyCtlReg : Fld := ⟨2, 1⟩
abbrev tallyTallyCtlBinShift : Fld := ⟨8, 3⟩
abbrev tallyTallyCtlBinBase : Fld := ⟨16, 12⟩
abbrev tallyTallyLoAddr : Fld := ⟨0, 42⟩
abbrev tallyTallyHiAddr : Fld := ⟨0, 42⟩
abbrev tallyTallyVregMask : Fld := ⟨0, 32⟩
abbrev tallyFlagsInvalid : Fld := ⟨0, 1⟩
abbrev tallyFlagsDivzero : Fld := ⟨1, 1⟩
abbrev tallyFlagsOverflow : Fld := ⟨2, 1⟩
abbrev tallyFlagsUnderflow : Fld := ⟨3, 1⟩
abbrev tallyFlagsInexact : Fld := ⟨4, 1⟩
abbrev tallyFlagsSaturated : Fld := ⟨5, 1⟩
abbrev tallyFlagsFlushed : Fld := ⟨6, 1⟩
abbrev tallySrSeedSeed : Fld := ⟨0, 64⟩
abbrev tallySrCtrVCount : Fld := ⟨0, 64⟩
abbrev tallySrCtrMCount : Fld := ⟨0, 64⟩
abbrev tallySrCtrDCount : Fld := ⟨0, 64⟩
abbrev tallyCntTotalCount : Fld := ⟨0, 48⟩
abbrev tallyCntZeroCount : Fld := ⟨0, 48⟩
abbrev tallyCntSubCount : Fld := ⟨0, 48⟩
abbrev tallyCntInfCount : Fld := ⟨0, 48⟩
abbrev tallyCntNanCount : Fld := ⟨0, 48⟩
abbrev tallyCntFlushCount : Fld := ⟨0, 48⟩
abbrev tallyBinCount : Fld := ⟨0, 48⟩
abbrev vecVqStatDepth : Fld := ⟨0, 4⟩
abbrev vecVqStatArith : Fld := ⟨4, 1⟩
abbrev vecVqStatMem : Fld := ⟨5, 1⟩
abbrev vecVqStatHeldSh : Fld := ⟨6, 1⟩
abbrev vecVqStatHeadWord : Fld := ⟨16, 16⟩
abbrev vecVstateVl : Fld := ⟨0, 17⟩
abbrev vecVstateFmt : Fld := ⟨17, 6⟩
abbrev vecVstateLg : Fld := ⟨23, 2⟩
abbrev vecVstateVctl : Fld := ⟨32, 32⟩
abbrev vecVresumeVresume : Fld := ⟨0, 32⟩
abbrev vecVfaultDetail : Fld := ⟨0, 8⟩
abbrev vecVfaultWord : Fld := ⟨8, 16⟩
abbrev vecVfaultIndex : Fld := ⟨24, 17⟩
abbrev vecVfaultIdxValid : Fld := ⟨41, 1⟩
abbrev vecVfaultValid : Fld := ⟨42, 1⟩
abbrev vecVfaultAddrAddr : Fld := ⟨0, 64⟩
abbrev vecVdiscardCount : Fld := ⟨0, 32⟩
abbrev vecVarithCycCount : Fld := ⟨0, 64⟩
abbrev vecVmemCycCount : Fld := ⟨0, 64⟩
abbrev vecVreplayCount : Fld := ⟨0, 32⟩
abbrev vecVregSelReg : Fld := ⟨0, 5⟩
abbrev vecVregSelMask : Fld := ⟨5, 1⟩
abbrev vecVregSelWord : Fld := ⟨6, 9⟩
abbrev vecVregDataData : Fld := ⟨0, 64⟩
abbrev mtxMtxCtlSplit : Fld := ⟨0, 1⟩
abbrev mtxMtxCtlOvfF : Fld := ⟨1, 1⟩
abbrev mtxMtxCtlOvfA : Fld := ⟨2, 1⟩
abbrev mtxMtxStatSplit : Fld := ⟨0, 1⟩
abbrev mtxMtxStatInflF : Fld := ⟨1, 3⟩
abbrev mtxMtxStatInflA : Fld := ⟨4, 3⟩
abbrev mtxMtxStatHold : Fld := ⟨7, 1⟩
abbrev mtxMtxStatReplay : Fld := ⟨8, 1⟩
abbrev mtxMtxStatStopped : Fld := ⟨9, 1⟩
abbrev mtxMtxStatStopHalf : Fld := ⟨10, 1⟩
abbrev mtxMfaultDetail : Fld := ⟨0, 8⟩
abbrev mtxMfaultDesc : Fld := ⟨8, 16⟩
abbrev mtxMfaultHalf : Fld := ⟨24, 1⟩
abbrev mtxMfaultValid : Fld := ⟨25, 1⟩
abbrev mtxMrescaleOldS : Fld := ⟨0, 12⟩
abbrev mtxMrescaleNewS : Fld := ⟨16, 12⟩
abbrev mtxMrescaleCount : Fld := ⟨32, 32⟩
abbrev mtxMreplayCount : Fld := ⟨0, 32⟩
abbrev mtxMdiscardCount : Fld := ⟨0, 32⟩
abbrev mtxFillCycCount : Fld := ⟨0, 64⟩
abbrev mtxCellStepsCount : Fld := ⟨0, 64⟩
abbrev cmemQpwrOn : Fld := ⟨0, 4⟩
abbrev cmemQpwrReady : Fld := ⟨4, 4⟩
abbrev cmemPartBase : Fld := ⟨0, 13⟩
abbrev cmemPartLim : Fld := ⟨16, 13⟩
abbrev cmemPartTask : Fld := ⟨32, 16⟩
abbrev cmemPartValid : Fld := ⟨63, 1⟩
abbrev cmemRowsRdCount : Fld := ⟨0, 64⟩
abbrev cmemRowsWrCount : Fld := ⟨0, 64⟩
abbrev cmemBankWaitCount : Fld := ⟨0, 64⟩
abbrev cmemObufSelBuf : Fld := ⟨0, 2⟩
abbrev cmemObufSelWord : Fld := ⟨2, 15⟩
abbrev cmemObufDataData : Fld := ⟨0, 64⟩
abbrev depotSplitA : Fld := ⟨0, 4⟩
abbrev depotSplitCways : Fld := ⟨4, 5⟩
abbrev depotSplitPendA : Fld := ⟨12, 4⟩
abbrev depotPfCtlEn : Fld := ⟨0, 1⟩
abbrev depotPfCtlDepth : Fld := ⟨1, 4⟩
abbrev depotBootCtlEn : Fld := ⟨0, 1⟩
abbrev depotHitsCount : Fld := ⟨0, 64⟩
abbrev depotMissesCount : Fld := ⟨0, 64⟩
abbrev depotBootHitsCount : Fld := ⟨0, 64⟩
abbrev depotPfIssuedCount : Fld := ⟨0, 64⟩
abbrev depotPfUsedCount : Fld := ⟨0, 64⟩
abbrev depotWritebacksCount : Fld := ⟨0, 64⟩
abbrev depotTrkArmedCount : Fld := ⟨0, 9⟩
abbrev depotParityFixedCount : Fld := ⟨0, 64⟩
abbrev depotHeldReqCount : Fld := ⟨0, 16⟩
abbrev drayStreamStatQueued : Fld := ⟨0, 3⟩
abbrev drayStreamStatActive : Fld := ⟨3, 1⟩
abbrev drayStreamStatError : Fld := ⟨4, 1⟩
abbrev drayStreamStatGated : Fld := ⟨5, 1⟩
abbrev drayStreamStatGate : Fld := ⟨16, 12⟩
abbrev drayStreamStatRow : Fld := ⟨32, 16⟩
abbrev drayStreamStatDesc : Fld := ⟨48, 16⟩
abbrev drayStreamErrReason : Fld := ⟨0, 8⟩
abbrev drayStreamErrDesc : Fld := ⟨8, 16⟩
abbrev drayStreamErrValid : Fld := ⟨24, 1⟩
abbrev drayBytesRdCount : Fld := ⟨0, 64⟩
abbrev drayBytesWrCount : Fld := ⟨0, 64⟩
abbrev drayCreditWaitCount : Fld := ⟨0, 64⟩
abbrev drayFreightWaitCount : Fld := ⟨0, 64⟩
abbrev hbmHbmCfgIlv : Fld := ⟨0, 1⟩
abbrev hbmHbmCfgRake : Fld := ⟨4, 2⟩
abbrev hbmHbmCfgGbps : Fld := ⟨16, 16⟩
abbrev hbmScrubCtlShare : Fld := ⟨0, 10⟩
abbrev hbmScrubCtlPatrol : Fld := ⟨16, 1⟩
abbrev hbmScrubCtlPatrolS : Fld := ⟨32, 16⟩
abbrev hbmScrubPosAddr : Fld := ⟨0, 36⟩
abbrev hbmCrcRetryCount : Fld := ⟨0, 64⟩
abbrev hbmCrcErrCount : Fld := ⟨0, 64⟩
abbrev hbmRdBytesCount : Fld := ⟨0, 64⟩
abbrev hbmWrBytesCount : Fld := ⟨0, 64⟩
abbrev hbmScrubPassesCount : Fld := ⟨0, 64⟩
abbrev xlatAsidTblEn : Fld := ⟨0, 1⟩
abbrev xlatAsidTblHost : Fld := ⟨1, 1⟩
abbrev xlatAsidTblAddr : Fld := ⟨15, 49⟩
abbrev xlatWalksCount : Fld := ⟨0, 64⟩
abbrev xlatWalkReadsCount : Fld := ⟨0, 64⟩
abbrev xlatTcHitsCount : Fld := ⟨0, 64⟩
abbrev xlatTcMissesCount : Fld := ⟨0, 64⟩
abbrev xlatOrWalksCount : Fld := ⟨0, 64⟩
abbrev xlatAdvUsedCount : Fld := ⟨0, 9⟩
abbrev faultQBaseHost : Fld := ⟨0, 1⟩
abbrev faultQBaseAddr : Fld := ⟨12, 52⟩
abbrev faultQCtlEn : Fld := ⟨0, 1⟩
abbrev faultQCtlLog2size : Fld := ⟨1, 4⟩
abbrev faultQTailIndex : Fld := ⟨0, 16⟩
abbrev faultQHeadIndex : Fld := ⟨0, 16⟩
abbrev faultOpenCount : Fld := ⟨0, 7⟩
abbrev faultOpenViewSeq : Fld := ⟨32, 32⟩
abbrev faultSeqNextSeq : Fld := ⟨0, 32⟩
abbrev faultOpenViewCoaches : Fld := ⟨0, 64⟩
abbrev faultFaultsCount : Fld := ⟨0, 64⟩
abbrev faultCoalescedCount : Fld := ⟨0, 64⟩
abbrev faultWaitFullCount : Fld := ⟨0, 64⟩
abbrev faultAdvLostCount : Fld := ⟨0, 64⟩
abbrev invalSlotSlot : Fld := ⟨0, 16⟩
abbrev invalFifoStatDepth : Fld := ⟨0, 9⟩
abbrev invalFifoStatStall : Fld := ⟨9, 1⟩
abbrev invalLastAccSeq : Fld := ⟨0, 32⟩
abbrev invalLastDoneSeq : Fld := ⟨0, 32⟩
abbrev invalDoneCountCount : Fld := ⟨0, 64⟩
abbrev invalBadDescCount : Fld := ⟨0, 64⟩
abbrev invalLostCplCount : Fld := ⟨0, 64⟩
abbrev invalDrainMaxNs : Fld := ⟨0, 32⟩
abbrev invalDescInWord : Fld := ⟨0, 64⟩
abbrev tlbTlbHitsCount : Fld := ⟨0, 64⟩
abbrev tlbTlbMissesCount : Fld := ⟨0, 64⟩
abbrev tlbFaultsCount : Fld := ⟨0, 64⟩
abbrev tlbMissWaitCount : Fld := ⟨0, 64⟩
abbrev tlbOrBaseVa : Fld := ⟨0, 57⟩
abbrev tlbOrCtlEn : Fld := ⟨0, 1⟩
abbrev tlbOrCtlAdv : Fld := ⟨1, 1⟩
abbrev tlbOrCtlLead : Fld := ⟨2, 3⟩
abbrev tlbOrCtlSpan : Fld := ⟨16, 16⟩
abbrev tlbOrCtlStep : Fld := ⟨32, 32⟩
abbrev shuntShuntCtlEn : Fld := ⟨0, 1⟩
abbrev shuntShuntCtlMix : Fld := ⟨1, 1⟩
abbrev shuntShuntCtlSlice : Fld := ⟨16, 16⟩
abbrev shuntShuntStatHeld : Fld := ⟨0, 12⟩
abbrev shuntShuntStatWaiting : Fld := ⟨12, 12⟩
abbrev shuntShuntStatResident : Fld := ⟨24, 10⟩
abbrev shuntShuntStatSided : Fld := ⟨34, 10⟩
abbrev shuntShuntStatPostHold : Fld := ⟨44, 1⟩
abbrev shuntCtxDoneResult : Fld := ⟨0, 32⟩
abbrev shuntCtxDoneFail : Fld := ⟨32, 1⟩
abbrev shuntHangRecCoach : Fld := ⟨0, 6⟩
abbrev shuntHangRecSide : Fld := ⟨6, 1⟩
abbrev shuntHangRecPc : Fld := ⟨16, 16⟩
abbrev shuntHangRecCause : Fld := ⟨32, 16⟩
abbrev shuntHangRecTask : Fld := ⟨48, 16⟩
abbrev shuntDispatchesCount : Fld := ⟨0, 64⟩
abbrev shuntPreemptsCount : Fld := ⟨0, 64⟩
abbrev shuntSidingsCount : Fld := ⟨0, 64⟩
abbrev shuntCoachCfgEn : Fld := ⟨0, 1⟩
abbrev shuntCoachCfgFenced : Fld := ⟨1, 1⟩
abbrev shuntCoachCfgRowLo : Fld := ⟨16, 13⟩
abbrev shuntCoachCfgCmLo : Fld := ⟨32, 16⟩
abbrev doorbellSqBaseAddr : Fld := ⟨12, 52⟩
abbrev doorbellQctlEn : Fld := ⟨0, 1⟩
abbrev doorbellQctlSqLog2 : Fld := ⟨1, 4⟩
abbrev doorbellQctlCqLog2 : Fld := ⟨5, 4⟩
abbrev doorbellQctlPrioFloor : Fld := ⟨9, 2⟩
abbrev doorbellQctlPriv : Fld := ⟨11, 1⟩
abbrev doorbellQctlAsidAny : Fld := ⟨12, 1⟩
abbrev doorbellQctlAsid : Fld := ⟨16, 12⟩
abbrev doorbellQctlFunc : Fld := ⟨28, 4⟩
abbrev doorbellQctlVec : Fld := ⟨32, 11⟩
abbrev doorbellSqTailIndex : Fld := ⟨0, 16⟩
abbrev doorbellSqHeadIndex : Fld := ⟨0, 16⟩
abbrev doorbellCqBaseAddr : Fld := ⟨12, 52⟩
abbrev doorbellCqTailIndex : Fld := ⟨0, 16⟩
abbrev doorbellCqHeadIndex : Fld := ⟨0, 16⟩
abbrev doorbellEntriesCount : Fld := ⟨0, 64⟩
abbrev funcMemWinEn : Fld := ⟨0, 1⟩
abbrev funcMemWinBase : Fld := ⟨16, 26⟩
abbrev funcMemLimLim : Fld := ⟨16, 26⟩
abbrev funcFstatLink : Fld := ⟨0, 1⟩
abbrev funcFstatVf : Fld := ⟨1, 1⟩
abbrev funcFstatBme : Fld := ⟨2, 1⟩
abbrev funcFstatPresent : Fld := ⟨3, 1⟩
abbrev funcFstatMsixSize : Fld := ⟨16, 12⟩
abbrev funcMemDenyCount : Fld := ⟨0, 64⟩
abbrev hostifLinkStatUp : Fld := ⟨0, 1⟩
abbrev hostifLinkStatGen : Fld := ⟨1, 3⟩
abbrev hostifLinkStatWidth : Fld := ⟨4, 5⟩
abbrev hostifLinkStatFlit : Fld := ⟨9, 1⟩
abbrev hostifHoldLimitMs : Fld := ⟨0, 32⟩
abbrev hostifHeldCount : Fld := ⟨0, 32⟩
abbrev hostifMsixDropCount : Fld := ⟨0, 64⟩
abbrev hostifMcDropCount : Fld := ⟨0, 64⟩
abbrev coupleWinCtlV : Fld := ⟨0, 1⟩
abbrev coupleWinCtlR : Fld := ⟨1, 1⟩
abbrev coupleWinCtlW : Fld := ⟨2, 1⟩
abbrev coupleWinCtlRclass : Fld := ⟨3, 2⟩
abbrev coupleWinCtlNen : Fld := ⟨5, 1⟩
abbrev coupleWinCtlNside : Fld := ⟨6, 1⟩
abbrev coupleWinCtlNcoach : Fld := ⟨7, 6⟩
abbrev coupleWinCtlPeerAny : Fld := ⟨13, 1⟩
abbrev coupleWinCtlPeer : Fld := ⟨16, 10⟩
abbrev coupleWinCtlNasid : Fld := ⟨32, 12⟩
abbrev coupleWinBaseBase : Fld := ⟨16, 26⟩
abbrev coupleWinSizePages : Fld := ⟨0, 28⟩
abbrev coupleWinCntServed : Fld := ⟨0, 32⟩
abbrev coupleWinCntDenied : Fld := ⟨32, 32⟩
abbrev couplePeerCtlV : Fld := ⟨0, 1⟩
abbrev couplePeerCtlEth : Fld := ⟨1, 1⟩
abbrev couplePeerCtlPorts : Fld := ⟨2, 10⟩
abbrev couplePeerCtlHops : Fld := ⟨12, 3⟩
abbrev couplePeerCtlRoute : Fld := ⟨16, 16⟩
abbrev couplePeerCtlAddr : Fld := ⟨32, 16⟩
abbrev couplePeerMacMac : Fld := ⟨0, 48⟩
abbrev couplePeerMacPcp : Fld := ⟨48, 3⟩
abbrev couplePeerMacVid : Fld := ⟨51, 12⟩
abbrev couplePeerMacVlan : Fld := ⟨63, 1⟩
abbrev couplePeerOsnTxOsn : Fld := ⟨0, 32⟩
abbrev couplePeerOsnRxOsn : Fld := ⟨32, 32⟩
abbrev coupleCplCfgEn : Fld := ⟨0, 1⟩
abbrev coupleCplCfgAddr : Fld := ⟨16, 16⟩
abbrev coupleCplCfgEtype : Fld := ⟨32, 16⟩
abbrev coupleCplCfgTmo : Fld := ⟨48, 16⟩
abbrev coupleCplMacMac : Fld := ⟨0, 48⟩
abbrev coupleCplMacRto : Fld := ⟨48, 16⟩
abbrev coupleUnknownSrcCount : Fld := ⟨0, 64⟩
abbrev coupleDupCntCount : Fld := ⟨0, 64⟩
abbrev linkPortCfgMode : Fld := ⟨0, 1⟩
abbrev linkPortCfgRate : Fld := ⟨1, 1⟩
abbrev linkPortCfgPfc : Fld := ⟨2, 1⟩
abbrev linkPortStatUp : Fld := ⟨0, 1⟩
abbrev linkPortStatTraining : Fld := ⟨1, 1⟩
abbrev linkPortStatLock : Fld := ⟨4, 4⟩
abbrev linkPortStatCause : Fld := ⟨8, 4⟩
abbrev linkPortStatSeen : Fld := ⟨16, 16⟩
abbrev linkRetriesCount : Fld := ⟨0, 64⟩
abbrev linkCrcErrCount : Fld := ⟨0, 64⟩
abbrev linkFecCorrCount : Fld := ⟨0, 64⟩
abbrev linkFecUncorrCount : Fld := ⟨0, 64⟩
abbrev linkTxPktsCount : Fld := ⟨0, 64⟩
abbrev linkRxPktsCount : Fld := ⟨0, 64⟩
abbrev linkTxBytesCount : Fld := ⟨0, 64⟩
abbrev linkRxBytesCount : Fld := ⟨0, 64⟩
abbrev linkCreditWaitCount : Fld := ⟨0, 64⟩
abbrev linkFwdPktsCount : Fld := ⟨0, 64⟩
abbrev linkFwdDropCount : Fld := ⟨0, 64⟩
abbrev linkEthDropCount : Fld := ⟨0, 64⟩
abbrev stageGuardPairs : Fld := ⟨0, 8⟩
abbrev stageImgBaseBase : Fld := ⟨30, 12⟩
abbrev stageLogBaseSize : Fld := ⟨0, 7⟩
abbrev stageLogBaseBase : Fld := ⟨30, 12⟩
abbrev stageStageLenMs : Fld := ⟨0, 16⟩
abbrev stageLogCtlHigh : Fld := ⟨0, 7⟩
abbrev stageLogCtlFullMs : Fld := ⟨16, 16⟩
abbrev stageLogCtlPostWaitMs : Fld := ⟨32, 16⟩
abbrev stageLogCtlNotice : Fld := ⟨48, 1⟩
abbrev stageStageStatState : Fld := ⟨0, 3⟩
abbrev stageStageStatFilling : Fld := ⟨3, 1⟩
abbrev stageStageStatFull : Fld := ⟨4, 1⟩
abbrev stageStageStatBcount : Fld := ⟨5, 2⟩
abbrev stageStageStatPostPend : Fld := ⟨7, 1⟩
abbrev stageStageNoNumber : Fld := ⟨0, 64⟩
abbrev stageTimerMs : Fld := ⟨0, 32⟩
abbrev stageLogUsedBytes : Fld := ⟨0, 37⟩
abbrev stageLastPostUs : Fld := ⟨0, 32⟩
abbrev stageLastPostDirtyMib : Fld := ⟨32, 32⟩
abbrev stageLastRbRestoreUs : Fld := ⟨0, 32⟩
abbrev stageLastRbReexecMs : Fld := ⟨32, 32⟩
abbrev stageEvtInfoCause : Fld := ⟨0, 8⟩
abbrev stageEvtInfoLevel : Fld := ⟨8, 2⟩
abbrev stageEvtInfoUnit : Fld := ⟨16, 16⟩
abbrev stageEvtAddrAddr : Fld := ⟨0, 64⟩
abbrev stageEvtStampStamp : Fld := ⟨0, 64⟩
abbrev stageCntACount : Fld := ⟨0, 64⟩
abbrev stageCntBCount : Fld := ⟨0, 64⟩
abbrev stageCntCCount : Fld := ⟨0, 64⟩
abbrev stageRegDstAddr : Fld := ⟨16, 26⟩
abbrev stageRegSrcSrc : Fld := ⟨0, 64⟩
abbrev stageRegCtlPages : Fld := ⟨0, 28⟩
abbrev stageRegCtlPeer : Fld := ⟨28, 1⟩
abbrev stageRegUsedCount : Fld := ⟨0, 13⟩
abbrev pwrCapCapHost : Fld := ⟨0, 16⟩
abbrev pwrCapCapMgmt : Fld := ⟨16, 16⟩
abbrev pwrRakeLimCapW : Fld := ⟨0, 16⟩
abbrev pwrRakeLimFloorMhz : Fld := ⟨16, 10⟩
abbrev pwrSagCfgWarn48 : Fld := ⟨0, 9⟩
abbrev pwrPwrStatLimiter : Fld := ⟨0, 3⟩
abbrev pwrPwrStatSag : Fld := ⟨3, 1⟩
abbrev pwrPwrStatFloorUnmet : Fld := ⟨4, 4⟩
abbrev pwrPwrStatHbmThrot : Fld := ⟨8, 1⟩
abbrev pwrPwrStatThermWarn : Fld := ⟨9, 1⟩
abbrev pwrPModulePIn : Fld := ⟨0, 16⟩
abbrev pwrPModulePHbm : Fld := ⟨16, 16⟩
abbrev pwrPModulePHub : Fld := ⟨32, 16⟩
abbrev pwrPModulePConv : Fld := ⟨48, 16⟩
abbrev pwrRakeStatClkMhz : Fld := ⟨0, 10⟩
abbrev pwrRakeStatVddMv : Fld := ⟨16, 10⟩
abbrev pwrRakeStatPW : Fld := ⟨32, 10⟩
abbrev pwrRakeStatTj : Fld := ⟨48, 8⟩
abbrev pwrSagCntCount : Fld := ⟨0, 32⟩
abbrev pwrRailWarnRails : Fld := ⟨0, 21⟩
abbrev pwrRailWarnVin48 : Fld := ⟨21, 1⟩
abbrev pwrEnergyMj : Fld := ⟨0, 64⟩
abbrev coolCoolCfgKPpl : Fld := ⟨0, 16⟩
abbrev coolCoolCfgRiseTgt : Fld := ⟨16, 8⟩
abbrev coolCoolCfgFlowMax : Fld := ⟨24, 12⟩
abbrev coolCoolCfgCduAddr : Fld := ⟨40, 7⟩
abbrev coolCoolCfgFfW : Fld := ⟨48, 8⟩
abbrev coolCoolStatFlow : Fld := ⟨0, 16⟩
abbrev coolCoolStatTIn : Fld := ⟨16, 16⟩
abbrev coolCoolStatTOut : Fld := ⟨32, 16⟩
abbrev coolCoolStatLeak : Fld := ⟨48, 1⟩
abbrev coolCoolStatCduOk : Fld := ⟨49, 1⟩
abbrev coolDemandDuty : Fld := ⟨0, 10⟩
abbrev coolDemandFDem : Fld := ⟨16, 12⟩
abbrev coolDemandPPred : Fld := ⟨32, 16⟩
abbrev coolDemandPCool : Fld := ⟨48, 16⟩
abbrev coolTempsTj : Fld := ⟨0, 8⟩
abbrev coolTempsThbm : Fld := ⟨8, 8⟩
abbrev coolTempsTplate : Fld := ⟨16, 8⟩
abbrev coolTempsTripSrc : Fld := ⟨24, 4⟩
abbrev mboxMbArgArg : Fld := ⟨0, 64⟩
abbrev mboxMbLenBytes : Fld := ⟨0, 12⟩
abbrev mboxMbRespResp : Fld := ⟨0, 64⟩
abbrev mboxMbStatUpdate : Fld := ⟨0, 1⟩
abbrev mboxMbStatRecovery : Fld := ⟨1, 1⟩
abbrev mboxMbStatMctpDrop : Fld := ⟨16, 32⟩
abbrev mboxMbBufData : Fld := ⟨0, 64⟩
abbrev secSecStatDbgUnlocked : Fld := ⟨0, 1⟩
abbrev secSecStatDbgPerm : Fld := ⟨1, 4⟩
abbrev secSecStatArb : Fld := ⟨8, 8⟩
abbrev secSecStatIdReady : Fld := ⟨16, 1⟩
abbrev secDeviceIdId : Fld := ⟨0, 64⟩
abbrev secSigUsedNext : Fld := ⟨0, 32⟩
abbrev secSigUsedExhausted : Fld := ⟨32, 1⟩
end F

end Sys2Proof.Machine
end

