-- ==== Sys2Proof/Machine/Regs.lean ====
section
/-! DEFINITION. The register tables of the spec as data: for every page its registers with offset, stride,
count, reset value and the bits of each access and class (R57, R65, R66, R67 and the register tables of each
chapter: R32, R39, R74, R107, R179, R218, R259, R309, R311, R334, R335, R370, R371, R373, R374, R402, R404,
R414, R415, R431, R432, R462, R483, R484, R504, R508). A bit in no mask is read-only or reserved. -/
namespace Sys2Proof.Machine

/-- One register of a page (R57 and the block's table): `rw`, `w1c`, `wo`, `rc` are the bits with that access,
`held` and `staged` the bits of class HELD and STAGED; `idx` counts its copies `stride` bytes apart. -/
structure RegRow where
  off : Nat
  stride : Nat
  idx : Nat
  reset : BitVec 64
  rw : BitVec 64
  w1c : BitVec 64
  wo : BitVec 64
  rc : BitVec 64
  held : BitVec 64
  staged : BitVec 64
  deriving DecidableEq, Repr

/-- The common header (R57). -/
def hdrRows : List RegRow := [
  ⟨0x0000, 8, 1, 0x0, 0, 0, 0, 0, 0, 0⟩ /- PAGE_ID -/,
  ⟨0x0008, 8, 1, 0x0, 0, 0, 0, 0, 0, 0⟩ /- PAGE_CAP -/,
  ⟨0x0010, 8, 1, 0x10000, 0x1F7FF, 0, 0x20000, 0, 0, 0⟩ /- PAGE_CTL -/,
  ⟨0x0018, 8, 1, 0x0, 0, 0, 0, 0, 0, 0⟩ /- PAGE_STAT -/,
  ⟨0x0020, 8, 1, 0x0, 0xFFFFFFFFFFFFFFFF, 0, 0, 0, 0, 0⟩ /- PAGE_CMD -/,
  ⟨0x0028, 8, 1, 0x0, 0, 0, 0, 0, 0, 0⟩ /- PAGE_CMD_STAT -/,
  ⟨0x0030, 8, 1, 0x0, 0, 0xFFFFFFFFFFFF003F, 0, 0, 0, 0⟩ /- PAGE_EVT -/,
  ⟨0x0038, 8, 1, 0x0, 0xFFFFFFFFFFFF003F, 0, 0, 0, 0, 0⟩ /- PAGE_EVT_EN -/,
  ⟨0x0040, 8, 1, 0x0, 0, 0, 0x4, 0, 0, 0⟩ /- PAGE_ERR_HEAD -/,
  ⟨0x0048, 8, 1, 0x0, 0, 0, 0, 0, 0, 0⟩ /- PAGE_ERR_CNT -/,
  ⟨0x0050, 8, 1, 0x0, 0xFFFF0006FFFF, 0, 0, 0, 0, 0⟩ /- PAGE_ACCESS -/,
  ⟨0x0058, 8, 1, 0x0, 0, 0, 0xFFFF000000000002, 0, 0, 0⟩ /- PAGE_CHOCK -/,
  ⟨0x0060, 8, 1, 0x0, 0, 0, 0, 0, 0, 0⟩ /- PAGE_GEN -/,
  ⟨0x0068, 8, 1, 0x0, 0, 0, 0, 0, 0, 0⟩ /- PAGE_ERR_ADDR -/,
  ⟨0x0070, 8, 1, 0x0, 0, 0, 0, 0, 0, 0⟩ /- PAGE_ERR_STAMP -/
]

/-- The GLOB page. -/
def globRows : List RegRow := [
  ⟨0x0100, 8, 1, 0x1A16416, 0, 0, 0, 0, 0, 0⟩ /- MOD_ID -/,
  ⟨0x0108, 8, 1, 0x40010A10404, 0, 0, 0, 0, 0, 0⟩ /- MOD_CAP -/,
  ⟨0x0110, 8, 1, 0x0, 0, 0, 0, 0, 0, 0⟩ /- MOD_STATE -/,
  ⟨0x0118, 8, 1, 0x0, 0, 0, 0, 0, 0, 0⟩ /- EVT_SUM -/,
  ⟨0x0120, 8, 4, 0x0, 0xFFFFFFFFFFFFFFFF, 0, 0, 0, 0, 0⟩ /- SCRATCH -/
]

/-- The MBOX page. -/
def mboxRows : List RegRow := [
  ⟨0x0100, 8, 1, 0x0, 0xFFFFFFFFFFFFFFFF, 0, 0, 0, 0, 0⟩ /- MB_ARG -/,
  ⟨0x0108, 8, 1, 0x0, 0xFFF, 0, 0, 0, 0, 0⟩ /- MB_LEN -/,
  ⟨0x0110, 8, 1, 0x0, 0, 0, 0, 0, 0, 0⟩ /- MB_RESP -/,
  ⟨0x0118, 8, 1, 0x0, 0, 0, 0, 0, 0, 0⟩ /- MB_STAT -/,
  ⟨0x0800, 8, 256, 0x0, 0xFFFFFFFFFFFFFFFF, 0, 0, 0, 0, 0⟩ /- MB_BUF -/
]

/-- The PWR page. -/
def pwrRows : List RegRow := [
  ⟨0x0100, 8, 1, 0xA280A28, 0xFFFFFFFF, 0, 0, 0, 0, 0⟩ /- CAP -/,
  ⟨0x0108, 8, 4, 0x1B8, 0x3FFFFFF, 0, 0, 0, 0, 0⟩ /- RAKE_LIM -/,
  ⟨0x0128, 8, 1, 0x1B8, 0x1FF, 0, 0, 0, 0, 0⟩ /- SAG_CFG -/,
  ⟨0x0130, 8, 1, 0x0, 0, 0, 0, 0, 0, 0⟩ /- PWR_STAT -/,
  ⟨0x0138, 8, 1, 0x0, 0, 0, 0, 0, 0, 0⟩ /- P_MODULE -/,
  ⟨0x0140, 8, 4, 0x0, 0, 0, 0, 0, 0, 0⟩ /- RAKE_STAT -/,
  ⟨0x0160, 8, 1, 0x0, 0, 0, 0, 0, 0, 0⟩ /- SAG_CNT -/,
  ⟨0x0168, 8, 1, 0x0, 0, 0, 0, 0, 0, 0⟩ /- RAIL_WARN -/,
  ⟨0x0170, 8, 1, 0x0, 0, 0, 0, 0, 0, 0⟩ /- ENERGY -/
]

/-- The COOL page. -/
def coolRows : List RegRow := [
  ⟨0x0100, 8, 1, 0x19300258640FA0, 0xFF7F0FFFFFFFFF, 0, 0, 0, 0, 0⟩ /- COOL_CFG -/,
  ⟨0x0108, 8, 1, 0x0, 0, 0, 0, 0, 0, 0⟩ /- COOL_STAT -/,
  ⟨0x0110, 8, 1, 0x0, 0, 0, 0, 0, 0, 0⟩ /- DEMAND -/,
  ⟨0x0118, 8, 1, 0x0, 0, 0, 0, 0, 0, 0⟩ /- TEMPS -/
]

/-- The STAGE page. -/
def stageRows : List RegRow := [
  ⟨0x0100, 8, 1, 0x0, 0xFF, 0, 0, 0, 0xFF, 0⟩ /- GUARD -/,
  ⟨0x0108, 8, 1, 0x0, 0x3FFC0000000, 0, 0, 0, 0x3FFC0000000, 0⟩ /- IMG_BASE -/,
  ⟨0x0110, 8, 1, 0x10, 0x3FFC000007F, 0, 0, 0, 0x3FFC000007F, 0⟩ /- LOG_BASE -/,
  ⟨0x0118, 8, 1, 0xFA0, 0xFFFF, 0, 0, 0, 0, 0xFFFF⟩ /- STAGE_LEN -/,
  ⟨0x0120, 8, 1, 0xA0064004B, 0x1FFFFFFFF007F, 0, 0, 0, 0, 0⟩ /- LOG_CTL -/,
  ⟨0x0128, 8, 1, 0x0, 0, 0, 0, 0, 0, 0⟩ /- STAGE_STAT -/,
  ⟨0x0130, 8, 1, 0x0, 0, 0, 0, 0, 0, 0⟩ /- STAGE_NO -/,
  ⟨0x0138, 8, 1, 0x0, 0, 0, 0, 0, 0, 0⟩ /- TIMER -/,
  ⟨0x0140, 8, 1, 0x0, 0, 0, 0, 0, 0, 0⟩ /- LOG_USED -/,
  ⟨0x0148, 8, 1, 0x0, 0, 0, 0, 0, 0, 0⟩ /- LAST_POST -/,
  ⟨0x0150, 8, 1, 0x0, 0, 0, 0, 0, 0, 0⟩ /- LAST_RB -/,
  ⟨0x0158, 8, 1, 0x0, 0, 0, 0, 0, 0, 0⟩ /- EVT_INFO -/,
  ⟨0x0160, 8, 1, 0x0, 0, 0, 0, 0, 0, 0⟩ /- EVT_ADDR -/,
  ⟨0x0168, 8, 1, 0x0, 0, 0, 0, 0, 0, 0⟩ /- EVT_STAMP -/,
  ⟨0x0170, 8, 1, 0x0, 0, 0, 0, 0, 0, 0⟩ /- CNT_A -/,
  ⟨0x0178, 8, 1, 0x0, 0, 0, 0, 0, 0, 0⟩ /- CNT_B -/,
  ⟨0x0180, 8, 1, 0x0, 0, 0, 0, 0, 0, 0⟩ /- CNT_C -/,
  ⟨0x0188, 8, 1, 0x0, 0x3FFFFFF0000, 0, 0, 0, 0, 0⟩ /- REG_DST -/,
  ⟨0x0190, 8, 1, 0x0, 0xFFFFFFFFFFFFFFFF, 0, 0, 0, 0, 0⟩ /- REG_SRC -/,
  ⟨0x0198, 8, 1, 0x0, 0x1FFFFFFF, 0, 0, 0, 0, 0⟩ /- REG_CTL -/,
  ⟨0x01A0, 8, 1, 0x0, 0, 0, 0, 0, 0, 0⟩ /- REG_USED -/
]

/-- The SHUNT page. -/
def shuntRows : List RegRow := [
  ⟨0x0100, 8, 1, 0x640000, 0xFFFF0003, 0, 0, 0, 0, 0⟩ /- SHUNT_CTL -/,
  ⟨0x0108, 8, 1, 0x0, 0, 0, 0, 0, 0, 0⟩ /- SHUNT_STAT -/,
  ⟨0x0110, 8, 1, 0x0, 0, 0, 0x1FFFFFFFF, 0, 0, 0⟩ /- CTX_DONE -/,
  ⟨0x0118, 8, 1, 0x0, 0, 0, 0, 0, 0, 0⟩ /- HANG_REC -/,
  ⟨0x0120, 8, 1, 0x0, 0, 0, 0, 0, 0, 0⟩ /- DISPATCHES -/,
  ⟨0x0128, 8, 1, 0x0, 0, 0, 0, 0, 0, 0⟩ /- PREEMPTS -/,
  ⟨0x0130, 8, 1, 0x0, 0, 0, 0, 0, 0, 0⟩ /- SIDINGS -/,
  ⟨0x0200, 8, 64, 0x0, 0xFFFF1FFF0001, 0, 0, 0, 0, 0⟩ /- COACH_CFG -/
]

/-- The XLAT page. -/
def xlatRows : List RegRow := [
  ⟨0x0100, 8, 1, 0x0, 0xFFFFFFFFFFFF8003, 0, 0, 0, 0, 0⟩ /- ASID_TBL -/,
  ⟨0x0108, 8, 1, 0x0, 0, 0, 0, 0, 0, 0⟩ /- WALKS -/,
  ⟨0x0110, 8, 1, 0x0, 0, 0, 0, 0, 0, 0⟩ /- WALK_READS -/,
  ⟨0x0118, 8, 1, 0x0, 0, 0, 0, 0, 0, 0⟩ /- TC_HITS -/,
  ⟨0x0120, 8, 1, 0x0, 0, 0, 0, 0, 0, 0⟩ /- TC_MISSES -/,
  ⟨0x0128, 8, 1, 0x0, 0, 0, 0, 0, 0, 0⟩ /- OR_WALKS -/,
  ⟨0x0130, 8, 1, 0x0, 0, 0, 0, 0, 0, 0⟩ /- ADV_USED -/
]

/-- The FAULT page. -/
def faultRows : List RegRow := [
  ⟨0x0100, 8, 1, 0x0, 0xFFFFFFFFFFFFF001, 0, 0, 0, 0xFFFFFFFFFFFFF001, 0⟩ /- Q_BASE -/,
  ⟨0x0108, 8, 1, 0xC, 0x1F, 0, 0, 0, 0x1E, 0⟩ /- Q_CTL -/,
  ⟨0x0110, 8, 1, 0x0, 0, 0, 0, 0, 0, 0⟩ /- Q_TAIL -/,
  ⟨0x0118, 8, 1, 0x0, 0xFFFF, 0, 0, 0, 0, 0⟩ /- Q_HEAD -/,
  ⟨0x0120, 8, 1, 0x0, 0xFFFFFFFF00000000, 0, 0, 0, 0, 0⟩ /- OPEN -/,
  ⟨0x0128, 8, 1, 0x0, 0, 0, 0, 0, 0, 0⟩ /- SEQ_NEXT -/,
  ⟨0x0130, 8, 1, 0x0, 0, 0, 0, 0, 0, 0⟩ /- OPEN_VIEW -/,
  ⟨0x0138, 8, 1, 0x0, 0, 0, 0, 0, 0, 0⟩ /- FAULTS -/,
  ⟨0x0140, 8, 1, 0x0, 0, 0, 0, 0, 0, 0⟩ /- COALESCED -/,
  ⟨0x0148, 8, 1, 0x0, 0, 0, 0, 0, 0, 0⟩ /- WAIT_FULL -/,
  ⟨0x0150, 8, 1, 0x0, 0, 0, 0, 0, 0, 0⟩ /- ADV_LOST -/
]

/-- The INVAL page. -/
def invalRows : List RegRow := [
  ⟨0x0100, 8, 1, 0x0, 0xFFFF, 0, 0, 0, 0, 0⟩ /- SLOT -/,
  ⟨0x0108, 8, 1, 0x0, 0, 0, 0, 0, 0, 0⟩ /- FIFO_STAT -/,
  ⟨0x0110, 8, 1, 0x0, 0, 0, 0, 0, 0, 0⟩ /- LAST_ACC -/,
  ⟨0x0118, 8, 1, 0x0, 0, 0, 0, 0, 0, 0⟩ /- LAST_DONE -/,
  ⟨0x0120, 8, 1, 0x0, 0, 0, 0, 0, 0, 0⟩ /- DONE_COUNT -/,
  ⟨0x0128, 8, 1, 0x0, 0, 0, 0, 0, 0, 0⟩ /- BAD_DESC -/,
  ⟨0x0130, 8, 1, 0x0, 0, 0, 0, 0, 0, 0⟩ /- LOST_CPL -/,
  ⟨0x0138, 8, 1, 0x0, 0, 0, 0, 0, 0, 0⟩ /- DRAIN_MAX -/,
  ⟨0x0200, 8, 4, 0x0, 0, 0, 0xFFFFFFFFFFFFFFFF, 0, 0, 0⟩ /- DESC_IN -/
]

/-- The TIME page. -/
def timeRows : List RegRow := [
  ⟨0x0100, 8, 1, 0x0, 0, 0, 0, 0, 0, 0⟩ /- SNAP_SEQ -/,
  ⟨0x0108, 8, 1, 0x0, 0, 0, 0, 0, 0, 0⟩ /- SNAP_RUN -/,
  ⟨0x0120, 8, 4, 0x0, 0, 0, 0, 0, 0, 0⟩ /- SNAP_EPOCH -/,
  ⟨0x0140, 8, 4, 0x0, 0, 0, 0, 0, 0, 0⟩ /- EPOCH -/,
  ⟨0x0200, 8, 34, 0x0, 0, 0, 0, 0, 0, 0⟩ /- SNAP_CNT -/,
  ⟨0x0400, 8, 34, 0x0, 0, 0, 0, 0, 0, 0⟩ /- SNAP_LAT -/
]

/-- The SEC page. -/
def secRows : List RegRow := [
  ⟨0x0100, 8, 1, 0x0, 0, 0, 0, 0, 0, 0⟩ /- SEC_STAT -/,
  ⟨0x0108, 8, 1, 0x0, 0, 0, 0, 0, 0, 0⟩ /- DEVICE_ID -/,
  ⟨0x0110, 8, 1, 0x0, 0, 0, 0, 0, 0, 0⟩ /- SIG_USED -/
]

/-- The FUNC page. -/
def funcRows : List RegRow := [
  ⟨0x0100, 8, 1, 0x0, 0x3FFFFFF0001, 0, 0, 0, 0, 0⟩ /- MEM_WIN -/,
  ⟨0x0108, 8, 1, 0x0, 0x3FFFFFF0000, 0, 0, 0, 0, 0⟩ /- MEM_LIM -/,
  ⟨0x0110, 8, 1, 0x0, 0, 0, 0, 0, 0, 0⟩ /- FSTAT -/,
  ⟨0x0118, 8, 1, 0x0, 0, 0, 0, 0, 0, 0⟩ /- MEM_DENY -/
]

/-- The COACH page. -/
def coachRows : List RegRow := [
  ⟨0x0100, 8, 2, 0x0, 0, 0, 0, 0, 0, 0⟩ /- CTX_STAT -/,
  ⟨0x0110, 8, 1, 0x0, 0, 0, 0, 0, 0, 0⟩ /- VOWN -/,
  ⟨0x0118, 8, 1, 0xCF850, 0xFFFFFFFF, 0, 0, 0, 0, 0⟩ /- VCLAIM_LIMIT -/,
  ⟨0x0120, 8, 1, 0xF0, 0xFF, 0, 0, 0, 0xFF, 0⟩ /- DRAY_SIDE -/,
  ⟨0x0128, 8, 1, 0x0, 0, 0, 0x10FFF, 0, 0, 0⟩ /- EV_SET -/,
  ⟨0x0130, 8, 1, 0x0, 0, 0, 0, 0xFFFFFFFF, 0, 0⟩ /- EV_DROP -/,
  ⟨0x0138, 8, 1, 0x0, 0xFFFF, 0, 0, 0, 0, 0⟩ /- CM_ADDR -/,
  ⟨0x0140, 8, 1, 0x0, 0xFFFFFFFFFFFFFFFF, 0, 0, 0, 0, 0⟩ /- CM_DATA -/,
  ⟨0x0148, 8, 1, 0x0, 0, 0, 0, 0, 0, 0⟩ /- CYCLE -/
]

/-- The VEC page. -/
def vecRows : List RegRow := [
  ⟨0x0100, 8, 1, 0x0, 0, 0, 0, 0, 0, 0⟩ /- VQ_STAT -/,
  ⟨0x0108, 8, 1, 0x0, 0, 0, 0, 0, 0, 0⟩ /- VSTATE -/,
  ⟨0x0110, 8, 1, 0x0, 0, 0, 0, 0, 0, 0⟩ /- VRESUME -/,
  ⟨0x0118, 8, 1, 0x0, 0, 0x40000000000, 0, 0, 0, 0⟩ /- VFAULT -/,
  ⟨0x0120, 8, 1, 0x0, 0, 0, 0, 0, 0, 0⟩ /- VFAULT_ADDR -/,
  ⟨0x0128, 8, 1, 0x0, 0, 0, 0, 0xFFFFFFFF, 0, 0⟩ /- VDISCARD -/,
  ⟨0x0130, 8, 1, 0x0, 0, 0, 0, 0, 0, 0⟩ /- VARITH_CYC -/,
  ⟨0x0138, 8, 1, 0x0, 0, 0, 0, 0, 0, 0⟩ /- VMEM_CYC -/,
  ⟨0x0140, 8, 1, 0x0, 0, 0, 0, 0xFFFFFFFF, 0, 0⟩ /- VREPLAY -/,
  ⟨0x0148, 8, 1, 0x0, 0x7FFF, 0, 0, 0, 0x7FFF, 0⟩ /- VREG_SEL -/,
  ⟨0x0150, 8, 1, 0x0, 0xFFFFFFFFFFFFFFFF, 0, 0, 0, 0xFFFFFFFFFFFFFFFF, 0⟩ /- VREG_DATA -/
]

/-- The MTX page. -/
def mtxRows : List RegRow := [
  ⟨0x0100, 8, 1, 0x0, 0x7, 0, 0, 0, 0, 0x7⟩ /- MTX_CTL -/,
  ⟨0x0108, 8, 1, 0x0, 0, 0, 0, 0, 0, 0⟩ /- MTX_STAT -/,
  ⟨0x0110, 8, 2, 0x0, 0, 0x2000000, 0, 0, 0, 0⟩ /- MFAULT -/,
  ⟨0x0120, 8, 2, 0x0, 0, 0, 0, 0, 0, 0⟩ /- MRESCALE -/,
  ⟨0x0130, 8, 1, 0x0, 0, 0, 0, 0xFFFFFFFF, 0, 0⟩ /- MREPLAY -/,
  ⟨0x0138, 8, 1, 0x0, 0, 0, 0, 0xFFFFFFFF, 0, 0⟩ /- MDISCARD -/,
  ⟨0x0140, 8, 1, 0x0, 0, 0, 0, 0, 0, 0⟩ /- FILL_CYC -/,
  ⟨0x0148, 8, 1, 0x0, 0, 0, 0, 0, 0, 0⟩ /- CELL_STEPS -/
]

/-- The CMEM page. -/
def cmemRows : List RegRow := [
  ⟨0x0100, 8, 1, 0xFF, 0, 0, 0, 0, 0, 0⟩ /- QPWR -/,
  ⟨0x0108, 8, 8, 0x0, 0x8000FFFF1FFF1FFF, 0, 0, 0, 0, 0⟩ /- PART -/,
  ⟨0x0148, 8, 1, 0x0, 0, 0, 0, 0, 0, 0⟩ /- ROWS_RD -/,
  ⟨0x0150, 8, 1, 0x0, 0, 0, 0, 0, 0, 0⟩ /- ROWS_WR -/,
  ⟨0x0158, 8, 1, 0x0, 0, 0, 0, 0, 0, 0⟩ /- BANK_WAIT -/,
  ⟨0x0160, 8, 1, 0x0, 0x1FFFF, 0, 0, 0, 0x1FFFF, 0⟩ /- OBUF_SEL -/,
  ⟨0x0168, 8, 1, 0x0, 0xFFFFFFFFFFFFFFFF, 0, 0, 0, 0xFFFFFFFFFFFFFFFF, 0⟩ /- OBUF_DATA -/
]

/-- The DRAY page. -/
def drayRows : List RegRow := [
  ⟨0x0100, 8, 8, 0x0, 0, 0, 0, 0, 0, 0⟩ /- STREAM_STAT -/,
  ⟨0x0140, 8, 8, 0x0, 0, 0x1000000, 0, 0, 0, 0⟩ /- STREAM_ERR -/,
  ⟨0x0180, 8, 1, 0x0, 0, 0, 0, 0, 0, 0⟩ /- BYTES_RD -/,
  ⟨0x0188, 8, 1, 0x0, 0, 0, 0, 0, 0, 0⟩ /- BYTES_WR -/,
  ⟨0x0190, 8, 1, 0x0, 0, 0, 0, 0, 0, 0⟩ /- CREDIT_WAIT -/,
  ⟨0x0198, 8, 1, 0x0, 0, 0, 0, 0, 0, 0⟩ /- FREIGHT_WAIT -/
]

/-- The TLB page. -/
def tlbRows : List RegRow := [
  ⟨0x0100, 8, 1, 0x0, 0, 0, 0, 0, 0, 0⟩ /- TLB_HITS -/,
  ⟨0x0108, 8, 1, 0x0, 0, 0, 0, 0, 0, 0⟩ /- TLB_MISSES -/,
  ⟨0x0110, 8, 1, 0x0, 0, 0, 0, 0, 0, 0⟩ /- FAULTS -/,
  ⟨0x0118, 8, 1, 0x0, 0, 0, 0, 0, 0, 0⟩ /- MISS_WAIT -/,
  ⟨0x0180, 16, 8, 0x0, 0x1FFFFFFFFFFFFFF, 0, 0, 0, 0, 0⟩ /- OR_BASE -/,
  ⟨0x0188, 16, 8, 0x0, 0xFFFFFFFFFFFF001F, 0, 0, 0, 0, 0⟩ /- OR_CTL -/
]

/-- The TALLY page. -/
def tallyRows : List RegRow := [
  ⟨0x0100, 8, 1, 0xFC20100, 0xFFF0707, 0, 0, 0, 0, 0xFFF0707⟩ /- TALLY_CTL -/,
  ⟨0x0108, 8, 1, 0x0, 0x3FFFFFFFFFF, 0, 0, 0, 0, 0x3FFFFFFFFFF⟩ /- TALLY_LO -/,
  ⟨0x0110, 8, 1, 0x0, 0x3FFFFFFFFFF, 0, 0, 0, 0, 0x3FFFFFFFFFF⟩ /- TALLY_HI -/,
  ⟨0x0118, 8, 1, 0x0, 0xFFFFFFFF, 0, 0, 0, 0, 0xFFFFFFFF⟩ /- TALLY_VREG -/,
  ⟨0x0120, 8, 1, 0x0, 0, 0x7F, 0, 0, 0, 0⟩ /- FLAGS -/,
  ⟨0x0128, 8, 1, 0x0, 0xFFFFFFFFFFFFFFFF, 0, 0, 0, 0, 0xFFFFFFFFFFFFFFFF⟩ /- SR_SEED -/,
  ⟨0x0130, 8, 1, 0x0, 0xFFFFFFFFFFFFFFFF, 0, 0, 0, 0, 0xFFFFFFFFFFFFFFFF⟩ /- SR_CTR_V -/,
  ⟨0x0138, 8, 1, 0x0, 0xFFFFFFFFFFFFFFFF, 0, 0, 0, 0, 0xFFFFFFFFFFFFFFFF⟩ /- SR_CTR_M -/,
  ⟨0x0140, 8, 8, 0x0, 0xFFFFFFFFFFFFFFFF, 0, 0, 0, 0, 0xFFFFFFFFFFFFFFFF⟩ /- SR_CTR_D -/,
  ⟨0x0180, 8, 1, 0x0, 0, 0, 0, 0, 0, 0⟩ /- CNT_TOTAL -/,
  ⟨0x0188, 8, 1, 0x0, 0, 0, 0, 0, 0, 0⟩ /- CNT_ZERO -/,
  ⟨0x0190, 8, 1, 0x0, 0, 0, 0, 0, 0, 0⟩ /- CNT_SUB -/,
  ⟨0x0198, 8, 1, 0x0, 0, 0, 0, 0, 0, 0⟩ /- CNT_INF -/,
  ⟨0x01A0, 8, 1, 0x0, 0, 0, 0, 0, 0, 0⟩ /- CNT_NAN -/,
  ⟨0x01A8, 8, 1, 0x0, 0, 0, 0, 0, 0, 0⟩ /- CNT_FLUSH -/,
  ⟨0x0200, 8, 64, 0x0, 0, 0, 0, 0, 0, 0⟩ /- BIN -/
]

/-- The DEPOT page. -/
def depotRows : List RegRow := [
  ⟨0x0100, 8, 1, 0x100, 0, 0, 0, 0, 0, 0⟩ /- SPLIT -/,
  ⟨0x0108, 8, 1, 0x7, 0x1F, 0, 0, 0, 0, 0⟩ /- PF_CTL -/,
  ⟨0x0110, 8, 1, 0x1, 0x1, 0, 0, 0, 0, 0⟩ /- BOOT_CTL -/,
  ⟨0x0118, 8, 1, 0x0, 0, 0, 0, 0, 0, 0⟩ /- HITS -/,
  ⟨0x0120, 8, 1, 0x0, 0, 0, 0, 0, 0, 0⟩ /- MISSES -/,
  ⟨0x0128, 8, 1, 0x0, 0, 0, 0, 0, 0, 0⟩ /- BOOT_HITS -/,
  ⟨0x0130, 8, 1, 0x0, 0, 0, 0, 0, 0, 0⟩ /- PF_ISSUED -/,
  ⟨0x0138, 8, 1, 0x0, 0, 0, 0, 0, 0, 0⟩ /- PF_USED -/,
  ⟨0x0140, 8, 1, 0x0, 0, 0, 0, 0, 0, 0⟩ /- WRITEBACKS -/,
  ⟨0x0148, 8, 1, 0x0, 0, 0, 0, 0, 0, 0⟩ /- TRK_ARMED -/,
  ⟨0x0150, 8, 1, 0x0, 0, 0, 0, 0, 0, 0⟩ /- PARITY_FIXED -/,
  ⟨0x0158, 8, 1, 0x0, 0, 0, 0, 0, 0, 0⟩ /- HELD_REQ -/
]

/-- The HBM page. -/
def hbmRows : List RegRow := [
  ⟨0x0100, 8, 1, 0x2EE00000, 0, 0, 0, 0, 0, 0⟩ /- HBM_CFG -/,
  ⟨0x0108, 8, 1, 0xA, 0xFFFF000103FF, 0, 0, 0, 0, 0⟩ /- SCRUB_CTL -/,
  ⟨0x0110, 8, 1, 0x0, 0, 0, 0, 0, 0, 0⟩ /- SCRUB_POS -/,
  ⟨0x0118, 8, 1, 0x0, 0, 0, 0, 0, 0, 0⟩ /- CRC_RETRY -/,
  ⟨0x0120, 8, 1, 0x0, 0, 0, 0, 0, 0, 0⟩ /- CRC_ERR -/,
  ⟨0x0128, 8, 1, 0x0, 0, 0, 0, 0, 0, 0⟩ /- RD_BYTES -/,
  ⟨0x0130, 8, 1, 0x0, 0, 0, 0, 0, 0, 0⟩ /- WR_BYTES -/,
  ⟨0x0138, 8, 1, 0x0, 0, 0, 0, 0, 0, 0⟩ /- SCRUB_PASSES -/
]

/-- The LINK page. -/
def linkRows : List RegRow := [
  ⟨0x0100, 8, 1, 0x0, 0x7, 0, 0, 0, 0x7, 0⟩ /- PORT_CFG -/,
  ⟨0x0108, 8, 1, 0x0, 0, 0, 0, 0, 0, 0⟩ /- PORT_STAT -/,
  ⟨0x0110, 8, 1, 0x0, 0, 0, 0, 0, 0, 0⟩ /- RETRIES -/,
  ⟨0x0118, 8, 1, 0x0, 0, 0, 0, 0, 0, 0⟩ /- CRC_ERR -/,
  ⟨0x0120, 8, 1, 0x0, 0, 0, 0, 0, 0, 0⟩ /- FEC_CORR -/,
  ⟨0x0128, 8, 1, 0x0, 0, 0, 0, 0, 0, 0⟩ /- FEC_UNCORR -/,
  ⟨0x0130, 8, 1, 0x0, 0, 0, 0, 0, 0, 0⟩ /- TX_PKTS -/,
  ⟨0x0138, 8, 1, 0x0, 0, 0, 0, 0, 0, 0⟩ /- RX_PKTS -/,
  ⟨0x0140, 8, 1, 0x0, 0, 0, 0, 0, 0, 0⟩ /- TX_BYTES -/,
  ⟨0x0148, 8, 1, 0x0, 0, 0, 0, 0, 0, 0⟩ /- RX_BYTES -/,
  ⟨0x0150, 8, 1, 0x0, 0, 0, 0, 0, 0, 0⟩ /- CREDIT_WAIT -/,
  ⟨0x0158, 8, 1, 0x0, 0, 0, 0, 0, 0, 0⟩ /- FWD_PKTS -/,
  ⟨0x0160, 8, 1, 0x0, 0, 0, 0, 0, 0, 0⟩ /- FWD_DROP -/,
  ⟨0x0168, 8, 1, 0x0, 0, 0, 0, 0, 0, 0⟩ /- ETH_DROP -/
]

/-- The COUPLE page. -/
def coupleRows : List RegRow := [
  ⟨0x0100, 32, 64, 0x0, 0xFFF03FF3FFF, 0, 0, 0, 0, 0⟩ /- WIN_CTL -/,
  ⟨0x0108, 32, 64, 0x0, 0x3FFFFFF0000, 0, 0, 0, 0, 0⟩ /- WIN_BASE -/,
  ⟨0x0110, 32, 64, 0x0, 0xFFFFFFF, 0, 0, 0, 0, 0⟩ /- WIN_SIZE -/,
  ⟨0x0118, 32, 64, 0x0, 0, 0, 0, 0, 0, 0⟩ /- WIN_CNT -/,
  ⟨0x0900, 24, 64, 0x0, 0xFFFFFFFF7FFF, 0, 0, 0, 0, 0⟩ /- PEER_CTL -/,
  ⟨0x0908, 24, 64, 0x0, 0xFFFFFFFFFFFFFFFF, 0, 0, 0, 0, 0⟩ /- PEER_MAC -/,
  ⟨0x0910, 24, 64, 0x0, 0, 0, 0, 0, 0, 0⟩ /- PEER_OSN -/,
  ⟨0x0F00, 8, 1, 0x4088B500000000, 0xFFFFFFFFFFFF0001, 0, 0, 0, 0xFFFFFFFF0000, 0⟩ /- CPL_CFG -/,
  ⟨0x0F08, 8, 1, 0x14000000000000, 0xFFFFFFFFFFFFFFFF, 0, 0, 0, 0xFFFFFFFFFFFF, 0⟩ /- CPL_MAC -/,
  ⟨0x0F10, 8, 1, 0x0, 0, 0, 0, 0, 0, 0⟩ /- UNKNOWN_SRC -/,
  ⟨0x0F18, 8, 1, 0x0, 0, 0, 0, 0, 0, 0⟩ /- DUP_CNT -/
]

/-- The HOSTIF page. -/
def hostifRows : List RegRow := [
  ⟨0x0100, 8, 2, 0x0, 0, 0, 0, 0, 0, 0⟩ /- LINK_STAT -/,
  ⟨0x0110, 8, 1, 0x3E8, 0xFFFFFFFF, 0, 0, 0, 0, 0⟩ /- HOLD_LIMIT -/,
  ⟨0x0118, 8, 1, 0x0, 0, 0, 0, 0, 0, 0⟩ /- HELD -/,
  ⟨0x0120, 8, 1, 0x0, 0, 0, 0, 0, 0, 0⟩ /- MSIX_DROP -/,
  ⟨0x0128, 8, 1, 0x0, 0, 0, 0, 0, 0, 0⟩ /- MC_DROP -/
]

/-- The CLK page. -/
def clkRows : List RegRow := [
  ⟨0x0100, 8, 1, 0x0, 0, 0, 0, 0, 0, 0⟩ /- STRAPS -/,
  ⟨0x0108, 8, 1, 0x0, 0, 0, 0, 0, 0, 0⟩ /- CLK_VALID -/,
  ⟨0x0110, 8, 1, 0x0, 0, 0, 0, 0, 0, 0⟩ /- REFCLK_STAT -/,
  ⟨0x0118, 8, 1, 0x0, 0, 0, 0, 0xFFFFFFFFFFFFFFFF, 0, 0⟩ /- REFCLK_LOSS -/
]

/-- The RST page. -/
def rstRows : List RegRow := [
  ⟨0x0100, 8, 1, 0x1, 0, 0xFFF, 0, 0, 0, 0⟩ /- RESET_CAUSE -/,
  ⟨0x0108, 8, 1, 0x1, 0, 0, 0, 0, 0, 0⟩ /- BOOT_STAT -/,
  ⟨0x0110, 8, 1, 0x0, 0, 0, 0, 0, 0, 0⟩ /- RESET_COUNT -/,
  ⟨0x0118, 8, 1, 0x0, 0, 0, 0, 0, 0, 0⟩ /- LAST_RESET_STAMP -/
]

/-- The DOORBELL page. -/
def doorbellRows : List RegRow := [
  ⟨0x0100, 8, 1, 0x0, 0xFFFFFFFFFFFFF000, 0, 0, 0, 0xFFFFFFFFFFFFF000, 0⟩ /- SQ_BASE -/,
  ⟨0x0108, 8, 1, 0x0, 0x7FFFFFF1FFF, 0, 0, 0, 0x1FE, 0⟩ /- QCTL -/,
  ⟨0x0110, 8, 1, 0x0, 0xFFFF, 0, 0, 0, 0, 0⟩ /- SQ_TAIL -/,
  ⟨0x0118, 8, 1, 0x0, 0, 0, 0, 0, 0, 0⟩ /- SQ_HEAD -/,
  ⟨0x0120, 8, 1, 0x0, 0xFFFFFFFFFFFFF000, 0, 0, 0, 0xFFFFFFFFFFFFF000, 0⟩ /- CQ_BASE -/,
  ⟨0x0128, 8, 1, 0x0, 0, 0, 0, 0, 0, 0⟩ /- CQ_TAIL -/,
  ⟨0x0130, 8, 1, 0x0, 0xFFFF, 0, 0, 0, 0, 0⟩ /- CQ_HEAD -/,
  ⟨0x0138, 8, 1, 0x0, 0, 0, 0, 0, 0, 0⟩ /- ENTRIES -/
]

/-- The block registers of a page kind, from offset 0x0100 on. -/
def pageRows : PageKind → List RegRow
  | .glob => globRows
  | .mbox => mboxRows
  | .pwr => pwrRows
  | .cool => coolRows
  | .stage => stageRows
  | .shunt => shuntRows
  | .xlat => xlatRows
  | .fault => faultRows
  | .inval => invalRows
  | .time => timeRows
  | .sec => secRows
  | .func => funcRows
  | .coach => coachRows
  | .vec => vecRows
  | .mtx => mtxRows
  | .cmem => cmemRows
  | .dray => drayRows
  | .tlb => tlbRows
  | .tally => tallyRows
  | .depot => depotRows
  | .hbm => hbmRows
  | .link => linkRows
  | .couple => coupleRows
  | .hostif => hostifRows
  | .clk => clkRows
  | .rst => rstRows
  | .doorbell => doorbellRows

end Sys2Proof.Machine
end

