-- ==== Sys2Proof/Machine/State.lean ====
section
/-! DEFINITION. The state of the part as plain data, and the state after reset. -/
namespace Sys2Proof.Machine

/-- Why the machine stops with a fault. No command of the table stops it: every condition that the spec describes is
an effect on the state. -/
inductive Fault where
  /-- Raised by no command of this model (safe). -/
  | none
  deriving DecidableEq, Repr

/-- Why a command has no meaning. -/
inductive Refusal where
  /-- Raised by an arm of `exec` whose command has no meaning yet (safe: nothing is claimed of it). -/
  | notModelled (mnemonic : String)
  deriving DecidableEq, Repr

/-! ### What crosses the lands (a record of the model's own) -/

/-- Attributes of a request: Relaxed Ordering, ID-Based Ordering, an ECRC (R410). -/
structure TlpAttr where
  relaxed : Bool
  ido : Bool
  ecrc : Bool
  deriving DecidableEq, Repr

/-- A request of the module on a host link (R411): the function whose requester ID it carries. -/
inductive HostReq where
  /-- A posted write. -/
  | write (func : Nat) (addr : Nat) (data : List Byte) (attr : TlpAttr)
  /-- A read of `len` bytes with its tag; `id` names the read that it is a part of. -/
  | read (func : Nat) (addr len id tag : Nat) (attr : TlpAttr)
  deriving DecidableEq, Repr

/-- The Ethernet header of a frame (R422): addresses, priority and VLAN where it is tagged, EtherType. -/
structure EthHead where
  dst : BitVec 48
  src : BitVec 48
  vlan : Option (BitVec 3 × BitVec 12)
  etype : BitVec 16
  deriving DecidableEq, Repr

/-! ### Chapter 1: module, clocks, start-up -/

/-- A clock domain (R18): its 64-bit counter (R26), whether its clock runs, and its period in ps. -/
structure Domain where
  count : W64
  run : Bool
  period : Nat
  deriving DecidableEq, Repr

/-- A snapshot whose strobe has been launched (R29). -/
structure Snap where
  cnt : Vector W64 34
  run : BitVec 34
  epoch : Vector W64 4
  period : Vector Nat 34
  deriving DecidableEq, Repr

/-- The instructions of the TAP (R503). -/
inductive TapInstr where
  | bypass | idcode | sample | extest | clamp | highz | dbgToken | dbgNonce | dbgAccess | dbgReset
  deriving DecidableEq, Repr

/-- Lands, supplies, straps, resets and start-up (R13 to R52). -/
structure Board where
  /-- vstby33 is present (above 3.0 V, not yet below 2.9 V). -/
  vstby33 : Bool
  /-- vin48 is at or above its reset threshold of 40.0 V (R17). -/
  vin48 : Bool
  /-- Main power good: vin48 has been at or above 45.0 V for 1 ms, and has not been absent since (R40). -/
  mainGood : Bool
  /-- The hub rails of step 2 are up (R35, R465). -/
  hubRails : Bool
  /-- The rake, HBM and Selfan PHY rails of step 4 are up (R43, R48, R465). -/
  coreRails : Bool
  perst0N : Bool
  perst1N : Bool
  coolLeakN : Bool
  jtagTrstN : Bool
  strapBifur : Bool
  strapRecN : Bool
  strapAddr : BitVec 3
  /-- Bits as CLK.REFCLK_STAT (R39). -/
  refclk : BitVec 4
  /-- Domain 21 is locked to pcie_refclk1 (R21). -/
  refSel1 : Bool
  /-- Power-on reset is held (R40 step 1). -/
  por : Bool
  /-- Start-up has reached step 2 since power-on reset (R13). -/
  stepTwo : Bool
  /-- CLK.STRAPS: the latched straps (R15, R39). -/
  straps : BitVec 5
  /-- The always-on counter at main power good. -/
  t0 : W64
  /-- MODULE causes that have not cleared (R33). -/
  causes : List ModCause
  /-- Causes, as bits of RST.RESET_CAUSE, of the resets that the event log has not recorded yet (R507). -/
  unlogged : W64
  /-- The module is in MODULE reset. -/
  inReset : Bool
  /-- Step 4: the coolant check passed and the rails ramp (R47). -/
  ramping : Bool
  /-- Held failure state (R48). -/
  heldFail : Bool
  /-- The ROM recovery loader runs (R46, R49). -/
  romLoader : Bool
  /-- The ostler runs an image or the loader. -/
  ostlerUp : Bool
  /-- An OSTLER reset is being recovered from: the ostler re-verifies its image (R33). -/
  ostlerBoot : Bool
  /-- Link l trains or is up: training has begun (R41). -/
  train0 : Bool
  train1 : Bool
  /-- Link l is held in LINK reset by its perst (R33). -/
  link1Held : Bool
  /-- wake_n is asserted (R13). -/
  wake : Bool
  /-- therm_trip_n (R482). -/
  thermTripN : Bool
  /-- The 8-bit instruction register of the TAP, and its boundary-scan register (R503). -/
  tap : Byte
  bsr : W64
  snap : Option Snap
  deriving DecidableEq, Repr

/-! ### Chapter 2: pages -/

/-- An error record (R59). -/
structure ErrRec where
  code : Byte
  master : BitVec 16
  detail : W32
  addr : W64
  stamp : W64
  ovf : Bool
  deriving DecidableEq, Repr

/-- The error queue of one page, oldest record first (R59). -/
structure ErrQ where
  recs : List ErrRec
  total : W32
  lost : BitVec 16
  /-- Records were lost since the last one that entered. -/
  lossy : Bool
  deriving DecidableEq, Repr

/-- A chocked master and the page that records it (R69). -/
structure Chock where
  page : PageId
  master : BitVec 16
  cause : Nat
  addr : W64
  /-- The task that a stream or a context worked for when it was chocked; 0 none. -/
  task : W16
  deriving DecidableEq, Repr

/-! ### Chapters 3 and 4: contexts -/

/-- CTX_STAT.STATE (R107). -/
inductive CtxState where
  | held | running | waiting | stopped | chocked | idle | fenced
  deriving DecidableEq, Repr, Inhabited

/-- CTX_STAT.WAIT (R107). -/
inductive Wait where
  | none | waitev | waituntil | claim | queue | engine | port
  deriving DecidableEq, Repr, Inhabited

/-- A hub stop that a context has been asked for and that waits for its boundary (R127). -/
inductive HubStop where
  /-- The COACH STOP command. -/
  | stop
  /-- A quiesce for a staging post, or the stop of a rollback. -/
  | quiesce
  /-- A switch by the shunter. -/
  | switch
  /-- A switch of aft for a task that waits for the vector engine (R397). -/
  | yield
  /-- The siding of the context's task. -/
  | side
  /-- The end of the context's task (R394). -/
  | ending
  /-- The fence of its coach (R398). -/
  | fence
  deriving DecidableEq, Repr

/-- One bank of a context (R113): the registered stack entries, top first, the spill registers (R86) and the loop
registers (R93). -/
structure Bank where
  ds : List W16
  rs : List W16
  dsb : W16
  dsl : W16
  dsp : W16
  rsb : W16
  rsl : W16
  rsp : W16
  lc : W16
  ls : W16
  le : W16
  deriving DecidableEq, Repr, Inhabited

/-- A deferred fault that is pending (R116, R117). -/
structure DefFault where
  detail : Nat
  info : Vector W16 4
  deriving DecidableEq, Repr

/-- STATUS (R111). -/
structure Status where
  c : Bool
  lvl : Bool
  brake : Bool
  shadow : Bool
  stable : Bool
  df : Bool
  tp : Bool
  deriving DecidableEq, Repr, Inhabited

/-- One context of a coach (R75, R90, R110 to R115). -/
structure Context where
  pc : W16
  st : CtxState
  wait : Wait
  events : W16
  task : W16
  asid : W16
  cbase : W16
  clim : W16
  mbase : W16
  mlim : W16
  status : Status
  main : Bank
  shadow : Bank
  trapBase : W16
  trapRa : W16
  trapSt : W16
  shdRa : W16
  shdSt : W16
  sysRa : W16
  sysSt : W16
  dfRa : W16
  dfSt : W16
  cause : W16
  dfCause : W16
  info : Vector W16 4
  entryEn : W16
  entry : Vector W16 16
  intPend : W16
  intEn : W16
  /-- The stamps at which the six sources became pending (R116). -/
  intStamp : Vector W64 6
  /-- CMP3:CMP2:CMP1:CMP0 (R130). -/
  cmp : W64
  cmpArmed : Bool
  brakeLimit : W16
  /-- The limit of the present BRAKE interval (R128). -/
  limitNow : W16
  /-- A hang report was sent for the present BRAKE interval (R128). -/
  hangSent : Bool
  defMtx : Option DefFault
  defVec : Option DefFault
  defDray : List DefFault
  /-- The sticky matrix status, bits [4:1] of MSTAT (R258). -/
  mstat : W16
  /-- Instructions retired since the last post (R131). -/
  retired : Nat
  /-- The instruction that completed last took the loop rule (R122). -/
  looped : Bool
  /-- Words of control memory that instruction fetch still sees as they were, by physical address (R84). -/
  stale : List (Nat × W16)
  /-- The asynchronous event that has been taken and whose entry waits for the engines' points, with its INFO: nothing more is
  issued (R135). -/
  entering : Option (Nat × W64)
  stopReq : List HubStop
  deriving DecidableEq, Repr, Inhabited

/-- Ownership of the vector engine: COACH.VOWN (R80, R107). -/
structure Vown where
  /-- 0 none, 1 fore, 2 aft, 3 save or restore in progress. -/
  owner : Fin 4
  dirty : Bool
  claimF : Bool
  claimA : Bool
  tag : W16
  limitHits : W32
  /-- Fore's or aft's waiting claim has passed VCLAIM_LIMIT and the event was taken (R81). -/
  limitF : Bool
  limitA : Bool
  /-- VCLAIM_LIMIT as fore's and aft's waiting claim found it (R107). -/
  capF : W32
  capA : W32
  /-- Aft is made to release: it issues no vector instruction (R81). -/
  evict : Bool
  deriving DecidableEq, Repr

/-- STATUS after reset: 0x0012 (R110). -/
def Status.reset : Status :=
  { c := false, lvl := true, brake := false, shadow := false, stable := true, df := false, tp := false }

def Bank.reset : Bank :=
  { ds := [], rs := [], dsb := 0, dsl := 0, dsp := 0, rsb := 0, rsl := 0, rsp := 0, lc := 0, ls := 0, le := 0 }

/-- A context held at the reset vector, physical word 0 (R110, R115). -/
def Context.reset : Context where
  pc := 0
  st := .held
  wait := .none
  events := 0
  task := 0
  asid := 0
  cbase := 0
  clim := 0xFFFF
  mbase := 0
  mlim := 0
  status := Status.reset
  main := Bank.reset
  shadow := Bank.reset
  trapBase := 0xFFC0
  trapRa := 0
  trapSt := 0
  shdRa := 0
  shdSt := 0
  sysRa := 0
  sysSt := 0
  dfRa := 0
  dfSt := 0
  cause := 0
  dfCause := 0
  info := Vector.replicate 4 0
  entryEn := 0
  entry := Vector.replicate 16 0
  intPend := 0
  intEn := 0
  intStamp := Vector.replicate 6 0
  cmp := 0
  cmpArmed := false
  brakeLimit := 0x0028
  limitNow := 0x0028
  hangSent := false
  defMtx := none
  defVec := none
  defDray := []
  mstat := 0
  retired := 0
  looped := false
  stale := []
  entering := none
  stopReq := []

def Vown.reset : Vown :=
  { owner := 0, dirty := false, claimF := false, claimA := false, tag := 0, limitHits := 0, limitF := false,
    limitA := false, capF := 0, capA := 0, evict := false }


/-! ### Chapter 10: drays -/

/-- Where an access goes after translation (R340, R341). -/
inductive Place where
  /-- A device physical address. -/
  | dev (pa : Nat)
  /-- A host address. -/
  | host (addr : Nat)
  /-- A peer's window. -/
  | couple (peer win off : Nat)
  deriving DecidableEq, Repr

/-- A translated access, or a piece of one: its place, the class of its leaf where it has one (R344), its length, and
the number it was issued under (R361, R362). -/
structure XSeg where
  place : Place
  cls : Option Nat
  len : Nat
  ser : Nat
  deriving DecidableEq, Repr

/-- A captured dray descriptor (R323). -/
structure DDesc where
  words : Vector W16 16
  d : W16
  pc : W16
  aft : Bool
  sup : Bool
  /-- Counter value assigned at issue (R170). -/
  sr : W64
  /-- Matrix entries with a lower number were issued before it (R226). -/
  mid : Nat
  deriving DecidableEq, Repr

/-- How far a burst has come. -/
inductive BurstSt where
  /-- It is to be translated and sent. -/
  | planned
  /-- It has been sent toward its target. -/
  | sent
  /-- It has been performed, or its read answered. -/
  | done
  deriving DecidableEq, Repr

/-- A burst (R326): where it starts in the address space of its side, its length, what it was translated to when it was sent,
and the data that its read has brought. -/
structure DPiece where
  a : Int
  len : Nat
  st : BurstSt
  seg : Option XSeg
  data : List Byte
  deriving DecidableEq, Repr

/-- A part of a row that is read and then written (R326): a converted row is one, else what the bursts of both sides have in
common. With its row, byte offset in the row and length, the bursts of both sides, and the data to write. -/
structure DUnit where
  id : Nat
  row : Nat
  off : Nat
  len : Nat
  rd : List DPiece
  wr : List DPiece
  /-- Its reads are all here; its data is to be written. -/
  writing : Bool
  data : List Byte
  /-- The row of the scale array in core memory that it writes, when it writes one (R325). -/
  scale : Option Nat
  /-- The translation of one of its bursts has failed: it goes no further, and its row is moved again (R327). -/
  failed : Bool
  deriving DecidableEq, Repr

/-- One stream of a dray (R323 to R328). -/
structure DStream where
  /-- Queued descriptors, and the running one at the head when `active`. -/
  q : List DDesc
  active : Bool
  /-- The descriptor at the head has been started; it stands at `row` when it is not active (R327). -/
  begun : Bool
  /-- The running descriptor stops at a row boundary (R327). -/
  stopping : Bool
  /-- The running descriptor stopped at a translation fault and its task is to be sided. -/
  faulted : Bool
  err : Bool
  gate : BitVec 12
  /-- The row that is planned next and the byte of it that is; the next free name of a unit. -/
  row : Nat
  off : Nat
  nextId : Nat
  /-- The lowest row whose bursts are not all performed when the descriptor stops (R327). -/
  again : Option Nat
  /-- Where a chock froze it: the unit and the burst of it that violated; earlier transfers complete (R69). -/
  froze : Nat × Nat
  /-- Its next burst has found no credit, no freight dray (R334). -/
  creditWait : Bool
  freightWait : Bool
  /-- OR_BASE and OR_CTL as its running descriptor found them, and whether OR_BASE has been written since (R349). -/
  orNow : W64 × W64
  orSet : Bool
  /-- Bytes of the scale array of a target in core memory that the converted rows have given, by their place in it
  (R325). -/
  scales : SMap Byte
  units : List DUnit
  /-- Flags of the conversions made so far (R175: set at completion). -/
  flags : BitVec 7
  deriving DecidableEq, Repr

def DStream.reset : DStream where
  q := []
  active := false
  begun := false
  stopping := false
  faulted := false
  err := false
  gate := 0
  row := 0
  off := 0
  nextId := 0
  again := none
  froze := (0, 0)
  creditWait := false
  freightWait := false
  orNow := (0, 0)
  orSet := false
  scales := []
  units := []
  flags := 0

/-- A dray: its eight streams. -/
abbrev Dray := Vector DStream 8


/-! ### Chapter 6: the vector engine -/

/-- VL, VTYPE and VCTL as an entry found them (R181 to R183). -/
structure VCfg where
  vl : BitVec 17
  vtype : W16
  vctl : W32
  deriving DecidableEq, Repr

/-- An element that has been sent and not yet answered: its number, its pieces, and the data that has come from host or peer
memory for a load, by piece. -/
structure VFlight where
  ix : Nat
  segs : List XSeg
  got : List (Nat × List Byte)
  deriving DecidableEq, Repr

/-- An entry of the vector queue with its captured operands (R97, R181). -/
structure VEntry where
  /-- The instruction word. -/
  word : W16
  desc : W16
  /-- Configuration word or 16-bit scalar. -/
  x : W16
  /-- 64-bit scalar, address or stride, where the form has one. -/
  f : W64
  a : W64
  t : W64
  /-- Logical address of the issuing instruction, and the issuing side. -/
  pc : W16
  aft : Bool
  /-- The issuer's level. -/
  sup : Bool
  /-- The stochastic-rounding counter value assigned at issue, when it rounds with SR (R170). -/
  sr : Option W64
  started : Bool
  done : Bool
  /-- The configuration that a memory entry found when it first started (R189, R190). -/
  cfg : Option VCfg
  /-- First element not yet sent. -/
  next : Nat
  /-- Elements sent and not yet answered. -/
  flight : List VFlight
  /-- It sends no further element and stops once those sent are answered (R215). -/
  halt : Bool
  deriving DecidableEq, Repr

/-- The vector state (R80, R181). -/
structure VecEngine where
  v : Vector (BitVec 32768) 32
  msk : Vector (BitVec 8192) 8
  vl : BitVec 17
  vtype : W16
  vctl : W32
  vresume : W32
  q : List VEntry
  deriving DecidableEq, Repr, Inhabited

/-- The vector state after reset (R184). -/
def VecEngine.reset : VecEngine where
  v := Vector.replicate 32 0
  msk := Vector.replicate 8 0
  vl := 0
  vtype := 0
  vctl := 0
  vresume := 0
  q := []



/-! ### Chapter 7: the matrix array -/

/-- How far an entry has come (R231). -/
inductive MStage where
  /-- In its context's queue. -/
  | queued
  /-- Started; its Prepare waits for an overlapping entry (R235), or has not ended. -/
  | waiting
  /-- Prepared, or to be filled again by a replay (R233): its fill has not ended. -/
  | filling
  /-- Its fill has ended. -/
  | filled
  /-- Closed: it will commit. -/
  | closed
  deriving DecidableEq, Repr

/-- A cell: its accumulator in units of the entry's scale, its special states, and whether a term was beyond 2^159. -/
structure MCell where
  acc : Int
  nan : Bool
  pinf : Bool
  ninf : Bool
  beyond : Bool
  deriving DecidableEq, Repr

/-- An element of a C or E tile as it enters a window: special, or W at scale 2^S. -/
inductive MTerm where
  | nan (signaling : Bool)
  | inf (neg : Bool)
  | fin (neg : Bool) (m : Nat) (e : Int)
  deriving DecidableEq, Repr

/-- What has been read of a C or E tile (R511): word 0 of its tag row, the special map's codes and the used elements in their
order, and the first row not yet read. -/
structure TileBuf where
  tag : Nat
  maps : List Nat
  vals : List Nat
  next : Nat
  deriving DecidableEq, Repr

def TileBuf.empty : TileBuf := { tag := 0, maps := [], vals := [], next := 0 }

/-- A matrix entry (R221, R227). -/
structure MEntry where
  /-- Names the entry, in the order of issue over all coaches (the model's own). -/
  id : Nat
  aft : Bool
  /-- Logical address of the descriptor and of the MISSUE. -/
  d : W16
  pc : W16
  words : Vector W16 8
  /-- The level of the issuer. -/
  sup : Bool
  /-- Counter value assigned at issue (R170). -/
  sr : W64
  stage : MStage
  half : Bool
  /-- Used C elements, row by row, as they were read or forwarded. -/
  c : List MTerm
  cParts : Nat
  cTag : Int
  /-- The entry whose D this one takes as its C (R235). -/
  fwd : Option Nat
  /-- Its C has been forwarded: it reads no C row (R235). -/
  cGiven : Bool
  S : Int
  /-- The C tile and the E tile as far as they have been read. -/
  cBuf : TileBuf
  eBuf : TileBuf
  /-- Fill cycles that have passed (R231). -/
  cyc : Nat
  /-- The largest hi over the A and B elements that the fill has read (R239). -/
  hA : Option Int
  hB : Option Int
  cells : List MCell
  inexact : Bool
  /-- An operand of its last fill or its C was invalid (R147, R245). -/
  invalid : Bool
  parts2 : Nat
  replays : Nat
  /-- A replay has not passed its Close. -/
  replaying : Bool
  rescaled : Bool
  saturated : Bool
  deriving DecidableEq, Repr

/-- The matrix array of a coach: unstarted entries in issue order, started ones in start order. -/
structure MtxArray where
  queue : List MEntry
  arr : List MEntry
  /-- Fore was served that often in a row over a waiting aft (R77). -/
  passed : Nat
  /-- Half 0 (or the whole array) and half 1 stopped after a third residue mismatch (R250). -/
  stop0 : Bool
  stop1 : Bool
  deriving DecidableEq, Repr

def MtxArray.reset : MtxArray where
  queue := []
  arr := []
  passed := 0
  stop0 := false
  stop1 := false


/-! ### Device memory -/

/-- What one byte of device memory holds: a value, or a byte that the spec leaves open, named by the address and the
event that left it (its value is `Config.freeByte src n`). -/
inductive MByte where
  | val (b : Byte)
  | free (src n : Nat)
  deriving DecidableEq, Repr

/-- A range whose layout the spec leaves open, and the event that wrote it. -/
structure Veil where
  lo : Nat
  n : Nat
  mark : Nat
  deriving DecidableEq, Repr



/-! ### Chapter 9: the depot, chapter 10: the stacks -/

/-- A valid cache line of a slice (R289, R293): stack-local line number, way, and whether a prefetch brought it. -/
structure DLine where
  line : Nat
  way : Nat
  dirty : Bool
  pf : Bool
  deriving DecidableEq, Repr

/-- A line in the boot, oldest first (R296). -/
structure BLine where
  line : Nat
  dirty : Bool
  /-- A prefetch brought it and no demand access has read it (R311). -/
  pf : Bool
  deriving DecidableEq, Repr

/-- A fetch from the stack that is outstanding, or waits for a free entry (R295): its line, whether a write has been merged
into it, whether a prefetch asked for it, its class and the master that did. -/
structure DFetch where
  line : Nat
  dirty : Bool
  pf : Bool
  cls : Nat
  master : BitVec 16
  /-- A write of the whole line has allocated it meanwhile (R293): what arrives is discarded. -/
  drop : Bool
  /-- It has met a block whose CRC fails, and waits for its repair (R317). -/
  held : Bool
  deriving DecidableEq, Repr

/-- A stride tracker (R297): how many reads have trained it (1, 2, 3 armed). -/
structure Tracker where
  master : BitVec 16
  last : Nat
  stride : Int
  reads : Nat
  deriving DecidableEq, Repr

/-- A notification of an inbound write: the peer that it came from, the window, and WIN_CTL as the request passed its check (R428,
R430). -/
structure Notice where
  peer : Nat
  win : Nat
  ctl : W64
  deriving DecidableEq, Repr

/-- An access that a SPLIT command holds (R299, R300), or that waits for a repair (R307, R317), with its class and mark. -/
structure HeldReq where
  master : BitVec 16
  cls : Nat
  addr : Nat
  write : Bool
  data : List Byte
  len : Nat
  noalloc : Bool
  /-- It is a target write that its input has already been logged for: the class of its window, and what it
  notifies once it is performed (R332, R443). -/
  target : Bool
  rc : Option Nat
  notify : Option Notice
  /-- The transfer whose target write it is (R332, R367). -/
  xfer : Option Nat
  /-- A parity error holds it (R307). -/
  parity : Bool
  deriving DecidableEq, Repr

/-- A depot slice beside its cache: the tags, the pseudo-LRU bits of each set (15 of a tree over 16 ways), the boot, the
fetches, the trackers (most recent first), and what a running command still has to write back. -/
structure Slice where
  lines : List DLine
  plru : SMap (BitVec 15)
  boot : List BLine
  fetch : List DFetch
  /-- Misses that wait for a free entry, oldest first (R295). -/
  miss : List DFetch
  trk : List Tracker
  held : List HeldReq
  /-- Write-backs of the running command that are outstanding have been raised to class 3 (R299). -/
  raised : Bool
  /-- Sets that the running SPLIT or FLUSH has walked (R299, R301). -/
  walk : Nat
  deriving DecidableEq, Repr

def Slice.reset : Slice where
  lines := []
  plru := []
  boot := []
  fetch := []
  miss := []
  trk := []
  held := []
  raised := false
  walk := 0


/-! ### A coach -/

/-- One coach: its two contexts, the ownership of its vector engine, and its engines (R75). -/
structure Coach where
  fore : Context
  aft : Context
  vown : Vown
  vec : VecEngine
  mtx : MtxArray
  dray : Dray
  deriving DecidableEq, Repr

def Coach.reset : Coach where
  fore := Context.reset
  aft := Context.reset
  vown := Vown.reset
  vec := VecEngine.reset
  mtx := MtxArray.reset
  dray := Vector.replicate 8 DStream.reset

/-- An event that a SENDEV, a dray descriptor or a transfer has sent to a context and that is not delivered yet (R101).
`asid` and `sup` are the sender's; `drop` is the coach that counts a discarded send. -/
structure Send where
  target : Ctx
  event : Nat
  asid : W16
  sup : Bool
  drop : Fin 64
  deriving DecidableEq, Repr



/-! ### Chapter 12: the shunter -/

/-- What a save area holds of a task beside memory (R389): the control state of its context and engines. The vector
state is kept apart, since it is saved when another task claims the engine (R82). -/
structure Saved where
  /-- Names the free values that the rows hold; while they do, nobody has written there since (R389). -/
  mark : Nat
  ctx : Context
  mtx : List MEntry
  streams : List (Nat × DStream)
  /-- Outrider declarations and the TALLY page except its header, by page offset. -/
  regs : SMap W64
  deriving DecidableEq, Repr, Inhabited

/-- The vector state in a save area (R82, R389). -/
structure VSaved where
  mark : Nat
  eng : VecEngine
  deriving DecidableEq, Repr

inductive TaskState where
  /-- Accepted, not placed (R387). -/
  | waiting
  /-- Its partition is written; it is cleared or its code is read (R388). -/
  | placing
  | ready
  | running
  /-- A switch has been decided: it runs until its boundary (R393). -/
  | leaving
  | sided
  /-- Its coach was fenced and it has not moved yet (R399). -/
  | stranded
  /-- Its coach was reset while it ran there (R134): its state in the coach is gone, and it does not go on. -/
  | lost
  deriving DecidableEq, Repr

/-- A task that the shunter holds (R384 to R393). -/
structure Task where
  handle : W16
  queue : Nat
  /-- Submission index of its entry, the number under which it was taken, and the entry. -/
  index : Nat
  ord : Nat
  words : Vector W64 8
  prio : Nat
  st : TaskState
  /-- Order of acceptance, and since it became ready. -/
  order : Nat
  since : Nat
  /-- Where it is placed: coach, PART, first physical row, CBASE. -/
  coach : Nat
  part : Nat
  row : Nat
  cbase : Nat
  /-- Its side, fixed at the first dispatch (R391). -/
  side : Option Bool
  /-- Hub counter at its dispatch. -/
  disp : W64
  /-- Code bytes read so far, and whether the rows are cleared (R388). -/
  code : Nat
  cleared : Bool
  saved : Option Saved
  vec : Option VSaved
  /-- It is to be ended at its boundary, with status and result (R394). -/
  ending : Option (Nat × W32)
  /-- The task that the switch makes room for. -/
  forTask : Option W16
  /-- A POST reached it before it had a saved image (R383). -/
  posted : Bool
  /-- Its relocation group has split: it travels alone (R399). -/
  solo : Bool
  deriving DecidableEq, Repr

/-- An entry that has been taken and not completed (R377, R378), other than a TASK that is accepted. -/
structure SEntry where
  queue : Nat
  index : Nat
  /-- Its number among all entries ever taken: a rollback takes the count back, so that a re-execution gives the same numbers. -/
  ord : Nat
  words : Vector W64 8
  /-- Order in which entries were taken. -/
  order : Nat
  started : Bool
  /-- The task that an END entry ends. -/
  aim : W16
  deriving DecidableEq, Repr

/-- A copy of an XFER or MIGRATE entry (R366, R382). -/
structure Xfer where
  id : Nat
  queue : Nat
  /-- Number of its entry. -/
  ord : Nat
  migrate : Bool
  reload : Bool
  srcHost : Bool
  dstHost : Bool
  src : Nat
  dst : Nat
  len : Nat
  /-- First byte not yet asked for, and bytes copied. -/
  next : Nat
  done : Nat
  err : Bool
  deriving DecidableEq, Repr

/-- A queue beside its DOORBELL page. -/
structure QState where
  queue : Nat
  /-- PHASE of the completion ring (R380). -/
  phase : Bool
  /-- Completions ended in the present stage, and those written before the rollback (R401). -/
  ended : Nat
  wrote : Nat
  deriving DecidableEq, Repr

/-- The shunter (R375 to R404). -/
structure Shunter where
  tasks : List Task
  entries : List SEntry
  xfers : List Xfer
  queues : List QState
  /-- Number of the next order of acceptance or readiness, of the next transfer. -/
  order : Nat
  nextXfer : Nat
  /-- Entries taken so far. -/
  taken : Nat
  /-- Queue that gave an entry last. -/
  last : Nat
  /-- Queues whose next entry was seen to be a TASK while 2,048 tasks were held (R377). -/
  skip : List Nat
  deriving DecidableEq, Repr

def Shunter.reset : Shunter where
  tasks := []
  entries := []
  xfers := []
  queues := []
  order := 0
  nextXfer := 0
  taken := 0
  last := 1023
  skip := []



/-! ### Chapter 11: translation -/

/-- A requester of translations: coach and engine, 0 the vector engine, 1 + s stream s (R354). -/
structure XReq where
  coach : Fin 64
  engine : Nat
  deriving DecidableEq, Repr

/-- A cached leaf: 64 KiB page or 512 MiB block (R346). `ref` marks recent use. -/
structure XLeaf where
  asid : W16
  page : Nat
  block : Bool
  leaf : W64
  ref : Bool
  deriving DecidableEq, Repr

/-- A cached ASID-table entry (level 4) or pointer entry, with the VA bits that select it (R346). -/
structure XPtr where
  asid : W16
  level : Nat
  sel : Nat
  entry : W64
  ref : Bool
  deriving DecidableEq, Repr

/-- An access that waits for a translation or that failed one (R347, R353). -/
structure XMiss where
  req : XReq
  asid : W16
  va : Nat
  write : Bool
  /-- The issuer is at supervisor level (R345). -/
  sup : Bool
  task : W16
  deriving DecidableEq, Repr

/-- A walk in progress on a walker: it reads the entry of `level` next (4 the ASID table), at `addr` of host or device
memory. -/
structure XWalk where
  id : Nat
  asid : W16
  page : Nat
  level : Nat
  host : Bool
  addr : Nat
  /-- A demand walk in class 1; otherwise an outrider's in class 4 (R350). -/
  demand : Bool
  /-- The outrider's coach, stream and tile (by its first address), for its advisory record (R351). -/
  outrider : Option (Fin 64 × Nat × Nat)
  /-- An invalidation removed its result: it walks again (R360). -/
  again : Bool
  deriving DecidableEq, Repr

/-- The translation structures of a rake (R346, R347). -/
structure XRake where
  tc : List XLeaf
  wc : List XPtr
  walks : List XWalk
  /-- The coach of the rake, 0 to 15, whose walk was taken last: the rotation goes on behind it (R347). -/
  last : Fin 16
  /-- Pages that advice makes the rake walk in class 4 (R369). -/
  want : List (W16 × Nat)
  deriving DecidableEq, Repr

/-- An open fault entry (R353, R354). -/
structure XFault where
  seq : W32
  asid : W16
  page : Nat
  cause : Nat
  level : Nat
  write : Bool
  va : Nat
  /-- Requesters and their tasks, the first requester first. -/
  reqs : List (XReq × W16)
  stamp : W64
  /-- Its record has been written. -/
  written : Bool
  deriving DecidableEq, Repr

/-- An invalidation descriptor (R359) and the link that delivered it. -/
structure InvDesc where
  words : Vector W64 4
  link : Fin 2
  deriving DecidableEq, Repr

/-- An accepted descriptor that drains: it waits for the accesses issued with a number below `upto` (R362, R363). -/
structure InvDrain where
  desc : InvDesc
  bad : Bool
  upto : Nat
  /-- Counter of the hub at acceptance. -/
  accAt : W64
  raised : Bool
  deriving DecidableEq, Repr

/-- A range of advice (R368). -/
structure XAdvice where
  asid : W16
  page : Nat
  pages : Nat
  attr : Nat
  value : Nat
  deriving DecidableEq, Repr

/-- The walks that an outrider still has to start for the tile that stream `stream` has begun, for its task (R350). -/
structure XAhead where
  coach : Fin 64
  stream : Nat
  asid : W16
  task : W16
  /-- OR_CTL.ADV as the descriptor found it. -/
  adv : Bool
  /-- Pages, with the first address of their tile. -/
  pages : List (Nat × Nat)
  /-- Tiles that have met a faulting page (R350, R351). -/
  dead : List Nat
  deriving DecidableEq, Repr

/-- The translation unit, the FAULT block and the INVAL block. -/
structure Xlat where
  tlb : Vector (List XLeaf) 64
  rake : Vector XRake 4
  /-- Demand misses, oldest first. -/
  miss : List XMiss
  faults : List XFault
  /-- Failing requesters whose task the shunter has still to side (R353, R396). -/
  toSide : List (XReq × W16)
  /-- Failing requesters that stopped while 64 entries were open: they retry when one closes (R353). -/
  full : List (XReq × W16)
  /-- Requesters whose access waits under the miss limit (R347, R374). -/
  limited : List XReq
  fifo : List InvDesc
  /-- A descriptor that waits for a slot of the FIFO on its link (R358). -/
  stalled : List InvDesc
  drains : List InvDrain
  advice : List XAdvice
  ahead : List XAhead
  /-- PHASE of the fault ring (R354). -/
  phase : Bool
  /-- Number of the next access issued, and of the next walk. -/
  ser : Nat
  walk : Nat
  deriving DecidableEq, Repr

def XRake.reset : XRake where
  tc := []
  wc := []
  walks := []
  last := 15
  want := []

def Xlat.reset : Xlat where
  tlb := Vector.replicate 64 []
  rake := Vector.replicate 4 XRake.reset
  miss := []
  faults := []
  toSide := []
  full := []
  limited := []
  fifo := []
  stalled := []
  drains := []
  advice := []
  ahead := []
  phase := true
  ser := 0
  walk := 0



/-! ### Chapters 10 and 13: freight drays, the host link, Selfan -/

/-- What a freight dray works for (R330). -/
inductive JobWork where
  /-- A VIRT side of the running descriptor of a stream: coach, stream, target side. -/
  | stream (c s : Nat) (wr : Bool)
  /-- A vector memory entry of a coach. -/
  | vec (c : Nat)
  /-- One of the jobs of a transfer of a queue: its number. -/
  | xfer (id : Nat)
  /-- An inbound peer request: its number. -/
  | inbound (id : Nat)
  /-- A reload of a granule from a peer or the host (R450). -/
  | reload (granule : Nat)
  deriving DecidableEq, Repr

/-- A job that waits for a freight dray or has one (R331). -/
structure Job where
  id : Nat
  work : JobWork
  master : BitVec 16
  cls : Nat
  granted : Bool
  /-- It was granted one of the drays reserved for class 1 (1) or for inbound requests (2), or a shared one (0). -/
  pool : Nat
  /-- Grants that passed it over (R287). -/
  passed : Nat
  deriving DecidableEq, Repr

/-- Where the data of a read of host or peer memory goes. -/
inductive ReadDest where
  | walk (rake id : Nat)
  /-- Coach, element and piece of it. -/
  | vec (c i seg : Nat)
  /-- Coach, stream, burst, piece. -/
  | dray (c s burst seg : Nat)
  /-- A transfer, and the byte of it. -/
  | xfer (id off : Nat)
  /-- Code of a task: handle and byte. -/
  | code (task off : Nat)
  /-- A granule that is reloaded, and the byte of it. -/
  | reload (granule off : Nat)
  deriving DecidableEq, Repr

/-- A read of host memory that is not completed (R410, R413). -/
structure HostRead where
  id : Nat
  link : Nat
  func : Nat
  addr : Nat
  len : Nat
  master : BitVec 16
  task : W16
  /-- The requested address, virtual when it was translated (R446). -/
  va : Nat
  dest : ReadDest
  sent : Bool
  /-- Tags of its requests that are outstanding (R410). -/
  tags : List Nat
  ser : Nat
  deriving DecidableEq, Repr

/-- What a write to host memory carries. -/
inductive HeldKind where
  /-- A queue completion or a fault record: it stays through a rollback (R452 drops bursts only). -/
  | record
  /-- A burst of a dray or a vector entry. -/
  | burst
  /-- A burst of a queue transfer. -/
  | transfer
  /-- An invalidation completion (R363, R413). -/
  | inval
  deriving DecidableEq, Repr

/-- A write to host memory that waits for its link (R413). -/
structure HeldWrite where
  link : Nat
  func : Nat
  addr : Nat
  data : List Byte
  ser : Nat
  kind : HeldKind
  deriving DecidableEq, Repr

/-- Configuration space of a function, as far as the part acts on it (R406, R409, R410): the MSI-X function
mask, the payload and read request sizes in bytes, Relaxed Ordering, ID-Based Ordering and ECRC enables, and the errors that
AER has noted. Bus Master Enable and presence are fields of FUNC.FSTAT. -/
structure FuncCfg where
  msixMask : Bool
  mps : Nat
  mrrs : Nat
  relaxed : Bool
  ido : Bool
  ecrc : Bool
  aer : W32
  deriving DecidableEq, Repr

/-- A posted write of the host that waits behind a descriptor on its link (R358): to the register space, to BAR2, or into the
multicast window. -/
inductive Posted where
  | reg (w : Wr)
  | bar2 (f : Fin 16) (a : Nat) (l : List Byte)
  | mcast (a : Nat) (l : List Byte)
  deriving DecidableEq, Repr

/-- The host interface outside its registers (R405 to R413). -/
structure HostIf where
  cfg : Vector FuncCfg 16
  /-- Multicast windows of the links: base and size in bytes, and the groups enabled in MC_Receive (R412). -/
  mcBase : Vector Nat 2
  mcSize : Vector Nat 2
  mcRecv : Vector (BitVec 64) 2
  /-- MSI-X entries by function · 2,048 + vector: address, data, vector control (R409). An entry not listed is masked. -/
  msix : SMap (BitVec 128)
  /-- MSI-X messages that wait, as their function's Pending Bit Array (R409). -/
  msixPend : List (Nat × Nat)
  reads : List HostRead
  held : List HeldWrite
  jobs : List Job
  /-- The last freight dray went to a class-1 job (R287). -/
  lastC1 : Bool
  /-- Masters that have been granted a freight dray, the last first (R287: rotation within a class). -/
  turn : List (BitVec 16)
  /-- Posted writes that wait behind a descriptor, with their link (R358). -/
  behind : List (Fin 2 × Posted)
  nextId : Nat
  deriving DecidableEq, Repr

/-- The reset values of the PCIe rules (PRESUMED: payload 128, requests 512 B, both orderings enabled; log entry 50). -/
def FuncCfg.reset : FuncCfg :=
  { msixMask := false, mps := 128, mrrs := 512, relaxed := true, ido := false, ecrc := false, aer := 0 }

/-- An MSI-X entry after reset: Mask Bit 1 (PRESUMED, the PCIe rules; log entry 50). -/
def msixReset : BitVec 128 := BitVec.ofNat 128 (2 ^ 96)

def HostIf.reset : HostIf where
  cfg := Vector.replicate 16 FuncCfg.reset
  mcBase := Vector.replicate 2 0
  mcSize := Vector.replicate 2 0
  mcRecv := Vector.replicate 2 0
  msix := []
  msixPend := []
  reads := []
  held := []
  jobs := []
  lastC1 := false
  turn := []
  behind := []
  nextId := 0

/-- A packet in a port's replay buffer: its sequence number, and the access that it belongs to when it is this module's
own request (R362, R419). -/
structure TxPkt where
  lseq : BitVec 12
  pkt : Packet
  ser : Option Nat
  /-- The peer that it is sent to (R423); none in passage. -/
  peer : Option Nat
  /-- PEER_MAC of the entry that it is sent under (R430). -/
  mac : W64
  deriving DecidableEq, Repr

/-- One end of a link-level retry: a flit port, or a peer in Ethernet mode (R419, R422). -/
structure LinkEnd where
  /-- Next number to send, and next number expected. -/
  tx : BitVec 12
  rx : BitVec 12
  /-- A NAK was sent: packets are discarded until the expected one arrives. -/
  naked : Bool
  /-- Unacknowledged packets, oldest first. -/
  replay : List TxPkt
  /-- Successive replays without an acknowledgement. -/
  tries : Nat
  deriving DecidableEq, Repr

/-- A packet that waits for a port: with the access it belongs to, and for one in passage the port it came by. -/
structure TxWait where
  pkt : Packet
  ser : Option Nat
  came : Option Nat
  /-- The peer that it is sent to; none in passage. -/
  peer : Option Nat
  /-- PEER_MAC of the entry that it is sent under (R430). -/
  mac : W64
  /-- Grants that passed it over (R287). -/
  passed : Nat
  deriving DecidableEq, Repr

/-- A Selfan port outside its registers. -/
structure SfPort where
  flit : LinkEnd
  /-- Cumulative credits advertised by the far end and packets sent, by channel (requests HOP 0 to 4, then responses). -/
  limit : Vector Nat 10
  sent : Vector Nat 10
  /-- Packets received and slots freed, by channel. -/
  got : Vector Nat 10
  freed : Vector Nat 10
  /-- Packets that wait for a credit or for room in the replay buffer, oldest first. -/
  wait : List TxWait
  /-- The transmit arbiter (R420): the last packet was of class 1, and the sources served, the last first. -/
  lastC1 : Bool
  turn : List (Option Nat)
  /-- Priorities that the far end of an Ethernet-mode port has paused (R422). -/
  paused : BitVec 8
  /-- Priorities that this port has paused at its far end (R422). -/
  pausing : BitVec 8
  /-- Its domain locks to the received stream (R19). -/
  locked : Bool
  deriving DecidableEq, Repr

/-- An outstanding request of this module to a peer (R424). -/
structure CplOut where
  peer : Nat
  /-- The Selfan address that it was sent to: its response comes from there (R424). -/
  dst : BitVec 16
  wr : Bool
  /-- Output sequence number of a write, tag of a read. -/
  tag : W32
  win : Nat
  off : Nat
  len : Nat
  master : BitVec 16
  task : W16
  /-- The requested address, virtual when it was translated (R446). -/
  va : Nat
  dest : Option ReadDest
  ser : Nat
  /-- Its traffic class. -/
  cls : Nat
  /-- Port and channel in which it reserves the slot of its response once it is sent (R420). -/
  port : Nat
  chan : Nat
  sent : Bool
  /-- It is part `i` of a read that crosses a 512 B boundary (R417): number of the read, and `i`. -/
  part : Option (Nat × Nat)
  deriving DecidableEq, Repr

/-- A read of a peer in several requests: the data of those that have ended. -/
structure CplGather where
  id : Nat
  parts : Nat
  got : List (Nat × List Byte)
  deriving DecidableEq, Repr

/-- A write to a peer that waits for one of the 256 outstanding (R424). -/
structure CplWait where
  peer : Nat
  win : Nat
  off : Nat
  data : List Byte
  master : BitVec 16
  task : W16
  notify : Bool
  cls : Nat
  dest : Option ReadDest
  ser : Nat
  deriving DecidableEq, Repr

/-- An inbound request that passed the checks and waits for its freight dray or for its record (R425, R428, R443). -/
structure Inbound where
  id : Nat
  peer : Nat
  port : Nat
  pkt : Packet
  /-- Device physical address and the window's class. -/
  addr : Nat
  cls : Nat
  /-- The window's and the peer's entries as the request passed its check: WIN_CTL, PEER_CTL, PEER_MAC (R430). -/
  winCtl : W64
  peerCtl : W64
  peerMac : W64
  /-- A freight dray has been asked for. -/
  asked : Bool
  deriving DecidableEq, Repr

/-- Selfan outside its registers. -/
structure Selfan where
  port : Vector SfPort 10
  /-- Ethernet-mode ends by peer. -/
  eth : List (Nat × LinkEnd)
  /-- Bit i: write RX_OSN + 1 + i of the peer is performed or refused (R427). -/
  osn : SMap (BitVec 256)
  out : List CplOut
  gather : List CplGather
  wait : List CplWait
  inb : List Inbound
  /-- Port rotation of each peer (R424). -/
  turn : SMap Nat
  deriving DecidableEq, Repr

def LinkEnd.reset : LinkEnd := { tx := 0, rx := 0, naked := false, replay := [], tries := 0 }

def SfPort.reset : SfPort where
  flit := LinkEnd.reset
  limit := Vector.replicate 10 0
  sent := Vector.replicate 10 0
  got := Vector.replicate 10 0
  freed := Vector.replicate 10 0
  wait := []
  lastC1 := false
  turn := []
  paused := 0
  pausing := 0
  locked := false

def Selfan.reset : Selfan where
  port := Vector.replicate 10 SfPort.reset
  eth := []
  osn := []
  out := []
  gather := []
  wait := []
  inb := []
  turn := []



/-! ### Chapter 14: the stage controller -/

/-- A detected error that has been reported and waits to be handled (R450). -/
structure RecEvent where
  cause : Nat
  unit : BitVec 16
  addr : W64
  stamp : W64
  /-- The unit that detects it is coach `n`, for a fence. -/
  coach : Option Nat
  /-- Which mismatch of the entry it is (RESIDUE), 1 to 3. -/
  nth : Nat
  /-- A demand access met it (HBM_CRC, DEPOT). -/
  demand : Bool
  /-- Both copies, or the repair itself, failed (MIRROR, LOG). -/
  both : Bool
  /-- Found during a restore (MIRROR). -/
  restore : Bool
  /-- Task and retired count (FAULT3, R451). -/
  task : W16
  retired : Nat
  deriving DecidableEq, Repr

/-- TYPE and SUB of a log record (R446). -/
inductive LogKind where
  | cnt | waitev | waituntil | evpoll | evpeek
  | async (vec : Nat)
  | peerWrite | hostRead | peerRead | bar2Write | transfer
  | entry
  | markNotify | markCompletion | markSendev
  deriving DecidableEq, Repr

/-- How a recorded write lands: the class of its request, the class of its window, and what it notifies. The stage controller
keeps it beside the record, whose words have no field for it (R428, R446; log entry 102). -/
structure Landing where
  cls : Nat
  rc : Option Nat
  notify : Option Notice
  deriving DecidableEq, Repr

/-- A record of the stage log (R446), and whether a re-execution has reached, applied or skipped it (R454). -/
structure LogRec where
  kind : LogKind
  master : BitVec 16
  task : W16
  retired : Nat
  value : W64
  payload : List Byte
  land : Option Landing
  reached : Bool
  deriving DecidableEq, Repr

/-- What a deferred input does when its turn comes (R443): the write of its record, or the delivery of a read of a transfer or of
code. -/
inductive DefTarget where
  | write
  | read (r : HostRead)
  deriving DecidableEq, Repr

/-- An input whose record is accepted and whose effect is deferred (R443). -/
structure Deferred where
  entry : LogRec
  target : DefTarget
  deriving DecidableEq, Repr

/-- A registration of a reloadable source (R439). -/
structure Registration where
  first : Nat
  count : Nat
  src : W64
  peer : Bool
  deriving DecidableEq, Repr

/-- The phases of a post (R442). -/
inductive PostPhase where
  | none | quiesce | mirror
  /-- Abandoned: its request is taken again after 100 ms. -/
  | retry
  deriving DecidableEq, Repr

/-- The phases of a rollback (R452). -/
inductive RbPhase where
  | none | begun | stopped | restored
  deriving DecidableEq, Repr

/-- A post image (R444). -/
structure Image where
  coaches : Vector Coach 64
  cm : SMap W16
  obuf : SMap Byte
  /-- Cells of core memory in valid partitions. -/
  rows : SMap MByte
  regs : SMap W64
  osn : SMap W64
  sh : Shunter
  regist : List Registration
  timer : Nat
  /-- Reads and freight drays of transfers and code that were under way. -/
  reads : List HostRead
  jobs : List Job
  deriving DecidableEq, Repr

/-- The stage controller outside its registers. -/
structure StageCtl where
  /-- The page is armed (R462, R463). -/
  armed : Bool
  /-- Class tags and WRITTEN bits by granule, 64 KiB of device physical address (R435). -/
  tags : SMap Nat
  written : SMap Bool
  regist : List Registration
  /-- Tasks marked stale (R440). -/
  stale : List W16
  /-- Reported errors, oldest first, and the one that is handled. -/
  events : List RecEvent
  current : Option RecEvent
  /-- Level-B events that arrived during the rollback of this stage. -/
  bDuring : Nat
  /-- A dirty granule has a mirror error, and no post has committed since (R450). -/
  mirrorBad : Bool
  /-- The stage log, oldest record first (R446). -/
  log : List LogRec
  deferred : List Deferred
  post : PostPhase
  /-- Code of the command that the post ends, if any (R463). -/
  postCmd : Nat
  /-- Hub counter at the request taken, and bytes mirrored. -/
  postAt : W64
  /-- STATE before the post. -/
  postFrom : Nat
  dirtyBytes : Nat
  rb : RbPhase
  rbAt : W64
  /-- Hub counter at the Restart. -/
  rbRun : W64
  /-- The coach to fence (R452 Relocate). -/
  rbFence : Option Nat
  image : Option Image
  /-- The image of the post that runs, until it commits. -/
  nextImage : Option Image
  /-- Half of the image area that holds the current image. -/
  half : Bool
  /-- Tasks whose re-execution met a record that does not fit (R455). -/
  diverged : List W16
  /-- The last hang report of a coach (R128): coach, side, PC, CAUSE and task as in SHUNT.HANG_REC. -/
  hang : W64
  /-- Third faults taken in this stage: task and retired count (R451). -/
  third : List (W16 × Nat)
  /-- Handles given to the TASK entries of this stage, by the number of the entry. -/
  given : List (Nat × W16)
  /-- Entries whose task a rollback of this stage has ended, by their numbers. -/
  aborted : List Nat
  /-- Those of ABORT mode that had completed within the stage: their completions count in the re-execution (R386, R401). -/
  counted : List Nat
  deriving DecidableEq, Repr

def StageCtl.reset : StageCtl where
  armed := false
  tags := []
  written := []
  regist := []
  stale := []
  events := []
  current := none
  bDuring := 0
  mirrorBad := false
  log := []
  deferred := []
  post := .none
  postCmd := 0
  postAt := 0
  postFrom := 0
  dirtyBytes := 0
  rb := .none
  rbAt := 0
  rbRun := 0
  rbFence := none
  image := none
  nextImage := none
  half := false
  diverged := []
  hang := 0
  third := []
  given := []
  aborted := []
  counted := []



/-! ### Chapter 15: power and coolant -/

/-- The power governor and the coolant loop outside their registers (R464 to R482). -/
structure Power where
  /-- Operating point of each rake, 0 (400 MHz) to 18 (850 MHz) (R466). -/
  point : Vector Nat 4
  /-- Share of each rake in mW, before the cuts of R474, and how often a hot rake's share has been cut by 5 %. -/
  share : Vector Nat 4
  cuts : Vector Nat 4
  /-- Successive 10 µs loops that found rake r below its floor (R469). -/
  below : Vector Nat 4
  /-- A die sensor of rake r is at or above 95 °C; a stack of group g is at or above 90 °C (R474). -/
  hot : BitVec 4
  hbmHot : BitVec 4
  /-- Rake r's last 10 µs power was at or above 95 % of its uncut share (R466). -/
  tight : BitVec 4
  /-- The allocator limits the HBM bandwidth (R466). -/
  throt : Bool
  /-- The clocks are stretched (R472). -/
  stretch : Bool
  /-- Conditions of the thermal warning that hold (R474, R479): die, stack, P_cool, inlet, CDU. -/
  conds : BitVec 5
  /-- Successive 10 ms updates with F below 0.3 L/min; successive 100 ms readings of T_in at or above 48 °C (R481). -/
  lowFlow : Nat
  hotInlet : Nat
  /-- The plate inlet sensor, in 0.1 °C (R476). -/
  plateIn : Int
  /-- The stops whose sequence runs, the first one first: their MODULE causes (R481). -/
  stops : List ModCause
  /-- Successive failed transfers to the coolant distribution unit (R480). -/
  cduFails : Nat
  /-- COOL_STAT.T_IN was read from the coolant distribution unit (R47, R476). -/
  cduIn : Bool
  /-- COOL_CFG as the last 10 ms update found it (R484). -/
  coolCfg : W64
  deriving DecidableEq, Repr

def Power.reset : Power where
  point := Vector.replicate 4 18
  share := Vector.replicate 4 440000
  cuts := Vector.replicate 4 0
  below := Vector.replicate 4 0
  hot := 0
  hbmHot := 0
  tight := 0
  throt := false
  stretch := false
  conds := 0
  lowFlow := 0
  hotInlet := 0
  plateIn := 0
  stops := []
  cduFails := 0
  cduIn := false
  coolCfg := 0x0019300258640FA0



/-! ### Chapter 16: the ostler -/

/-- The codes that answer a management message (R488 to R500). -/
inductive MgmtCode where
  | success | unsupportedCmd | unsupportedPldmCmd | notReady | alreadyInUpdateMode | notInUpdateMode | invalidState
  | invalidData | unsupportedRequest | unexpectedRequest | busy | unspecified
  deriving DecidableEq, Repr

/-- State of the PLDM firmware device (R489, R491). -/
inductive FdState where
  | learn | ready | download | verify | apply | activate
  deriving DecidableEq, Repr

/-- An update in progress (R495). -/
structure Update where
  pldm : Bool
  fd : FdState
  len : Nat
  /-- Blocks of 2,048 bytes that are written. -/
  got : List Nat
  /-- What FW_VERIFY found: 0 good, 1 key, 2 signature, 3 body, 4 SVN (R505). -/
  verdict : Option Nat
  deriving DecidableEq, Repr

/-- What a platform event tells (R490). -/
inductive PlatKind where
  | moduleState (v : Nat)
  | limiter (v : Nat)
  | thermal | sag | leak | trip
  deriving DecidableEq, Repr

/-- A platform event that waits, and the transports that have taken it (R487). -/
structure PlatEvent where
  kind : PlatKind
  taken : BitVec 4
  deriving DecidableEq, Repr

/-- The ostler outside its registers. Transports: 0 SMBus, 1 I3C, 2 and 3 PCIe on links 0 and 1 (R485). -/
structure Ostler where
  eid : Vector Byte 4
  i3cDyn : Option (BitVec 7)
  /-- An event receiver is set (R487). -/
  recv : BitVec 4
  /-- Platform events that wait for a transport, oldest first (R487). -/
  events : List PlatEvent
  upd : Option Update
  /-- Security version of the running image; the ROM loader has none. -/
  runSvn : Option Nat
  /-- The bytes of the running image (R493). -/
  runImage : SMap Byte
  /-- The numbers of the bottom trees that are ready (R500). -/
  trees : List Nat
  nonce : Option (BitVec 128)
  /-- SPDM: GET_VERSION, GET_CAPABILITIES and NEGOTIATE_ALGORITHMS answered, in that order (R492). -/
  spdm : Vector Nat 4
  /-- Entries that wait for the flash (R507). -/
  logWait : List EvtEntry
  deriving DecidableEq, Repr

def Ostler.reset : Ostler where
  eid := Vector.replicate 4 0
  i3cDyn := none
  recv := 0
  events := []
  upd := none
  runSvn := none
  runImage := []
  trees := []
  nonce := none
  spdm := Vector.replicate 4 0
  logWait := []



/-! ### What has crossed the lands: a record of the model's own, newest first -/

/-- One thing that the part sent. -/
inductive Output where
  /-- An MSI-X message of function `func` (R58, R409): the data that its table entry gives, written to its address. -/
  | msix (func vec : Nat) (addr : W64) (data : W32)
  /-- The ostler is notified of a page's event (R58). -/
  | notify (p : PageId)
  /-- What the ostler or the debugger is answered to a write (R60). -/
  | answer (m : BitVec 16) (code : Byte)
  /-- Unsupported Request or an access error (R56). -/
  | unsupported (m : BitVec 16) (off : Nat)
  /-- The value a read of a register returned (READ_TO_CLEAR, the data windows). -/
  | value (m : BitVec 16) (off : Nat) (v : W64)
  /-- What a memory access by a master is answered: the data of a read, nothing for a failed one (R278, R292). -/
  | access (m : BitVec 16) (addr : Nat) (data : Option (List Byte))
  /-- A request on a host link (R411). -/
  | host (r : HostReq)
  /-- A packet on a Selfan port in flit mode (R417, R419). -/
  | packet (port : Nat) (f : Flits)
  /-- A frame on a Selfan port in Ethernet mode (R422). -/
  | frame (port : Nat) (head : EthHead) (f : Flits)
  /-- A link-control flit: an acknowledgement or a NAK with the number of the last accepted packet, and the cumulative credits
  of each channel (R419, R420). -/
  | ack (port : Nat) (good : Bool) (lseq : BitVec 12) (credits : Vector Nat 10)
  /-- The same to a peer reached in Ethernet mode (R422). -/
  | ackFrame (port peer : Nat) (good : Bool) (lseq : BitVec 12)
  /-- A priority flow control frame of an Ethernet-mode port: the priorities that it stops, 0 to let all go on (R422). -/
  | pause (port : Nat) (prio : BitVec 8)
  /-- A configuration request of a function is answered: Retry Status, or completed, with the values of a read (R42, R406). -/
  | config (func : Nat) (retry : Bool) (value : List Nat)
  /-- A transfer to the coolant distribution unit: its static address, register index and payload; a read has none (R480). -/
  | cdu (addr index : Nat) (data : Option Nat)
  /-- The answer to a management message on a transport: its code and its data (R488 to R500). -/
  | mgmt (t : Nat) (code : MgmtCode) (data : List Nat)
  /-- A platform event sent on a transport (R487). -/
  | plat (t : Nat) (k : PlatKind)
  /-- A request of the firmware device: RequestFirmwareData, or TransferComplete, VerifyComplete, ApplyComplete (R489). -/
  | fwRequest (off len : Nat)
  | fwComplete (step : Nat) (ok : Bool)
  /-- What the TAP shifts out (R503). -/
  | tap (value : Nat)
  deriving DecidableEq, Repr

/-- The part without its non-volatile memory. -/
structure Chip where
  board : Board
  dom : Vector Domain 34
  /-- The registers by BAR0 offset; an unlisted one holds its reset value (R57). -/
  regs : SMap W64
  /-- STAGED shadows that wait for a boundary, by BAR0 offset (R66). -/
  staged : SMap W64
  /-- Error queues by page base (R59); a page not listed has an empty one. -/
  errq : SMap ErrQ
  /-- Chocked masters, the oldest first (R69). -/
  chocks : List Chock
  /-- Matrix entries issued so far, over all coaches: the number of the next (the model's own, R226). -/
  issued : Nat
  /-- HBM, depot addressable space and core memory by device physical address; an unlisted byte is 0 (R40, R277,
  R291). -/
  mem : SMap MByte
  /-- Areas whose layout the spec leaves open, as they were written last: an unlisted byte there is free (R444). -/
  veils : List Veil
  slices : Vector Slice 16
  /-- Operand buffers: byte `b` of buffer `f` of coach `c` at key `c * 2^20 + f * 2^18 + b`; an unlisted byte is 0
  (R274, R275). -/
  obuf : SMap Byte
  /-- Blocks of HBM, by device physical address over 64, whose stored CRC does not match (R316, R317). -/
  badCrc : List Nat
  /-- Accesses held until a block is repaired (R317), in the order of their arrival. -/
  crcHeld : List HeldReq
  /-- Masters whose engines wait at a bad block, which has been recorded for them (R317). -/
  crcSeen : List (BitVec 16 × Nat)
  /-- Rows that the running ZERO of a coach has gone through (R310). -/
  zeroed : SMap Nat
  coaches : Vector Coach 64
  /-- Control memory: word `w` of coach `c` at key `c * 65536 + w` (R83); an unlisted word is 0. -/
  cm : SMap W16
  /-- Events on their way to a context, oldest first. -/
  sends : List Send
  /-- Sources on their way to INT_PEND of a context (R129), oldest first. -/
  posts : List (Ctx × Nat)
  sh : Shunter
  xlat : Xlat
  host : HostIf
  sf : Selfan
  stg : StageCtl
  pwr : Power
  mg : Ostler
  /-- What has crossed the lands, newest first (the model's own record). -/
  out : List Output
  /-- Counts the free values taken (the model's own; no register of the part). -/
  tick : Nat
  deriving DecidableEq, Repr

/-- What survives power-on reset (R33): fuses, flash and the secure NVM with its monotonic counter. The values of a module
as it is made are the model's choice. -/
structure Nvm where
  /-- The anti-rollback value, 0 to 64, in fuses (R497). -/
  arb : Nat
  /-- The next signature index, in secure NVM (R499). -/
  sig : Nat
  /-- The image slots (R494): the bytes that updates have written. -/
  slotA : SMap Byte
  slotB : SMap Byte
  /-- What the check of the image in each slot finds (R494). -/
  checkA : ImageCheck
  checkB : ImageCheck
  /-- An update of slot A has begun and not all of it is written (R496). -/
  aCut : Bool
  /-- Configuration (R506). -/
  ilv : Nat
  tid : Nat
  capBoot : Nat
  /-- The event log, oldest entry first (R507). -/
  log : List EvtEntry
  deriving DecidableEq, Repr

def Nvm.reset : Nvm where
  arb := 0
  sig := 0
  slotA := []
  slotB := []
  checkA := { keyOk := true, sigOk := true, bodyOk := true, svn := 0 }
  checkB := { keyOk := true, sigOk := true, bodyOk := true, svn := 0 }
  aCut := false
  ilv := 0
  tid := 1
  capBoot := 2600
  log := []

/-- The machine: the commands that wait, first in first out, what survives every reset (R33), and the part. -/
structure State where
  pending : List Instr
  nvm : Nvm
  chip : Chip
  deriving DecidableEq, Repr

/-! ### The state after reset -/

/-- Nominal period of domain `d` in ps (R32). -/
def nominalPeriod (d : Nat) : Nat :=
  if d < 4 then 1176 else if d = 4 then 714 else if d < 21 then 667 else if d = 21 then 1000
  else if d < 32 then 753 else if d = 32 then 2500 else 40000

def Domain.reset (d : Nat) : Domain := { count := 0, run := false, period := nominalPeriod d }

/-- The lands at their pulls (R13), power-on reset held, start-up at step 1 (R40). -/
def Board.reset : Board where
  vstby33 := true
  vin48 := false
  mainGood := false
  hubRails := false
  coreRails := false
  perst0N := false
  perst1N := false
  coolLeakN := true
  jtagTrstN := false
  strapBifur := false
  strapRecN := true
  strapAddr := 0
  refclk := 0
  refSel1 := false
  por := true
  stepTwo := false
  straps := 0
  t0 := 0
  causes := []
  unlogged := 1
  inReset := false
  ramping := false
  heldFail := false
  romLoader := false
  ostlerUp := false
  ostlerBoot := false
  train0 := false
  train1 := false
  link1Held := false
  wake := false
  thermTripN := true
  tap := 0x01
  bsr := 0
  snap := none

/-- Every part of the chip at its reset value. -/
def Chip.reset : Chip where
  board := Board.reset
  dom := Vector.ofFn fun d => Domain.reset d.val
  regs := []
  staged := []
  errq := []
  chocks := []
  issued := 0
  mem := []
  veils := []
  slices := Vector.replicate 16 Slice.reset
  obuf := []
  badCrc := []
  crcHeld := []
  crcSeen := []
  zeroed := []
  coaches := Vector.replicate 64 Coach.reset
  cm := []
  sends := []
  posts := []
  sh := Shunter.reset
  xlat := Xlat.reset
  host := HostIf.reset
  sf := Selfan.reset
  stg := StageCtl.reset
  pwr := Power.reset
  mg := Ostler.reset
  out := []
  tick := 0

/-- The machine right after power-on reset has been entered: every register at its reset value, no command waiting. -/
def State.reset : State where
  pending := []
  nvm := Nvm.reset
  chip := Chip.reset

end Sys2Proof.Machine
end

