-- ==== Sys2Proof/Machine/Ops.lean ====
section
/-! DEFINITION. The named operations over sparse maps, registers and memory that every command uses. -/
namespace Sys2Proof.Machine

/-! ### Sparse maps in canonical form -/

/-- What key `k` holds; an unlisted key holds `d k`. -/
def smapGet {α : Type} (d : Nat → α) (m : SMap α) (k : Nat) : α :=
  match m with
  | [] => d k
  | (j, v) :: t => if j = k then v else smapGet d t k

/-- The map without the keys that satisfy `p`. -/
def smapErase {α : Type} (p : Nat → Bool) (m : SMap α) : SMap α :=
  m.filter fun e => !p e.1

/-- Inserts an entry before the first greater key. -/
def smapInsert {α : Type} (k : Nat) (v : α) (m : SMap α) : SMap α :=
  match m with
  | [] => [(k, v)]
  | e :: t => if k < e.1 then (k, v) :: e :: t else e :: smapInsert k v t

/-- Key `k` now holds `v`; the entry is left out when `v` is what an unlisted key holds. -/
def smapSet {α : Type} [DecidableEq α] (d : Nat → α) (m : SMap α) (k : Nat) (v : α) : SMap α :=
  let r := smapErase (· == k) m
  if v = d k then r else smapInsert k v r

/-- Several keys in turn. -/
def smapSetAll {α : Type} [DecidableEq α] (d : Nat → α) (m : SMap α) (l : List (Nat × α)) : SMap α :=
  l.foldl (fun m e => smapSet d m e.1 e.2) m

/-- The canonical form: keys strictly rising, no entry equal to what an unlisted key holds. -/
def smapWf {α : Type} [DecidableEq α] (d : Nat → α) : SMap α → Bool
  | [] => true
  | [e] => decide (e.2 ≠ d e.1)
  | e :: f :: t => decide (e.2 ≠ d e.1) && decide (e.1 < f.1) && smapWf d (f :: t)

/-- The entries of the keys in `[lo, lo + n)` moved by `dst - lo` onto `[dst, dst + n)`, what stood there gone: a copy
of a range whose unlisted keys hold one value `v0` everywhere. -/
def smapCopy {α : Type} [DecidableEq α] (v0 : α) (m : SMap α) (lo dst n : Nat) : SMap α :=
  let part := m.filter fun e => decide (lo ≤ e.1 ∧ e.1 < lo + n)
  let rest := smapErase (fun k => decide (dst ≤ k ∧ k < dst + n)) m
  smapSetAll (fun _ => v0) rest (part.map fun e => (e.1 - lo + dst, e.2))

/-- The keys in `[lo, lo + n)` hold `f 0`, `f 1`, ... instead of what they held; no `f i` is what an unlisted key holds. -/
def smapFill {α : Type} (m : SMap α) (lo n : Nat) (f : Nat → α) : SMap α :=
  m.filter (fun e => decide (e.1 < lo)) ++ (List.range n).map (fun i => (lo + i, f i))
    ++ m.filter (fun e => decide (lo + n ≤ e.1))

/-! ### Fields of words -/

/-- The value of a field of a register. -/
def Fld.get (f : Fld) (w : W64) : Nat := (w.toNat / 2 ^ f.lo) % 2 ^ f.len

/-- The bits a field covers. -/
def Fld.mask (f : Fld) : W64 := BitVec.ofNat 64 ((2 ^ f.len - 1) * 2 ^ f.lo)

/-- The word with the field set to `v` (taken modulo the field's size), every other bit as before. -/
def Fld.put (f : Fld) (w : W64) (v : Nat) : W64 :=
  (w &&& ~~~ f.mask) ||| BitVec.ofNat 64 ((v % 2 ^ f.len) * 2 ^ f.lo)

def Fld.bit (f : Fld) (w : W64) : Bool := f.get w != 0

def b2n (b : Bool) : Nat := if b then 1 else 0

/-- Saturating increment of a counter of `n` bits. -/
def satInc (n v : Nat) : Nat := if v + 1 < 2 ^ n then v + 1 else 2 ^ n - 1

/-- `v` taken as the nearest value of `[lo, hi]`. -/
def clamp (lo hi v : Nat) : Nat := if v < lo then lo else if hi < v then hi else v

end Sys2Proof.Machine
end

