-- ==== Sys2Proof/Machine/Isa.lean ====
section
/-! DEFINITION. The instruction words of Ongild (R88 to R96, R99, R105 and the word tables of the vector chapter): the
operations, the words that stand for them, and the operation that a word stands for. -/
namespace Sys2Proof.Machine

/-- The vector operations (groups 0x20 to 0x2F). -/
inductive VOp where
  | vsetvl | vsettype | vsetctl | vsetaccs | vfadd | vfsub | vfmul | vfmin | vfmax | vfma
  | vfms | vfnma | vfsgnj | vfabs | vfneg | vfrece | vfrsqe | vfrecs | vfrsqs | vadd
  | vsub | vmul | vmulh | vmin | vmax | vand | vor | vxor | vshl | vshr
  | vpopc | vcvt | vrescale | vcadd | vmv | vbcast | vmerge | vmeq | vmne | vmlt
  | vmle | vmgt | vmge | vfsumo | vfsumt | vxsum | vxdot | vfmaxr | vfminr | visum
  | vimaxr | viminr | vandr | vorr | vxorr | vcompress | vexpand | viota | vid | vrgather
  | vslideup | vslidedn | vins | vext | vexth | vrdcfg | vmand | vmor | vmxor | vmandn
  | vmnot | vmset | vmclr | vmmv | vmpop | vmfirst | vldr | vstr | vld | vst
  | vlds | vsts | vldx | vstx
  deriving DecidableEq, Repr

/-- The forms of a vector operation (R95). -/
inductive VForm where
  | c | v | vx | vf | vm | vms | vr
  deriving DecidableEq, Repr

/-- A vector operation: its word (R95 and the tables of chapter 6), the form at that word, and, where it also has a
scalar form at another word, the distance of that word and its form. -/
structure VRow where
  op : VOp
  word : Nat
  form : VForm
  scalar : Option (Nat × VForm)
  deriving DecidableEq, Repr

def vRows0 : List VRow := [
  ⟨.vsetvl, 0x2000, .c, none⟩,
  ⟨.vsettype, 0x2001, .c, none⟩,
  ⟨.vsetctl, 0x2002, .c, none⟩,
  ⟨.vsetaccs, 0x2003, .c, none⟩,
  ⟨.vfadd, 0x2100, .v, some (0x80, .vf)⟩,
  ⟨.vfsub, 0x2101, .v, some (0x80, .vf)⟩,
  ⟨.vfmul, 0x2102, .v, some (0x80, .vf)⟩,
  ⟨.vfmin, 0x2103, .v, some (0x80, .vf)⟩,
  ⟨.vfmax, 0x2104, .v, some (0x80, .vf)⟩,
  ⟨.vfma, 0x2105, .v, some (0x80, .vf)⟩,
  ⟨.vfms, 0x2106, .v, some (0x80, .vf)⟩,
  ⟨.vfnma, 0x2107, .v, some (0x80, .vf)⟩,
  ⟨.vfsgnj, 0x2108, .v, some (0x80, .vf)⟩,
  ⟨.vfabs, 0x2109, .v, none⟩,
  ⟨.vfneg, 0x210A, .v, none⟩,
  ⟨.vfrece, 0x210B, .v, none⟩,
  ⟨.vfrsqe, 0x210C, .v, none⟩,
  ⟨.vfrecs, 0x210D, .v, some (0x80, .vf)⟩,
  ⟨.vfrsqs, 0x210E, .v, some (0x80, .vf)⟩,
  ⟨.vadd, 0x2200, .v, some (0x80, .vf)⟩,
  ⟨.vsub, 0x2201, .v, some (0x80, .vf)⟩,
  ⟨.vmul, 0x2202, .v, some (0x80, .vf)⟩,
  ⟨.vmulh, 0x2203, .v, some (0x80, .vf)⟩,
  ⟨.vmin, 0x2204, .v, some (0x80, .vf)⟩,
  ⟨.vmax, 0x2205, .v, some (0x80, .vf)⟩,
  ⟨.vand, 0x2206, .v, some (0x80, .vf)⟩,
  ⟨.vor, 0x2207, .v, some (0x80, .vf)⟩,
  ⟨.vxor, 0x2208, .v, some (0x80, .vf)⟩,
  ⟨.vshl, 0x2209, .v, some (0x40, .vx)⟩,
  ⟨.vshr, 0x220A, .v, some (0x40, .vx)⟩
]

def vRows1 : List VRow := [
  ⟨.vpopc, 0x220B, .v, none⟩,
  ⟨.vcvt, 0x2300, .vx, none⟩,
  ⟨.vrescale, 0x2301, .vx, none⟩,
  ⟨.vcadd, 0x2400, .v, none⟩,
  ⟨.vmv, 0x2500, .v, none⟩,
  ⟨.vbcast, 0x2580, .vf, none⟩,
  ⟨.vmerge, 0x2501, .v, none⟩,
  ⟨.vmeq, 0x2600, .v, some (0x80, .vf)⟩,
  ⟨.vmne, 0x2601, .v, some (0x80, .vf)⟩,
  ⟨.vmlt, 0x2602, .v, some (0x80, .vf)⟩,
  ⟨.vmle, 0x2603, .v, some (0x80, .vf)⟩,
  ⟨.vmgt, 0x2604, .v, some (0x80, .vf)⟩,
  ⟨.vmge, 0x2605, .v, some (0x80, .vf)⟩,
  ⟨.vfsumo, 0x2C00, .v, none⟩,
  ⟨.vfsumt, 0x2C01, .v, none⟩,
  ⟨.vxsum, 0x2C02, .v, none⟩,
  ⟨.vxdot, 0x2C03, .v, none⟩,
  ⟨.vfmaxr, 0x2C04, .v, none⟩,
  ⟨.vfminr, 0x2C05, .v, none⟩,
  ⟨.visum, 0x2C06, .v, none⟩,
  ⟨.vimaxr, 0x2C07, .v, none⟩,
  ⟨.viminr, 0x2C08, .v, none⟩,
  ⟨.vandr, 0x2C09, .v, none⟩,
  ⟨.vorr, 0x2C0A, .v, none⟩,
  ⟨.vxorr, 0x2C0B, .v, none⟩,
  ⟨.vcompress, 0x2D00, .v, none⟩,
  ⟨.vexpand, 0x2D01, .v, none⟩,
  ⟨.viota, 0x2D02, .v, none⟩,
  ⟨.vid, 0x2D03, .v, none⟩,
  ⟨.vrgather, 0x2D04, .v, none⟩
]

def vRows2 : List VRow := [
  ⟨.vslideup, 0x2D40, .vx, none⟩,
  ⟨.vslidedn, 0x2D41, .vx, none⟩,
  ⟨.vins, 0x2F00, .vf, none⟩,
  ⟨.vext, 0x2FC0, .vr, none⟩,
  ⟨.vexth, 0x2FC1, .vr, none⟩,
  ⟨.vrdcfg, 0x2FC2, .vr, none⟩,
  ⟨.vmand, 0x2E00, .v, none⟩,
  ⟨.vmor, 0x2E01, .v, none⟩,
  ⟨.vmxor, 0x2E02, .v, none⟩,
  ⟨.vmandn, 0x2E03, .v, none⟩,
  ⟨.vmnot, 0x2E04, .v, none⟩,
  ⟨.vmset, 0x2E05, .v, none⟩,
  ⟨.vmclr, 0x2E06, .v, none⟩,
  ⟨.vmmv, 0x2E07, .v, none⟩,
  ⟨.vmpop, 0x2E80, .vr, none⟩,
  ⟨.vmfirst, 0x2E81, .vr, none⟩,
  ⟨.vldr, 0x2800, .vm, none⟩,
  ⟨.vstr, 0x2801, .vm, none⟩,
  ⟨.vld, 0x2900, .vm, none⟩,
  ⟨.vst, 0x2901, .vm, none⟩,
  ⟨.vlds, 0x2A00, .vms, none⟩,
  ⟨.vsts, 0x2A01, .vms, none⟩,
  ⟨.vldx, 0x2B00, .vm, none⟩,
  ⟨.vstx, 0x2B01, .vm, none⟩
]

/-- Every vector operation with its words. -/
def vRows : List VRow := vRows0 ++ vRows1 ++ vRows2

/-- The operations of a context. `vec o s`: vector operation `o`, in its scalar form when `s`. -/
inductive Op where
  | lit (x : BitVec 15)
  | rdsr (n : BitVec 7)
  | wrsr (n : BitVec 7)
  | syscall (n : BitVec 4)
  | vec (o : VOp) (s : Bool)
  | nop | litw | drop | dup | swap | over | rot | nip | tuck | pick
  | drop2 | dup2 | swap2 | depth | tor | fromr | rfetch | rdepth | add | adc
  | sub | sbb | neg | inc | dec | mul | muls | udivmod | and | or
  | xor | not | shl | shr | sar | rol | eq | ne | ltu | lts
  | geu | ges | zeq | cnt | fetch | store | fetchp | storep | fetch4 | store4
  | br | bz | bnz | call | ret | brx | callx | loop | endloop | lpush
  | lpop | missue | mwait | mstat | drgo | drwait | drstat | waitev | sendev | waituntil
  | evpoll | evpeek | evclr | sysret | tret | brake | unbrake | setmode | tstable | vclaim
  | vrel
  deriving DecidableEq, Repr

/-- The words without a parameter (R89, R91, R92, R96, R99, R105). -/
def opRows : List (Nat × Op) := [
  (0x0000, .nop), (0x0001, .litw), (0x0002, .drop), (0x0003, .dup),
  (0x0004, .swap), (0x0005, .over), (0x0006, .rot), (0x0007, .nip),
  (0x0008, .tuck), (0x0009, .pick), (0x000A, .drop2), (0x000B, .dup2),
  (0x000C, .swap2), (0x000D, .depth), (0x000E, .tor), (0x000F, .fromr),
  (0x0010, .rfetch), (0x0011, .rdepth), (0x0100, .add), (0x0101, .adc),
  (0x0102, .sub), (0x0103, .sbb), (0x0104, .neg), (0x0105, .inc),
  (0x0106, .dec), (0x0107, .mul), (0x0108, .muls), (0x0109, .udivmod),
  (0x0200, .and), (0x0201, .or), (0x0202, .xor), (0x0203, .not),
  (0x0204, .shl), (0x0205, .shr), (0x0206, .sar), (0x0207, .rol),
  (0x0300, .eq), (0x0301, .ne), (0x0302, .ltu), (0x0303, .lts),
  (0x0304, .geu), (0x0305, .ges), (0x0306, .zeq), (0x0500, .cnt),
  (0x1000, .fetch), (0x1001, .store), (0x1002, .fetchp), (0x1003, .storep),
  (0x1004, .fetch4), (0x1005, .store4), (0x1800, .br), (0x1801, .bz),
  (0x1802, .bnz), (0x1803, .call), (0x1804, .ret), (0x1805, .brx),
  (0x1806, .callx), (0x1900, .loop), (0x1901, .endloop), (0x1902, .lpush),
  (0x1903, .lpop), (0x3000, .missue), (0x3001, .mwait), (0x3002, .mstat),
  (0x3400, .drgo), (0x3401, .drwait), (0x3402, .drstat), (0x3800, .waitev),
  (0x3801, .sendev), (0x3802, .waituntil), (0x3803, .evpoll), (0x3804, .evpeek),
  (0x3805, .evclr), (0x3C10, .sysret), (0x3C11, .tret), (0x3C12, .brake),
  (0x3C13, .unbrake), (0x3C14, .setmode), (0x3C15, .tstable), (0x3C18, .vclaim),
  (0x3C19, .vrel)
]

/-- The vector operation that a word stands for. -/
def vecOf (w : Nat) : List VRow → Option Op
  | [] => none
  | r :: t =>
    if r.word = w then some (.vec r.op false)
    else match r.scalar with
      | some (d, _) => if r.word + d = w then some (.vec r.op true) else vecOf w t
      | none => vecOf w t

def coreOf (w : Nat) : List (Nat × Op) → Option Op
  | [] => none
  | r :: t => if r.1 = w then some r.2 else coreOf w t

/-- The operation that an instruction word stands for; none for a word that the manual does not list (R88). -/
def decodeOp (w : W16) : Option Op :=
  let n := w.toNat
  if 0x8000 ≤ n then some (.lit (BitVec.ofNat 15 n))
  else if 0x0400 ≤ n ∧ n < 0x0480 then some (.rdsr (BitVec.ofNat 7 n))
  else if 0x0480 ≤ n ∧ n < 0x0500 then some (.wrsr (BitVec.ofNat 7 n))
  else if 0x3C00 ≤ n ∧ n < 0x3C10 then some (.syscall (BitVec.ofNat 4 n))
  else if 0x2000 ≤ n ∧ n < 0x3000 then vecOf n vRows
  else coreOf n opRows

/-- The row of a vector operation. -/
def VOp.row? (o : VOp) : Option VRow := vRows.find? (·.op == o)

/-- The form of a vector operation, `s` for its scalar form. -/
def VOp.form (o : VOp) (s : Bool) : VForm :=
  match o.row? with
  | none => .v
  | some r => if s then (match r.scalar with | some (_, f) => f | none => r.form) else r.form

/-- The word of an operation. -/
def encodeOp : Op → W16
  | .lit x => BitVec.ofNat 16 (0x8000 + x.toNat)
  | .rdsr n => BitVec.ofNat 16 (0x0400 + n.toNat)
  | .wrsr n => BitVec.ofNat 16 (0x0480 + n.toNat)
  | .syscall n => BitVec.ofNat 16 (0x3C00 + n.toNat)
  | .vec o s => match o.row? with
    | none => 0
    | some r => BitVec.ofNat 16 (if s then r.word + (match r.scalar with | some (d, _) => d | none => 0) else r.word)
  | o => match opRows.find? (·.2 == o) with
    | some r => BitVec.ofNat 16 r.1
    | none => 0

/-- An operation that has a word: the scalar form only where the manual lists one. -/
def Op.wf : Op → Bool
  | .vec o s => !s || (match o.row? with | some r => r.scalar.isSome | none => false)
  | _ => true

/-- Words an instruction takes: LITW and the control transfers with an operand word take two (R88). -/
def Op.len : Op → Nat
  | .litw | .br | .bz | .bnz | .call | .loop => 2
  | _ => 1

/-- The engine issue instructions: groups 0x20 to 0x2F, 0x30 and 0x34 (R120). -/
def Op.engine : Op → Bool
  | .vec _ _ | .missue | .mwait | .mstat | .drgo | .drwait | .drstat => true
  | _ => false

/-- The instructions that trap at task level (R112). -/
def Op.priv : Op → Bool
  | .brake | .unbrake | .setmode | .tstable | .tret | .sysret => true
  | .rdsr n | .wrsr n => decide (0x40 ≤ n.toNat)
  | _ => false

end Sys2Proof.Machine
end

