-- ==== Sys2Proof/Machine/RegOps.lean ====
section
/-! DEFINITION. The register file: which page and register an offset names, the reset values, reading and setting
registers and their fields, event stamps and outputs. -/
namespace Sys2Proof.Machine

/-! ### Which page and register an offset names (R54, R55) -/

/-- The page kinds at the 4 KiB steps of a coach's 64 KiB (R54). -/
def coachPageKind : Nat → Option PageKind
  | 0 => some .coach
  | 1 => some .vec
  | 2 => some .mtx
  | 3 => some .cmem
  | 4 => some .dray
  | 5 => some .tlb
  | 6 => some .tally
  | 7 => some .tally
  | _ => none

/-- The pages from offset 0 on (R54). -/
def lowPageKind : Nat → Option PageKind
  | 0 => some .glob
  | 1 => some .mbox
  | 2 => some .pwr
  | 3 => some .cool
  | 4 => some .stage
  | 5 => some .shunt
  | 6 => some .xlat
  | 7 => some .fault
  | 8 => some .inval
  | 9 => some .time
  | 10 => some .sec
  | _ => none

/-- The page that occupies a BAR0 offset, if any (R54). -/
def pageAt (a : Nat) : Option PageId :=
  if a < 0xB000 then (lowPageKind (a / 0x1000)).map (⟨·, 0⟩)
  else if 0x10000 ≤ a ∧ a < 0x20000 then some ⟨.func, (a - 0x10000) / 0x1000⟩
  else if 0x01000000 ≤ a ∧ a < 0x01400000 then
    let c := (a - 0x01000000) / 0x10000
    let j := (a % 0x10000) / 0x1000
    (coachPageKind j).map fun k => ⟨k, if j = 6 then 2 * c else if j = 7 then 2 * c + 1 else c⟩
  else if 0x02000000 ≤ a ∧ a < 0x02010000 then some ⟨.depot, (a - 0x02000000) / 0x1000⟩
  else if 0x02100000 ≤ a ∧ a < 0x02110000 then some ⟨.hbm, (a - 0x02100000) / 0x1000⟩
  else if 0x03000000 ≤ a ∧ a < 0x0300A000 then some ⟨.link, (a - 0x03000000) / 0x1000⟩
  else if 0x03010000 ≤ a ∧ a < 0x03020000 then some ⟨.couple, (a - 0x03010000) / 0x1000⟩
  else if 0x03800000 ≤ a ∧ a < 0x03801000 then some ⟨.hostif, 0⟩
  else if 0x03C00000 ≤ a ∧ a < 0x03C01000 then some ⟨.clk, 0⟩
  else if 0x03C01000 ≤ a ∧ a < 0x03C02000 then some ⟨.rst, 0⟩
  else if 0x04000000 ≤ a ∧ a < 0x04400000 then some ⟨.doorbell, (a - 0x04000000) / 0x1000⟩
  else none

def PageId.base (p : PageId) : Nat := pageBase p.kind p.inst

/-- How many instances a page kind has (R54). -/
def pageCount : PageKind → Nat
  | .func => 16
  | .coach | .vec | .mtx | .cmem | .dray | .tlb => 64
  | .tally => 128
  | .depot | .hbm | .couple => 16
  | .link => 10
  | .doorbell => 1024
  | _ => 1

/-- Whether row `r` covers page offset `o`; then the number of its copy. -/
def RegRow.index? (r : RegRow) (o : Nat) : Option Nat :=
  if r.off ≤ o ∧ (o - r.off) % r.stride = 0 ∧ (o - r.off) / r.stride < r.idx then
    some ((o - r.off) / r.stride) else none

/-- The register at page offset `o` (8-aligned), with the number of its copy. -/
def findRow (o : Nat) : List RegRow → Option (RegRow × Nat)
  | [] => none
  | r :: t => match r.index? o with
    | some i => some (r, i)
    | none => findRow o t

/-- The register of a page kind at page offset `o`. -/
def rowAt (k : PageKind) (o : Nat) : Option (RegRow × Nat) :=
  if o < 0x100 then findRow o hdrRows else findRow o (pageRows k)

/-- PAGE_ACCESS after reset (R57, R68): function 0 may write and owns the page; SEC and FUNC page 0 belong to the
ostler. -/
def accessReset (p : PageId) : W64 :=
  if p.kind = .sec ∨ (p.kind = .func ∧ p.inst = 0) then 0x0000600000010000 else 0x0000100000010001

/-- Capture latency of domain `d`: 3 cycles at depth 2, 4 at depth 3 (R18, R32). -/
def latCyc (d : Nat) : Nat := if d < 4 ∨ d = 32 ∨ d = 33 then 3 else 4

/-- The reset value of the register at a BAR0 offset (each page's table; the exceptions of R32, R68, R335, R414). -/
def regReset (a : Nat) : W64 :=
  match pageAt a with
  | none => 0
  | some p =>
    let o := a - p.base
    match rowAt p.kind o with
    | none => 0
    | some (r, i) =>
      if o = 0x50 then accessReset p
      else match p.kind with
        | .time =>
          if o < 0x200 then r.reset
          else if o < 0x400 then BitVec.ofNat 64 (i * 2 ^ 58)
          else BitVec.ofNat 64 (latCyc i + nominalPeriod i * 2 ^ 8)
        | .hbm => if o = 0x100 then BitVec.ofNat 64 ((p.inst / 4) * 2 ^ 4 + 12000 * 2 ^ 16) else r.reset
        | .func =>
          if o = 0x100 then (if p.inst = 0 then 1 else 0)
          else if o = 0x108 then (if p.inst = 0 then 0x3FFFFFF0000 else 0)
          else r.reset
        | _ => r.reset

/-! ### Registers -/

/-- The stored value of the register at BAR0 offset `a`. -/
def Chip.reg (m : Chip) (a : Nat) : W64 := smapGet regReset m.regs a

/-- Stores a register. -/
def Chip.setReg (m : Chip) (a : Nat) (v : W64) : Chip := { m with regs := smapSet regReset m.regs a v }

/-- A field of a stored register. -/
def Chip.fld (m : Chip) (a : Nat) (f : Fld) : Nat := f.get (m.reg a)

def Chip.flag (m : Chip) (a : Nat) (f : Fld) : Bool := m.fld a f != 0

/-- Sets a field of a register. -/
def Chip.setFld (m : Chip) (a : Nat) (f : Fld) (v : Nat) : Chip := m.setReg a (f.put (m.reg a) v)

/-- A wrapping counter register advances by `n`. -/
def Chip.count (m : Chip) (a : Nat) (n : Nat) : Chip := m.setReg a (m.reg a + BitVec.ofNat 64 n)

/-- A wrapping counter field advances by `n`. -/
def Chip.countFld (m : Chip) (a : Nat) (f : Fld) (n : Nat) : Chip := m.setFld a f (m.fld a f + n)

/-- The value in force of a register with STAGED fields: the stored one; reads see the shadow (R66). -/
def Chip.shadow (m : Chip) (a : Nat) : W64 :=
  match m.staged.find? (·.1 == a) with
  | some e => e.2
  | none => m.reg a

/-! ### Stamps and outputs -/

/-- The counter of domain `d` (R26). -/
def Chip.counter (m : Chip) (d : Nat) : W64 := if h : d < 34 then (m.dom[d]).count else 0

/-- An event stamp in domain `d` (R28). -/
def Chip.stamp (m : Chip) (d : Nat) : W64 :=
  BitVec.ofNat 64 (d * 2 ^ 58 + (m.counter d).toNat % 2 ^ 58)

/-- The clock domain of coach c's rake (R18). -/
def coachDomain (c : Nat) : Nat := c / 16

/-- Something crosses the lands. -/
def Chip.emit (m : Chip) (o : Output) : Chip := { m with out := o :: m.out }

/-- A fresh number for a free value. -/
def Chip.next (m : Chip) : Chip := { m with tick := m.tick + 1 }

/-- Sets domain `d`. -/
def Chip.setDom (m : Chip) (d : Nat) (f : Domain → Domain) : Chip :=
  if h : d < 34 then { m with dom := m.dom.set d (f m.dom[d]) } else m

/-- The clocks of the domains that satisfy `p` start (their counters go on from where they stand, R26) or stop. -/
def Chip.clocks (m : Chip) (p : Nat → Bool) (run : Bool) : Chip :=
  { m with dom := m.dom.mapIdx fun d x => if p d then { x with run := run } else x }

/-- The counters of the domains that satisfy `p` return to 0, their clocks stopped: a reset covers them (R26). -/
def Chip.clearDoms (m : Chip) (p : Nat → Bool) : Chip :=
  { m with dom := m.dom.mapIdx fun d x => if p d then Domain.reset d else x }

end Sys2Proof.Machine
end

