-- ==== Sys2Proof/Machine/Run.lean ====
section
/-! DEFINITION. What each block is doing as the common header shows it: PAGE_STAT.RUN, PAGE_ID and PAGE_CAP. -/
namespace Sys2Proof.Machine

/-- The start-up step, or 8 when ready (R39). -/
def Chip.phase (m : Chip) : Nat := m.fld K.rstBootStat F.rstBootStatPhase

/-- The module is ready (R42). -/
def Chip.ready (m : Chip) : Bool := m.flag K.rstBootStat F.rstBootStatReady

/-- Two hosts, one on each x8 link (R13, R15). -/
def Chip.bifur (m : Chip) : Bool := m.board.straps.getLsbD 0

/-- The link of function `f` (R406). -/
def Chip.linkOf (m : Chip) (f : Nat) : Nat := if m.bifur ∧ 8 ≤ f then 1 else 0

/-- Function `f` is a virtual function (R406). -/
def Chip.isVf (m : Chip) (f : Nat) : Bool := if m.bifur then f != 0 && f != 8 else f != 0

/-- MSI-X table size of function `f` (R409). -/
def Chip.msixSize (m : Chip) (f : Nat) : Nat :=
  if m.isVf f then 64 else if m.bifur then 576 else 1088

/-- Host link `l` is up. -/
def Chip.linkUp (m : Chip) (l : Nat) : Bool := m.flag (K.hostifLinkStat l) F.hostifLinkStatUp

/-- The clock of domain `d` runs. -/
def Chip.domRuns (m : Chip) (d : Nat) : Bool := if h : d < 34 then m.dom[d].run else false

/-- A function exists: a physical function always, a virtual one while NumVFs covers it (R414). -/
def Chip.present (m : Chip) (f : Nat) : Bool := !m.isVf f || m.flag (K.funcFstat f) F.funcFstatPresent

def CtxState.going : CtxState → Bool
  | .running | .waiting => true
  | _ => false

/-- PAGE_STAT.RUN of a page: whether its block runs. Where the page's chapter does not say (TIME, RST, CLK), the
block runs while it is clocked. -/
def Chip.running (m : Chip) (p : PageId) : Bool :=
  let k := m.coaches[p.inst % 64]
  match p.kind with
  | .glob | .sec => true
  | .mbox => m.board.ostlerUp
  | .pwr => decide (6 ≤ m.phase)
  | .cool => decide (4 ≤ m.phase)
  | .stage => m.stg.armed
  | .shunt => m.flag K.shuntShuntCtl F.shuntShuntCtlEn
  | .xlat | .inval => decide (7 ≤ m.phase)
  | .fault => m.flag K.faultQCtl F.faultQCtlEn
  | .time => m.domRuns 32
  | .rst | .clk => m.domRuns 33
  | .func => m.present p.inst
  | .coach | .tlb => k.fore.st.going || k.aft.st.going
  | .vec => k.vown.owner != 0 || !k.vec.q.isEmpty
  | .mtx => !k.mtx.queue.isEmpty || !k.mtx.arr.isEmpty
  | .cmem =>
    k.fore.st.going || k.aft.st.going || !k.vec.q.isEmpty || !k.mtx.queue.isEmpty || !k.mtx.arr.isEmpty
      || k.dray.toList.any fun t => !t.q.isEmpty
  | .dray => k.dray.toList.any fun t => !t.q.isEmpty
  | .tally =>
    let j := m.coaches[p.inst / 2 % 64]
    if p.inst % 2 = 0 then j.fore.st.going else j.aft.st.going
  | .depot | .hbm => decide (6 ≤ m.phase)
  | .link => m.flag (K.linkPortStat p.inst) F.linkPortStatUp || m.flag (K.linkPortStat p.inst) F.linkPortStatTraining
  | .couple => m.flag (K.coupleCplCfg 0) F.coupleCplCfgEn
  | .hostif => decide (3 ≤ m.phase)
  | .doorbell => m.flag (K.doorbellQctl p.inst) F.doorbellQctlEn

/-- Type code of a page kind (R54). -/
def pageType : PageKind → Nat
  | .glob => 0x01 | .mbox => 0x02 | .pwr => 0x03 | .cool => 0x04 | .stage => 0x05 | .shunt => 0x06 | .xlat => 0x07
  | .fault => 0x08 | .inval => 0x09 | .time => 0x0A | .sec => 0x0B | .func => 0x10 | .coach => 0x20 | .vec => 0x21
  | .mtx => 0x22 | .cmem => 0x23 | .dray => 0x24 | .tlb => 0x25 | .tally => 0x26 | .depot => 0x30 | .hbm => 0x31
  | .link => 0x40 | .couple => 0x41 | .hostif => 0x42 | .clk => 0x50 | .rst => 0x51 | .doorbell => 0x60

/-- PAGE_ID (R57): type, instance, layout version 1. -/
def pageIdWord (p : PageId) : W64 :=
  BitVec.ofNat 64 (pageType p.kind + (p.inst % 65536) * 2 ^ 16 + 1 * 2 ^ 32)

/-- The pages that take commands. -/
def pageHasCmd : PageKind → Bool
  | .time | .rst | .coach | .vec | .tally | .cmem | .depot | .hbm | .fault | .shunt | .link | .stage | .mbox => true
  | _ => false

/-- The pages with commands longer than 2 µs. -/
def pageHasLong : PageKind → Bool
  | .rst | .cmem | .depot | .hbm | .shunt | .link | .stage | .mbox => true
  | _ => false

/-- How many chockable masters a page owns (R69): a FUNC page its function, a COACH page two contexts, a DRAY page
eight streams, a COUPLE page 64 peers. -/
def pageMasters : PageKind → Nat
  | .func => 1
  | .coach => 2
  | .dray => 8
  | .couple => 64
  | _ => 0

/-- PAGE_CAP (R57). The HELD fields of COUPLE are in page 0 alone (R431). -/
def pageCapWord (p : PageId) : W64 :=
  BitVec.ofNat 64 (b2n (pageHasCmd p.kind) + 2 * b2n (pageHasLong p.kind)
    + 4 * b2n ((pageRows p.kind).any (·.staged != 0))
    + 8 * b2n ((pageRows p.kind).any (·.held != 0) && !(p.kind == .couple && decide (0 < p.inst)))
    + 16 * b2n (pageMasters p.kind != 0) + pageMasters p.kind * 2 ^ 16)

end Sys2Proof.Machine
end

