-- ==== Sys2Proof/Machine/Pages.lean ====
section
/-! DEFINITION. What every register page does alike (chapter 2): events and their messages, error records, chocks,
refusals, generations, commands, and the judging of a write (R58 to R73). -/
namespace Sys2Proof.Machine

/-! ### Messages and events (R58, R409) -/

/-- The MSI-X entry of a function's vector: address in bits 63:0, data in 95:64, vector control in 127:96 (R409). -/
def Chip.msixEntry (m : Chip) (f vec : Nat) : BitVec 128 := smapGet (fun _ => msixReset) m.host.msix (f * 2048 + vec)

/-- Nothing holds a message of the vector: the link is up, Bus Master Enable is 1 (R411), neither function nor vector is
masked. -/
def Chip.msixOpen (m : Chip) (f vec : Nat) : Bool :=
  m.linkUp (m.linkOf f) && m.flag (K.funcFstat f) F.funcFstatBme && !(m.host.cfg[f % 16]'(by omega)).msixMask
    && !(m.msixEntry f vec).getLsbD 96

/-- One MSI-X message: not sent when its vector lies beyond the function's table; pending while something holds it (R409). -/
def Chip.sendMsix (m : Chip) (f vec : Nat) : Chip :=
  let e := m.msixEntry f vec
  if m.msixSize f ≤ vec then m.count K.hostifMsixDrop 1
  else if m.msixOpen f vec then m.emit (.msix f vec (e.setWidth 64) ((e >>> 64).setWidth 32))
  else if m.host.msixPend.elem (f, vec) then m
  else { m with host := { m.host with msixPend := m.host.msixPend ++ [(f, vec)] } }

/-- The message of a page's event, and the notice to the ostler (R58). -/
def Chip.pageMessage (m : Chip) (p : PageId) : Chip :=
  let ctl := K.pageCtl p.base
  let m' := m.sendMsix (m.fld ctl F.pageCtlEvtFunc) (m.fld ctl F.pageCtlEvtVec)
  if m.flag ctl F.pageCtlEvtOstler then m'.emit (.notify p) else m'

/-- Event bit `i` of a page occurs: a message when it rises while enabled (R58). -/
def Chip.event (m : Chip) (p : PageId) (i : Nat) : Chip :=
  let ev := m.reg (K.pageEvt p.base)
  if ev.getLsbD i then m
  else
    let m' := m.setReg (K.pageEvt p.base) (ev ||| BitVec.ofNat 64 (2 ^ i))
    if (m.reg (K.pageEvtEn p.base)).getLsbD i then m'.pageMessage p else m'

/-- PAGE_EVT_EN takes a new value: one message when an enable rises while its event bit is 1 (R58). -/
def Chip.setEvtEn (m : Chip) (p : PageId) (v : W64) : Chip :=
  let old := m.reg (K.pageEvtEn p.base)
  let m' := m.setReg (K.pageEvtEn p.base) v
  if v &&& ~~~ old &&& m.reg (K.pageEvt p.base) ≠ 0 then m'.pageMessage p else m'

/-- The bits of PAGE_EVT (R57). -/
abbrev evCmdDone : Nat := 0
abbrev evRefused : Nat := 1
abbrev evErrRec : Nat := 2
abbrev evChock : Nat := 3
abbrev evStale : Nat := 4
abbrev evApplied : Nat := 5

/-! ### Generations (R72) -/

/-- PAGE_GEN counts one change of the block's state. -/
def Chip.bumpGen (m : Chip) (p : PageId) : Chip := m.count (K.pageGen p.base) 1

/-- The stored copy of PAGE_STAT.RUN follows the block; a change counts in PAGE_GEN (R72). GLOB and SEC run always. -/
def Chip.syncRun (m : Chip) (p : PageId) : Chip :=
  let st := K.pageStat p.base
  if p.kind = .glob ∨ p.kind = .sec ∨ m.flag st F.pageStatRun = m.running p then m
  else (m.setFld st F.pageStatRun (b2n (m.running p))).bumpGen p

/-- The RUN bits of a coach's pages follow its contexts and engines. -/
def Chip.syncCoach (m : Chip) (c : Nat) : Chip :=
  ([⟨.coach, c⟩, ⟨.tlb, c⟩, ⟨.tally, 2 * c⟩, ⟨.tally, 2 * c + 1⟩, ⟨.vec, c⟩, ⟨.mtx, c⟩, ⟨.cmem, c⟩,
    ⟨.dray, c⟩] : List PageId).foldl
    Chip.syncRun m

/-! ### Error records (R59) -/

def ErrQ.empty : ErrQ := { recs := [], total := 0, lost := 0, lossy := false }

/-- The error queue of a page. -/
def Chip.errQ (m : Chip) (p : PageId) : ErrQ := smapGet (fun _ => ErrQ.empty) m.errq p.base

def Chip.setErrQ (m : Chip) (p : PageId) (q : ErrQ) : Chip :=
  { m with errq := smapSet (fun _ => ErrQ.empty) m.errq p.base q }

/-- A record enters the queue, or is lost when it holds 8 (R59). -/
def ErrQ.push (q : ErrQ) (r : ErrRec) : ErrQ :=
  if 8 ≤ q.recs.length then
    { q with lost := BitVec.ofNat 16 (satInc 16 q.lost.toNat), lossy := true }
  else { recs := q.recs ++ [{ r with ovf := q.lossy }], total := q.total + 1, lost := q.lost, lossy := false }

/-- A page records an error; the stamp is taken in domain `d` (R59, R510). A detail or an address that no rule gives the
code is left open. -/
def Chip.record (m : Chip) (p : PageId) (code : Nat) (master : BitVec 16) (detail addr : Option Nat) (d : Nat) : Chip :=
  let q := m.errQ p
  let r : ErrRec :=
    { code := BitVec.ofNat 8 code, master := master
      detail := BitVec.ofNat 32 (detail.getD (Config.freeWord m.tick).toNat)
      addr := BitVec.ofNat 64 (addr.getD (Config.freeWord (m.tick + 1)).toNat)
      stamp := m.stamp d, ovf := false }
  let m0 := m.setErrQ p (q.push r)
  let m' := if detail.isNone || addr.isNone then m0.next.next else m0
  if 8 ≤ q.recs.length then m' else m'.event p evErrRec

/-- POP removes the head record; an empty queue stays as it is (R59). -/
def Chip.popErr (m : Chip) (p : PageId) : Chip :=
  let q := m.errQ p
  match q.recs with
  | [] => m
  | _ :: t => (m.setErrQ p { q with recs := t }).bumpGen p

/-! ### Chocks (R69, R70) -/

def ctxId (x : Ctx) : BitVec 16 := BitVec.ofNat 16 (0x2000 + 2 * x.coach.val + b2n x.aft)
def streamId (c s : Nat) : BitVec 16 := BitVec.ofNat 16 (0x3000 + 8 * c + s)

abbrev errHeldWrite : Nat := 0x01
abbrev errNotOwner : Nat := 0x02
abbrev errChock : Nat := 0x03
abbrev errStale : Nat := 0x04

def Chip.chocked (m : Chip) (master : BitVec 16) : Bool := m.chocks.any (·.master == master)

/-- COACH.DRAY_SIDE gives stream `s` to this side: 0 fore, 1 aft (R96). -/
def Chip.streamSide (m : Chip) (c : Fin 64) (s : Nat) : Bool := (m.reg (K.coachDraySide c.val)).getLsbD s

/-- The task that a coach context or a dray stream works for; 0 for another master. -/
def Chip.masterTask (m : Chip) (master : BitVec 16) : W16 :=
  let i := master.toNat % 4096
  let c (n : Nat) : Fin 64 := ⟨n % 64, Nat.mod_lt _ (by decide)⟩
  let task (c : Fin 64) (aft : Bool) : W16 := if aft then m.coaches[c.val].aft.task else m.coaches[c.val].fore.task
  match master.toNat / 4096 with
  | 2 => task (c (i / 2)) (i % 2 == 1)
  | 3 => task (c (i / 8)) (m.streamSide (c (i / 8)) (i % 8))
  | _ => 0

/-- A chock stands on the stream and on the task it works for: it freezes the stream while that task has it (R69, R394; log
entry 47). -/
def Chip.streamChocked (m : Chip) (c : Fin 64) (s : Nat) : Bool :=
  m.chocks.any fun h => h.master == streamId c.val s && (h.task == 0 || h.task == m.masterTask (streamId c.val s))

/-- A master is frozen, and its page records it: the CHOCK record, CHOCKED and PAGE_EVT.CHOCK (R69), and a change of
PAGE_GEN (R72). A master already chocked stays as it is. -/
def Chip.chock (m : Chip) (p : PageId) (master : BitVec 16) (cause addr d : Nat) : Chip :=
  let task := m.masterTask master
  if m.chocks.any (fun h => h.master == master && h.task == task) then m
  else
    let m1 := { m with chocks := m.chocks ++ [(⟨p, master, cause, BitVec.ofNat 64 addr, task⟩ : Chock)] }
    let m2 := m1.record p errChock master (some cause) (some addr) d
    (m2.event p evChock).bumpGen p

/-- Release of a master; a master that is not chocked on this page stays as it is (R70). -/
def Chip.release (m : Chip) (p : PageId) (master : BitVec 16) : Chip :=
  if m.chocks.any (fun k => k.master == master && k.page == p) then
    ({ m with chocks := m.chocks.filter fun k => !(k.master == master && k.page == p) }).bumpGen p
  else m

/-- The chocks a page shows, oldest first. -/
def Chip.pageChocks (m : Chip) (p : PageId) : List Chock := m.chocks.filter (·.page == p)

/-! ### Master IDs -/

abbrev ostlerId : BitVec 16 := 0x6000
abbrev debuggerId : BitVec 16 := 0x7000
def funcId (f : Nat) : BitVec 16 := BitVec.ofNat 16 (0x1000 + f)
def peerId (n : Nat) : BitVec 16 := BitVec.ofNat 16 (0x5000 + n)
def hubId (k : PageKind) : BitVec 16 := BitVec.ofNat 16 (0x8000 + pageType k)
def idKind (m : BitVec 16) : Nat := m.toNat / 4096
def idIndex (m : BitVec 16) : Nat := m.toNat % 4096

/-! ### Refusals (R62, R71) -/

/-- A refused write: REFUSED, LAST_REFUSED and PAGE_EVT.REFUSED. -/
def Chip.refuse (m : Chip) (p : PageId) (master : BitVec 16) : Chip :=
  let st := K.pageStat p.base
  let m1 := m.setFld st F.pageStatRefused (m.fld st F.pageStatRefused + 1)
  let m2 := m1.setFld st F.pageStatLastRefused master.toNat
  m2.event p evRefused

/-- The ostler and the debugger are answered with a code of R60. -/
def Chip.answer (m : Chip) (master : BitVec 16) (code : Nat) : Chip :=
  if master = ostlerId ∨ master = debuggerId then m.emit (.answer master (BitVec.ofNat 8 code)) else m

/-! ### Which pages are served -/

/-- A held failure state and a recovery boot serve only GLOB, MBOX and RST (R46, R48); a function reaches BAR0 from
READY on (R43) or in those two states. -/
def Chip.served (m : Chip) (p : PageId) (master : BitVec 16) : Bool :=
  let few := p.kind == .glob || p.kind == .mbox || p.kind == .rst
  if m.board.por || m.board.inReset then false
  else if m.board.heldFail || m.flag K.rstBootStat F.rstBootStatRecovery then few
  else if idKind master == 1 then m.ready
  else true

/-! ### The judging of a write (R71) -/

/-- The bits of the 8-byte register that the write covers (R56). -/
def Wr.cover (w : Wr) : W64 :=
  if w.size = 8 then 0xFFFFFFFFFFFFFFFF else if w.off % 8 = 0 then 0xFFFFFFFF else 0xFFFFFFFF00000000

/-- The written bytes in their place. -/
def Wr.data (w : Wr) : W64 :=
  if w.size = 8 then w.val else if w.off % 8 = 0 then w.val &&& 0xFFFFFFFF else w.val <<< 32

/-- The 8-aligned offset of the register. -/
def Wr.reg (w : Wr) : Nat := w.off - w.off % 8

/-- The right to write a page (PAGE_ACCESS). The ostler's right is fixed; the debugger also
needs permission bit [1] of its token (R501). A hub agent (kind 0x8) has no bit in PAGE_ACCESS and no rule denies it a page:
it always has the right (DESIGN CHOICE, log entry 16). -/
def Chip.hasRight (m : Chip) (p : PageId) (master : BitVec 16) : Bool :=
  let a := K.pageAccess p.base
  match idKind master with
  | 1 => (m.reg a).getLsbD (idIndex master % 16) && decide (idIndex master < 16)
  | 3 => m.flag a F.pageAccessSupv
  | 6 => true
  | 7 => m.flag a F.pageAccessDebug && m.flag K.secSecStat F.secSecStatDbgUnlocked
    && (m.reg K.secSecStat).getLsbD 2
  | 8 => true
  | _ => false

def Chip.busy (m : Chip) (p : PageId) : Bool := m.flag (K.pageCmdStat p.base) F.pageCmdStatBusy

def Chip.owner (m : Chip) (p : PageId) : Nat := m.fld (K.pageAccess p.base) F.pageAccessOwner

/-- The write is one that only the owner may make: PAGE_ACCESS, or RELEASE (R68). -/
def Wr.ownerOnly (w : Wr) (p : PageId) : Bool :=
  decide (w.reg = K.pageAccess p.base) ||
    (decide (w.reg = K.pageChock p.base) && F.pageChockRelease.bit (w.data &&& w.cover))

/-- What the register would hold after a plain write: RW bits from the write, W1C bits cleared where it has a 1. -/
def plainValue (r : RegRow) (cur : W64) (w : Wr) : W64 :=
  let c := w.cover
  let v := (cur &&& ~~~ (r.rw &&& c)) ||| (w.data &&& r.rw &&& c)
  v &&& ~~~ (w.data &&& r.w1c &&& c)

/-- How the page decides a write. -/
inductive Judged where
  | notIssued | noPage | unsupported | noRight | busy | notOwner | stale | held | accepted
  deriving DecidableEq, Repr

/-- A write of SHUNT.CTX_DONE by a dray stream: its right is not asked for (R395). -/
def Wr.ctxDone (w : Wr) : Bool := idKind w.m == 3 && decide (w.reg = K.shuntCtxDone)

/-- Steps 2 to 8 of R71, in order; `heldChange` says whether a HELD field would change (R67). -/
def Chip.judgeSent (m : Chip) (w : Wr) (heldChange : Bool) : Judged :=
  match pageAt w.off with
  | none => .noPage
  | some p =>
    if !m.served p w.m then .noPage
    else if !((w.size = 4 ∨ w.size = 8) ∧ w.off % w.size = 0 ∧ (w.reg = K.pageCmd p.base → w.size = 8)) then
      .unsupported
    else if !(m.hasRight p w.m || w.ctxDone) then .noRight
    else if m.busy p then .busy
    else if w.ownerOnly p && w.m.toNat != m.owner p then .notOwner
    else if w.m = ostlerId ∧ w.gen ≠ some (m.reg (K.pageGen p.base)) then .stale
    else if heldChange && m.running p then .held
    else .accepted

/-- The master is frozen: a dray stream only while it works for the task that its chock stands on (R69, R394; log entry 47). -/
def Chip.frozen (m : Chip) (master : BitVec 16) : Bool :=
  m.chocks.any fun h => h.master == master && (idKind master != 3 || h.task == 0 || h.task == m.masterTask master)

/-- The checks of R71, in order: a frozen master issues nothing. -/
def Chip.judge (m : Chip) (w : Wr) (heldChange : Bool) : Judged :=
  if m.frozen w.m then .notIssued else m.judgeSent w heldChange

/-- What a write that is not accepted does (R62, R67, R69 to R71, R73). Where no rule says what ADDR of a HELD_WRITE, NOT_OWNER
or STALE record holds, it is the BAR0 offset of the write, a dray stream's write too (DESIGN CHOICE, log entry 17). -/
def Chip.rejectWrite (m : Chip) (p : PageId) (w : Wr) : Judged → Chip
  | .unsupported => m.emit (.unsupported w.m w.off)
  | .noRight =>
    match idKind w.m with
    | 1 => m.chock ⟨.func, idIndex w.m % 16⟩ w.m 1 w.off 32
    | 3 => m.chock ⟨.dray, idIndex w.m / 8⟩ w.m 3 (0x30000000000 + w.off) (coachDomain (idIndex w.m / 8))
    | 6 | 7 => (m.refuse p w.m).answer w.m 0x13
    | _ => m
  | .busy => (m.refuse p w.m).answer w.m 0x10
  | .notOwner => ((m.refuse p w.m).record p errNotOwner w.m none (some w.off) 32).answer w.m 0x13
  | .stale =>
    (((m.refuse p w.m).event p evStale).record p errStale w.m (some (m.fld (K.pageGen p.base) ⟨0, 32⟩)) (some w.off) 32).answer w.m 0x11
  | .held => ((m.refuse p w.m).record p errHeldWrite w.m none (some w.off) 32).answer w.m 0x12
  | _ => m

/-! ### Commands (R61) -/

abbrev cmdOk : Nat := 0x00
abbrev cmdBadCode : Nat := 0x01
abbrev cmdBadArg : Nat := 0x02
abbrev cmdNotIdle : Nat := 0x03
abbrev cmdFailed : Nat := 0x04

/-- The word written to PAGE_CMD. -/
def Launch.word (l : Launch) (code : Nat) : W64 :=
  BitVec.ofNat 64 (code % 256 + l.tag.toNat * 2 ^ 8 + l.arg.toNat * 2 ^ 16)

def Launch.wr (l : Launch) (p : PageId) (code : Nat) : Wr :=
  { m := l.m, off := K.pageCmd p.base, size := 8, val := l.word code, gen := l.gen }

/-- The command that a word written to PAGE_CMD launches. -/
def launchOf (w : Wr) : Launch :=
  { m := w.m, tag := BitVec.ofNat 8 (F.pageCmdTag.get w.val), arg := BitVec.ofNat 48 (F.pageCmdArg.get w.val),
    gen := w.gen }

/-- Launch: BUSY, DONE 0, ERR 0, PROGRESS 0, CODE, TAG and ISSUER (R61), and a change of PAGE_GEN (R72). -/
def Chip.beginCmd (m : Chip) (p : PageId) (code : Nat) (l : Launch) : Chip :=
  let st := BitVec.ofNat 64 (1 + (code % 256) * 2 ^ 16 + l.tag.toNat * 2 ^ 24 + l.m.toNat * 2 ^ 32)
  let m1 := m.setReg (K.pageCmd p.base) (l.word code)
  (m1.setReg (K.pageCmdStat p.base) st).bumpGen p

/-- End: ERR, DONE, PROGRESS 1,000, BUSY 0, PAGE_EVT.CMD_DONE (R61), and a change of PAGE_GEN (R72). -/
def Chip.endCmd (m : Chip) (p : PageId) (err : Nat) : Chip :=
  let a := K.pageCmdStat p.base
  let st := F.pageCmdStatProgress.put (F.pageCmdStatErr.put (F.pageCmdStatDone.put
    (F.pageCmdStatBusy.put (m.reg a) 0) 1) err) 1000
  ((m.setReg a st).bumpGen p).event p evCmdDone

/-- The code of the running or last command of a page. -/
def Chip.cmdCode (m : Chip) (p : PageId) : Nat := m.fld (K.pageCmdStat p.base) F.pageCmdStatCode

def Chip.cmdArg (m : Chip) (p : PageId) : Nat := m.fld (K.pageCmd p.base) F.pageCmdArg

/-- A descriptor waits on the link, or a posted write behind one: later posted writes of the link wait too (R358). -/
def Chip.linkStalled (m : Chip) (l : Fin 2) : Bool := m.xlat.stalled.any (·.link == l) || m.host.behind.any (·.1 == l)

/-- A posted write waits behind the descriptor of its link. -/
def Chip.waitBehind (m : Chip) (l : Fin 2) (p : Posted) : Chip :=
  { m with host := { m.host with behind := m.host.behind ++ [(l, p)] } }

/-- The link on which a write of a host function comes, while it is stalled behind a descriptor. -/
def Chip.stalledLink (m : Chip) (master : BitVec 16) : Option (Fin 2) :=
  let l : Fin 2 := ⟨m.linkOf (idIndex master % 16) % 2, Nat.mod_lt _ (by decide)⟩
  if idKind master = 1 ∧ m.linkStalled l then some l else none

/-- A command written to a page: judged by R71; when accepted it is launched and `run` does what the command does,
ending it at once where it fails or is short. The host's waits behind a descriptor that its link holds. -/
def Chip.issue (m : Chip) (p : PageId) (code : Nat) (l : Launch) (run : Launch → Chip → Chip) : Chip :=
  let w := l.wr p code
  match m.stalledLink l.m with
  | some k => m.waitBehind k (.reg w)
  | none => match m.judge w false with
    | .accepted => (run l (m.beginCmd p code l)).answer l.m 0
    | j => m.rejectWrite p w j

/-- A BUFZERO command of a coach runs: no matrix entry and no descriptor of it starts (R310). -/
def Chip.bufZeroing (m : Chip) (c : Nat) : Bool := m.busy ⟨.cmem, c⟩ && decide (m.cmdCode ⟨.cmem, c⟩ = 3)

/-! ### STAGED values (R66) -/

/-- The pending shadows of a page. -/
def Chip.pageStaged (m : Chip) (p : PageId) : SMap W64 :=
  m.staged.filter fun e => decide (p.base ≤ e.1 ∧ e.1 < p.base + 0x1000)

def Chip.pend (m : Chip) (p : PageId) : Bool := !(m.pageStaged p).isEmpty

/-- The page's pending shadows are gone: every one returns to the applied value (DISCARD, R66). -/
def Chip.dropStaged (m : Chip) (p : PageId) : Chip :=
  { m with staged := m.staged.filter fun e => !decide (p.base ≤ e.1 ∧ e.1 < p.base + 0x1000) }

/-- The page's boundary: all pending values are applied together, PEND clears, APPLIED is set (R66), and PAGE_GEN
counts it (R72). -/
def Chip.applyStaged (m : Chip) (p : PageId) : Chip :=
  if m.pend p then
    let m1 := (m.pageStaged p).foldl (fun m e => m.setReg e.1 e.2) m
    ((m1.dropStaged p).event p evApplied).bumpGen p
  else m

end Sys2Proof.Machine
end

