-- ==== Sys2Proof/Machine/Context.lean ====
section
/-! DEFINITION. A context's instruction boundary: control memory, the two stacks, fetching, completing an instruction,
and taking a trap (R83 to R88, R93, R113 to R122). -/
namespace Sys2Proof.Machine

/-! ### Coaches and contexts -/

def Chip.coach (m : Chip) (c : Fin 64) : Coach := m.coaches[c.val]

def Chip.setCoach (m : Chip) (c : Fin 64) (k : Coach) : Chip := { m with coaches := m.coaches.set c.val k }

def Chip.modCoach (m : Chip) (c : Fin 64) (f : Coach → Coach) : Chip := m.setCoach c (f (m.coach c))

def Coach.side (k : Coach) (aft : Bool) : Context := if aft then k.aft else k.fore

def Coach.setSide (k : Coach) (aft : Bool) (v : Context) : Coach :=
  if aft then { k with aft := v } else { k with fore := v }

def Chip.ctx (m : Chip) (x : Ctx) : Context := (m.coach x.coach).side x.aft

def Chip.setCtx (m : Chip) (x : Ctx) (v : Context) : Chip := m.modCoach x.coach fun k => k.setSide x.aft v

def Chip.modCtx (m : Chip) (x : Ctx) (f : Context → Context) : Chip := m.setCtx x (f (m.ctx x))

def coachPage (c : Fin 64) : PageId := ⟨.coach, c.val⟩

/-- The counter of a coach (R27). -/
def Chip.cycle (m : Chip) (c : Fin 64) : W64 := m.counter (coachDomain c.val)

/-! ### STATUS as a word (R111) -/

def Status.word (s : Status) : W16 :=
  BitVec.ofNat 16 (b2n s.c + 2 * b2n s.lvl + 4 * b2n s.brake + 8 * b2n s.shadow + 16 * b2n s.stable + 32 * b2n s.df
    + 64 * b2n s.tp)

def Status.ofWord (w : W16) : Status :=
  { c := w.getLsbD 0, lvl := w.getLsbD 1, brake := w.getLsbD 2, shadow := w.getLsbD 3, stable := w.getLsbD 4,
    df := w.getLsbD 5, tp := w.getLsbD 6 }

/-- The bank in use (R113). -/
def Context.bank (k : Context) : Bank := if k.status.shadow then k.shadow else k.main

def Context.setBank (k : Context) (b : Bank) : Context :=
  if k.status.shadow then { k with shadow := b } else { k with main := b }

/-- The data stack's depth: registered entries plus what is spilled (R86). -/
def Bank.depth (b : Bank) : Nat := b.ds.length + (b.dsp - b.dsb).toNat

def Bank.rdepth (b : Bank) : Nat := b.rs.length + (b.rsp - b.rsb).toNat

/-! ### Control memory (R83, R84) -/

def Chip.cmWord (m : Chip) (c : Fin 64) (a : Nat) : W16 := smapGet (fun _ => 0) m.cm (c.val * 65536 + a % 65536)

/-- A word that instruction fetch of a context in the midst of its stream, stopped and chocked ones too, goes on seeing as it was,
until its next taken transfer. -/
def Context.keepStale (k : Context) (a : Nat) (old : W16) : Context :=
  if (k.st = .running ∨ k.st = .waiting ∨ k.st = .stopped ∨ k.st = .chocked) ∧ !(k.stale.any (·.1 == a)) then { k with stale := (a, old) :: k.stale }
  else k

/-- Writes one word of control memory: loads see it at once, fetch under R84. -/
def Chip.setCm (m : Chip) (c : Fin 64) (a : Nat) (v : W16) : Chip :=
  let a := a % 65536
  let old := m.cmWord c a
  let m1 := m.modCoach c fun k => { k with fore := k.fore.keepStale a old, aft := k.aft.keepStale a old }
  { m1 with cm := smapSet (fun _ => 0) m1.cm (c.val * 65536 + a) v }

/-- Writes several words, the first at `a`. -/
def Chip.setCms (m : Chip) (c : Fin 64) (a : Nat) : List W16 → Chip
  | [] => m
  | v :: t => (m.setCm c a v).setCms c (a + 1) t

/-- The level's base and bound (R83). At LVL 0 the base is added with the shadow bank too, though R113 makes that bank's spill
registers physical (the model's choice, log entry 90). -/
def Context.base (k : Context) : Nat := if k.status.lvl then 0 else k.cbase.toNat

def Context.lim (k : Context) : Nat := if k.status.lvl then 0xFFFF else k.clim.toNat

/-- A logical address is valid at the running level. -/
def Context.inRange (k : Context) (a : Nat) : Bool := decide (a ≤ k.lim)

def Context.phys (k : Context) (a : Nat) : Nat := (k.base + a) % 65536

/-- The word that fetch sees at logical address `a`. -/
def Chip.fetchWord (m : Chip) (x : Ctx) (a : Nat) : W16 :=
  let k := m.ctx x
  match k.stale.find? (·.1 == k.phys a) with
  | some e => e.2
  | none => m.cmWord x.coach (k.phys a)

/-- The word that a load sees. -/
def Chip.loadWord (m : Chip) (x : Ctx) (a : Nat) : W16 := m.cmWord x.coach ((m.ctx x).phys a)

/-! ### Fills (R86) -/

/-- Reads back `n` entries below the pointer, most recently spilled first; none when one lies out of range. -/
def Chip.fillWords (m : Chip) (x : Ctx) (ptr : W16) (n : Nat) : Option (List W16) :=
  let as := (List.range n).map fun i => (ptr - BitVec.ofNat 16 (i + 1)).toNat
  if as.all (m.ctx x).inRange then some (as.map (m.loadWord x)) else none

/-- Fills of the data stack until `need` entries are registered (`fuel` bounds the fills: at most five). -/
def Chip.fillData (m : Chip) (x : Ctx) (need : Nat) (b : Bank) : Nat → Except Nat Bank
  | 0 => .ok b
  | fuel + 1 =>
    if need ≤ b.ds.length then .ok b
    else
      let n := min 4 (b.dsp - b.dsb).toNat
      match m.fillWords x b.dsp n with
      | none => .error (b.dsp - 1).toNat
      | some l => m.fillData x need { b with ds := b.ds ++ l, dsp := b.dsp - BitVec.ofNat 16 n } fuel

def Chip.fillReturn (m : Chip) (x : Ctx) (need : Nat) (b : Bank) : Nat → Except Nat Bank
  | 0 => .ok b
  | fuel + 1 =>
    if need ≤ b.rs.length then .ok b
    else
      let n := min 4 (b.rsp - b.rsb).toNat
      match m.fillWords x b.rsp n with
      | none => .error (b.rsp - 1).toNat
      | some l => m.fillReturn x need { b with rs := b.rs ++ l, rsp := b.rsp - BitVec.ofNat 16 n } fuel

/-! ### What an instruction does, before it completes -/

/-- Where execution goes on. -/
inductive Next where
  /-- The next instruction, or the loop rule (R93). -/
  | seq
  /-- A transfer to a logical address. -/
  | jump (a : W16)
  /-- On at a logical address that a loop instruction chooses, which is no transfer (R84, R93, R94). -/
  | skip (a : W16)
  deriving DecidableEq, Repr

/-- The outcome of an instruction at its boundary. -/
inductive Plan where
  /-- It completes: the bank it leaves (before spills), the carry, and its other effects. -/
  | done (b : Bank) (c : Bool) (upd : Chip → Chip) (next : Next)
  /-- A synchronous fault: vector and DETAIL (R116); the instruction has no effect. -/
  | fault (v detail : Nat)
  /-- A chock of a data access at a logical address; the instruction does not commit (R69). -/
  | chock (a : Nat)
  /-- It waits with its operands on the stack (R97, R99, R103). -/
  | wait (w : Wait) (upd : Chip → Chip)
  /-- It cannot execute yet and changes nothing of its context (R449, R454). -/
  | stall (upd : Chip → Chip)
  /-- It completes and leaves the stacks as they are; `upd` sets all the rest of the context, PC included. -/
  | raw (upd : Chip → Chip)

abbrev vecIllegal : Nat := 0x01
abbrev vecPriv : Nat := 0x02
abbrev vecOperand : Nat := 0x03
abbrev vecStkOvf : Nat := 0x04
abbrev vecStkUnf : Nat := 0x05
abbrev vecSyscallOff : Nat := 0x06

/-- An instruction that needs `nd` data entries and `nr` return entries: the underflow checks (R87), then the fills,
then `f` on the bank as filled. -/
def Chip.withStacks (m : Chip) (x : Ctx) (nd nr : Nat) (f : Bank → Plan) : Plan :=
  let b := (m.ctx x).bank
  if b.depth < nd then .fault vecStkUnf 0
  else if b.rdepth < nr then .fault vecStkUnf 1
  else match m.fillData x nd b 5 with
    | .error a => .chock a
    | .ok b1 => match m.fillReturn x nr b1 5 with
      | .error a => .chock a
      | .ok b2 => f b2

/-- The top entry of the data stack where it can be read without a chock: registered, or spilled within range. -/
def Chip.topEntry (m : Chip) (x : Ctx) : Option W16 :=
  let k := m.ctx x
  match k.bank.ds with
  | w :: _ => some w
  | [] => if k.bank.depth ≠ 0 ∧ k.inRange (k.bank.dsp - 1).toNat then some (m.loadWord x (k.bank.dsp - 1).toNat) else none

/-- An instruction of `nd` data entries whose top one must not satisfy `bad`: that operand error is found after an underflow and
before the fill of the entries below (R117). -/
def Chip.withTop (m : Chip) (x : Ctx) (nd : Nat) (bad : W16 → Bool) (detail : Nat) (f : Bank → Plan) : Plan :=
  if (m.ctx x).bank.depth < nd then .fault vecStkUnf 0
  else if (m.topEntry x).any bad then .fault vecOperand detail
  else m.withStacks x nd 0 f

/-! ### Spills (R86, R87) -/

/-- What a spill of one stack finds. -/
inductive Spill where
  | fits
  | chock (a : Nat)
  | overflow
  /-- The four oldest entries go to `[ptr, ptr + 3]`, the oldest lowest. -/
  | write (ptr : W16) (words : List W16)
  deriving DecidableEq, Repr

/-- Four oldest entries leave when more than 16 are registered; a chock is found before an overflow (R117). -/
def spillOf (k : Context) (l : List W16) (lim ptr : W16) : Spill :=
  if l.length ≤ 16 then .fits
  else if !((List.range 4).all fun i => k.inRange (ptr + BitVec.ofNat 16 i).toNat) then .chock ptr.toNat
  else if lim.toNat < ptr.toNat + 4 then .overflow
  else .write ptr ((l.drop (l.length - 4)).reverse)

/-- Spills of both stacks after the bank of a completed instruction is known. -/
def Chip.spillAll (m : Chip) (x : Ctx) (b : Bank) : Except Plan (Chip × Bank) :=
  let k := m.ctx x
  match spillOf k b.ds b.dsl b.dsp, spillOf k b.rs b.rsl b.rsp with
  | .chock a, _ => .error (.chock a)
  | _, .chock a => .error (.chock a)
  | .overflow, _ => .error (.fault vecStkOvf 0)
  | _, .overflow => .error (.fault vecStkOvf 1)
  | d, r =>
    let (m1, b1) := match d with
      | .write p ws => (m.setCms x.coach (k.phys p.toNat) ws,
          { b with ds := b.ds.take (b.ds.length - 4), dsp := b.dsp + 4 })
      | _ => (m, b)
    let (m2, b2) := match r with
      | .write p ws => (m1.setCms x.coach (k.phys p.toNat) ws,
          { b1 with rs := b1.rs.take (b1.rs.length - 4), rsp := b1.rsp + 4 })
      | _ => (m1, b1)
    .ok (m2, b2)

/-! ### Completing an instruction -/

/-- The loop rule (R93, R122): an instruction whose last word lies at LE completes without a transfer while LC is not 0,
LC and LE taken as they were before it, in bank `k`. The decrement applies to LC as the instruction leaves it, in bank `b`:
the rules do not say it of an instruction that writes LC (DEDUCED, log entry 41). -/
def loopNext (k b : Bank) (last : W16) : Option (Bank × W16) :=
  if k.lc ≠ 0 ∧ last = k.le then
    let lc := b.lc - 1
    some ({ b with lc := lc }, if lc ≠ 0 then b.ls else b.le + 1)
  else none

/-- The context after an instruction of `len` words at its PC completes and leaves bank `b`. A transfer, and the loop
rule going back to LS, lets fetch see all of control memory again; leaving the loop at LE + 1 does not (R84). -/
def Context.complete (k : Context) (b : Bank) (c : Bool) (len : Nat) (next : Next) : Context :=
  let k1 := { k with st := .running, wait := .none, retired := k.retired + 1, status := { k.status with c := c } }
  match next with
  | .jump a => { k1.setBank b with pc := a, looped := false, stale := [] }
  | .skip a => { k1.setBank b with pc := a, looped := false }
  | .seq =>
    match loopNext k.bank b (k.pc + BitVec.ofNat 16 (len - 1)) with
    | some (b', a) => { k1.setBank b' with pc := a, looped := true, stale := if b'.lc = 0 then k.stale else [] }
    | none => { k1.setBank b with pc := k.pc + BitVec.ofNat 16 len, looped := false }

/-! ### Relocation of the main bank's spill registers (R114) -/

def Bank.relocate (b : Bank) (d : W16) : Bank :=
  { b with dsb := b.dsb + d, dsl := b.dsl + d, dsp := b.dsp + d, rsb := b.rsb + d, rsl := b.rsl + d,
           rsp := b.rsp + d }

/-- STATUS changes; when LVL rises CBASE is added to the main spill registers, when it falls it is subtracted. -/
def Context.setStatus (k : Context) (s : Status) : Context :=
  let main :=
    if s.lvl && !k.status.lvl then k.main.relocate k.cbase
    else if !s.lvl && k.status.lvl then k.main.relocate (0 - k.cbase)
    else k.main
  { k with status := s, main := main, hangSent := k.hangSent && s.brake,
           limitNow := if s.brake && !k.status.brake then k.brakeLimit else k.limitNow }

/-! ### Taking a trap (R116, R118) -/

inductive TrapClass where
  | task | supervisor
  deriving DecidableEq, Repr

/-- A cause that is taken. -/
structure Cause where
  v : Nat
  cls : TrapClass
  detail : Nat
  info : Vector W16 4
  deriving DecidableEq, Repr

def Cause.word (c : Cause) (looped : Bool) : W16 :=
  BitVec.ofNat 16 (c.v % 64 + 128 * b2n looped + 256 * (c.detail % 256))

/-- The saved pair, the cause and STATUS of an entry other than a third fault; PC is not yet set. -/
def Context.enterRegs (k : Context) (c : Cause) (ra : W16) (looped : Bool) : Context × Nat :=
  let s := k.status
  if !s.stable then
    ({ k with dfRa := ra, dfSt := s.word, dfCause := c.word looped }.setStatus
      { s with shadow := true, df := true, tp := false, lvl := true, brake := true, stable := false }, 0)
  else match c.cls with
    | .supervisor =>
      ({ k with shdRa := ra, shdSt := s.word, cause := c.word looped, info := c.info }.setStatus
        { s with shadow := true, tp := false, lvl := true, brake := true, stable := false }, c.v)
    | .task =>
      ({ k with trapRa := ra, trapSt := s.word, cause := c.word looped, info := c.info }.setStatus
        { s with tp := true, lvl := true, brake := true, stable := false }, c.v)

/-! ### Reports to the stage controller (R450) -/

abbrev causeResidue : Nat := 0x01
abbrev causeHbmCrc : Nat := 0x02
abbrev causeMirror : Nat := 0x03
abbrev causeDepot : Nat := 0x04
abbrev causeParity : Nat := 0x05
abbrev causeFault3 : Nat := 0x06
abbrev causeLog : Nat := 0x07
abbrev causeReload : Nat := 0x08
abbrev causeOverflow : Nat := 0x09
abbrev causeStageCtl : Nat := 0x0A
abbrev causeCommand : Nat := 0x0B
abbrev causeRepeat : Nat := 0x0C

/-- An event of a unit, stamped in its domain `d` (R510). -/
def Chip.recEvent (m : Chip) (cause : Nat) (unit : BitVec 16) (addr d : Nat) : RecEvent where
  cause := cause
  unit := unit
  addr := BitVec.ofNat 64 addr
  stamp := m.stamp d
  coach := none
  nth := 0
  demand := false
  both := false
  restore := false
  task := 0
  retired := 0

/-- A detected error is reported to the stage controller (R450). -/
def Chip.report (m : Chip) (e : RecEvent) : Chip := { m with stg := { m.stg with events := m.stg.events ++ [e] } }

/-! ### Events on their way to a context (R98, R101) -/

/-- An event is sent; it waits for its delivery. -/
def Chip.sendTo (m : Chip) (e : Send) : Chip := { m with sends := m.sends ++ [e] }

/-- Event bits of a context are set. -/
def Chip.setEvents (m : Chip) (x : Ctx) (bits : W16) : Chip := m.modCtx x fun k => { k with events := k.events ||| bits }

end Sys2Proof.Machine
end

