-- ==== Sys2Proof/Machine/Mem.lean ====
section
/-! DEFINITION. Device memory, byte by byte, in the part's little-endian order. -/
namespace Sys2Proof.Machine

/-- The value of a byte. -/
def MByte.value : MByte → Byte
  | .val b => b
  | .free s n => Config.freeByte s n

/-- What an unlisted byte holds: zero (R40 step 5: HBM, depot data arrays and operand buffers are zeroed; R286), or in an
area of open layout a free value. -/
def memDef (v : List Veil) (a : Nat) : MByte :=
  match v.find? fun w => decide (w.lo ≤ a ∧ a < w.lo + w.n) with
  | some w => .free a w.mark
  | none => .val 0

def Chip.memCell (m : Chip) (a : Nat) : MByte := smapGet (memDef m.veils) m.mem a

/-- Reads one byte. -/
def Chip.rdByte (m : Chip) (a : Nat) : Byte := (m.memCell a).value

def Chip.setCell (m : Chip) (a : Nat) (v : MByte) : Chip := { m with mem := smapSet (memDef m.veils) m.mem a v }

/-- Writes one byte. -/
def Chip.wrByte (m : Chip) (a : Nat) (b : Byte) : Chip := m.setCell a (.val b)

def Chip.rdBytes (m : Chip) (a : Nat) : Nat → List Byte
  | 0 => []
  | n + 1 => m.rdByte a :: m.rdBytes (a + 1) n

def Chip.wrBytes (m : Chip) (a : Nat) : List Byte → Chip
  | [] => m
  | b :: t => (m.wrByte a b).wrBytes (a + 1) t

/-- The number that bytes spell, the first byte least significant. -/
def leNat : List Byte → Nat
  | [] => 0
  | b :: t => b.toNat + 256 * leNat t

/-- `n` bytes of a number, least significant first. -/
def leBytes : Nat → Nat → List Byte
  | 0, _ => []
  | n + 1, v => BitVec.ofNat 8 v :: leBytes n (v / 256)

def Chip.rdLE (m : Chip) (a n : Nat) : Nat := leNat (m.rdBytes a n)

def Chip.wrLE (m : Chip) (a n v : Nat) : Chip := m.wrBytes a (leBytes n v)

/-- A range meets an area of open layout. -/
def Chip.veiled (m : Chip) (lo n : Nat) : Bool := m.veils.any fun v => decide (v.lo < lo + n ∧ lo < v.lo + v.n)

/-- Each byte of a range takes its own value. -/
def Chip.setCells (m : Chip) (lo n : Nat) (f : Nat → MByte) : Chip := (List.range n).foldl (fun m i => m.setCell (lo + i) (f i)) m

/-- A range of memory becomes zero. -/
def Chip.zeroMem (m : Chip) (lo n : Nat) : Chip :=
  if m.veiled lo n then m.setCells lo n fun _ => .val 0
  else { m with mem := smapErase (fun k => decide (lo ≤ k ∧ k < lo + n)) m.mem }

/-- A range is left open: it holds what the spec does not lay out. -/
def Chip.veilMem (m : Chip) (lo n : Nat) : Chip :=
  { m with
    mem := smapErase (fun k => decide (lo ≤ k ∧ k < lo + n)) m.mem
    veils := ⟨lo, n, m.tick⟩ :: m.veils.filter fun v => !(v.lo == lo && v.n == n)
    tick := m.tick + 1 }

/-- The cells of a range, as offsets from its start: what a copy of it holds. -/
def Chip.cellsOf (m : Chip) (lo n : Nat) : SMap MByte :=
  (m.mem.filter fun e => decide (lo ≤ e.1 ∧ e.1 < lo + n)).map fun e => (e.1 - lo, e.2)

/-- A range takes the cells that `cellsOf` gave. -/
def Chip.putCells (m : Chip) (lo n : Nat) (l : SMap MByte) : Chip :=
  let m1 := m.zeroMem lo n
  { m1 with mem := smapSetAll (memDef m1.veils) m1.mem (l.map fun e => (lo + e.1, e.2)) }

/-- A range is copied onto another that does not meet it. -/
def Chip.copyMem (m : Chip) (src dst n : Nat) : Chip :=
  if m.veiled src n || m.veiled dst n then m.setCells dst n fun i => m.memCell (src + i)
  else m.putCells dst n (m.cellsOf src n)

end Sys2Proof.Machine
end

