-- ==== Sys2Proof/Machine/HbmMap.lean ====
section
/-! DEFINITION. The device address map (R314, R436): the regions, the stacks, granules and mirrors. -/
namespace Sys2Proof.Machine

abbrev depotBase : Nat := 0x10000000000
abbrev coreBase : Nat := 0x20000000000
abbrev regBase : Nat := 0x30000000000

/-- What a device physical address names. -/
inductive Region where
  | hbm
  | depot (slice x : Nat)
  /-- Beyond every slice (R292). -/
  | depotHole
  | core (c row off : Nat)
  | regs (off : Nat)
  | none
  deriving DecidableEq, Repr

def regionOf (a : Nat) : Region :=
  if a < depotBase then .hbm
  else if a < depotBase + 0x20000000 then .depot ((a - depotBase) / 0x2000000) ((a - depotBase) % 0x2000000)
  else if a < coreBase then .depotHole
  else if a < coreBase + 64 * 0x400000 then
    .core ((a - coreBase) / 0x400000) ((a - coreBase) % 0x400000 / 0x200) ((a - coreBase) % 0x200)
  else if regBase ≤ a ∧ a < regBase + 0x08000000 then .regs (a - regBase)
  else .none

/-- Stack and stack-local address of an HBM address under the interleave mode in force (R314). -/
def Chip.stackOf (m : Chip) (a : Nat) : Nat × Nat :=
  if m.fld (K.hbmHbmCfg 0) F.hbmHbmCfgIlv = 0 then (a / 2 ^ 16 % 16, a / 2 ^ 20 % 2 ^ 20 * 2 ^ 16 + a % 2 ^ 16)
  else (4 * (a / 2 ^ 38 % 4) + a / 2 ^ 16 % 4, a / 2 ^ 18 % 2 ^ 20 * 2 ^ 16 + a % 2 ^ 16)

/-- The HBM address of a stack-local address: the inverse of R314. -/
def Chip.hbmAddr (m : Chip) (s l : Nat) : Nat :=
  if m.fld (K.hbmHbmCfg 0) F.hbmHbmCfgIlv = 0 then l / 2 ^ 16 * 2 ^ 20 + s % 16 * 2 ^ 16 + l % 2 ^ 16
  else s / 4 % 4 * 2 ^ 38 + l / 2 ^ 16 * 2 ^ 18 + s % 4 * 2 ^ 16 + l % 2 ^ 16

def cmemPage (c : Nat) : PageId := ⟨.cmem, c⟩
def depotPage (s : Nat) : PageId := ⟨.depot, s⟩
def hbmPage (s : Nat) : PageId := ⟨.hbm, s⟩

/-! ### Granules, tags and mirrors (R435, R436) -/

def granuleOf (a : Nat) : Nat := a / 65536

/-- The stack pair of stack `s` is enabled. -/
def Chip.pairOn (m : Chip) (s : Nat) : Bool := (m.reg K.stageGuard).getLsbD (s % 8)

abbrev mirrorSplit : Nat := 0x800000000

/-- The address of the mirror of a byte of HBM or of addressable depot, for a granule that can be guarded (R436). -/
def Chip.mirrorOf (m : Chip) (a : Nat) : Option Nat :=
  match regionOf a with
  | .hbm =>
    let sl := m.stackOf a
    if m.pairOn sl.1 ∧ sl.2 < 0x7FE000000 then some (m.hbmAddr (Nat.xor sl.1 8) (sl.2 + mirrorSplit)) else none
  | .depot s x => if m.pairOn s then some (m.hbmAddr (Nat.xor s 8) (0xFFE000000 + x)) else none
  | _ => none

/-- The address lies in the mirror area of an enabled pair. -/
def Chip.inMirror (m : Chip) (a : Nat) : Bool :=
  match regionOf a with
  | .hbm => m.pairOn (m.stackOf a).1 && decide (mirrorSplit ≤ (m.stackOf a).2)
  | _ => false

end Sys2Proof.Machine
end

