-- ==== Sys2Proof/Machine/DevMap.lean ====
section
/-! DEFINITION. The device address map (R277, R291, R292, R314), and the class tags, WRITTEN bits, mirrors and
registrations that the memory controllers keep for the stage controller (R435 to R440). -/
namespace Sys2Proof.Machine

def stagePage : PageId := ⟨.stage, 0⟩

/-! ### The device address map (R277, R291, R292, R314) -/

def Chip.tag (m : Chip) (g : Nat) : Nat := smapGet (fun _ => 0) m.stg.tags g

def Chip.written (m : Chip) (g : Nat) : Bool := smapGet (fun _ => false) m.stg.written g

def Chip.setTag (m : Chip) (g v : Nat) : Chip :=
  { m with stg := { m.stg with tags := smapSet (fun _ => 0) m.stg.tags g v } }

def Chip.setWritten (m : Chip) (g : Nat) : Chip :=
  { m with stg := { m.stg with written := smapSet (fun _ => false) m.stg.written g true } }

abbrev clsUnguarded : Nat := 0
abbrev clsGuarded : Nat := 1
abbrev clsReloadable : Nat := 2
abbrev clsScratch : Nat := 3

/-- The granule is guarded and written in this stage. -/
def Chip.dirty (m : Chip) (g : Nat) : Bool := decide (m.tag g = clsGuarded) && m.written g

abbrev stageId : BitVec 16 := 0x8005

/-- A record of the STAGE page. -/
def Chip.stageRecord (m : Chip) (code : Nat) (master : BitVec 16) (detail addr : Option Nat) : Chip :=
  m.record stagePage code master detail addr 32

/-! ### Registrations (R439) -/

def Registration.covers (r : Registration) (g : Nat) : Bool := decide (r.first ≤ g ∧ g < r.first + r.count)

def Chip.regUsed (m : Chip) : Chip := m.setFld K.stageRegUsed F.stageRegUsedCount m.stg.regist.length

/-- A registration ends: the tags of its range become unguarded. -/
def Chip.endReg (m : Chip) (r : Registration) : Chip :=
  Chip.regUsed { m with stg := { m.stg with
    regist := m.stg.regist.filter (· != r), tags := smapErase r.covers m.stg.tags } }

/-- A write reaches granule `g`: the registrations whose range holds it end, with a REG_LOST record. -/
def Chip.loseRegs (m : Chip) (master : BitVec 16) (g : Nat) : Chip :=
  (m.stg.regist.filter (·.covers g)).foldl
    (fun m r => (m.endReg r).stageRecord 0x82 master none (some (r.first * 65536))) m

/-! ### What a write and a read tell the stage controller (R435, R438, R440) -/

/-- A granule is written with a class, or with none. -/
def Chip.tagGranule (m : Chip) (master : BitVec 16) (g : Nat) (cls : Option Nat) : Chip :=
  let m1 := m.loseRegs master g
  let m2 := match cls with
    | none => m1
    | some c =>
      if c = clsGuarded ∧ m1.mirrorOf (g * 65536) = none then
        (m1.setTag g clsUnguarded).stageRecord 0x81 master none (some (g * 65536))
      else m1.setTag g c
  m2.setWritten g

/-- The granules of a range. -/
def granules (a n : Nat) : List Nat :=
  if n = 0 then [] else (List.range (granuleOf (a + n - 1) - granuleOf a + 1)).map (granuleOf a + ·)

def Chip.tagWrite (m : Chip) (master : BitVec 16) (a n : Nat) (cls : Option Nat) : Chip :=
  if master = stageId then m else (granules a n).foldl (fun m g => m.tagGranule master g cls) m

/-- The task whose handle is `t`. -/
def Chip.task (m : Chip) (t : W16) : Option Task := if t = 0 then none else m.sh.tasks.find? (·.handle == t)

/-- RMODE of a task: it is ended at every rollback (R384, R386). -/
def Task.abortMode (t : Task) : Bool := (t.words[2]).getLsbD 52

/-- A task reads a range: reading scratch written before the stage marks it stale (R440). -/
def Chip.scratchRead (m : Chip) (t : W16) (a n : Nat) : Chip :=
  match m.task t with
  | none => m
  | some k =>
    if k.abortMode then m
    else (granules a n).foldl (fun m g =>
      if m.tag g = clsScratch ∧ !m.written g ∧ a < coreBase then
        let m1 := m.stageRecord 0x83 0 (some t.toNat) (some (g * 65536))
        if m1.stg.stale.elem t then m1 else { m1 with stg := { m1.stg with stale := m1.stg.stale ++ [t] } }
      else m) m

/-! ### Fields of a TASK entry (R384) -/

def Task.fld (t : Task) (w hi lo : Nat) : Nat := (t.words.toList.getD w 0).toNat / 2 ^ lo % 2 ^ (hi + 1 - lo)

def Task.codeAddr (t : Task) : Nat := t.fld 1 63 0
def Task.codeWords (t : Task) : Nat := t.fld 2 15 0
def Task.clim (t : Task) : Nat := t.fld 2 31 16
def Task.mlim (t : Task) : Nat := t.fld 2 44 32
def Task.codeHost (t : Task) : Bool := t.fld 2 45 45 == 1
def Task.clear (t : Task) : Bool := t.fld 2 46 46 == 1
def Task.sideBits (t : Task) : Nat := t.fld 2 51 50
def Task.asid (t : Task) : Nat := t.fld 3 11 0
def Task.stk (t : Task) : Nat := t.fld 3 15 12
def Task.entry (t : Task) : Nat := t.fld 3 31 16
def Task.dsb (t : Task) : Nat := t.fld 3 47 32
def Task.rsb (t : Task) : Nat := t.fld 3 63 48
def Task.affinity (t : Task) (c : Nat) : Bool := (t.words[4]).getLsbD c
def Task.seed (t : Task) : W64 := t.words[5]
def Task.arg (t : Task) : W64 := t.words[6]
def Task.srbase (t : Task) : Nat := t.fld 7 55 0

end Sys2Proof.Machine
end

