-- ==== Sys2Proof/Machine/Formats.lean ====
section
/-! DEFINITION. Number formats (chapter 5): decoding to exact values, exact arithmetic, the one rounding of a
conversion, block scales, stochastic rounding and the status flags (R140 to R175). -/
namespace Sys2Proof.Machine

/-! ### Format codes and layouts (R140 to R150) -/

/-- What a floating format does with its all-ones exponent (R145, R146). -/
inductive Special where
  | ieee | e4m3 | finite
  deriving DecidableEq, Repr

/-- A floating-point layout (R145): exponent bits, fraction bits, bias. -/
structure Flt where
  ew : Nat
  fw : Nat
  bias : Nat
  sp : Special
  deriving DecidableEq, Repr

/-- A format (R140). -/
inductive Fmt where
  | fp (f : Flt)
  /-- A block-scaled format with floating elements (R151). -/
  | mx (f : Flt)
  /-- MXINT8: integer elements with the factor 2^-6. -/
  | mxint
  | sint (w : Nat)
  | uint (w : Nat)
  | acc
  | e8m0
  deriving DecidableEq, Repr

def fltFp64 : Flt := ⟨11, 52, 1023, .ieee⟩
def fltFp32 : Flt := ⟨8, 23, 127, .ieee⟩
def fltBf16 : Flt := ⟨8, 7, 127, .ieee⟩
def fltFp16 : Flt := ⟨5, 10, 15, .ieee⟩
def fltE4m3 : Flt := ⟨4, 3, 7, .e4m3⟩
def fltE5m2 : Flt := ⟨5, 2, 15, .ieee⟩
def fltE3m2 : Flt := ⟨3, 2, 3, .finite⟩
def fltE2m3 : Flt := ⟨2, 3, 1, .finite⟩
def fltE2m1 : Flt := ⟨2, 1, 1, .finite⟩

/-- The format of a code; none for a code that is not listed (R140, R141). -/
def Fmt.of : Nat → Option Fmt
  | 0x00 => some (.fp fltFp64)
  | 0x01 => some (.fp fltFp32)
  | 0x02 => some (.fp fltBf16)
  | 0x03 => some (.fp fltFp16)
  | 0x04 => some (.fp fltE4m3)
  | 0x05 => some (.fp fltE5m2)
  | 0x06 => some (.fp fltE3m2)
  | 0x07 => some (.fp fltE2m3)
  | 0x08 => some (.fp fltE2m1)
  | 0x10 => some (.mx fltE4m3)
  | 0x11 => some (.mx fltE5m2)
  | 0x12 => some (.mx fltE3m2)
  | 0x13 => some (.mx fltE2m3)
  | 0x14 => some (.mx fltE2m1)
  | 0x15 => some .mxint
  | 0x20 => some (.sint 64)
  | 0x21 => some (.sint 32)
  | 0x22 => some (.sint 16)
  | 0x23 => some (.sint 8)
  | 0x24 => some (.sint 4)
  | 0x28 => some (.uint 64)
  | 0x29 => some (.uint 32)
  | 0x2A => some (.uint 16)
  | 0x2B => some (.uint 8)
  | 0x2C => some (.uint 4)
  | 0x30 => some .acc
  | 0x31 => some .e8m0
  | _ => none

def Flt.width (f : Flt) : Nat := 1 + f.ew + f.fw

/-- Bits of an element. -/
def Fmt.bits : Fmt → Nat
  | .fp f | .mx f => f.width
  | .mxint | .e8m0 => 8
  | .sint w | .uint w => w
  | .acc => 128

/-- Bits of an element's place in a vector register: a 6-bit element has an 8-bit slot (R144, R182). -/
def Fmt.slot (F : Fmt) : Nat := if F.bits = 6 then 8 else F.bits

def Fmt.isMx : Fmt → Bool
  | .mx _ | .mxint => true
  | _ => false

def Fmt.isInt : Fmt → Bool
  | .sint _ | .uint _ => true
  | _ => false

/-! ### Flags (R175) -/

abbrev Flags := BitVec 7

def flInvalid : Flags := 0x01
def flDivzero : Flags := 0x02
def flOverflow : Flags := 0x04
def flUnderflow : Flags := 0x08
def flInexact : Flags := 0x10
def flSaturated : Flags := 0x20
def flFlushed : Flags := 0x40

def flIf (b : Bool) (f : Flags) : Flags := if b then f else 0

/-! ### Exact values (R158, R159) -/

/-- A decoded operand: `fin s m e` is (-1)^s m 2^e, a zero of its sign when m = 0. -/
inductive Val where
  | nan (signaling : Bool)
  | inf (neg : Bool)
  | fin (neg : Bool) (m : Nat) (e : Int)
  deriving DecidableEq, Repr

def Val.ofInt (n : Int) (e : Int) : Val := .fin (decide (n < 0)) n.natAbs e

/-- Decoding of a floating format (R145, R146, R159). -/
def Flt.decode (f : Flt) (b : Nat) : Val :=
  let neg := b / 2 ^ (f.ew + f.fw) % 2 == 1
  let E := b / 2 ^ f.fw % 2 ^ f.ew
  let fr := b % 2 ^ f.fw
  let num : Val :=
    if E = 0 then .fin neg fr (1 - (f.bias : Int) - f.fw)
    else .fin neg (2 ^ f.fw + fr) ((E : Int) - f.bias - f.fw)
  match f.sp with
  | .ieee =>
    if E = 2 ^ f.ew - 1 then (if fr = 0 then .inf neg else .nan (fr / 2 ^ (f.fw - 1) == 0)) else num
  | .e4m3 => if E = 15 ∧ fr = 7 then .nan false else num
  | .finite => num

/-- Two's complement value of the low `w` bits. -/
def signedOf (w b : Nat) : Int :=
  let v := b % 2 ^ w
  if 2 ^ (w - 1) ≤ v then (v : Int) - 2 ^ w else v

/-- The value at scale 2^k. -/
def Val.scale (k : Int) : Val → Val
  | .fin s m e => .fin s m (e + k)
  | v => v

/-- Decoding of an element (R152, R159): `x` is its block's scale, `S` the tile scale of ACC128. -/
def Fmt.decode (F : Fmt) (x : Nat) (S : Int) (b : Nat) : Val :=
  match F with
  | .fp f => f.decode b
  | .mx f => if x = 255 then .nan false else (f.decode b).scale ((x : Int) - 127)
  | .mxint => if x = 255 then .nan false else (Val.ofInt (signedOf 8 b) (-6)).scale ((x : Int) - 127)
  | .sint w => .ofInt (signedOf w b) 0
  | .uint w => .fin false (b % 2 ^ w) 0
  | .acc => .ofInt (signedOf 128 b) S
  | .e8m0 => if b = 255 then .nan false else .fin false 1 ((b : Int) - 127)

/-- Floor of the base-2 logarithm of a non-zero m 2^e. -/
def flog2 (m : Nat) (e : Int) : Int := (Nat.log2 m : Int) + e

def Val.isNan : Val → Bool
  | .nan _ => true
  | _ => false

def Val.isInf : Val → Bool
  | .inf _ => true
  | _ => false

/-- A signaling NaN operand sets INVALID (R147). -/
def Val.sigFlag : Val → Flags
  | .nan s => flIf s flInvalid
  | _ => 0

/-! ### Exact arithmetic (R160, R195) -/

def Val.neg : Val → Val
  | .nan s => .nan s
  | .inf n => .inf !n
  | .fin n m e => .fin (!n) m e

/-- The integer that (-1)^s m 2^e is at unit 2^q, for q at most e. -/
def atUnit (s : Bool) (m : Nat) (e q : Int) : Int :=
  let v : Int := (m * 2 ^ (e - q).toNat : Nat)
  if s then -v else v

/-- Exact sum; an exact zero of unlike terms is +0, or -0 under RDN (R174, R195). -/
def Val.add (rm : Nat) (a b : Val) : Val × Flags :=
  match a, b with
  | .nan _, _ | _, .nan _ => (.nan false, a.sigFlag ||| b.sigFlag)
  | .inf s, .inf t => if s = t then (.inf s, 0) else (.nan false, flInvalid)
  | .inf s, _ => (.inf s, 0)
  | _, .inf t => (.inf t, 0)
  | .fin s m e, .fin t n f =>
    if m = 0 ∧ n = 0 ∧ s = t then (.fin s 0 0, 0)
    else
      let q := min e f
      let z := atUnit s m e q + atUnit t n f q
      if z = 0 then (.fin (rm == 2) 0 0, 0) else (.ofInt z q, 0)

/-- Exact product; infinity times zero is invalid. -/
def Val.mul (a b : Val) : Val × Flags :=
  match a, b with
  | .nan _, _ | _, .nan _ => (.nan false, a.sigFlag ||| b.sigFlag)
  | .inf s, .inf t => (.inf (s != t), 0)
  | .inf s, .fin t n _ => if n = 0 then (.nan false, flInvalid) else (.inf (s != t), 0)
  | .fin s m _, .inf t => if m = 0 then (.nan false, flInvalid) else (.inf (s != t), 0)
  | .fin s m e, .fin t n f => (.fin (s != t) (m * n) (e + f), 0)

/-- Numbers compared by value: zeros are equal (R202). None when either is NaN. -/
def Val.cmp (a b : Val) : Option Ordering :=
  match a, b with
  | .nan _, _ | _, .nan _ => none
  | .inf s, .inf t => some (if s = t then .eq else if s then .lt else .gt)
  | .inf s, _ => some (if s then .lt else .gt)
  | _, .inf t => some (if t then .gt else .lt)
  | .fin s m e, .fin t n f =>
    let q := min e f
    some (compare (atUnit s m e q) (atUnit t n f q))

/-- The maximum of IEEE 754-2019: NaN gives NaN, +0 is greater than -0 (R173). -/
def Val.max (a b : Val) : Val × Flags :=
  match a.cmp b with
  | none => (.nan false, a.sigFlag ||| b.sigFlag)
  | some .lt => (b, 0)
  | some .gt => (a, 0)
  | some .eq => match a with
    | .fin true 0 _ => (b, 0)
    | _ => (a, 0)

def Val.min (a b : Val) : Val × Flags :=
  match a.cmp b with
  | none => (.nan false, a.sigFlag ||| b.sigFlag)
  | some .lt => (a, 0)
  | some .gt => (b, 0)
  | some .eq => match a with
    | .fin false 0 _ => (b, 0)
    | _ => (a, 0)

/-! ### Seeded stochastic rounding (R171) -/

def srMix (z : W64) : W64 :=
  let z1 := (z ^^^ (z >>> 30)) * 0xBF58476D1CE4E5B9
  let z2 := (z1 ^^^ (z1 >>> 27)) * 0x94D049BB133111EB
  z2 ^^^ (z2 >>> 31)

def srKey (seed : W64) (src : Nat) (n : W64) : W64 :=
  srMix (seed ^^^ (BitVec.ofNat 64 src <<< 56) ^^^ (n &&& 0x00FFFFFFFFFFFFFF))

/-- The random word of element `i`. -/
def srWord (key : W64) (i : Nat) : Nat := (srMix (key ^^^ BitVec.ofNat 64 i) >>> 32).toNat

/-- Conversion control (R163) with the key of the work item's random words. -/
structure Rc where
  rm : Nat
  sat : Bool
  key : W64
  deriving DecidableEq, Repr

def Rc.u (c : Rc) (i : Nat) : Nat := srWord c.key i

/-! ### The rounding decision (R164) -/

/-- m 2^e in units of 2^q: the whole part and the rest r of 2^k parts. -/
def splitUnit (m : Nat) (e q : Int) : Nat × Nat × Nat :=
  if q ≤ e then (m * 2 ^ (e - q).toNat, 0, 0)
  else
    let k := (q - e).toNat
    (m / 2 ^ k, m % 2 ^ k, k)

/-- Whether rounding goes away from zero: `odd` is the least retained bit, r / 2^k the part below the unit. -/
def roundUp (rm : Nat) (neg odd : Bool) (r k u : Nat) : Bool :=
  match rm with
  | 0 => decide (2 ^ k < 2 * r) || (decide (2 ^ k = 2 * r) && odd)
  | 1 => false
  | 2 => neg && decide (r ≠ 0)
  | 3 => !neg && decide (r ≠ 0)
  | 4 => decide (2 ^ k ≤ 2 * r)
  | _ => decide (2 ^ 32 ≤ u + r * 2 ^ 32 / 2 ^ k)

/-- m 2^e rounded to a whole number of units 2^q: the number, whether it went up, whether it is inexact. -/
def roundUnit (rm : Nat) (neg : Bool) (m : Nat) (e q : Int) (u : Nat) : Nat × Bool × Bool :=
  let s := splitUnit m e q
  let up := roundUp rm neg (s.1 % 2 == 1) s.2.1 s.2.2 u
  (if up then s.1 + 1 else s.1, up, decide (s.2.1 ≠ 0))

/-! ### Floating targets (R165 to R167) -/

def Flt.sign (f : Flt) (neg : Bool) : Nat := if neg then 2 ^ (f.ew + f.fw) else 0

/-- The bits of the largest finite magnitude (R145). -/
def Flt.maxBits (f : Flt) : Nat :=
  match f.sp with
  | .ieee => 2 ^ (f.ew + f.fw) - 2 ^ f.fw - 1
  | .e4m3 => 2 ^ (f.ew + f.fw) - 2
  | .finite => 2 ^ (f.ew + f.fw) - 1

/-- The bits of infinity. -/
def Flt.infBits (f : Flt) : Nat := (2 ^ f.ew - 1) * 2 ^ f.fw

/-- The canonical NaN (R147). -/
def Flt.nanBits (f : Flt) : Nat :=
  match f.sp with
  | .e4m3 => 0x7F
  | _ => f.infBits + 2 ^ (f.fw - 1)

/-- Exponent of the unit of the smallest binade. -/
def Flt.qmin (f : Flt) : Int := 1 - (f.bias : Int) - f.fw

/-- The overflow result (R166); `up` is the direction that SR chose. -/
def Flt.overflow (f : Flt) (rm : Nat) (sat neg up : Bool) : Nat × Flags :=
  let toInf := !sat && match rm with
    | 0 | 4 => true
    | 1 => false
    | 2 => neg
    | 3 => !neg
    | _ => up
  let fl := flOverflow ||| flInexact
  let top := (f.sign neg + f.maxBits, fl ||| flSaturated)
  match f.sp with
  | .finite => top
  | .e4m3 => if toInf then (0x7F, fl) else top
  | .ieee => if toInf then (f.sign neg + f.infBits, fl) else top

/-- A value rounded once into a floating format: its bits and flags. -/
def Flt.encode (f : Flt) (c : Rc) (i : Nat) : Val → Nat × Flags
  | .nan s => match f.sp with
    | .finite => (0, flInvalid)
    | _ => (f.nanBits, flIf s flInvalid)
  | .inf n => match f.sp with
    | .ieee => (f.sign n + f.infBits, 0)
    | .e4m3 => if c.sat then (f.sign n + f.maxBits, flSaturated) else (0x7F, 0)
    | .finite => (f.sign n + f.maxBits, flOverflow ||| flSaturated)
  | .fin n m e =>
    if m = 0 then (f.sign n, 0)
    else
      let q := max (flog2 m e - f.fw) f.qmin
      let r := roundUnit c.rm n m e q (c.u i)
      let b := (q - f.qmin).toNat * 2 ^ f.fw + r.1
      if f.maxBits < b then f.overflow c.rm c.sat n r.2.1
      else (f.sign n + b, flIf r.2.2 (flInexact ||| flIf (decide (b < 2 ^ f.fw)) flUnderflow))

/-! ### Integer, ACC128 and E8M0 targets (R164, R166 to R169) -/

/-- A value rounded to an integer number of units 2^q and limited to [lo, hi]; `uns` for an unsigned target. -/
def intRound (lo hi : Int) (uns : Bool) (q : Int) (c : Rc) (i : Nat) : Val → Int × Flags
  | .nan _ => (0, flInvalid)
  | .inf n => (if n then lo else hi, flInvalid ||| flSaturated)
  | .fin n m e =>
    let r := roundUnit c.rm n m e q (c.u i)
    let v : Int := if n then -(r.1 : Int) else r.1
    if uns && decide (v < 0) then (0, flInvalid)
    else if hi < v then (hi, flOverflow ||| flInexact ||| flSaturated)
    else if v < lo then (lo, flOverflow ||| flInexact ||| flSaturated)
    else (v, flIf r.2.2 flInexact)

/-- The low `w` bits of an integer. -/
def intBits (w : Nat) (v : Int) : Nat := (v % 2 ^ w).toNat

def accLo : Int := -2 ^ 127
def accHi : Int := 2 ^ 127 - 1

/-- Rounding to an ACC128 element of scale S (R164, R169). -/
def accRound (S : Int) (c : Rc) (i : Nat) (v : Val) : Int × Flags := intRound accLo accHi false S c i v

def e8m0Encode (c : Rc) (i : Nat) : Val → Nat × Flags
  | .nan _ => (0xFF, 0)
  | .inf n => if n then (0xFF, flInvalid) else (if c.sat then 0xFE else 0xFF, 0)
  | .fin n m e =>
    if m = 0 then (0x00, flInexact)
    else if n then (0xFF, flInvalid)
    else
      let k := flog2 m e
      if k < -127 then (0x00, flUnderflow ||| flInexact)
      else
        let s := splitUnit m e k
        let up := roundUp c.rm false ((k + 127) % 2 == 1) s.2.1 s.2.2 (c.u i)
        let k' := if up then k + 1 else k
        if 127 < k' then
          (if c.sat then 0xFE else 0xFF, flOverflow ||| flInexact ||| flIf c.sat flSaturated)
        else ((k' + 127).toNat, flIf (decide (s.2.1 ≠ 0)) flInexact)

/-- A value rounded once into a format that has no block scale (R162); S is the scale of an ACC128 target, i the index
of the element's random word. -/
def Fmt.encode (F : Fmt) (S : Int) (c : Rc) (i : Nat) (v : Val) : Nat × Flags :=
  match F with
  | .fp f => f.encode c i v
  | .sint w => let r := intRound (-2 ^ (w - 1)) (2 ^ (w - 1) - 1) false 0 c i v; (intBits w r.1, r.2)
  | .uint w => let r := intRound 0 (2 ^ w - 1) true 0 c i v; (intBits w r.1, r.2)
  | .acc => let r := accRound S c i v; (intBits 128 r.1, r.2)
  | .e8m0 => e8m0Encode c i v
  | .mx f => f.encode c i v
  | .mxint => let r := intRound (-127) 127 false (-6) c i v; (intBits 8 r.1, r.2)

/-! ### Block-scaled targets (R151 to R157) -/

/-- An element format of a block: floating, or the integer of MXINT8. -/
inductive MxElem where
  | flt (f : Flt)
  | int8
  deriving DecidableEq, Repr

def Fmt.mxElem : Fmt → Option MxElem
  | .mx f => some (.flt f)
  | .mxint => some .int8
  | _ => none

/-- EMAX of an element format (R151). -/
def MxElem.emax : MxElem → Int
  | .flt f => match f.sp with
    | .ieee => (2 ^ f.ew : Int) - 2 - f.bias
    | _ => (2 ^ f.ew : Int) - 1 - f.bias
  | .int8 => 0

def MxElem.hasInf : MxElem → Bool
  | .flt f => f.sp == .ieee
  | .int8 => false

/-- The element of the largest magnitude, of sign `n`. -/
def MxElem.top (F : MxElem) (n : Bool) : Nat :=
  match F with
  | .flt f => f.sign n + f.maxBits
  | .int8 => intBits 8 (if n then -127 else 127)

/-- One finite element divided by the block's scale and rounded once: bits, whether it exceeds the largest, whether it is
inexact, whether it is zero. -/
def MxElem.round (F : MxElem) (c : Rc) (i : Nat) (n : Bool) (m : Nat) (e : Int) : Nat × Bool × Bool × Bool :=
  match F with
  | .flt f =>
    let q := if m = 0 then f.qmin else max (flog2 m e - f.fw) f.qmin
    let r := roundUnit c.rm n m e q (c.u i)
    let b := (q - f.qmin).toNat * 2 ^ f.fw + r.1
    (f.sign n + b, decide (f.maxBits < b), r.2.2, decide (r.1 = 0))
  | .int8 =>
    let r := roundUnit c.rm n m e (-6) (c.u i)
    (intBits 8 (if n then -(r.1 : Int) else r.1), decide (127 < r.1), r.2.2, decide (r.1 = 0))

/-- Position of the largest of some finite magnitudes: the greatest floor of the logarithm. -/
def amaxLog : List Val → Option Int
  | [] => none
  | .fin _ m e :: t =>
    if m = 0 then amaxLog t
    else match amaxLog t with
      | none => some (flog2 m e)
      | some k => some (max (flog2 m e) k)
  | _ :: t => amaxLog t

/-- One element of a block: bits, whether it was flushed to zero, flags. -/
def mxElement (F : MxElem) (c : Rc) (E : Int) (i : Nat) : Val → Nat × Bool × Flags
  | .nan _ => (0, false, 0)
  | .inf n =>
    if c.sat then (F.top n, false, flOverflow ||| flSaturated)
    else match F with
      | .flt f => (f.sign n + f.infBits, false, 0)
      | .int8 => (0, false, 0)
  | .fin n m e =>
    let r := F.round c i n m (e - E)
    if r.2.1 then (F.top n, false, flInexact ||| flIf (decide (E = 127)) (flOverflow ||| flSaturated))
    else
      let fl := decide (m ≠ 0) && r.2.2.2
      (r.1, fl, flIf r.2.2.1 flInexact ||| flIf fl (flUnderflow ||| flFlushed))

/-- A block of at most 32 values, the first with index `i0`: its scale, its elements with their flushed marks, and the
flags (R155 to R157; missing positions act as +0). -/
def mxEncode (F : MxElem) (c : Rc) (i0 : Nat) (xs : List Val) : Nat × List (Nat × Bool) × Flags :=
  if xs.any Val.isNan || (xs.any Val.isInf && !c.sat && !F.hasInf) then
    (0xFF, xs.map fun _ => (0, false), flInvalid)
  else
    let E := match amaxLog xs with
      | none => -127
      | some k => max (-127) (min 127 (k - F.emax))
    let es := xs.mapIdx fun j x => mxElement F c E (i0 + j) x
    ((E + 127).toNat, es.map fun r => (r.1, r.2.1), es.foldl (fun f r => f ||| r.2.2) 0)

/-! ### Estimates (R196) -/

/-- 1 / m in units: the value rounded to nearest-even at 12 fraction bits. -/
def recipEst (n : Bool) (m : Nat) (e : Int) : Val :=
  let L := Nat.log2 m
  let s := 12 + (if m = 2 ^ L then L else L + 1)
  let a := 2 ^ s / m
  let r := 2 ^ s % m
  .fin n (if m < 2 * r ∨ (m = 2 * r ∧ a % 2 = 1) then a + 1 else a) (-(s : Int) - e)

/-- The largest number whose square is at most `t`, from bit `b` down. -/
def sqrtBits (t : Nat) : Nat → Nat → Nat
  | 0, n => n
  | b + 1, n => sqrtBits t b (if (n + 2 ^ b) * (n + 2 ^ b) ≤ t then n + 2 ^ b else n)

/-- 1 / √(m 2^e) rounded to nearest-even at 12 fraction bits. -/
def rsqrtEst (m : Nat) (e : Int) : Val :=
  let L := Nat.log2 m
  let E : Int := -(e + (if m = 2 ^ L then (L : Int) else L + 1))
  let h := E / 2
  let s := (24 - 2 * h - e).toNat
  let n := sqrtBits (2 ^ s / m) 16 0
  let x := (2 * n + 1) * (2 * n + 1) * m
  .fin false (if x < 4 * 2 ^ s ∨ (x = 4 * 2 ^ s ∧ n % 2 = 1) then n + 1 else n) (h - 12)

/-- VFRECE. The rounding of the estimate to its own fraction bits sets no INEXACT, here and in VFRSQE: only the rounding into the
element format does (DESIGN CHOICE, log entry 95). -/
def Val.recip : Val → Val × Flags
  | .nan s => (.nan false, flIf s flInvalid)
  | .inf n => (.fin n 0 0, 0)
  | .fin n m e => if m = 0 then (.inf n, flDivzero) else (recipEst n m e, 0)

def Val.rsqrt : Val → Val × Flags
  | .nan s => (.nan false, flIf s flInvalid)
  | .inf n => if n then (.nan false, flInvalid) else (.fin false 0 0, 0)
  | .fin n m e =>
    if m = 0 then (.inf n, flDivzero)
    else if n then (.nan false, flInvalid)
    else (rsqrtEst m e, 0)

end Sys2Proof.Machine
end

