-- ==== Sys2Proof/Machine/VecOps.lean ====
section
/-! DEFINITION. The vector operations on the vector state (chapter 6): element access, the checks of R216 and what each
operation writes (R181 to R209). -/
namespace Sys2Proof.Machine

/-! ### Configuration in force (R182, R183) -/

def VCfg.code (k : VCfg) : Nat := k.vtype.toNat % 64
def VCfg.group (k : VCfg) : Nat := 2 ^ (k.vtype.toNat / 64 % 4)
def VCfg.mreg (k : VCfg) : Nat := k.vctl.toNat % 8
def VCfg.mzero (k : VCfg) : Bool := k.vctl.getLsbD 3
def VCfg.rm (k : VCfg) : Nat := k.vctl.toNat / 16 % 8
def VCfg.sat (k : VCfg) : Bool := k.vctl.getLsbD 7
def VCfg.accs (k : VCfg) : Int := signedOf 12 (k.vctl.toNat / 2 ^ 16)

/-- FMT; VTYPE never holds an invalid code (R185). -/
def VCfg.fmt (k : VCfg) : Fmt := (Fmt.of k.code).getD (.fp fltFp64)

/-- The operation of a vector entry, `true` for its scalar form. -/
def VEntry.op (e : VEntry) : VOp × Bool :=
  match decodeOp e.word with
  | some (.vec o s) => (o, s)
  | _ => (.vid, false)

def VecEngine.cfg (k : VecEngine) : VCfg := { vl := k.vl, vtype := k.vtype, vctl := k.vctl }

/-- Elements of a format in one register. -/
def perReg (F : Fmt) : Nat := 32768 / F.slot

/-- VLMAX of a format code and a group size (R182). -/
def vlMax (F : Fmt) (g : Nat) : Nat := perReg F * g

/-! ### Descriptor fields (R95) -/

def VEntry.me (e : VEntry) : Bool := e.desc.getLsbD 15
def VEntry.vd (e : VEntry) : Nat := e.desc.toNat / 1024 % 32
def VEntry.vs1 (e : VEntry) : Nat := e.desc.toNat / 32 % 32
def VEntry.vs2 (e : VEntry) : Nat := e.desc.toNat % 32

/-! ### Elements (R144, R182) -/

/-- Register number `r`; a register past v31 exists only for an unchecked group (R203) and is left open. -/
def VecEngine.reg (k : VecEngine) (r : Nat) : BitVec 32768 :=
  if h : r < 32 then k.v[r] else Config.beyondVreg r

def VecEngine.setVreg (k : VecEngine) (r : Nat) (x : BitVec 32768) : VecEngine :=
  if h : r < 32 then { k with v := k.v.set r x } else k

/-- Bits of element `i` of the group at `base`; of a 6-bit slot, bits [5:0]. -/
def VecEngine.elem (k : VecEngine) (F : Fmt) (base i : Nat) : Nat :=
  ((k.reg (base + i / perReg F)).extractLsb' (i % perReg F * F.slot) F.slot).toNat % 2 ^ F.bits

/-- The word with the `n` bits from bit `lo` on replaced. -/
def putBits {w : Nat} (x : BitVec w) (lo n v : Nat) : BitVec w :=
  (x &&& ~~~ (BitVec.ofNat w (2 ^ n - 1) <<< lo)) ||| (BitVec.ofNat w (v % 2 ^ n) <<< lo)

/-- Writes element `i` of the group at `base`; bits [7:6] of a 6-bit slot read 0. -/
def VecEngine.setElem (k : VecEngine) (F : Fmt) (base i v : Nat) : VecEngine :=
  let r := base + i / perReg F
  k.setVreg r (putBits (k.reg r) (i % perReg F * F.slot) F.slot (v % 2 ^ F.bits))

def VecEngine.mbit (k : VecEngine) (m i : Nat) : Bool := (k.msk[m % 8]'(by omega)).getLsbD i

def VecEngine.setMask (k : VecEngine) (m : Nat) (f : BitVec 8192 → BitVec 8192) : VecEngine :=
  { k with msk := k.msk.set (m % 8) (f (k.msk[m % 8]'(by omega))) (by omega) }

def VecEngine.setMbit (k : VecEngine) (m i : Nat) (b : Bool) : VecEngine :=
  k.setMask m fun x => putBits x i 1 (b2n b)

/-- Body position `i` is active (R186). -/
def VecEngine.active (k : VecEngine) (c : VCfg) (e : VEntry) (i : Nat) : Bool := !e.me || k.mbit c.mreg i

/-- The active positions in ascending order. -/
def VecEngine.actives (k : VecEngine) (c : VCfg) (e : VEntry) : List Nat :=
  (List.range c.vl.toNat).filter (k.active c e)

/-! ### What an operation has written -/

/-- One element result (R176): the register it went to, its bits and format, the scale it is counted at, and whether it
was flushed (R156). -/
structure VElem where
  reg : Nat
  fmt : Fmt
  bits : Nat
  x : Nat
  S : Int
  flushed : Bool
  deriving DecidableEq, Repr

/-- The outcome of an operation: the engine, the flags, and the element results. -/
structure VOut where
  eng : VecEngine
  flags : Flags
  elems : List VElem
  deriving DecidableEq, Repr

def VecEngine.out (k : VecEngine) : VOut := { eng := k, flags := 0, elems := [] }

/-- Writes element `i` as a result. -/
def VOut.put (o : VOut) (F : Fmt) (base i v : Nat) (x : Nat) (S : Int) (flushed : Bool) : VOut :=
  { o with eng := o.eng.setElem F base i v,
           elems := ⟨base + i / perReg F, F, v % 2 ^ F.bits, x, S, flushed⟩ :: o.elems }

def VOut.flag (o : VOut) (f : Flags) : VOut := { o with flags := o.flags ||| f }

/-- The scale at which an element that carries no computed scale is counted (R178): an MX element at 2^0, an ACC128
element at ACCS. -/
def VCfg.plainScale (c : VCfg) (F : Fmt) : Int := if F = .acc then c.accs else 0

def VOut.putPlain (o : VOut) (c : VCfg) (F : Fmt) (base i v : Nat) : VOut := o.put F base i v 127 (c.plainScale F) false

/-- Masked-off body positions of a destination receive the zero of the format when MZERO is 1 (R187). -/
def VOut.maskZero (o : VOut) (k : VecEngine) (c : VCfg) (e : VEntry) (F : Fmt) (base lo : Nat) : VOut :=
  if e.me && c.mzero then
    { o with eng := (List.range c.vl.toNat).foldl (fun g i =>
        if lo ≤ i ∧ !k.mbit c.mreg i then g.setElem F base i 0 else g) o.eng }
  else o

/-- Elementwise: `f` gives the bits and flags of every active position; masked-off positions follow MZERO. -/
def VecEngine.each (k : VecEngine) (c : VCfg) (e : VEntry) (F : Fmt) (base : Nat) (S : Int)
    (f : Nat → Nat × Flags) : VOut :=
  let o := (k.actives c e).foldl (fun o i => ((o.put F base i (f i).1 127 S false).flag (f i).2)) k.out
  o.maskZero k c e F base 0

/-! ### Operands -/

/-- The scalar of a VF form as an element: the low bits of f, sign-extended for ACC128 (R194, R197, R201). -/
def VEntry.scalar (e : VEntry) (F : Fmt) : Nat :=
  match F with
  | .acc => intBits 128 e.f.toInt
  | _ => e.f.toNat % 2 ^ F.bits

/-- Operand a: vs1[i], or the scalar. -/
def VecEngine.opA (k : VecEngine) (e : VEntry) (F : Fmt) (i : Nat) : Nat :=
  if e.op.2 then e.scalar F else k.elem F e.vs1 i

def VecEngine.opB (k : VecEngine) (e : VEntry) (F : Fmt) (i : Nat) : Nat := k.elem F e.vs2 i

/-- Conversion control of an entry (R183): RM and SAT of VCTL and the key of its random words. -/
def VCfg.rc (c : VCfg) (key : W64) : Rc := { rm := c.rm, sat := c.sat, key := key }

/-! ### Floating-point arithmetic (R194 to R196) -/

/-- a × b + c with one exact value; zero times infinity with a quiet NaN as c may or may not set INVALID. -/
def fmaVal (rm : Nat) (a b c : Val) : Val × Flags :=
  let p := a.mul b
  let s := p.1.add rm c
  let fl := match c with
    | .nan false => if a.isNan || b.isNan then p.2 else if p.1.isNan then flIf Config.fmaQuietInvalid flInvalid else 0
    | _ => p.2
  (s.1, fl ||| s.2)

def Val.half : Val → Val
  | .fin s m e => .fin s m (e - 1)
  | v => v

/-- The exact result of an operation of group 0x21 on a, b and the old element c of vd. -/
def floatExact (o : VOp) (rm : Nat) (a b c : Val) : Val × Flags :=
  match o with
  | .vfadd => a.add rm b
  | .vfsub => a.add rm b.neg
  | .vfmul => a.mul b
  | .vfmin => a.min b
  | .vfmax => a.max b
  | .vfma => fmaVal rm a b c
  | .vfms => fmaVal rm a b c.neg
  | .vfnma => fmaVal rm a.neg b c
  | .vfrece => b.recip
  | .vfrsqe => b.rsqrt
  | .vfrecs => fmaVal rm a.neg b (.fin false 2 0)
  | _ => let r := fmaVal rm a.neg b (.fin false 3 0); (r.1.half, r.2)

/-- The operations of group 0x21 that act on the sign bit alone. -/
def signOp (o : VOp) (F : Fmt) (a b : Nat) : Option Nat :=
  let s := 2 ^ (F.bits - 1)
  match o with
  | .vfsgnj => some (b % s + a / s % 2 * s)
  | .vfabs => some (b % s)
  | .vfneg => some (b % s + (1 - b / s % 2) * s)
  | _ => none

def VecEngine.execFloat (k : VecEngine) (c : VCfg) (e : VEntry) (key : W64) : VOut :=
  let F := c.fmt
  let o := e.op.1
  let rc : Rc := { rm := c.rm, sat := false, key := key }
  k.each c e F e.vd 0 fun i =>
    let a := k.opA e F i
    let b := k.opB e F i
    match signOp o F a b with
    | some r => (r, 0)
    | none =>
      let x := floatExact o c.rm (F.decode 127 0 a) (F.decode 127 0 b) (F.decode 127 0 (k.elem F e.vd i))
      let r := F.encode 0 rc i x.1
      (r.1, x.2 ||| r.2)

/-! ### Integer and ACC128 arithmetic (R197) -/

def popBits : Nat → Nat → Nat
  | 0, _ => 0
  | n + 1, v => v % 2 + popBits n (v / 2)

/-- An integer result before it wraps; `sg` for INT codes, w the width. -/
def intExact (o : VOp) (sg : Bool) (w a b : Nat) : Int :=
  let sa : Int := if sg then signedOf w a else a
  let sb : Int := if sg then signedOf w b else b
  match o with
  | .vadd => (a : Int) + b
  | .vsub => (a : Int) - b
  | .vmul => (a : Int) * b
  | .vmulh => sa * sb / 2 ^ w
  | .vmin => if sa < sb then sa else sb
  | .vmax => if sa < sb then sb else sa
  | .vand => (a &&& b : Nat)
  | .vor => (a ||| b : Nat)
  | .vxor => (a ^^^ b : Nat)
  | .vshl => (b * 2 ^ (a % w) : Nat)
  | .vshr => sb / 2 ^ (a % w)
  | _ => popBits w b

/-- A sum limited to the ACC128 range: the limit sets OVERFLOW and SATURATED. -/
def accLimit (v : Int) : Int × Flags :=
  if accHi < v then (accHi, flOverflow ||| flSaturated)
  else if v < accLo then (accLo, flOverflow ||| flSaturated)
  else (v, 0)

def VecEngine.execInt (k : VecEngine) (c : VCfg) (e : VEntry) : VOut :=
  let F := c.fmt
  let o := e.op.1
  match F with
  | .acc =>
    k.each c e F e.vd c.accs fun i =>
      let a := signedOf 128 (k.opA e F i)
      let b := signedOf 128 (k.opB e F i)
      let r := accLimit (if o = .vsub then a - b else a + b)
      (intBits 128 r.1, r.2)
  | _ =>
    let sg := match F with
      | .sint _ => true
      | _ => false
    k.each c e F e.vd 0 fun i =>
      let a := if e.op.2 && (o == .vshl || o == .vshr) then e.x.toNat else k.opA e F i
      (intBits F.bits (intExact o sg F.bits a (k.opB e F i)), 0)

/-! ### Conversion (R198, R199) -/

/-- Source element i decoded, with its block's scale from register vs1 (R199) or the tile scale ACCS. -/
def VecEngine.source (k : VecEngine) (c : VCfg) (e : VEntry) (i : Nat) : Val :=
  let F := c.fmt
  let x := ((k.reg e.vs1).extractLsb' (i / 32 * 8) 8).toNat
  F.decode x c.accs (k.elem F e.vs2 i)

/-- One block of an MX target: elements and scale byte. R199 puts the last block under R157: its missing positions are
written with zero bits, though they are tail (DEDUCED from R157 against the general rule R187, log entry 45). -/
def VecEngine.cvtBlock (k : VecEngine) (c : VCfg) (e : VEntry) (T : Fmt) (M : MxElem) (rc : Rc) (o : VOut) (j : Nat) :
    VOut :=
  let n := min 32 (c.vl.toNat - 32 * j)
  let r := mxEncode M rc (32 * j) ((List.range n).map fun i => k.source c e (32 * j + i))
  let o0 := (r.2.1.zipIdx).foldl (fun o q => o.put T e.vd (32 * j + q.2) q.1.1 r.1 0 q.1.2) o
  let o1 := { o0 with eng := (List.range (32 - n)).foldl (fun k i => k.setElem T e.vd (32 * j + n + i) 0) o0.eng }
  { o1 with eng := o1.eng.setVreg e.vs1 (putBits (o1.eng.reg e.vs1) (j * 8) 8 r.1), flags := o1.flags ||| r.2.2 }

/-- The target of a conversion and the scale of an ACC128 target. -/
def VEntry.target (e : VEntry) (c : VCfg) : Option Fmt × Int :=
  if e.op.1 = .vrescale then (some .acc, signedOf 12 e.x.toNat) else (Fmt.of (e.x.toNat % 64), c.accs)

def VecEngine.execCvt (k : VecEngine) (c : VCfg) (e : VEntry) (key : W64) : VOut :=
  let rc := c.rc key
  match e.target c with
  | (some T, S) =>
    match T.mxElem with
    | some M => (List.range ((c.vl.toNat + 31) / 32)).foldl (k.cvtBlock c e T M rc) k.out
    | none => k.each c e T e.vd (if T = .acc then S else 0) fun i => T.encode S rc i (k.source c e i)
  | (none, _) => k.out

/-! ### The compensated add (R200) -/

/-- s and r with their flags, from x, r and u. -/
def cadd (f : Flt) (rm : Nat) (key : W64) (i : Nat) (x r u : Val) : Nat × Nat × Flags :=
  let all := [x, r, u]
  let rc : Rc := { rm := rm, sat := false, key := key }
  if all.any Val.isNan || (all.elem (.inf true) && all.elem (.inf false)) then (f.nanBits, 0, flInvalid)
  else if all.any Val.isInf then ((f.encode rc i (.inf (all.elem (.inf true)))).1, 0, 0)
  else
    let q (v : Val) : Int := match v with
      | .fin _ _ e => e
      | _ => 0
    let w (v : Val) (e0 : Int) : Int := match v with
      | .fin s m e => atUnit s m e e0
      | _ => 0
    let e0 := min (q x) (min (q r) (q u))
    let z := w x e0 + w r e0 + w u e0
    if z = 0 then (f.sign (rm == 2), 0, 0)
    else
      let s := f.encode rc i (.ofInt z e0)
      if s.2 &&& flOverflow ≠ 0 then (s.1, 0, s.2)
      else
        let d := (Val.ofInt z e0).add 0 (f.decode s.1).neg
        let t := f.encode { rm := 0, sat := false, key := 0 } i d.1
        (s.1, t.1, s.2 ||| t.2)

def VecEngine.execCadd (k : VecEngine) (c : VCfg) (e : VEntry) (key : W64) : VOut :=
  let F := c.fmt
  match F with
  | .fp f =>
    let step (o : VOut) (i : Nat) : VOut :=
      let g (b : Nat) : Val := f.decode (k.elem F b i)
      let r := cadd f c.rm key i (g e.vd) (g e.vs1) (g e.vs2)
      (((o.put F e.vd i r.1 127 0 false).put F e.vs1 i r.2.1 127 0 false).flag r.2.2)
    let o := (k.actives c e).foldl step k.out
    (o.maskZero k c e F e.vd 0).maskZero k c e F e.vs1 0
  | _ => k.out

/-! ### Moves and compares (R201, R202) -/

def VecEngine.execMove (k : VecEngine) (c : VCfg) (e : VEntry) : VOut :=
  let F := c.fmt
  let S := c.plainScale F
  match e.op.1 with
  | .vmerge =>
    (List.range c.vl.toNat).foldl (fun o i =>
      o.putPlain c F e.vd i (k.elem F (if k.mbit c.mreg i then e.vs1 else e.vs2) i)) k.out
  | .vbcast => k.each c e F e.vd S fun _ => (e.scalar F, 0)
  | _ => k.each c e F e.vd S fun i => (k.elem F e.vs2 i, 0)

/-- The truth of a compare of x with a, and its flags. -/
def compareVals (o : VOp) (x a : Val) : Bool × Flags :=
  match x.cmp a with
  | none =>
    match o with
    | .vmeq => (false, x.sigFlag ||| a.sigFlag)
    | .vmne => (true, x.sigFlag ||| a.sigFlag)
    | _ => (false, flInvalid)
  | some r =>
    (match o with
      | .vmeq => r == .eq
      | .vmne => r != .eq
      | .vmlt => r == .lt
      | .vmle => r != .gt
      | .vmgt => r == .gt
      | _ => r != .lt, 0)

def VecEngine.execCompare (k : VecEngine) (c : VCfg) (e : VEntry) : VOut :=
  let F := c.fmt
  (List.range c.vl.toNat).foldl (fun o i =>
    if k.active c e i then
      let r := compareVals e.op.1 (F.decode 127 0 (k.opB e F i)) (F.decode 127 0 (k.opA e F i))
      { o with eng := o.eng.setMbit e.vd i r.1, flags := o.flags ||| r.2 }
    else if c.mzero then { o with eng := o.eng.setMbit e.vd i false }
    else o) k.out

/-! ### Reductions (R203 to R206) -/

/-- The ordered sum from element `lo` up to `hi` (R204): the running sum's bits and flags. -/
def VecEngine.sumOrdered (k : VecEngine) (c : VCfg) (e : VEntry) (f : Flt) (key : W64) (init lo hi : Nat) :
    Nat × Flags :=
  let rc : Rc := { rm := c.rm, sat := false, key := key }
  ((k.actives c e).filter fun i => decide (lo ≤ i ∧ i < hi)).foldl (fun a i =>
    let s := (f.decode a.1).add c.rm (f.decode (k.elem c.fmt e.vs2 i))
    let r := f.encode rc i s.1
    (r.1, a.2 ||| s.2 ||| r.2)) (init, 0)

/-- The smallest power of two that is at least n, or 1. -/
def pow2Above (n : Nat) : Nat := if n ≤ 1 then 1 else 2 ^ (Nat.log2 (n - 1) + 1)

/-- One level of the fixed tree: node j combines nodes 2j and 2j + 1 (R205). -/
def treeLevel (f : Flt) (rc : Rc) (ix : Nat) : Nat → List (Option Nat) → List (Option Nat) × Flags
  | j, a :: b :: t =>
    let rest := treeLevel f rc ix (j + 1) t
    match a, b with
    | some x, some y =>
      let s := (f.decode x).add rc.rm (f.decode y)
      let r := f.encode rc (ix + j) s.1
      (some r.1 :: rest.1, s.2 ||| r.2 ||| rest.2)
    | some x, none => (some x :: rest.1, rest.2)
    | none, y => (y :: rest.1, rest.2)
  | _, l => (l, 0)

/-- Levels until one node is left; P leaves in all. -/
def treeSum (f : Flt) (rc : Rc) (P : Nat) : Nat → List (Option Nat) → Option Nat × Flags
  | 0, l => (l.headD none, 0)
  | n + 1, l =>
    let r := treeLevel f rc (P - l.length) 0 l
    let s := treeSum f rc P n r.1
    (s.1, r.2 ||| s.2)

def VecEngine.sumTree (k : VecEngine) (c : VCfg) (e : VEntry) (f : Flt) (key : W64) (init : Nat) : Nat × Flags :=
  let rc : Rc := { rm := c.rm, sat := false, key := key }
  let P := pow2Above c.vl.toNat
  let leaves := (List.range P).map fun i =>
    if i < c.vl.toNat ∧ k.active c e i then some (k.elem c.fmt e.vs2 i) else none
  match treeSum f rc P (Nat.log2 P) leaves with
  | (none, fl) => (init, fl)
  | (some root, fl) =>
    let s := (f.decode init).add c.rm (f.decode root)
    let r := f.encode rc (P - 1) s.1
    (r.1, fl ||| s.2 ||| r.2)

/-- The exact sum of VXSUM and VXDOT at the grid 2^ACCS (R206). -/
def VecEngine.sumExact (k : VecEngine) (c : VCfg) (e : VEntry) (key : W64) (dot : Bool) : Int × Flags :=
  let F := c.fmt
  let init := signedOf 128 ((k.reg (if dot then e.vd else e.vs1)).extractLsb' 0 128).toNat
  let s := (k.actives c e).foldl (fun (a : Int × Flags) i =>
    let b := F.decode 127 c.accs (k.elem F e.vs2 i)
    let t := if dot then (F.decode 127 c.accs (k.elem F e.vs1 i)).mul b else (b, 0)
    let r := accRound c.accs (c.rc key) i t.1
    (a.1 + r.1, a.2 ||| t.2 ||| r.2)) (init, 0)
  let l := accLimit s.1
  (l.1, s.2 ||| l.2)

/-- Maximum or minimum over the initial value and the active elements; no active element leaves the initial bits. -/
def VecEngine.maxReduce (k : VecEngine) (c : VCfg) (e : VEntry) (f : Flt) (init : Nat) : Nat × Flags :=
  match k.actives c e with
  | [] => (init, 0)
  | l =>
    let r := l.foldl (fun (a : Val × Flags) i =>
      let b := f.decode (k.elem c.fmt e.vs2 i)
      let m := if e.op.1 = .vfmaxr then a.1.max b else a.1.min b
      (m.1, a.2 ||| m.2)) (f.decode init, 0)
    ((f.encode { rm := 0, sat := false, key := 0 } 0 r.1).1, r.2)

/-- One step of an integer reduction. -/
def intReduce (o : VOp) (sg : Bool) (w r b : Nat) : Nat :=
  let less (x y : Nat) : Bool := if sg then decide (signedOf w x < signedOf w y) else decide (x < y)
  match o with
  | .visum => (r + b) % 2 ^ w
  | .vimaxr => if less r b then b else r
  | .viminr => if less b r then b else r
  | .vandr => r &&& b
  | .vorr => r ||| b
  | _ => r ^^^ b

def VecEngine.execReduce (k : VecEngine) (c : VCfg) (e : VEntry) (key : W64) : VOut :=
  let F := c.fmt
  let init := k.elem F e.vs1 0
  match e.op.1, F with
  | .vfsumo, .fp f =>
    let from0 := if k.vresume.getLsbD 17 then (k.elem F e.vd 0, k.vresume.toNat % 2 ^ 17) else (init, 0)
    let r := k.sumOrdered c e f key from0.1 from0.2 c.vl.toNat
    (k.out.putPlain c F e.vd 0 r.1).flag r.2
  | .vfsumt, .fp f => let r := k.sumTree c e f key init; (k.out.putPlain c F e.vd 0 r.1).flag r.2
  | .vfmaxr, .fp f | .vfminr, .fp f => let r := k.maxReduce c e f init; (k.out.putPlain c F e.vd 0 r.1).flag r.2
  | .vxsum, _ =>
    let r := k.sumExact c e key false
    (k.out.put .acc e.vd 0 (intBits 128 r.1) 127 c.accs false).flag r.2
  | .vxdot, _ =>
    let r := k.sumExact c e key true
    (k.out.put .acc e.vd 0 (intBits 128 r.1) 127 c.accs false).flag r.2
  | o, _ =>
    let sg := match F with
      | .sint _ => true
      | _ => false
    k.out.putPlain c F e.vd 0 ((k.actives c e).foldl (fun r i => intReduce o sg F.bits r (k.elem F e.vs2 i)) init)

/-! ### Compress, expand and permutes (R207) -/

def VecEngine.execCompress (k : VecEngine) (c : VCfg) (e : VEntry) : VOut :=
  let F := c.fmt
  let set := (List.range c.vl.toNat).filter (k.mbit c.mreg)
  let o := (set.zipIdx).foldl (fun o p => o.putPlain c F e.vd p.2 (k.elem F e.vs2 p.1)) k.out
  if c.mzero then
    { o with eng := (List.range c.vl.toNat).foldl (fun g i =>
        if set.length ≤ i then g.setElem F e.vd i 0 else g) o.eng }
  else o

def VecEngine.execExpand (k : VecEngine) (c : VCfg) (e : VEntry) : VOut :=
  let F := c.fmt
  let set := (List.range c.vl.toNat).filter (k.mbit c.mreg)
  ((set.zipIdx).foldl (fun o p => o.putPlain c F e.vd p.1 (k.elem F e.vs2 p.2)) k.out).maskZero k c e F e.vd 0

/-- Number of set bits of mask `m` below position `i`. -/
def VecEngine.countBelow (k : VecEngine) (m i : Nat) : Nat := ((List.range i).filter (k.mbit m)).length

/-- Element j of vs2, or the zero of the format at VLMAX and above. -/
def VecEngine.pick (k : VecEngine) (c : VCfg) (e : VEntry) (j : Nat) : Nat :=
  if vlMax c.fmt c.group ≤ j then 0 else k.elem c.fmt e.vs2 j

def VecEngine.execPermute (k : VecEngine) (c : VCfg) (e : VEntry) : VOut :=
  let F := c.fmt
  let S := c.plainScale F
  match e.op.1 with
  | .vcompress => k.execCompress c e
  | .vexpand => k.execExpand c e
  | .viota => k.each c e F e.vd S fun i => (k.countBelow e.vs2 i, 0)
  | .vid => k.each c e F e.vd S fun i => (i, 0)
  | .vrgather => k.each c e F e.vd S fun i => (k.pick c e (k.elem F e.vs1 i), 0)
  | .vslideup =>
    let o := ((k.actives c e).filter fun i => decide (e.x.toNat ≤ i)).foldl
      (fun o i => o.putPlain c F e.vd i (k.elem F e.vs2 (i - e.x.toNat))) k.out
    o.maskZero k c e F e.vd e.x.toNat
  | _ => k.each c e F e.vd S fun i => (k.pick c e (i + e.x.toNat), 0)

/-! ### Mask operations (R209) -/

def VecEngine.execMask (k : VecEngine) (c : VCfg) (e : VEntry) : VOut :=
  let a := k.msk[e.vs1 % 8]'(by omega)
  let b := k.msk[e.vs2 % 8]'(by omega)
  let r : BitVec 8192 := match e.op.1 with
    | .vmand => a &&& b
    | .vmor => a ||| b
    | .vmxor => a ^^^ b
    | .vmandn => a &&& ~~~ b
    | .vmnot => ~~~ b
    | .vmset => BitVec.allOnes 8192
    | .vmclr => 0
    | _ => b
  let body := BitVec.ofNat 8192 (2 ^ c.vl.toNat - 1)
  (k.setMask e.vd fun old => (old &&& ~~~ body) ||| (r &&& body)).out

/-! ### Configuration (R185) -/

def VecEngine.execConfig (k : VecEngine) (e : VEntry) : VOut :=
  let F := k.cfg.fmt
  match e.op.1 with
  | .vsetvl =>
    let mx := vlMax F k.cfg.group
    ({ k with vl := BitVec.ofNat 17 (if e.x = 0xFFFF then mx else min e.x.toNat mx) } : VecEngine).out
  | .vsettype =>
    let k1 : VecEngine := { k with vtype := e.x }
    ({ k1 with vl := BitVec.ofNat 17 (min k.vl.toNat (vlMax k1.cfg.fmt k1.cfg.group)) } : VecEngine).out
  | .vsetctl => ({ k with vctl := putBits k.vctl 0 16 e.x.toNat } : VecEngine).out
  | _ => ({ k with vctl := putBits k.vctl 16 12 e.x.toNat } : VecEngine).out

/-! ### The families of operations -/

/-- What an operation is, for its checks, its pipe and its execution. -/
inductive VFam where
  | config | float | int | cvt | cadd | move | compare | reduce | permute | ins | mask | read | row | mem
  deriving DecidableEq, Repr

def VOp.fam : VOp → VFam
  | .vsetvl | .vsettype | .vsetctl | .vsetaccs => .config
  | .vfadd | .vfsub | .vfmul | .vfmin | .vfmax | .vfma | .vfms | .vfnma | .vfsgnj | .vfabs | .vfneg | .vfrece
  | .vfrsqe | .vfrecs | .vfrsqs => .float
  | .vadd | .vsub | .vmul | .vmulh | .vmin | .vmax | .vand | .vor | .vxor | .vshl | .vshr | .vpopc => .int
  | .vcvt | .vrescale => .cvt
  | .vcadd => .cadd
  | .vmv | .vbcast | .vmerge => .move
  | .vmeq | .vmne | .vmlt | .vmle | .vmgt | .vmge => .compare
  | .vfsumo | .vfsumt | .vxsum | .vxdot | .vfmaxr | .vfminr | .visum | .vimaxr | .viminr | .vandr | .vorr
  | .vxorr => .reduce
  | .vcompress | .vexpand | .viota | .vid | .vrgather | .vslideup | .vslidedn => .permute
  | .vins => .ins
  | .vext | .vexth | .vrdcfg | .vmpop | .vmfirst => .read
  | .vmand | .vmor | .vmxor | .vmandn | .vmnot | .vmset | .vmclr | .vmmv => .mask
  | .vldr | .vstr => .row
  | .vld | .vst | .vlds | .vsts | .vldx | .vstx => .mem

/-- The operation rounds: it takes RM from VCTL, and a counter value when RM is SR (R170, R183). -/
def VOp.rounds : VOp → Bool
  | .vfadd | .vfsub | .vfmul | .vfma | .vfms | .vfnma | .vfrece | .vfrsqe | .vfrecs | .vfrsqs | .vcvt | .vrescale
  | .vcadd | .vfsumo | .vfsumt | .vxsum | .vxdot => true
  | _ => false

/-- Result of an arithmetic-pipe entry that has passed its checks. -/
def VecEngine.exec (k : VecEngine) (e : VEntry) (key : W64) : VOut :=
  let c := k.cfg
  match e.op.1.fam with
  | .config => k.execConfig e
  | .float => k.execFloat c e key
  | .int => k.execInt c e
  | .cvt => k.execCvt c e key
  | .cadd => k.execCadd c e key
  | .move => k.execMove c e
  | .compare => k.execCompare c e
  | .reduce => k.execReduce c e key
  | .permute => k.execPermute c e
  | .ins => k.out.putPlain c c.fmt e.vd 0 (e.scalar c.fmt)
  | .mask => k.execMask c e
  | .read | .row | .mem => k.out

/-- The value that a VR form pushes (R208, R209). -/
def VecEngine.readOut (k : VecEngine) (e : VEntry) : W64 :=
  let c := k.cfg
  let F := c.fmt
  let b := k.elem F e.vs2 0
  let set := (List.range c.vl.toNat).filter (k.mbit e.vs2)
  match e.op.1 with
  | .vext => match F with
    | .sint w => BitVec.ofInt 64 (signedOf w b)
    | _ => BitVec.ofNat 64 b
  | .vexth => if F = .acc then BitVec.ofNat 64 (b / 2 ^ 64) else 0
  | .vrdcfg =>
    if e.vs2 = 0 then k.vl.zeroExtend 64
    else if e.vs2 = 1 then k.vtype.zeroExtend 64
    else if e.vs2 = 2 then k.vctl.zeroExtend 64
    else if e.vs2 = 3 then k.vresume.zeroExtend 64
    else 0
  | .vmpop => BitVec.ofNat 64 set.length
  | _ => match set with
    | i :: _ => BitVec.ofNat 64 i
    | [] => 0xFFFFFFFFFFFFFFFF

/-! ### The checks at the head of a pipe (R216) -/

abbrev vBadFmt : Nat := 0x01
abbrev vBadRm : Nat := 0x02
abbrev vGroupAlign : Nat := 0x03
abbrev vGroupSize : Nat := 0x04
abbrev vOverlap : Nat := 0x05
abbrev vMaskLen : Nat := 0x06
abbrev vMaskUse : Nat := 0x07
abbrev vElemAlign : Nat := 0x08
abbrev vBadScalar : Nat := 0x09
abbrev vSubbyte : Nat := 0x0A
abbrev vBadReg : Nat := 0x0B

def isFp4 (F : Fmt) : Bool :=
  F == .fp fltFp64 || F == .fp fltFp32 || F == .fp fltBf16 || F == .fp fltFp16

/-- The operation accepts the format (R142, R194, R197, R198, R200, R202, R203, R207). -/
def VEntry.fmtOk (e : VEntry) (c : VCfg) : Bool :=
  let F := c.fmt
  let o := e.op.1
  match o.fam with
  | .config => if o = .vsettype then (Fmt.of (e.x.toNat % 64)).isSome else true
  | .float | .cadd => isFp4 F
  | .int => F.isInt || (F == .acc && (o == .vadd || (o == .vsub && !e.op.2)))
  | .cvt => (e.target c).1.isSome && (o == .vcvt || F == .acc)
  | .compare | .mask => !F.isMx
  | .reduce =>
    match o with
    | .vfsumo | .vfsumt | .vfmaxr | .vfminr => isFp4 F
    | .vxsum => isFp4 F || F.isInt || F == .acc
    | .vxdot => isFp4 F || F.isInt
    | _ => F.isInt
  | .permute => if o = .viota ∨ o = .vid then F.isInt else true
  | .read => if o = .vmpop ∨ o = .vmfirst then !F.isMx else true
  | .move | .ins | .row | .mem => true

/-- G_d of a conversion, G_i of an indexed access (R198, R212). -/
def cvtGroup (c : VCfg) (T : Fmt) : Nat := max 1 (c.group * T.slot / c.fmt.slot)
def idxGroup (c : VCfg) : Nat := max 1 (c.group * 32 / c.fmt.slot)

/-- The groups that the checks see: base and size, destination first. -/
def VEntry.groups (e : VEntry) (c : VCfg) : List (Nat × Nat) :=
  let g := c.group
  match e.op.1.fam with
  | .config | .ins | .read | .mask => []
  | .float => match e.op.1 with
    | .vfabs | .vfneg | .vfrece | .vfrsqe => [(e.vd, g), (e.vs2, g)]
    | _ => if e.op.2 then [(e.vd, g), (e.vs2, g)] else [(e.vd, g), (e.vs1, g), (e.vs2, g)]
  | .int => if e.op.2 || e.op.1 == .vpopc then [(e.vd, g), (e.vs2, g)] else [(e.vd, g), (e.vs1, g), (e.vs2, g)]
  | .cvt => match (e.target c).1 with
    | some T => [(e.vd, cvtGroup c T), (e.vs2, g)]
    | none => []
  | .cadd => [(e.vd, g), (e.vs1, g), (e.vs2, g)]
  | .move => match e.op.1 with
    | .vbcast => [(e.vd, g)]
    | .vmerge => [(e.vd, g), (e.vs1, g), (e.vs2, g)]
    | _ => [(e.vd, g), (e.vs2, g)]
  | .compare => if e.op.2 then [(e.vs2, g)] else [(e.vs1, g), (e.vs2, g)]
  | .reduce => [(e.vs2, g)]
  | .permute => match e.op.1 with
    | .viota | .vid => [(e.vd, g)]
    | .vrgather => [(e.vd, g), (e.vs1, g), (e.vs2, g)]
    | _ => [(e.vd, g), (e.vs2, g)]
  | .row => [(e.vd, g)]
  | .mem => match e.op.1 with
    | .vldx | .vstx => [(e.vd, g), (e.vs1, idxGroup c)]
    | _ => [(e.vd, g)]

/-- Two register ranges share a register. -/
def rangesMeet (a b : Nat × Nat) : Bool := decide (a.1 < b.1 + b.2 ∧ b.1 < a.1 + a.2)

/-- An overlap that R198, R199, R200, R207 or R212 forbids. -/
def VEntry.overlap (e : VEntry) (c : VCfg) : Bool :=
  let g := c.group
  match e.op.1.fam with
  | .cvt => match (e.target c).1 with
    | some T =>
      let d := (e.vd, cvtGroup c T)
      let s := (e.vs2, g)
      (rangesMeet d s && !(decide (d = s))) ||
        ((T.isMx || c.fmt.isMx) && (rangesMeet (e.vs1, 1) d || rangesMeet (e.vs1, 1) s))
    | none => false
  | .cadd => rangesMeet (e.vd, g) (e.vs1, g)
  | .permute => match e.op.1 with
    | .viota | .vid | .vslidedn => false
    | .vrgather => rangesMeet (e.vd, g) (e.vs1, g) || rangesMeet (e.vd, g) (e.vs2, g)
    | _ => rangesMeet (e.vd, g) (e.vs2, g)
  | .mem => match e.op.1 with
    | .vldx | .vstx => rangesMeet (e.vd, g) (e.vs1, idxGroup c)
    | _ => false
  | _ => false

/-- The operation uses a mask whatever its mask-enable bit (R188). -/
def VOp.usesMask (o : VOp) : Bool :=
  match o.fam with
  | .mask | .compare => true
  | _ => o == .vmpop || o == .vmfirst || o == .vmerge || o == .vcompress || o == .vexpand || o == .viota

/-- The mask-enable bit makes the operation use a mask: not where the operation ignores VL and the mask (R208, R211). -/
def VOp.masks (o : VOp) : Bool :=
  match o.fam with
  | .config | .ins | .row | .read => false
  | _ => true

/-- Mask enable required but 0, or forbidden but 1. -/
def VEntry.maskUse (e : VEntry) (c : VCfg) : Bool :=
  match e.op.1.fam with
  | .mask | .read | .ins | .row => e.me
  | .cvt => e.me && (c.fmt.isMx || (match (e.target c).1 with | some T => T.isMx | none => false))
  | _ => (e.op.1 == .vmerge || e.op.1 == .vcompress || e.op.1 == .vexpand) && !e.me

/-- A reserved bit of a configuration word or VX word is not 0. -/
def VEntry.badScalar (e : VEntry) : Bool :=
  match e.op.1 with
  | .vsettype | .vsetctl => decide (256 ≤ e.x.toNat)
  | .vsetaccs | .vrescale => decide (4096 ≤ e.x.toNat)
  | .vcvt => decide (64 ≤ e.x.toNat)
  | _ => false

/-- A mask-register field with bits [4:3] non-zero. -/
def VEntry.badReg (e : VEntry) : Bool :=
  let bad (n : Nat) : Bool := decide (8 ≤ n)
  match e.op.1.fam with
  | .mask => bad e.vd || bad e.vs1 || bad e.vs2
  | .compare => bad e.vd
  | _ => match e.op.1 with
    | .vmpop | .vmfirst => bad e.vd || bad e.vs1 || bad e.vs2
    | .viota => bad e.vs2
    | _ => false

/-- Strided and indexed accesses. -/
def VOp.perElem : VOp → Bool
  | .vlds | .vsts | .vldx | .vstx => true
  | _ => false

/-- A unit-stride array whose first byte is not aligned to its element (R212); an access of no element is not misaligned. -/
def VEntry.unitMisaligned (e : VEntry) (c : VCfg) : Bool :=
  match e.op.1 with
  | .vld | .vst => decide (8 ≤ c.fmt.bits) && decide (e.a.toNat % (c.fmt.bits / 8) ≠ 0) && decide (0 < c.vl.toNat)
  | _ => false

/-- The lowest code of R216 that applies at the head of the pipe. -/
def VEntry.check (e : VEntry) (c : VCfg) : Option Nat :=
  let o := e.op.1
  let rm := if o = .vsetctl then e.x.toNat / 16 % 8 else c.rm
  if !e.fmtOk c then some vBadFmt
  else if (o.rounds || o == .vsetctl) && decide (5 < rm) then some vBadRm
  else if (e.groups c).any (fun g => g.1 % g.2 != 0) then some vGroupAlign
  else if (e.groups c).any (fun g => decide (8 < g.2)) then some vGroupSize
  else if e.overlap c then some vOverlap
  else if ((e.me && o.masks) || o.usesMask) && decide (8192 < c.vl.toNat) then some vMaskLen
  else if e.maskUse c then some vMaskUse
  else if e.unitMisaligned c then some vElemAlign
  else if e.badScalar then some vBadScalar
  else if o.perElem && decide (c.fmt.bits < 8) then some vSubbyte
  else if e.badReg then some vBadReg
  else none

end Sys2Proof.Machine
end

