-- ==== Sys2Proof/Machine/CoreMem.lean ====
section
/-! DEFINITION. Core memory and operand buffers (R274 to R288), the depot with its cache, boot and trackers (R289 to
R308), and the stacks (R313 to R318): how an access by device physical address is served. -/
namespace Sys2Proof.Machine

/-- Pieces of `n` bytes from `a` on that do not cross a multiple of `size`: each with its offset and length. -/
def pieces (size a n : Nat) : Nat → List (Nat × Nat)
  | 0 => []
  | fuel + 1 =>
    if n = 0 ∨ size = 0 then []
    else
      let k := min n (size - a % size)
      (a, k) :: pieces size (a + k) (n - k) fuel

/-! ### Core memory rows (R277 to R285) -/

/-- Row `p` of coach `c` lies in a quarter that is powered and ready. -/
def Chip.rowReady (m : Chip) (c p : Nat) : Bool := (m.reg (K.cmemQpwr c)).getLsbD (4 + p / 2048)

def rowAddr (c p : Nat) : Nat := coreBase + c * 0x400000 + p * 0x200

/-- The UNPOWERED record of an access to a row that is off or not ready (R285). -/
def Chip.unpowered (m : Chip) (master : BitVec 16) (c p : Nat) : Chip :=
  (m.record (cmemPage c) 0x84 master none (some (rowAddr c p)) (coachDomain c)).event (cmemPage c) 16

/-- A read of part of a row. -/
def Chip.coreRead (m : Chip) (master : BitVec 16) (c p off n : Nat) : Chip × List Byte :=
  if m.rowReady c p then (m.count (K.cmemRowsRd c) 1, m.rdBytes (rowAddr c p + off) n)
  else (m.unpowered master c p, List.replicate n 0)

/-- A write within a row. -/
def Chip.coreWrite (m : Chip) (master : BitVec 16) (c p off : Nat) (l : List Byte) : Chip :=
  if m.rowReady c p then (m.count (K.cmemRowsWr c) 1).wrBytes (rowAddr c p + off) l else m.unpowered master c p

/-- Whole rows from row `p` on, lowest first. -/
def Chip.coreRows (m : Chip) (master : BitVec 16) (c p : Nat) : Nat → Chip × List Byte
  | 0 => (m, [])
  | n + 1 =>
    let r := m.coreRead master c p 0 512
    let s := r.1.coreRows master c (p + 1) n
    (s.1, r.2 ++ s.2)

/-- The ROW_ACCESS record (R278). -/
def Chip.rowAccess (m : Chip) (master : BitVec 16) (c a : Nat) (write : Bool) : Chip :=
  (m.record (cmemPage c) 0x85 master (some (b2n write)) (some a) (coachDomain c)).event (cmemPage c) 17

/-! ### The partition of a context (R280) -/

/-- The valid partition of task `t` on coach `c`: BASE and LIM. -/
def Chip.partition (m : Chip) (c : Nat) (t : W16) : Option (Nat × Nat) :=
  ((List.range 8).map fun i => m.reg (K.cmemPart c i)).findSome? fun w =>
    if F.cmemPartValid.bit w && decide (F.cmemPartTask.get w = t.toNat) then
      some (F.cmemPartBase.get w, F.cmemPartLim.get w)
    else none

/-- MBASE and MLIM of the coach's contexts follow the partition that names their task, whenever it is written (R280). -/
def Chip.followPart (m : Chip) (c : Fin 64) : Chip :=
  ([false, true] : List Bool).foldl (fun m a =>
    let k := m.ctx ⟨c, a⟩
    match m.partition c.val k.task with
    | some p => if k.task = 0 then m else m.modCtx ⟨c, a⟩ fun k => { k with mbase := BitVec.ofNat 16 p.1, mlim := BitVec.ofNat 16 p.2 }
    | none => m) m

/-- MBASE and MLIM for an issuer: at supervisor level 0 and 8,191; at task level the context's own (R280). -/
def Context.rows (k : Context) (sup : Bool) : Nat × Nat := if sup then (0, 8191) else (k.mbase.toNat, k.mlim.toNat)

/-! ### Operand buffers (R274) -/

def obufKey (c f b : Nat) : Nat := c * 2 ^ 20 + f * 2 ^ 18 + b

def Chip.obufByte (m : Chip) (c f b : Nat) : Byte := smapGet (fun _ => 0) m.obuf (obufKey c f b)

def Chip.obufRead (m : Chip) (c f b n : Nat) : List Byte := (List.range n).map fun i => m.obufByte c f (b + i)

def Chip.obufWrite (m : Chip) (c f b : Nat) (l : List Byte) : Chip :=
  { m with obuf := smapSetAll (fun _ => 0) m.obuf (l.zipIdx.map fun e => (obufKey c f (b + e.2), e.1)) }

/-- All four buffers of a coach become zero. -/
def Chip.obufZero (m : Chip) (c : Nat) : Chip :=
  { m with obuf := smapErase (fun k => decide (c * 2 ^ 20 ≤ k ∧ k < (c + 1) * 2 ^ 20)) m.obuf }

/-! ### Slices (R289 to R298) -/

def Chip.slice (m : Chip) (s : Nat) : Slice := if h : s < 16 then m.slices[s] else Slice.reset

def Chip.modSlice (m : Chip) (s : Nat) (f : Slice → Slice) : Chip :=
  if h : s < 16 then { m with slices := m.slices.set s (f m.slices[s]) } else m

/-- Addressable eighths of a slice. -/
def Chip.eighths (m : Chip) (s : Nat) : Nat := m.fld (K.depotSplit s) F.depotSplitA

/-- Eighths that a running SPLIT heads for. -/
def Chip.pendEighths (m : Chip) (s : Nat) : Nat := m.fld (K.depotSplit s) F.depotSplitPendA

/-- Cache ways in use: those that stay while a SPLIT runs take allocations (R299). -/
def Chip.cacheWays (m : Chip) (s : Nat) : Nat := 16 - 2 * max (m.eighths s) (m.pendEighths s)

/-- The set of a stack-local line number. -/
def lineSet (n : Nat) : Nat := n % 8192

/-- Marks a way as recently used in the tree of its set: each node on its path points away from it. -/
def plruTouch (w : BitVec 15) (way : Nat) : BitVec 15 :=
  (List.range 4).foldl (fun w k =>
    let node := 2 ^ k - 1 + way / 2 ^ (4 - k)
    let right := way / 2 ^ (3 - k) % 2 == 1
    if right then w &&& ~~~ (1#15 <<< node) else w ||| (1#15 <<< node)) w

/-- The way that the tree points at, among ways below `n`: where the node points at no way in use, the other side. -/
def plruPick (w : BitVec 15) (n : Nat) : Nat :=
  (List.range 4).foldl (fun way k =>
    let node := 2 ^ k - 1 + way
    let right := w.getLsbD node
    let lowest := (2 * way + 1) * 2 ^ (3 - k)
    if right && decide (lowest < n) then 2 * way + 1 else 2 * way) 0

/-- A line leaves for the stack (R296, R299): it counts, and its four blocks are written whole, so that they are good
(R316). -/
def Chip.writeBack (m : Chip) (s l : Nat) : Chip :=
  let b := m.hbmAddr s (l * 256) / 64
  (({ m with badCrc := m.badCrc.filter fun k => !decide (b ≤ k ∧ k < b + 4) }).count (K.depotWritebacks s) 1).count (K.hbmWrBytes s) 256

/-- A displaced line enters the boot, or is written back or dropped while the boot is off (R296). -/
def Chip.displace (m : Chip) (s : Nat) (d : DLine) : Chip :=
  if m.flag (K.depotBootCtl s) F.depotBootCtlEn then
    let b := (m.slice s).boot
    match b with
    | o :: t =>
      if 128 ≤ b.length then
        let m1 := m.modSlice s fun k => { k with boot := t ++ [⟨d.line, d.dirty, d.pf⟩] }
        if o.dirty then m1.writeBack s o.line else m1
      else m.modSlice s fun k => { k with boot := b ++ [⟨d.line, d.dirty, d.pf⟩] }
    | [] => m.modSlice s fun k => { k with boot := [⟨d.line, d.dirty, d.pf⟩] }
  else if d.dirty then m.writeBack s d.line
  else m

/-- Allocates a line: an invalid way of its set first, else the tree's choice, whose line is displaced (R293). -/
def Chip.allocate (m : Chip) (s n : Nat) (dirty pf : Bool) : Chip :=
  let ways := m.cacheWays s
  if ways = 0 then m
  else
    let k := m.slice s
    let set := lineSet n
    let mine := k.lines.filter fun d => lineSet d.line == set
    let tree := smapGet (fun _ => 0) k.plru set
    let free := (List.range ways).find? fun w => !(mine.any (·.way == w))
    let way := free.getD (plruPick tree ways)
    let old := mine.find? (·.way == way)
    let m1 := m.modSlice s fun k =>
      { k with lines := ⟨n, way, dirty, pf⟩ :: k.lines.filter (fun d => !(lineSet d.line == set && d.way == way)),
               plru := smapSet (fun _ => 0) k.plru set (plruTouch tree way) }
    match old with
    | some d => m1.displace s d
    | none => m1

/-- A hit: used recently, dirty when written, and a prefetched line that a demand read finds counts once. -/
def Chip.depotHit (m : Chip) (s n : Nat) (d : DLine) (write : Bool) : Chip :=
  let m1 := m.count (K.depotHits s) 1
  let m2 := if d.pf && !write then m1.count (K.depotPfUsed s) 1 else m1
  m2.modSlice s fun k =>
    { k with
      lines := k.lines.map fun e => if e.line = n then { e with dirty := e.dirty || write, pf := e.pf && write } else e,
      plru := smapSet (fun _ => 0) k.plru (lineSet n) (plruTouch (smapGet (fun _ => 0) k.plru (lineSet n)) d.way) }

/-- A fetch finds a free entry (R295): 512, of which 32 are reserved for classes 1 and 2. -/
def Slice.takes (k : Slice) (cls : Nat) : Bool :=
  let low := (k.fetch.filter fun f => decide (f.cls ≤ 2)).length
  if cls ≤ 2 then decide (k.fetch.length < 512) else decide (k.fetch.length - low + (low - 32) < 480)

/-- A miss takes an entry, or waits for one. -/
def Slice.ask (k : Slice) (f : DFetch) : Slice :=
  if k.takes f.cls then { k with fetch := k.fetch ++ [f] } else { k with miss := k.miss ++ [f] }

/-- Misses that wait take the entries that are free, the lowest class first and in their order within it. -/
def Slice.refill (k : Slice) : Nat → Slice
  | 0 => k
  | fuel + 1 =>
    match ([1, 2, 3, 4] : List Nat).findSome? fun c => if k.takes c then k.miss.find? (·.cls == c) else none with
    | some f => { k with miss := k.miss.erase f, fetch := k.fetch ++ [f] }.refill fuel
    | none => k

/-- A line has been asked for. -/
def Slice.asked (k : Slice) (l : Nat) : Bool := k.fetch.any (fun f => f.line == l && !f.drop) || k.miss.any (·.line == l)

/-- An access merges with the fetch of its line: a demand access takes over a prefetched one. -/
def DFetch.merge (l : Nat) (write : Bool) (f : DFetch) : DFetch :=
  if f.line = l ∧ f.drop = false then { f with dirty := f.dirty || write, pf := false } else f

/-- Prefetches after an armed tracker matched at line `l` (R298). -/
def Chip.prefetch (m : Chip) (s l : Nat) (d : Int) : Chip :=
  if !m.flag (K.depotPfCtl s) F.depotPfCtlEn || decide (m.eighths s = 8) then m
  else
    (List.range (m.fld (K.depotPfCtl s) F.depotPfCtlDepth + 1)).foldl (fun m i =>
      let t : Int := (l : Int) + d * (i + 1 : Nat)
      let k := m.slice s
      if 0 ≤ t ∧ t < 2 ^ 28 ∧ !(k.lines.any (·.line == t.toNat)) ∧ !(k.boot.any (·.line == t.toNat))
          ∧ !(k.asked t.toNat) then
        (m.modSlice s fun k => k.ask ⟨t.toNat, false, true, 4, 0, false, false⟩).count (K.depotPfIssued s) 1
      else m) m

/-- 64-byte blocks that a range touches. -/
def blocksOf (a n : Nat) : Nat := if n = 0 then 0 else (a + n - 1) / 64 - a / 64 + 1

/-- Blocks that a write covers only in part. -/
def partBlocks (a n : Nat) : List Nat :=
  ([a / 64, (a + n - 1) / 64].eraseDups).filter fun b => !decide (a ≤ b * 64 ∧ b * 64 + 64 ≤ a + n)

/-- An access passes the depot and reaches the stack: whole blocks move, and those that a write covers in part are read
first (R313, R316). -/
def Chip.stackBytes (m : Chip) (s a n : Nat) (write : Bool) : Chip :=
  if write then (m.count (K.hbmWrBytes s) (64 * blocksOf a n)).count (K.hbmRdBytes s) (64 * (partBlocks a n).length)
  else m.count (K.hbmRdBytes s) (64 * blocksOf a n)

/-- A demand read of class 2 or 3 trains the trackers (R297); of several that it matches, the most recently used (DESIGN CHOICE, log
entry 98). -/
def Chip.train (m : Chip) (s : Nat) (master : BitVec 16) (l : Nat) : Chip :=
  let k := m.slice s
  let near (t : Tracker) : Bool :=
    t.master == master && decide (((t.last : Int) - l).natAbs ≤ 2048)
  let put (t : Tracker) (rest : List Tracker) : Chip := m.modSlice s fun k => { k with trk := t :: rest }
  match k.trk.find? near with
  | none => put ⟨master, l, 0, 1⟩ (k.trk.take 255)
  | some t =>
    let rest := k.trk.erase t
    let d : Int := (l : Int) - t.last
    if t.reads = 1 then
      if d = 0 then put t rest else put ⟨master, l, d, 2⟩ rest
    else if d = t.stride then
      let m1 := put ⟨master, l, t.stride, 3⟩ rest
      m1.prefetch s l t.stride
    else put ⟨master, l, 0, 1⟩ rest

/-- An access to an HBM line passes its slice (R293 to R298): the tags, the counters and the trackers; the data is the
map's, since the depot affects timing alone (R294). While no way is a cache way, a line that the boot still holds is served
there (DESIGN CHOICE: R296 has no way to move it to; log entry 46). -/
def Chip.depotTouch (m : Chip) (master : BitVec 16) (cls a n : Nat) (write noalloc : Bool) : Chip :=
  let sl := m.stackOf a
  let s := sl.1
  let l := sl.2 / 256
  let k := m.slice s
  let m0 := if !write && (cls == 2 || cls == 3) then m.train s master l else m
  let direct : Chip := m0.stackBytes s a n write
  if m.cacheWays s = 0 then
    (if k.boot.any (·.line == l) then
      (m0.modSlice s fun k => { k with boot := k.boot.map fun b => if b.line = l then { b with dirty := b.dirty || write } else b }).count
        (K.depotBootHits s) 1
    else direct)
  else match k.lines.find? (·.line == l) with
    | some d => m0.depotHit s l d write
    | none => match k.boot.find? (·.line == l) with
      | some b =>
        let m1 := m0.modSlice s fun k => { k with boot := k.boot.filter (·.line != l) }
        let m2 := if b.pf && !write then m1.count (K.depotPfUsed s) 1 else m1
        (m2.count (K.depotBootHits s) 1).allocate s l (b.dirty || write) (b.pf && write)
      | none =>
        let m1 := m0.count (K.depotMisses s) 1
        if noalloc then m1.stackBytes s a n write
        else if write && decide (n = 256) then
          (m1.modSlice s fun k =>
            { k with fetch := k.fetch.map (fun f => if f.line = l then { f with drop := true } else f)
                     miss := k.miss.filter (·.line != l) }).allocate s l true false
        else if k.asked l then
          let m2 := if !write && (k.fetch ++ k.miss).any (fun f => f.line == l && f.pf && !f.drop) then m1.count (K.depotPfUsed s) 1 else m1
          m2.modSlice s fun k => { k with fetch := k.fetch.map (·.merge l write), miss := k.miss.map (·.merge l write) }
        else m1.modSlice s fun k => k.ask ⟨l, write, false, cls, master, false, false⟩

/-- The line is in the cache ways or in the boot. -/
def Chip.resident (m : Chip) (s l : Nat) : Bool :=
  let k := m.slice s
  (decide (0 < m.cacheWays s) && k.lines.any (·.line == l)) || k.boot.any (·.line == l)

/-! ### CRC of the stacks (R316, R317) -/

/-- Blocks of a range whose stored CRC does not match. -/
def Chip.badBlocks (m : Chip) (a n : Nat) : List Nat := m.badCrc.filter fun b => decide (b * 64 < a + n ∧ a < b * 64 + 64)

/-- A block has failed twice: the CRC_ERR record of its stack, its count and its event (R317, R335, R336). -/
def Chip.crcRecord (m : Chip) (a detail : Nat) (master : BitVec 16) : Chip :=
  let s := (m.stackOf a).1
  ((m.count (K.hbmCrcErr s) 1).record (hbmPage s) 0x80 master (some detail) (some (a / 64 * 64)) (5 + s)).event (hbmPage s) 16

/-- A CRC_ERR record and the notice to the stage controller (R316, R317, R336): DETAIL bit 0 a write merge, bit 1 a
scrub or prefetch read. -/
def Chip.crcError (m : Chip) (a detail : Nat) (master : BitVec 16) : Chip :=
  let s := (m.stackOf a).1
  let m1 := m.crcRecord a detail master
  m1.report { m1.recEvent causeHbmCrc (BitVec.ofNat 16 (0x9000 + s)) (a / 64 * 64) (5 + s) with demand := detail != 2 }

/-- A block is bad. -/
def Chip.markBad (m : Chip) (b : Nat) : Chip := if m.badCrc.elem b then m else { m with badCrc := m.badCrc ++ [b] }

/-- The block read for a merge, whose CRC fails `fails` times now; a block that is bad fails twice. Its complement CRC is
stored then, so that the block stays bad, with a record (R316, R317). -/
def Chip.mergeRead (m : Chip) (b fails : Nat) (master : BitVec 16) : Chip :=
  if m.badCrc.elem b ∨ 2 ≤ fails then (m.markBad b).crcError (b * 64) 1 master
  else if fails = 1 then m.count (K.hbmCrcRetry (m.stackOf (b * 64)).1) 1
  else m

/-- Writes to the stack: a block written whole is good again; one written in part is read, merged and written (R316).
`fails` gives how often the CRC of the first and of the last block fails; a failure that no row before has found is the row
HBM_WRITE (log entry 100). -/
def Chip.hbmWrite (m : Chip) (a : Nat) (l : List Byte) (master : BitVec 16) (fails : Nat × Nat) : Chip :=
  let whole (b : Nat) : Bool := decide (a ≤ b * 64 ∧ b * 64 + 64 ≤ a + l.length)
  let m1 := m.wrBytes a l
  let m2 := { m1 with badCrc := m1.badCrc.filter fun b => !whole b }
  if l.isEmpty then m
  else (partBlocks a l.length).foldl (fun m b => m.mergeRead b (if b = a / 64 then fails.1 else fails.2) master) m2

/-- Bad blocks that an access of `n` bytes at `a` makes the depot or the access itself read (R293, R317): none of a line that
is held on chip; for an access that allocates, those of every line that it does not write whole; else those that a read
covers. -/
def Chip.badRead (m : Chip) (write noalloc : Bool) (a n : Nat) : List Nat :=
  m.badCrc.filter fun b =>
    let sl := m.stackOf (b * 64)
    let la := b / 4 * 256
    let meets : Bool := decide (b * 64 < a + n ∧ a < b * 64 + 64)
    decide (la < a + n ∧ a < la + 256) && !m.resident sl.1 (sl.2 / 256) &&
      (if noalloc || m.cacheWays sl.1 == 0 then !write && meets
       else !write || !decide (a ≤ la ∧ la + 256 ≤ a + n))

/-- A demand access meets a block whose CRC fails twice: it is recorded and reported once for a master whose engine waits
there (R317). -/
def Chip.crcNote (m : Chip) (master : BitVec 16) (write noalloc : Bool) (a n : Nat) : Chip :=
  if depotBase ≤ a then m
  else (m.badRead write noalloc a n).foldl (fun m b =>
    if m.crcSeen.elem (master, b) then m
    else { m.crcError (b * 64) 0 master with crcSeen := m.crcSeen ++ [(master, b)] }) m

/-- A fetched line arrives and is allocated (R293, R298). One that a prefetch asked for and that meets a bad block allocates
nothing; one of a demand access waits for the repair (R317). -/
def Chip.lineFill (m : Chip) (s l : Nat) : Chip :=
  match (m.slice s).fetch.find? (·.line == l) with
  | none => m
  | some f =>
    let a := m.hbmAddr s (l * 256)
    let bad := m.badBlocks a 256
    let m1 := (m.modSlice s fun k => { k with fetch := k.fetch.erase f }.refill 512).count (K.hbmRdBytes s) 256
    if f.drop then m1
    else if bad.isEmpty then m1.allocate s l f.dirty f.pf
    else if f.pf then bad.foldl (fun m b => m.crcError (b * 64) 2 f.master) m1
    else if f.held then m
    else bad.foldl (fun m b => m.crcError (b * 64) 0 f.master)
      (m.modSlice s fun k => { k with fetch := k.fetch.map fun g => if g = f then { g with held := true } else g })

/-! ### Depot addressable memory (R291, R292) -/

/-- The ADDR_RANGE record. -/
def Chip.addrRange (m : Chip) (s : Nat) (master : BitVec 16) (a : Nat) (shape : Bool) : Chip :=
  (m.record (depotPage s) 0x80 master (some (b2n shape)) (some a) 4).event (depotPage s) 16

def depotShapeOk (a n : Nat) : Bool := decide (n % 8 = 0 ∧ 8 ≤ n ∧ n ≤ 256 ∧ a % 8 = 0 ∧ a % 256 + n ≤ 256)

/-- Eighths that accesses reach: those in force, less those that a running SPLIT removes. -/
def Chip.openEighths (m : Chip) (s : Nat) : Nat :=
  if m.busy (depotPage s) && decide (m.cmdCode (depotPage s) = 1) then min (m.eighths s) (m.pendEighths s)
  else m.eighths s

/-- The access waits for a SPLIT that adds its eighth (R299). -/
def Chip.depotHeld (m : Chip) (a : Nat) : Bool :=
  match regionOf a with
  | .depot s x => m.busy (depotPage s) && decide (m.cmdCode (depotPage s) = 1) &&
      decide (m.eighths s ≤ x / 0x400000 ∧ x / 0x400000 < m.pendEighths s)
  | _ => false

/-! ### An access through the fabric (R278, R292, R294) -/

/-- What an access by device physical address needs: reads take the 8-byte words that cover the bytes; `none` is an
access error. -/
def Chip.devRead (m : Chip) (master : BitVec 16) (cls a n : Nat) (noalloc : Bool) : Chip × Option (List Byte) :=
  match regionOf a with
  | .hbm => (m.depotTouch master cls a n false noalloc, some (m.rdBytes a n))
  | .depot s x =>
    let a0 := a / 8 * 8
    let n0 := (a + n + 7) / 8 * 8 - a0
    if !depotShapeOk a0 n0 then (m.addrRange s master a true, none)
    else if m.openEighths s * 0x400000 < x + n then (m.addrRange s master a false, none)
    else (m, some (m.rdBytes a n))
  | .depotHole => (m.addrRange 15 master a false, none)
  | .core c p off =>
    let o0 := off / 8 * 8
    let n0 := (off + n + 7) / 8 * 8 - o0
    if n0 ≤ 512 ∧ o0 + n0 ≤ 512 ∧ 0 < n then
      let r := m.coreRead master c p off n
      (r.1, some r.2)
    else (m.rowAccess master c a false, none)
  | _ => (m, none)

/-- A write into a mirror area by another master than the stage controller: it has no effect on memory (R437). One that carries the
guarded class leaves its granules unguarded, with a record each (R438). -/
def Chip.mirrorWrite (m : Chip) (master : BitVec 16) (a n : Nat) (rc : Option Nat) : Chip :=
  let m1 := m.stageRecord 0x80 master none (some a)
  if rc = some clsGuarded then
    (granules a n).foldl (fun m g => (m.setTag g clsUnguarded).stageRecord 0x81 master none (some (g * 65536))) m1
  else m1

/-- A write by device physical address, carrying the class `rc` of its leaf or window where it has one; `false` is an
access error. A write into a mirror area has no effect (R437). -/
def Chip.devWrite (m : Chip) (master : BitVec 16) (cls a : Nat) (l : List Byte) (noalloc : Bool) (rc : Option Nat) :
    Chip × Bool :=
  match regionOf a with
  | .hbm =>
    if m.inMirror a ∧ master ≠ stageId then (m.mirrorWrite master a l.length rc, false)
    else
      let sl := m.stackOf a
      let m1 := m.depotTouch master cls a l.length true noalloc
      let m2 := if !m.resident sl.1 (sl.2 / 256) && (noalloc || m.cacheWays sl.1 == 0) then m1.hbmWrite a l master (0, 0) else m1.wrBytes a l
      (m2.tagWrite master a l.length rc, true)
  | .depot s x =>
    let a0 := a / 8 * 8
    let n0 := (a + l.length + 7) / 8 * 8 - a0
    if !depotShapeOk a0 n0 then (m.addrRange s master a true, false)
    else if m.openEighths s * 0x400000 < x + l.length then (m.addrRange s master a false, false)
    else ((m.wrBytes a l).tagWrite master a l.length rc, true)
  | .depotHole => (m.addrRange 15 master a false, false)
  | .core c p off =>
    if off = 0 ∧ l.length = 512 then (m.coreWrite master c p 0 l, true) else (m.rowAccess master c a true, false)
  | _ => (m, false)

/-- An access of whole 8-byte words from an 8-byte boundary (R278, R291). -/
def wordShaped (a n : Nat) : Bool := decide (a % 8 = 0 ∧ n % 8 = 0)

/-- An access to core memory or the depot that is not of whole words fails; it is recorded. -/
def Chip.badShape (m : Chip) (master : BitVec 16) (a : Nat) (write : Bool) : Chip :=
  match regionOf a with
  | .depot s _ => m.addrRange s master a true
  | .depotHole => m.addrRange 15 master a true
  | .core c _ _ => m.rowAccess master c a write
  | _ => m

/-- The access is to core memory or the depot, and not of whole words. -/
def badlyShaped (a n : Nat) : Bool := decide (depotBase ≤ a) && !wordShaped a n

/-- A read through the fabric as its requester shaped it. -/
def Chip.fabRead (m : Chip) (master : BitVec 16) (cls a n : Nat) (noalloc : Bool) : Chip × Option (List Byte) :=
  if badlyShaped a n then (m.badShape master a false, none) else m.devRead master cls a n noalloc

/-- A write through the fabric as its requester shaped it. -/
def Chip.fabWrite (m : Chip) (master : BitVec 16) (cls a : Nat) (l : List Byte) (noalloc : Bool) (rc : Option Nat) : Chip × Bool :=
  if badlyShaped a l.length then (m.badShape master a true, false) else m.devWrite master cls a l noalloc rc

/-- A demand access meets a block whose CRC fails twice: it is held (R317). -/
def Chip.crcHolds (m : Chip) (write noalloc : Bool) (a n : Nat) : Bool :=
  decide (a < depotBase) && !(m.badRead write noalloc a n).isEmpty

/-- The SPLIT of slice `s` holds an access to `n` bytes at `a`. -/
def Chip.splitHolds (m : Chip) (s a n : Nat) : Bool :=
  let at' (a : Nat) : Bool := (match regionOf a with
    | .depot t _ => decide (t = s)
    | _ => false) && m.depotHeld a
  at' a || at' (a + n - 1)

/-! ### The queues at the banks of a slice (R300, R305) -/

/-- Slice and bank of an address (R289, R291). -/
def Chip.bankOf (m : Chip) (a : Nat) : Option (Nat × Nat) :=
  match regionOf a with
  | .hbm => some ((m.stackOf a).1, (m.stackOf a).2 / 256 % 64)
  | .depot s x => some (s, x / 256 % 64)
  | _ => none

/-- Traffic class of a vector entry (R214). -/
def VEntry.cls (e : VEntry) (c : VCfg) : Nat :=
  if (e.op.1 = .vld ∨ e.op.1 = .vst) ∧ c.vl.toNat ≤ 8 ∧ 8 ≤ c.fmt.bits then 2 else 3

/-- Bits `hi` to `lo` of word `n` of a descriptor (R323). -/
def DDesc.dw (e : DDesc) (n hi lo : Nat) : Nat := (e.words.toList.getD n 0).toNat / 2 ^ lo % 2 ^ (hi + 1 - lo)

/-- The traffic class of a descriptor; CLS = 3 is invalid. -/
def DDesc.cls (e : DDesc) : Nat := if e.dw 0 15 14 = 1 then 2 else if e.dw 0 15 14 = 2 then 4 else 3

/-- The work has a freight dray. -/
def Chip.hasJob (m : Chip) (w : JobWork) : Bool := m.host.jobs.any fun j => j.work == w && j.granted

/-- Class and bank of an access that the SPLIT of slice `s` holds; none where it holds none. -/
def Chip.splitAt (m : Chip) (s cls a n : Nat) : List (Nat × Nat) :=
  if n ≠ 0 ∧ m.splitHolds s a n then [(cls, a / 256 % 64)] else []

/-- The same of the pieces of an engine's access. -/
def Chip.segsSplit (m : Chip) (s cls : Nat) (l : List XSeg) : List (Nat × Nat) :=
  l.flatMap fun g => match g.place with
    | .dev p => m.splitAt s cls p g.len
    | _ => []

/-- Accesses that the SPLIT of slice `s` holds now, with their classes and banks (R300): those that wait at the slice, and those of
dray bursts, vector elements, walks, code reads, transfers and peers that stand at their requester. -/
def Chip.splitQueue (m : Chip) (s : Nat) : List (Nat × Nat) :=
  (m.slice s).held.flatMap (fun h => m.splitAt s h.cls h.addr h.len)
    ++ m.coaches.toList.flatMap (fun k =>
        k.vec.q.flatMap (fun e => e.flight.flatMap fun f => m.segsSplit s ((e.cfg.map e.cls).getD 3) f.segs)
        ++ k.dray.toList.flatMap fun t => t.units.flatMap fun u =>
            m.segsSplit s ((t.q.head?.map DDesc.cls).getD 3)
              (((if u.writing then u.wr else u.rd).filter (·.st == .sent)).filterMap (·.seg)))
    ++ m.xlat.rake.toList.flatMap (fun r =>
        (r.walks.filter (!·.host)).flatMap fun w => m.splitAt s (if w.demand then 1 else 4) w.addr 8)
    ++ (m.sh.tasks.filter fun t => t.st == .placing && !t.codeHost).flatMap (fun t => m.splitAt s 3 t.codeAddr (2 * t.codeWords))
    ++ (m.sh.xfers.filter fun x => !x.srcHost && decide (x.next < x.len) && m.hasJob (.xfer x.id)).flatMap
        (fun x => m.splitAt s 3 (x.src + x.next) (min 4096 (x.len - x.next)))
    ++ (m.sf.inb.filter fun i => m.hasJob (.inbound i.id)).flatMap fun i => m.splitAt s (i.pkt.cls + 1) i.addr i.pkt.bytes

/-- Requests of a class that a bank's queue holds at most (R305). -/
abbrev bankQueue : Nat := 8

/-- HELD_REQ: those of the held accesses that a queue of their bank has taken (R300, R305). -/
def Chip.heldCount (m : Chip) (s : Nat) : Nat :=
  let l := m.splitQueue s
  l.eraseDups.foldl (fun n k => n + min bankQueue (l.count k)) 0

/-- The class's queue at the bank of an address is full of held accesses: no further request of the class is accepted there. -/
def Chip.bankFull (m : Chip) (cls a : Nat) : Bool :=
  match m.bankOf a with
  | some (s, b) => m.busy (depotPage s) && decide (m.cmdCode (depotPage s) = 1) &&
      decide (bankQueue ≤ (m.splitQueue s).count (cls, b))
  | none => false

/-- A SPLIT holds an access to `n` bytes of device memory: its eighth is being added (R299), or the queue of its class at its bank
is full of such accesses, so that it waits in front of the bank (R305). -/
def Chip.splitHeld (m : Chip) (cls a n : Nat) : Bool :=
  m.depotHeld a || m.depotHeld (a + n - 1) || m.bankFull cls a || m.bankFull cls (a + n - 1)

/-- An access to `n` bytes of device memory is held: by a SPLIT, or by a bad block. -/
def Chip.devHeld (m : Chip) (cls : Nat) (write noalloc : Bool) (a n : Nat) : Bool :=
  m.crcHolds write noalloc a n || m.splitHeld cls a n

/-- The access waits at its slice, or, recorded, for a repair. -/
def Chip.holdAccess (m : Chip) (h : HeldReq) : Chip :=
  if m.splitHeld h.cls h.addr h.len then
    match m.bankOf (if m.depotHeld h.addr || m.bankFull h.cls h.addr then h.addr else h.addr + h.len - 1) with
    | some (s, _) => m.modSlice s fun k => { k with held := k.held ++ [h] }
    | none => m
  else
    let m1 := (m.badRead h.write h.noalloc h.addr h.len).foldl (fun m b => m.crcError (b * 64) 0 h.master) m
    { m1 with crcHeld := m1.crcHeld ++ [h] }

/-- A plain access that may be held. -/
def heldReq (master : BitVec 16) (cls a : Nat) (d : Option (List Byte)) (n : Nat) (noalloc : Bool) : HeldReq :=
  { master := master, cls := cls, addr := a, write := d.isSome, data := d.getD [], len := n, noalloc := noalloc,
    target := false, rc := none, notify := none, xfer := none, parity := false }

end Sys2Proof.Machine
end

