-- ==== Sys2Proof/Machine/Log.lean ====
section
/-! DEFINITION. The stage log as every input uses it: writing a record, filling, requests for a post, and what a
re-execution takes from it (R104, R131, R446 to R449, R454, R455). -/
namespace Sys2Proof.Machine

/-- STAGE_STAT.STATE: 0 disarmed, 1 open, 2 posting, 3 rolling back, 4 re-executing, 5 stopped (R462). -/
def Chip.stageState (m : Chip) : Nat := m.fld K.stageStageStat F.stageStageStatState

/-- Inputs are logged while the page is armed: in the open stage, and during a post, a rollback and a re-execution. -/
def Chip.logging (m : Chip) : Bool := m.stg.armed && decide (1 ≤ m.stageState ∧ m.stageState ≤ 4)

def Chip.reexec (m : Chip) : Bool := m.stageState == 4

/-- Bytes that a record takes: 32 and its payload in whole units of 32 (R446). -/
def LogRec.size (r : LogRec) : Nat := 32 + (r.payload.length + 31) / 32 * 32

/-! ### The words of a record (R446) -/

/-- One byte into CRC-32C (polynomial 0x1EDC6F41, reflected). -/
def crcByte (c : BitVec 32) (b : Byte) : BitVec 32 :=
  (List.range 8).foldl (fun c _ => if c.getLsbD 0 then (c >>> 1) ^^^ 0x82F63B78#32 else c >>> 1) (c ^^^ b.setWidth 32)

def crc32c (l : List Byte) : BitVec 32 := ~~~ (l.foldl crcByte 0xFFFFFFFF#32)

/-- TYPE, SUB and VEC. -/
def LogKind.code : LogKind → Nat × Nat × Nat
  | .cnt => (1, 0, 0)
  | .waitev => (1, 1, 0)
  | .waituntil => (1, 2, 0)
  | .evpoll => (1, 3, 0)
  | .evpeek => (1, 4, 0)
  | .async v => (2, 0, v)
  | .peerWrite => (3, 0, 0)
  | .hostRead => (3, 1, 0)
  | .peerRead => (3, 2, 0)
  | .bar2Write => (3, 3, 0)
  | .transfer => (3, 4, 0)
  | .entry => (4, 0, 0)
  | .markNotify => (5, 0, 0)
  | .markCompletion => (5, 1, 0)
  | .markSendev => (5, 2, 0)

/-- The bytes of a record at a position of the stage. -/
def LogRec.bytes (r : LogRec) (seq : Nat) : List Byte :=
  let k := r.kind.code
  let units := (r.payload.length + 31) / 32
  let pay := r.payload ++ List.replicate (32 * units - r.payload.length) 0
  let w0 := k.1 + k.2.1 * 2 ^ 4 + k.2.2 % 256 * 2 ^ 8 + r.master.toNat * 2 ^ 16 + r.task.toNat * 2 ^ 32 + units * 2 ^ 48
  let head := leBytes 8 w0 ++ leBytes 8 (r.retired % 2 ^ 48) ++ leBytes 8 r.value.toNat
  head ++ leBytes 4 (crc32c (head ++ leBytes 4 (seq % 2 ^ 32) ++ pay)).toNat ++ leBytes 4 (seq % 2 ^ 32) ++ pay

/-- The class of log writes: 4, and 2 while the log is filling (R319, R333, R448). -/
def Chip.logClass (m : Chip) : Nat := if m.flag K.stageStageStat F.stageStageStatFilling then 2 else 4

/-- A write of the stage controller to memory: it passes the slice as any write does; a bad block that it meets is reported
(R294, R316). -/
def Chip.stageWrite (m : Chip) (cls a : Nat) (l : List Byte) : Chip :=
  ((m.crcNote stageId true false a l.length).devWrite stageId cls a l false none).1

/-- The stage controller writes its areas in both copies, in pieces of one line (R445). -/
def Chip.areaWrite (m : Chip) (a : Nat) (l : List Byte) : Chip :=
  let cls := m.logClass
  (pieces 256 a l.length (l.length + 1)).foldl (fun m p =>
    let d := (l.drop (p.1 - a)).take p.2
    let m1 := m.stageWrite cls p.1 d
    match m.mirrorOf p.1 with
    | some b => m1.stageWrite cls b d
    | none => m1) m

/-- LOG_BASE.SIZE: 1 to 64 GiB, other values as the nearer limit. -/
def Chip.logGib (m : Chip) : Nat := clamp 1 64 (m.fld K.stageLogBase F.stageLogBaseSize)

/-- Bytes of the log area (R448). -/
def Chip.logSize (m : Chip) : Nat := m.logGib * 2 ^ 30

/-- First byte of the log area. -/
def Chip.logBase (m : Chip) : Nat := m.fld K.stageLogBase F.stageLogBaseBase * 2 ^ 30

def Chip.logUsed (m : Chip) : Nat := m.fld K.stageLogUsed F.stageLogUsedBytes

/-- The log is full, or becomes so with a record of `n` bytes that does not fit: nothing more is written before a post truncates
it (R449). -/
def Chip.logFull (m : Chip) (n : Nat) : Bool :=
  m.flag K.stageStageStat F.stageStageStatFull || decide (m.logSize < m.logUsed + n)

/-- A post is requested: held in POST_PEND until it can be taken (R441). -/
def Chip.requestPost (m : Chip) : Chip := m.setFld K.stageStageStat F.stageStageStatPostPend 1

/-- The log begins filling at HIGH percent (R448). -/
def Chip.checkFilling (m : Chip) : Chip :=
  let high := clamp 10 95 (m.fld K.stageLogCtl F.stageLogCtlHigh)
  if !m.flag K.stageStageStat F.stageStageStatFilling ∧ m.logSize * high ≤ m.logUsed * 100 then
    ((m.setFld K.stageStageStat F.stageStageStatFilling 1).event stagePage 20).requestPost
  else m

/-- Appends a record: to the log, and its bytes behind those that the area holds. -/
def Chip.logAppend (m : Chip) (r : LogRec) : Chip :=
  let m1 := m.areaWrite (m.logBase + m.logUsed) (r.bytes m.stg.log.length)
  let m2 := { m1 with stg := { m1.stg with log := m1.stg.log ++ [r] } }
  m2.setFld K.stageLogUsed F.stageLogUsedBytes (m.logUsed + r.size)

/-- Writes a record while inputs are logged; when the log is full, FULL is set, a post is requested and no record is
written (R449). -/
def Chip.logPut (m : Chip) (r : LogRec) : Chip :=
  if !m.logging then m
  else if m.logFull r.size then (m.setFld K.stageStageStat F.stageStageStatFull 1).requestPost
  else (m.logAppend r).checkFilling

/-- Records an input that has been taken, or an output that has been made: a re-execution that goes past its records
appends them as reached. -/
def Chip.logRec (m : Chip) (r : LogRec) : Chip := m.logPut { r with reached := m.reexec }

/-- A context makes the record itself, in the order of its instructions: an input of an instruction, or an asynchronous entry. -/
def LogKind.ofContext : LogKind → Bool
  | .cnt | .waitev | .waituntil | .evpoll | .evpeek | .async _ => true
  | _ => false

/-- The record is the context's own, of the MASTER that runs the task: a task may run on another context in the re-execution, so
that its handle names the maker; host-started supervisor code is named by the master (R446, R454; log entry 49). -/
def LogRec.madeBy (r : LogRec) (master : BitVec 16) (task : W16) : Bool :=
  r.kind.ofContext && (if task = 0 then r.task == 0 && r.master == master else r.task == task)

/-- The first record not yet reached, applied or skipped. -/
def Chip.logHead (m : Chip) : Option LogRec := m.stg.log.find? (!·.reached)

/-- The next record of a maker. -/
def Chip.logNext (m : Chip) (master : BitVec 16) (task : W16) : Option LogRec :=
  m.stg.log.find? fun r => !r.reached && r.madeBy master task

/-- Marks the first record not yet reached. -/
def reachFirst : List LogRec → List LogRec
  | [] => []
  | r :: t => if r.reached then r :: reachFirst t else { r with reached := true } :: t

def Chip.logReach (m : Chip) : Chip := { m with stg := { m.stg with log := reachFirst m.stg.log } }

/-- What a maker that needs an input finds in a re-execution (R454, R455). -/
inductive Replay where
  /-- No record of it is left: the input is live. -/
  | live
  /-- Earlier records are still to be reached. -/
  | stall
  /-- Its record, now reached. -/
  | value (r : LogRec)
  /-- The record does not fit. -/
  | diverge
  deriving DecidableEq, Repr

def Chip.replay (m : Chip) (master : BitVec 16) (task : W16) (kind : LogKind) : Replay :=
  match m.logNext master task with
  | none => .live
  | some r =>
    if r.kind ≠ kind then .diverge
    else match m.logHead with
      | some h => if h = r then .value r else .stall
      | none => .live

/-- In a re-execution the next read of a master from host or peer takes its record and is not sent (R454). -/
def Chip.readsFromLog (m : Chip) (master : BitVec 16) : Bool :=
  m.reexec && m.stg.log.any fun r => !r.reached && r.master == master && (r.kind == .hostRead || r.kind == .peerRead || r.kind == .transfer)

/-- A DATA, ENTRY or MARK record that is not yet applied or reached (R446); `land` says how a write lands. -/
def dataRec (kind : LogKind) (master : BitVec 16) (task : W16) (value : Nat) (payload : List Byte) (land : Option Landing) :
    LogRec :=
  { kind := kind, master := master, task := task, retired := 0, value := BitVec.ofNat 64 value, payload := payload, land := land,
    reached := false }

/-- A DATA record of what a freight dray brought in, an ENTRY or a MARK (R332, R446, R447). -/
def Chip.logData (m : Chip) (kind : LogKind) (master : BitVec 16) (task : W16) (value : Nat) (payload : List Byte) : Chip :=
  m.logRec (dataRec kind master task value payload none)

/-- A record with `n` bytes of payload cannot be written now: the input stalls (R449). -/
def Chip.logStalls (m : Chip) (n : Nat) : Bool := m.logging && m.logFull (32 + (n + 31) / 32 * 32)

/-- The log is full: FULL is set and a post is requested (R449). -/
def Chip.logBlocked (m : Chip) : Chip := (m.setFld K.stageStageStat F.stageStageStatFull 1).requestPost

/-- An output that the log marks goes now (R447): live it is recorded; in a re-execution it reaches its mark, or has none.
It waits (none) while its record has no room, or while earlier records are still to be reached (R449, R454). -/
def Chip.markOut (m : Chip) (kind : LogKind) (master : BitVec 16) (task : W16) (value : Nat) : Option Chip :=
  let v := BitVec.ofNat 64 value
  if m.reexec then
    match m.stg.log.find? fun r => !r.reached && r.kind == kind && r.value == v with
    | none => some m
    | some r => if m.logHead = some r then some m.logReach else none
  else if m.logStalls 0 then none
  else some (m.logData kind master task value [])

/-- An output waits for its mark. -/
def Chip.markWait (m : Chip) : Chip := if m.logStalls 0 then m.logBlocked else m

/-- A task is marked as diverged (R455). -/
def Chip.markDiverged (m : Chip) (task : W16) : Chip :=
  { m with stg := { m.stg with diverged := m.stg.diverged ++ [task] } }

/-- A record of a context's own input. -/
def ctxRec (x : Ctx) (k : Context) (kind : LogKind) (v : W64) : LogRec :=
  { kind := kind, master := ctxId x, task := k.task, retired := k.retired, value := v, payload := [], land := none, reached := false }

/-- An instruction whose result is an input of the stage (R104): live, it pushes `live` and the value is logged, unless
it would wait; in a re-execution it pushes its recorded value and does not wait. `push` gives the plan from the value
pushed and what else happens to the chip; `orWait` is the plan when the instruction must wait (none: never waits). -/
def Chip.inputPlan (m : Chip) (x : Ctx) (kind : LogKind) (live : Option W64) (push : W64 → (Chip → Chip) → Plan)
    (orWait : Plan) : Plan :=
  let k := m.ctx x
  let goLive : Plan := match live with
    | none => orWait
    | some v =>
      let r := ctxRec x k kind v
      if m.logging && m.logFull r.size then
        .stall fun m => (m.setFld K.stageStageStat F.stageStageStatFull 1).requestPost
      else push v fun m => m.logRec r
  if m.reexec then
    match m.replay (ctxId x) k.task kind with
    | .live => goLive
    | .stall => .stall id
    | .diverge => .stall fun m => m.markDiverged k.task
    | .value r => push r.value Chip.logReach
  else goLive

end Sys2Proof.Machine
end

