-- ==== Sys2Proof/Machine/Flags.lean ====
section
/-! DEFINITION. The 16-bit arithmetic of a context with its carry (R89): results and C from the exact value. -/
namespace Sys2Proof.Machine

/-- Sum with a carry in: the low 16 bits and the carry out. -/
def addCarry (a b : W16) (c : Bool) : W16 × Bool :=
  let s := a.toNat + b.toNat + b2n c
  (BitVec.ofNat 16 s, decide (65536 ≤ s))

/-- Difference with a borrow in: the low 16 bits and the borrow out. -/
def subBorrow (a b : W16) (c : Bool) : W16 × Bool :=
  let s := b.toNat + b2n c
  (BitVec.ofNat 16 (a.toNat + 131072 - s), decide (a.toNat < s))

/-- A flag word: 0xFFFF for true, 0 for false (R89). -/
def flagWord (b : Bool) : W16 := if b then 0xFFFF else 0

/-- Unsigned 32-bit product, low and high word. -/
def mulWords (a b : W16) : W16 × W16 :=
  let p := BitVec.ofNat 32 (a.toNat * b.toNat)
  (p.truncate 16, (p >>> 16).truncate 16)

/-- Signed 32-bit product, low and high word. -/
def mulsWords (a b : W16) : W16 × W16 :=
  let p := BitVec.ofInt 32 (a.toInt * b.toInt)
  (p.truncate 16, (p >>> 16).truncate 16)

/-- Quotient and remainder; by 0 the quotient is 0xFFFF and the remainder the dividend (R89). -/
def divWords (a b : W16) : W16 × W16 :=
  if b = 0 then (0xFFFF, a) else (BitVec.ofNat 16 (a.toNat / b.toNat), BitVec.ofNat 16 (a.toNat % b.toNat))

/-- Shift counts are taken modulo 16 (R89). -/
def shlWord (a n : W16) : W16 := a <<< (n.toNat % 16)
def shrWord (a n : W16) : W16 := a >>> (n.toNat % 16)
def sarWord (a n : W16) : W16 := a.sshiftRight (n.toNat % 16)
def rolWord (a n : W16) : W16 := a.rotateLeft (n.toNat % 16)

/-- The four words of a 64-bit value, top of stack first: bits [15:0] on top (R85). -/
def words64 (v : W64) : List W16 :=
  [v.truncate 16, (v >>> 16).truncate 16, (v >>> 32).truncate 16, (v >>> 48).truncate 16]

/-- The 64-bit value of four words, top of stack first. -/
def join64 (w0 w1 w2 w3 : W16) : W64 := w3 ++ w2 ++ w1 ++ w0

end Sys2Proof.Machine
end

