-- ==== Sys2Proof/Machine/Operands.lean ====
section
/-! DEFINITION. The operand forms of a context's instructions: taking entries from the data and return stacks and
putting results there (R86, R89), and reading the operand word that follows an instruction (R88). -/
namespace Sys2Proof.Machine

/-- An instruction that leaves a new data stack, the carry as it was. -/
def Chip.dataOp (m : Chip) (x : Ctx) (nd : Nat) (f : List W16 → List W16) : Plan :=
  m.withStacks x nd 0 fun b => .done { b with ds := f b.ds } (m.ctx x).status.c id .seq

/-- One entry in, one out. -/
def Chip.unary (m : Chip) (x : Ctx) (f : W16 → W16) : Plan :=
  m.dataOp x 1 fun
    | a :: t => f a :: t
    | t => t

/-- Two entries in, one out: `f` of the lower and the top entry. -/
def Chip.binary (m : Chip) (x : Ctx) (f : W16 → W16 → W16) : Plan :=
  m.dataOp x 2 fun
    | b :: a :: t => f a b :: t
    | t => t

/-- Two entries in, two out: the pair's second on top. -/
def Chip.binary2 (m : Chip) (x : Ctx) (f : W16 → W16 → W16 × W16) : Plan :=
  m.dataOp x 2 fun
    | b :: a :: t => (f a b).2 :: (f a b).1 :: t
    | t => t

/-- Two entries and C in, one entry and C out. -/
def Chip.binaryC (m : Chip) (x : Ctx) (f : W16 → W16 → Bool → W16 × Bool) : Plan :=
  m.withStacks x 2 0 fun b =>
    match b.ds with
    | v :: u :: t =>
      let r := f u v (m.ctx x).status.c
      .done { b with ds := r.1 :: t } r.2 id .seq
    | _ => .fault vecStkUnf 0

/-- Pushes entries, the first on top. -/
def Chip.pushes (m : Chip) (x : Ctx) (l : List W16) : Plan := m.dataOp x 0 fun t => l ++ t

/-- The operand word T after an instruction of two words; none when its fetch lies out of range (R83, R88). -/
def Chip.operandWord (m : Chip) (x : Ctx) : Option W16 :=
  let a := ((m.ctx x).pc + 1).toNat
  if (m.ctx x).inRange a then some (m.fetchWord x a) else none

/-- An instruction with an operand word; a chock on its fetch otherwise. -/
def Chip.withT (m : Chip) (x : Ctx) (f : W16 → Plan) : Plan :=
  match m.operandWord x with
  | some t => f t
  | none => .chock ((m.ctx x).pc + 1).toNat

/-- A read of `n` words of control memory from logical address `a`; a chock when one lies out of range (R83), as every address
above 0xFFFF does (for FETCH4 and STORE4 DEDUCED, log entry 91). -/
def Chip.loadWords (m : Chip) (x : Ctx) (a : W16) (n : Nat) : Except Nat (List W16) :=
  let as := (List.range n).map fun i => a.toNat + i
  match as.find? fun b => !(m.ctx x).inRange b with
  | some b => .error b
  | none => .ok (as.map (m.loadWord x))

/-- The first of `n` words from logical address `a` that lies out of range, as every address above 0xFFFF does. -/
def Context.badWord (k : Context) (a : W16) (n : Nat) : Option Nat :=
  ((List.range n).map fun i => a.toNat + i).find? fun b => !k.inRange b

/-- A write of words to logical addresses from `a` on. -/
def Chip.storeWords (m : Chip) (x : Ctx) (a : W16) (ws : List W16) : Chip :=
  m.setCms x.coach ((m.ctx x).phys a.toNat) ws

end Sys2Proof.Machine
end

