-- ==== Sys2Proof/Machine/Control.lean ====
section
/-! DEFINITION. Groups 0x10, 0x18 and 0x19: loads and stores of control memory, control flow and hardware loops
(R83, R91 to R94). -/
namespace Sys2Proof.Machine

/-- A load: `n` words from the address on top of the stack; `f` gives the new stack from the words read (lowest address
first), the address and the rest. -/
def Chip.loadOp (m : Chip) (x : Ctx) (n : Nat) (f : List W16 → W16 → List W16 → List W16) : Plan :=
  m.withStacks x 1 0 fun b => match b.ds with
    | a :: t => match m.loadWords x a n with
      | .ok ws => .done { b with ds := f ws a t } (m.ctx x).status.c id .seq
      | .error e => .chock e
    | _ => .fault vecStkUnf 0

def semFetch (m : Chip) (x : Ctx) : Plan := m.loadOp x 1 fun ws _ t => ws ++ t
def semFetchp (m : Chip) (x : Ctx) : Plan := m.loadOp x 1 fun ws a t => (a + 1) :: (ws ++ t)
def semFetch4 (m : Chip) (x : Ctx) : Plan := m.loadOp x 4 fun ws _ t => ws ++ t

/-- A store of `n` words below the address on top of the stack, the one next to the address going to it; `f` gives what
is left on top. -/
def Chip.storeOp (m : Chip) (x : Ctx) (n : Nat) (f : W16 → List W16) : Plan :=
  m.withStacks x (n + 1) 0 fun b => match b.ds with
    | a :: t => match (m.ctx x).badWord a n with
      | some e => .chock e
      | none => .done { b with ds := f a ++ t.drop n } (m.ctx x).status.c (fun m => m.storeWords x a (t.take n)) .seq
    | _ => .fault vecStkUnf 0

def semStore (m : Chip) (x : Ctx) : Plan := m.storeOp x 1 fun _ => []
def semStorep (m : Chip) (x : Ctx) : Plan := m.storeOp x 1 fun a => [a + 1]
def semStore4 (m : Chip) (x : Ctx) : Plan := m.storeOp x 4 fun _ => []

def semBr (m : Chip) (x : Ctx) : Plan :=
  m.withT x fun t => m.withStacks x 0 0 fun b => .done b (m.ctx x).status.c id (.jump t)

/-- A conditional branch: taken when `p` of the flag. -/
def Chip.branchIf (m : Chip) (x : Ctx) (p : W16 → Bool) : Plan :=
  m.withT x fun t => m.withStacks x 1 0 fun b => match b.ds with
    | f :: r => .done { b with ds := r } (m.ctx x).status.c id (if p f then .jump t else .seq)
    | _ => .fault vecStkUnf 0

def semBz (m : Chip) (x : Ctx) : Plan := m.branchIf x (· == 0)
def semBnz (m : Chip) (x : Ctx) : Plan := m.branchIf x (· != 0)

def semCall (m : Chip) (x : Ctx) : Plan :=
  m.withT x fun t => m.withStacks x 0 0 fun b =>
    .done { b with rs := ((m.ctx x).pc + 2) :: b.rs } (m.ctx x).status.c id (.jump t)

def semRet (m : Chip) (x : Ctx) : Plan :=
  m.withStacks x 0 1 fun b => match b.rs with
    | ra :: t => .done { b with rs := t } (m.ctx x).status.c id (.jump ra)
    | _ => .fault vecStkUnf 1

def semBrx (m : Chip) (x : Ctx) : Plan :=
  m.withStacks x 1 0 fun b => match b.ds with
    | a :: t => .done { b with ds := t } (m.ctx x).status.c id (.jump a)
    | _ => .fault vecStkUnf 0

def semCallx (m : Chip) (x : Ctx) : Plan :=
  m.withStacks x 1 0 fun b => match b.ds with
    | a :: t => .done { b with ds := t, rs := ((m.ctx x).pc + 1) :: b.rs } (m.ctx x).status.c id (.jump a)
    | _ => .fault vecStkUnf 0

/-- LOOP: LS the address after T, LE = T, LC = n; n = 0 goes on at LE + 1. T below LS is an operand error, found after an
underflow and before the fills (R93, R117). A LOOP that is itself the last word of a running loop sets the registers anew
and counts no pass of it (DEDUCED, log entry 41). -/
def semLoop (m : Chip) (x : Ctx) : Plan :=
  m.withT x fun t =>
    let ls := (m.ctx x).pc + 2
    if (m.ctx x).bank.depth < 1 then .fault vecStkUnf 0
    else if t.toNat < ls.toNat then .fault vecOperand 0x02
    else m.withStacks x 1 0 fun b => match b.ds with
      | n :: r =>
        .done { b with ds := r, ls := ls, le := t, lc := n } (m.ctx x).status.c id (.skip (if n = 0 then t + 1 else ls))
      | _ => .fault vecStkUnf 0

/-- ENDLOOP: leaves the loop at LE + 1; with LC = 0 it acts as NOP (R94). -/
def semEndloop (m : Chip) (x : Ctx) : Plan :=
  m.withStacks x 0 0 fun b =>
    if b.lc = 0 then .done b (m.ctx x).status.c id .seq
    else .done { b with lc := 0 } (m.ctx x).status.c id (.skip (b.le + 1))

def semLpush (m : Chip) (x : Ctx) : Plan :=
  m.withStacks x 0 0 fun b => .done { b with rs := b.le :: b.ls :: b.lc :: b.rs } (m.ctx x).status.c id .seq

def semLpop (m : Chip) (x : Ctx) : Plan :=
  m.withStacks x 0 3 fun b => match b.rs with
    | le :: ls :: lc :: t => .done { b with rs := t, lc := lc, ls := ls, le := le } (m.ctx x).status.c id .seq
    | _ => .fault vecStkUnf 1

end Sys2Proof.Machine
end

