-- ==== Sys2Proof/Machine/Stack.lean ====
section
/-! DEFINITION. Groups 0x00 to 0x03 and LIT: stack and arithmetic operations, one definition each (R88, R89). -/
namespace Sys2Proof.Machine

def semLit (v : BitVec 15) (m : Chip) (x : Ctx) : Plan := m.pushes x [v.zeroExtend 16]

def semNop (m : Chip) (x : Ctx) : Plan := m.dataOp x 0 id

def semLitw (m : Chip) (x : Ctx) : Plan := m.withT x fun t => m.pushes x [t]

def semDrop (m : Chip) (x : Ctx) : Plan := m.dataOp x 1 fun t => t.drop 1

def semDup (m : Chip) (x : Ctx) : Plan := m.dataOp x 1 fun
  | a :: t => a :: a :: t
  | t => t

def semSwap (m : Chip) (x : Ctx) : Plan := m.dataOp x 2 fun
  | b :: a :: t => a :: b :: t
  | t => t

def semOver (m : Chip) (x : Ctx) : Plan := m.dataOp x 2 fun
  | b :: a :: t => a :: b :: a :: t
  | t => t

def semRot (m : Chip) (x : Ctx) : Plan := m.dataOp x 3 fun
  | c :: b :: a :: t => a :: c :: b :: t
  | t => t

def semNip (m : Chip) (x : Ctx) : Plan := m.dataOp x 2 fun
  | b :: _ :: t => b :: t
  | t => t

def semTuck (m : Chip) (x : Ctx) : Plan := m.dataOp x 2 fun
  | b :: a :: t => b :: a :: b :: t
  | t => t

/-- PICK: an empty stack underflows; then n above 15 is an operand error; then a depth below n + 2 underflows (R89). -/
def semPick (m : Chip) (x : Ctx) : Plan :=
  m.withStacks x 1 0 fun b =>
    match b.ds with
    | n :: _ =>
      if 15 < n.toNat then .fault vecOperand 0x01
      else m.withStacks x (n.toNat + 2) 0 fun b =>
        .done { b with ds := b.ds.getD (n.toNat + 1) 0 :: b.ds.drop 1 } (m.ctx x).status.c id .seq
    | [] => .fault vecStkUnf 0

def semDrop2 (m : Chip) (x : Ctx) : Plan := m.dataOp x 2 fun t => t.drop 2

def semDup2 (m : Chip) (x : Ctx) : Plan := m.dataOp x 2 fun
  | b :: a :: t => b :: a :: b :: a :: t
  | t => t

def semSwap2 (m : Chip) (x : Ctx) : Plan := m.dataOp x 4 fun
  | d :: c :: b :: a :: t => b :: a :: d :: c :: t
  | t => t

/-- The depth before the push, saturating (R89). -/
def semDepth (m : Chip) (x : Ctx) : Plan := m.pushes x [BitVec.ofNat 16 (min 0xFFFF (m.ctx x).bank.depth)]

def semTor (m : Chip) (x : Ctx) : Plan :=
  m.withStacks x 1 0 fun b => match b.ds with
    | a :: t => .done { b with ds := t, rs := a :: b.rs } (m.ctx x).status.c id .seq
    | _ => .fault vecStkUnf 0

def semFromr (m : Chip) (x : Ctx) : Plan :=
  m.withStacks x 0 1 fun b => match b.rs with
    | a :: t => .done { b with ds := a :: b.ds, rs := t } (m.ctx x).status.c id .seq
    | _ => .fault vecStkUnf 1

def semRfetch (m : Chip) (x : Ctx) : Plan :=
  m.withStacks x 0 1 fun b => match b.rs with
    | a :: t => .done { b with ds := a :: b.ds, rs := a :: t } (m.ctx x).status.c id .seq
    | _ => .fault vecStkUnf 1

def semRdepth (m : Chip) (x : Ctx) : Plan := m.pushes x [BitVec.ofNat 16 (min 0xFFFF (m.ctx x).bank.rdepth)]

def semAdd (m : Chip) (x : Ctx) : Plan := m.binaryC x fun a b _ => addCarry a b false
def semAdc (m : Chip) (x : Ctx) : Plan := m.binaryC x addCarry
def semSub (m : Chip) (x : Ctx) : Plan := m.binaryC x fun a b _ => subBorrow a b false
def semSbb (m : Chip) (x : Ctx) : Plan := m.binaryC x subBorrow
def semNeg (m : Chip) (x : Ctx) : Plan := m.unary x fun a => -a
def semInc (m : Chip) (x : Ctx) : Plan := m.unary x fun a => a + 1
def semDec (m : Chip) (x : Ctx) : Plan := m.unary x fun a => a - 1
def semMul (m : Chip) (x : Ctx) : Plan := m.binary2 x mulWords
def semMuls (m : Chip) (x : Ctx) : Plan := m.binary2 x mulsWords
def semUdivmod (m : Chip) (x : Ctx) : Plan := m.binary2 x divWords

def semAnd (m : Chip) (x : Ctx) : Plan := m.binary x fun a b => a &&& b
def semOr (m : Chip) (x : Ctx) : Plan := m.binary x fun a b => a ||| b
def semXor (m : Chip) (x : Ctx) : Plan := m.binary x fun a b => a ^^^ b
def semNot (m : Chip) (x : Ctx) : Plan := m.unary x fun a => ~~~ a
def semShl (m : Chip) (x : Ctx) : Plan := m.binary x shlWord
def semShr (m : Chip) (x : Ctx) : Plan := m.binary x shrWord
def semSar (m : Chip) (x : Ctx) : Plan := m.binary x sarWord
def semRol (m : Chip) (x : Ctx) : Plan := m.binary x rolWord

def semEq (m : Chip) (x : Ctx) : Plan := m.binary x fun a b => flagWord (a == b)
def semNe (m : Chip) (x : Ctx) : Plan := m.binary x fun a b => flagWord (a != b)
def semLtu (m : Chip) (x : Ctx) : Plan := m.binary x fun a b => flagWord (decide (a.toNat < b.toNat))
def semLts (m : Chip) (x : Ctx) : Plan := m.binary x fun a b => flagWord (decide (a.toInt < b.toInt))
def semGeu (m : Chip) (x : Ctx) : Plan := m.binary x fun a b => flagWord (decide (b.toNat ≤ a.toNat))
def semGes (m : Chip) (x : Ctx) : Plan := m.binary x fun a b => flagWord (decide (b.toInt ≤ a.toInt))
def semZeq (m : Chip) (x : Ctx) : Plan := m.unary x fun a => flagWord (a == 0)

/-- CNT pushes the coach's counter, an input of the stage (R27, R89, R104). -/
def semCnt (m : Chip) (x : Ctx) : Plan :=
  m.inputPlan x .cnt (some (m.cycle x.coach))
    (fun v upd => m.withStacks x 0 0 fun b => .done { b with ds := words64 v ++ b.ds } (m.ctx x).status.c upd .seq)
    (.stall id)

end Sys2Proof.Machine
end

