-- ==== Sys2Proof/Machine/Board.lean ====
section
/-! DEFINITION. Supplies, lands, clocks, resets and start-up (chapter 1): R13 to R52. -/
namespace Sys2Proof.Machine

/-! ### Acting on the chip -/

/-- The flash is busy with an update or a command that writes it (R505, R507). -/
def Chip.flashBusy (m : Chip) : Bool :=
  let a := K.pageCmdStat (pageBase .mbox 0)
  m.flag a F.pageCmdStatBusy && ([0x02, 0x03, 0x08] : List Nat).elem (m.fld a F.pageCmdStatCode)

/-- Entries that the ostler holds reach the event log, a ring of 4,096 (R507), unless the flash is busy. -/
def drainLog (n : Nvm) (m : Chip) : Nvm × Chip :=
  if m.mg.logWait.isEmpty || m.flashBusy then (n, m)
  else
    let l := n.log ++ m.mg.logWait
    ({ n with log := l.drop (l.length - 4096) }, { m with mg := { m.mg with logWait := [] } })

/-- A command that acts on the chip and on what survives every reset. -/
def onBoth (f : Nvm × Chip → Nvm × Chip) (s : State) : Host.Outcome State Fault Refusal :=
  let r := f (s.nvm, s.chip)
  let d := drainLog r.1 r.2
  .next { s with nvm := d.1, chip := d.2 }

/-- A command that acts on the chip alone: what survives every reset stays as it is. -/
def onChip (f : Chip → Chip) (s : State) : Host.Outcome State Fault Refusal := .next { s with chip := f s.chip }

/-- A command that acts on the chip alone, and lets the event log drain. -/
def onLog (f : Chip → Chip) (s : State) : Host.Outcome State Fault Refusal := onBoth (fun p => (p.1, f p.2)) s

/-- The same for a command that reads what survives every reset. -/
def onChipWith (f : Nvm → Chip → Chip) (s : State) : Host.Outcome State Fault Refusal :=
  onBoth (fun p => (p.1, f p.1 p.2)) s

/-- Memory holds data: from the end of step 5 on (R43), outside every reset and held failure (R48), and not while a stop
runs, in which the HBM controllers issue nothing (R481). -/
def Chip.memUp (m : Chip) : Bool :=
  !m.board.por && !m.board.inReset && !m.board.heldFail && decide (6 ≤ m.phase) && m.pwr.stops.isEmpty

/-- A command that works in memory: before it is up, nothing is issued. -/
def onHbm (f : Chip → Chip) (s : State) : Host.Outcome State Fault Refusal :=
  onChip (fun m => if m.memUp then f m else m) s

/-- A command that acts in a coach: nothing happens there while the clock of its rake stands; the RUN bits of its pages
follow. -/
def onCoach (c : Fin 64) (f : Chip → Chip) (s : State) : Host.Outcome State Fault Refusal :=
  onChip (fun m => if m.domRuns (coachDomain c.val) then (f m).syncCoach c else m) s

/-- The ostler writes an entry of the event log; 64 wait at most (R507). -/
def Chip.logEvent (m : Chip) (c : LogCode) : Chip :=
  let e : EvtEntry := { stamp := m.stamp 33, code := c }
  if !m.board.ostlerUp || decide (64 ≤ m.mg.logWait.length) then m else { m with mg := { m.mg with logWait := m.mg.logWait ++ [e] } }

/-- The module state sensor (R489): 0 not ready, 1 ready, 2 held failure, 3 escalated. -/
def Chip.moduleSensor (m : Chip) : Nat :=
  if m.board.heldFail then 2
  else if !m.ready then 0
  else if m.fld K.stageStageStat F.stageStageStatState = 5 then 3 else 1

/-- A platform event can go out on transport `t` (R487): its bus owner has set a receiver, and on PCIe its link is up. -/
def Chip.reaches (m : Chip) (t : Nat) : Bool := m.mg.recv.getLsbD t && (decide (t < 2) || m.linkUp (t - 2))

/-- The event waits for transport `t`: a receiver is set there and has not got it (R487). -/
def Chip.awaits (m : Chip) (e : PlatEvent) (t : Nat) : Bool := m.mg.recv.getLsbD t && !e.taken.getLsbD t

/-- The event is delivered: a transport has taken it, and it waits for no other. -/
def Chip.delivered (m : Chip) (e : PlatEvent) : Bool := e.taken != 0 && !([0, 1, 2, 3] : List Nat).any (m.awaits e)

/-- A waiting event goes out on each transport that it awaits and that can take it (R487). -/
def Chip.sendPlat (m : Chip) (e : PlatEvent) : Chip × PlatEvent :=
  ([0, 1, 2, 3] : List Nat).foldl (fun (p : Chip × PlatEvent) t =>
    if p.1.awaits p.2 t && p.1.reaches t then
      (p.1.emit (.plat t e.kind), { p.2 with taken := p.2.taken ||| BitVec.ofNat 4 (2 ^ t) })
    else p) (m, e)

/-- The ostler sends the events that wait, in their order; one is kept until every transport with a receiver has it (R487). -/
def Chip.sendEvents (m : Chip) : Chip :=
  let r := m.mg.events.foldl (fun (a : Chip × List PlatEvent) e => let b := a.1.sendPlat e; (b.1, a.2 ++ [b.2])) (m, [])
  { r.1 with mg := { r.1.mg with events := r.2.filter fun e => !m.delivered e } }

/-- A platform event (R487, R490) waits for its delivery; 64 are kept, and the oldest is dropped for a 65th. -/
def Chip.platform (m : Chip) (k : PlatKind) : Chip :=
  if !m.board.ostlerUp || m.board.romLoader then m
  else
    let l := m.mg.events ++ [(⟨k, 0⟩ : PlatEvent)]
    { m with mg := { m.mg with events := l.drop (l.length - 64) } }

/-- The module state sensor has changed (R490). -/
def Chip.tellState (m : Chip) : Chip := m.platform (.moduleState m.moduleSensor)

/-- A command whose event does not happen unless `c` holds. -/
def Chip.when (m : Chip) (c : Bool) (f : Chip → Chip) : Chip := if c then f m else m

def Chip.modBoard (m : Chip) (f : Board → Board) : Chip := { m with board := f m.board }

/-! ### Lands (R13, R14, R17) -/

/-- The module is powered: its output lands drive. -/
def Chip.powered (m : Chip) : Bool := m.board.vstby33

/-- cool_pwm in tenths of a percent (R17): 0 without main power; full in every MODULE reset and from step 2 until the
governor takes control at step 6; then the governor's demand. -/
def Chip.coolPwm (m : Chip) : Nat :=
  if !m.board.vstby33 || !m.board.vin48 then 0
  else if m.board.inReset then 1000
  else if m.phase < 2 then 0
  else if m.phase < 7 then 1000
  else m.fld K.coolDemand F.coolDemandDuty

/-- mod_ready is high while the module is ready (R13, R42). -/
def Chip.modReady (m : Chip) : Bool := m.ready

/-- mod_fault_n is low while the module is in a held failure state (R13, R48). -/
def Chip.modFaultN (m : Chip) : Bool := !m.board.heldFail

/-- clkreq_n is driven low from step 2 onward (R13), also in a MODULE reset that comes later. -/
def Chip.clkreqN (m : Chip) : Bool := !(m.board.stepTwo && m.board.vstby33)

/-- wake_n is low while it asks for main power (R13). -/
def Chip.wakeN (m : Chip) : Bool := !(m.board.wake && m.board.vstby33)

/-- smb_alert_n is low while an event waits for its delivery on SMBus (R487). -/
def Chip.smbAlertN (m : Chip) : Bool := !m.mg.events.any (m.awaits · 0) || !m.board.vstby33

/-- therm_trip_n is low from a trip until step 4 of the next start-up (R13, R482). -/
def Chip.thermTripN (m : Chip) : Bool := m.board.thermTripN || !m.board.vstby33

/-- The 8-bit codes of the TAP's instructions (R503). -/
def TapInstr.code : TapInstr → Byte
  | .bypass => 0xFF | .idcode => 0x01 | .sample => 0x02 | .extest => 0x00 | .clamp => 0x03 | .highz => 0x04
  | .dbgToken => 0x10 | .dbgNonce => 0x11 | .dbgAccess => 0x12 | .dbgReset => 0x13

/-- What the one-bit output lands are at: mod_ready, mod_fault_n, therm_trip_n, clkreq_n, wake_n, smb_alert_n, and cool_pwm above 0 %.
EXTEST and CLAMP drive them from the boundary-scan register, and HIGHZ drives none (R503; IEEE 1149.1, PRESUMED, log entry 30). -/
def Chip.lands (m : Chip) : List (Option Bool) :=
  let own := [m.modReady, m.modFaultN, m.thermTripN, m.clkreqN, m.wakeN, m.smbAlertN, decide (0 < m.coolPwm)]
  let ir := m.board.tap
  if ir = TapInstr.highz.code then own.map fun _ => none
  else if ir = TapInstr.extest.code ∨ ir = TapInstr.clamp.code then own.mapIdx fun i _ => some (m.board.bsr.getLsbD i)
  else own.map some

/-- The module's address on SMBus and its I3C static address: 0x58 plus the latched strap_addr (R13, R15). -/
def Chip.mgmtAddr (m : Chip) : Nat := 0x58 + m.board.straps.toNat / 4

/-! ### Resets (R33 to R37) -/

/-- The bit of RST.RESET_CAUSE of a MODULE cause (R39). An ostler watchdog before step 6 counts as OSTLER (R50). -/
def ModCause.bit : ModCause → Nat
  | .sag48 => 1
  | .sagRail _ => 2
  | .perst => 3
  | .cmd => 4
  | .therm => 5
  | .leak => 6
  | .watchdog => 7
  | .debug => 10

/-- RESET_CAUSE with a cause recorded, and RAIL_ID for a rail. -/
def causeWord (w : W64) (c : ModCause) : W64 :=
  let w1 := w ||| BitVec.ofNat 64 (2 ^ c.bit)
  match c with
  | .sagRail r => F.rstResetCauseRailId.put w1 r
  | _ => w1

/-- The lands, supplies and latched straps, which no reset but POR changes; everything else of the board as after reset. -/
def Board.kept (b : Board) : Board :=
  { Board.reset with
    vstby33 := b.vstby33, vin48 := b.vin48, mainGood := b.mainGood, hubRails := b.hubRails, perst0N := b.perst0N, perst1N := b.perst1N, coolLeakN := b.coolLeakN,
    jtagTrstN := b.jtagTrstN, strapBifur := b.strapBifur, strapRecN := b.strapRecN, strapAddr := b.strapAddr,
    refclk := b.refclk, refSel1 := b.refSel1, straps := b.straps, t0 := b.t0, por := b.por, stepTwo := b.stepTwo,
    unlogged := b.unlogged, wake := b.wake, thermTripN := b.thermTripN, tap := b.tap, bsr := b.bsr }

/-- Power-on reset: everything but the lands returns to its reset value (R33). -/
def Chip.powerOn (m : Chip) (vstby33 : Bool) : Chip :=
  let b := m.board
  { Chip.reset with
    board := { Board.reset with
      vstby33 := vstby33, perst0N := b.perst0N, perst1N := b.perst1N,
      coolLeakN := b.coolLeakN, jtagTrstN := b.jtagTrstN, strapBifur := b.strapBifur, strapRecN := b.strapRecN,
      strapAddr := b.strapAddr },
    out := m.out, tick := m.tick }

/-- The chip as a MODULE reset leaves it (R33 to R35): the always-on domain, the reset records and the lands are kept,
all else returns to its reset value. -/
def Chip.moduleState (m : Chip) : Chip :=
  { Chip.reset with
    board := { m.board.kept with inReset := true },
    dom := m.dom.mapIdx fun d x => if d = 33 then x else Domain.reset d,
    regs := m.regs.filter fun e =>
      e.1 == K.rstResetCause || e.1 == K.rstResetCount || e.1 == K.rstLastResetStamp,
    out := m.out, tick := m.tick }

/-- The cause holds the reset as long as what raised it lasts: the supply below its threshold, the pin low, the leak, the
trip. The others are over at once. -/
def ModCause.lasts (b : Board) : ModCause → Bool
  | .sag48 => !b.vin48
  | .perst => !b.perst0N
  | .leak => !b.coolLeakN
  | .therm => true
  | .cmd | .debug | .watchdog | .sagRail _ => false

/-- A supply sag takes the hub rails down with the others (R35, R473). -/
def ModCause.sags : ModCause → Bool
  | .sag48 | .sagRail _ => true
  | _ => false

/-- A cause is recorded in RESET_CAUSE (R37), and holds the MODULE reset as long as it lasts. -/
def Chip.addCause (m : Chip) (c : ModCause) : Chip :=
  (m.setReg K.rstResetCause (causeWord (m.reg K.rstResetCause) c)).modBoard fun b =>
    { b with
      unlogged := causeWord b.unlogged c
      causes := if c.lasts b && !b.causes.elem c then b.causes ++ [c] else b.causes
      hubRails := b.hubRails && !c.sags }

/-- A MODULE cause (R33, R35, R37): its bit is recorded, and those of the stops that were to reset the module; unless the
module is already in MODULE reset, the reset is entered, counted and stamped. In power-on reset, the wider scope, the cause
is recorded alone. -/
def Chip.moduleEnter (m : Chip) (c : ModCause) : Chip :=
  if !m.board.vstby33 then m
  else if m.board.por then
    (m.setReg K.rstResetCause (causeWord (m.reg K.rstResetCause) c)).modBoard fun b => { b with unlogged := causeWord b.unlogged c }
  else if m.board.inReset then m.addCause c
  else
    let m1 := (c :: m.pwr.stops).foldl Chip.addCause m.moduleState
    let m2 := m1.count K.rstResetCount 1
    m2.setReg K.rstLastResetStamp (m2.stamp 33)

/-- A MODULE cause has cleared. -/
def Chip.causeClears (m : Chip) (p : ModCause → Bool) : Chip :=
  m.modBoard fun b => { b with causes := b.causes.filter fun c => !p c }

/-- Everything of the register space in `[lo, hi)` returns to its reset value: registers, shadows, error queues and the
chocks that its pages hold. -/
def Chip.resetPages (m : Chip) (lo hi : Nat) : Chip :=
  let p (k : Nat) : Bool := decide (lo ≤ k ∧ k < hi)
  { m with regs := smapErase p m.regs, staged := smapErase p m.staged, errq := smapErase p m.errq,
           chocks := m.chocks.filter fun c => !p c.page.base }

/-! ### Supplies and power-on reset -/

/-- VSTBY33_RISE (R33, R40): vstby33 rises above 3.0 V; a power-on reset starts, with start-up at step 1. -/
def execVstby33Rise (s : State) : Host.Outcome State Fault Refusal :=
  onChip (fun m => m.when (!m.board.vstby33) fun m => m.powerOn true) s

/-- VSTBY33_FALL (R33): vstby33 falls below 2.9 V; the whole module takes a power-on reset. -/
def execVstby33Fall (s : State) : Host.Outcome State Fault Refusal :=
  onChip (fun m => m.when m.board.vstby33 fun m => m.powerOn false) s

/-- The straps as they are latched (R15, R39): BIFUR, REC (strap_rec_n low), ADDR. -/
def Board.latchStraps (b : Board) : BitVec 5 :=
  BitVec.ofNat 5 (b2n b.strapBifur + 2 * b2n (!b.strapRecN) + 4 * b.strapAddr.toNat)

/-- A stop begins (R481): the rake clocks stop, HBM issues nothing further, a trip drives therm_trip_n low, and the event log
records its source. A second stop of the other kind joins the sequence that runs; one of the same kind changes nothing. -/
def Chip.beginStop (m : Chip) (c : ModCause) (src : Nat) : Chip :=
  if m.pwr.stops.elem c || m.board.por || m.board.inReset then m
  else
    let m1 := Chip.clocks { m with pwr := { m.pwr with stops := m.pwr.stops ++ [c] } } (fun d => decide (d < 4)) false
    let m2 := m1.modBoard fun b => { b with thermTripN := b.thermTripN && c != .therm }
    let m3 := if m.pwr.stops.isEmpty then m2.setFld K.coolTemps F.coolTempsTripSrc src else m2
    (m3.logEvent (.stop c src)).platform (if c = .therm then .trip else .leak)

/-- POR_RELEASE (R15, R40): power-on reset is released, the straps are latched, the always-on oscillator is good and the
always-on counter starts. A leak that stands then begins its stop (R481). -/
def execPorRelease (s : State) : Host.Outcome State Fault Refusal :=
  onChip (fun m => m.when (m.board.vstby33 && m.board.por) fun m =>
    let m1 := (((m.modBoard fun b => { b with por := false, straps := b.latchStraps, refclk := b.refclk ||| 8 }).clocks
      (· == 33) true).syncRun ⟨.rst, 0⟩).syncRun ⟨.clk, 0⟩
    if m.board.coolLeakN then m1 else m1.beginStop .leak 6) s

/-- MAIN_POWER_GOOD (R17, R33, R40): vin48 has risen to `mv`. From 40.0 V on it is present, and no longer a cause of reset;
at 45.0 V, held for 1 ms, main power is good: T0, which from step 1 starts step 2. In a MODULE reset start-up goes on only
once the reset is released. perst0_n low from power-up holds no reset, only its fall is a cause (DEDUCED, log entry 9).
wake_n has its answer. -/
def execMainPowerGood (mv : Nat) (s : State) : Host.Outcome State Fault Refusal :=
  onChip (fun m => m.when (m.board.vstby33 && !m.board.por && !m.board.mainGood && decide (40000 ≤ mv)) fun m =>
    let m1 := (m.modBoard fun b => { b with vin48 := true, wake := false }).causeClears (· == .sag48)
    if mv < 45000 then m1
    else
      let m2 := m1.modBoard fun b => { b with mainGood := true, t0 := m.counter 33 }
      if m2.board.inReset then m2
      else (m2.modBoard fun b => { b with stepTwo := true }).setFld K.rstBootStat F.rstBootStatPhase 2) s

/-! ### Start-up (R40 to R52) -/

/-- Start-up is at step `n` and goes on. -/
def Chip.atStep (m : Chip) (n : Nat) : Bool :=
  !m.board.por && !m.board.inReset && !m.board.heldFail && decide (m.phase = n) && m.board.mainGood

def Chip.setPhase (m : Chip) (n : Nat) : Chip := m.setFld K.rstBootStat F.rstBootStatPhase n

/-- The held failure state (R48), with the failing unit: the rake and HBM rails go down. -/
def Chip.holdFailure (m : Chip) (bit : Fld) (unit : Nat) : Chip :=
  let m1 := (m.setFld K.rstBootStat bit 1).setFld K.rstBootStat F.rstBootStatFailUnit unit
  let m2 := (m1.setFld K.rstBootStat F.rstBootStatReady 0).modBoard fun b => { b with heldFail := true, ramping := false, coreRails := false }
  (m2.clocks (fun d => decide (d ≤ 3) || decide (5 ≤ d ∧ d ≤ 20)) false).tellState

/-- RUN of the pages of RST, CLK and the functions that are present, once the hub and the PCIe core run (R72). -/
def Chip.syncHub (m : Chip) : Chip :=
  (List.range 16).foldl (fun (m : Chip) f => m.syncRun ⟨.func, f⟩) ((m.syncRun ⟨.rst, 0⟩).syncRun ⟨.clk, 0⟩)

/-- HUB_RAILS_UP (R40): the hub rails have ramped: the hub and the PCIe core run and step 3 begins. A rail of step 2 that
fails is group 4 (R465); the PCIe core runs all the same, since the physical function enumerates in a held failure (R48). -/
def execHubRailsUp (fail : Bool) (s : State) : Host.Outcome State Fault Refusal :=
  onChip (fun m => m.when (m.atStep 2) fun m =>
    let m1 := m.clocks (fun d => d == 32 || d == 21) true |>.syncHub
    if fail then m1.holdFailure F.rstBootStatRailFail 4
    else
      (((m1.modBoard fun b => { b with hubRails := true }).setPhase 3).syncRun ⟨.hostif, 0⟩).syncRun ⟨.time, 0⟩) s

/-- The result of verifying an image (R494, R505): 0 good, 1 key, 2 signature, 3 body, 4 SVN. -/
def imageCode (arb : Nat) (whole : Bool) (c : ImageCheck) : Nat :=
  if !c.keyOk then 1 else if !c.sigOk then 2 else if !(c.bodyOk && whole) then 3 else if c.svn.val < arb then 4 else 0

/-- Slot A verifies or not; an update that is not complete left it partly written (R496). -/
def Nvm.codeA (n : Nvm) : Nat := imageCode n.arb (!n.aCut) n.checkA

def Nvm.codeB (n : Nvm) : Nat := imageCode n.arb true n.checkB

/-- The ostler is up, with an image (its version and bytes) or with the ROM loader; the resets since the last entry are logged
with their causes (R507), and the bottom tree in use is ready. -/
def Chip.ostlerRuns (n : Nvm) (m : Chip) (image : Option (Nat × SMap Byte)) : Chip :=
  let m1 := m.modBoard fun b => { b with ostlerUp := true, ostlerBoot := false, romLoader := image.isNone }
  let m2 := m1.setFld K.mboxMbStat F.mboxMbStatRecovery (b2n image.isNone)
  let m3 := { m2 with mg := { m2.mg with
    runSvn := image.map Prod.fst, runImage := (image.map Prod.snd).getD [], trees := [n.sig / 1024] } }
  ((m3.logEvent (.reset m3.board.unlogged)).modBoard fun b => { b with unlogged := 0 }).syncRun ⟨.mbox, 0⟩

/-- The ostler comes up (R45, R46): slot A if it verifies as the flash gives it back, else slot B; neither is a held failure,
in which from then on only the ROM loader runs (R49); with strap_rec_n low the recovery loader runs. The second part says
whether an image runs. -/
def Chip.ostlerStart (n : Nvm) (m : Chip) (a b : Verdict) : Chip × Bool :=
  if m.flag K.rstBootStat F.rstBootStatBootFail then (m.ostlerRuns n none, false)
  else if m.board.straps.getLsbD 1 then ((m.setFld K.rstBootStat F.rstBootStatRecovery 1).ostlerRuns n none, false)
  else if a.intact && decide (n.codeA = 0) then
    ((m.setFld K.rstBootStat F.rstBootStatImage 0).ostlerRuns n (some (n.checkA.svn.val, n.slotA)), true)
  else if b.intact && decide (n.codeB = 0) then
    ((m.setFld K.rstBootStat F.rstBootStatImage 1).ostlerRuns n (some (n.checkB.svn.val, n.slotB)), true)
  else ((m.ostlerRuns n none).holdFailure F.rstBootStatBootFail 0, false)

/-- OSTLER_IMAGE_VERIFY (R45, R46, R48): step 3; with an image running step 4 is next. -/
def execOstlerImageVerify (a b : Verdict) (s : State) : Host.Outcome State Fault Refusal :=
  onChipWith (fun n m => m.when (m.atStep 3 && !m.board.ostlerUp) fun m =>
    let r := m.ostlerStart n a b
    if r.2 then (r.1.setPhase 4).syncRun ⟨.cool, 0⟩ else r.1) s

/-- The conditions of step 4 (R47): no leak, at least 0.5 L/min, and an inlet temperature of at most 40 degrees C (two's
complement tenths) that was read from the coolant distribution unit, which answers (CDU_OK). -/
def Chip.coolantOk (m : Chip) : Bool :=
  m.board.coolLeakN && decide (50 ≤ m.fld K.coolCoolStat F.coolCoolStatFlow) && m.flag K.coolCoolStat F.coolCoolStatCduOk
    && m.pwr.cduIn && decide ((BitVec.ofNat 16 (m.fld K.coolCoolStat F.coolCoolStatTIn)).toInt ≤ 400)

/-- COOL_FAIL (R47, R48): after 10 s of waiting start-up stops in a held failure state. COOL_HOLD stays as it is: no rule
clears it there (DESIGN CHOICE, log entry 13). -/
def execCoolFail (s : State) : Host.Outcome State Fault Refusal :=
  onChip (fun m => m.when (m.atStep 4 && m.flag K.rstBootStat F.rstBootStatCoolHold) fun m =>
    m.holdFailure F.rstBootStatCoolFail 0) s

/-- The group in which a rail of step 4 ramps, by its RAIL_ID (R465): 0 fabric, 1 HBM, 2 rakes, 3 Selfan PHYs; 4 is the
rails of step 2. -/
def railGroup (r : Nat) : Nat :=
  if r < 8 then 2 else if r = 8 then 0 else if r < 17 then 1 else if r = 17 then 3 else 4

/-- RAIL_RAMP_DONE (R40, R48, R465): the rails of step 4 are up, and step 5 begins; or rail `r` failed to ramp. -/
def execRailRampDone (fail : Option (Fin 18)) (s : State) : Host.Outcome State Fault Refusal :=
  onChip (fun m => m.when (m.atStep 4 && m.board.ramping) fun m =>
    match fail with
    | some r => m.holdFailure F.rstBootStatRailFail (railGroup r.val)
    | none =>
      ((m.modBoard fun b => { b with ramping := false, coreRails := true }).clocks
        (fun d => decide (4 ≤ d ∧ d ≤ 20) || decide (22 ≤ d ∧ d ≤ 31)) true).setPhase 5) s

end Sys2Proof.Machine
end

