-- ==== Sys2Proof/Machine/HostReq.lean ====
section
/-! DEFINITION. What the part sends to the host (R410, R411, R413) and to its peers (R416 to R424), and the freight drays
that carry it (R330, R331). -/
namespace Sys2Proof.Machine

/-! ### One arbiter's rule (R287) -/

/-- In rotation among the requesters: one that has not had a turn, else the one whose turn is longest past; each requester's
oldest. `turn` lists the requesters served, the last first. -/
def rotate {α β : Type} [BEq β] (who : α → β) (turn : List β) (l : List α) : Option α :=
  match l.find? fun a => !turn.elem (who a) with
  | some a => some a
  | none => turn.reverse.findSome? fun w => l.find? fun a => who a == w

/-- The request that an arbiter grants: after a grant to class 1, the aged one of the lowest class, the oldest of it; else the
lowest class, in rotation among its requesters. -/
def arbitrate {α β : Type} [BEq β] (cls : α → Nat) (who : α → β) (passed : α → Nat) (lastC1 : Bool) (turn : List β)
    (l : List α) : Option α :=
  let aged := if lastC1 then ([1, 2, 3, 4] : List Nat).findSome? fun c => l.find? fun a => cls a == c && decide (8 ≤ passed a) else none
  match aged with
  | some a => some a
  | none => ([1, 2, 3, 4] : List Nat).findSome? fun c => rotate who turn (l.filter fun a => cls a == c)

/-! ### Host requests (R410, R411) -/

/-- Link and address on it of a host address (R411). -/
def Chip.hostRoute (m : Chip) (a : Nat) : Nat × Nat :=
  if m.bifur then (a / 2 ^ 63 % 2, a % 2 ^ 63) else (0, a % 2 ^ 64)

/-- The physical function of link `l`. -/
def linkPf (l : Nat) : Nat := if l = 0 then 0 else 8

/-- The function whose requester ID a request on link `l` carries: the one it is made for when it belongs to the link. -/
def Chip.reqFunc (m : Chip) (f : Option Nat) (l : Nat) : Nat :=
  match f with
  | some f => if m.linkOf f = l then f else linkPf l
  | none => linkPf l

/-- Bus Master Enable of a function. -/
def Chip.bme (m : Chip) (f : Nat) : Bool := m.flag (K.funcFstat f) F.funcFstatBme

/-- The function of the queue that submitted a task (R379, R411). -/
def Chip.taskFunc (m : Chip) (t : W16) : Option Nat :=
  (m.task t).map fun k => m.fld (K.doorbellQctl k.queue) F.doorbellQctlFunc

def Chip.setHost (m : Chip) (h : HostIf) : Chip := { m with host := h }

/-- HOSTIF.HELD counts the module's requests that wait for a link. -/
def Chip.syncHeld (m : Chip) : Chip :=
  m.setFld K.hostifHeld F.hostifHeldCount (m.host.held.length + (m.host.reads.filter (!·.sent)).length)

/-- The configuration of a function. -/
def Chip.cfgOf (m : Chip) (f : Nat) : FuncCfg := m.host.cfg[f % 16]'(by omega)

/-- The attributes that a function's requests carry (R410). -/
def Chip.attrOf (m : Chip) (f : Nat) : TlpAttr := ⟨(m.cfgOf f).relaxed, (m.cfgOf f).ido, (m.cfgOf f).ecrc⟩

/-- A write crosses the link in pieces of at most the programmed payload size (R410). -/
def Chip.emitWrite (m : Chip) (f a : Nat) (l : List Byte) : Chip :=
  (pieces (m.cfgOf f).mps a l.length (l.length + 1)).foldl
    (fun m p => m.emit (.host (.write f p.1 ((l.drop (p.1 - a)).take p.2) (m.attrOf f)))) m

/-- The requests that a read is made of: each of at most the programmed size. -/
def Chip.readParts (m : Chip) (f a n : Nat) : List (Nat × Nat) := pieces (m.cfgOf f).mrrs a n (n + 1)

/-- Tags in use on a link. -/
def Chip.tagsOf (m : Chip) (l : Nat) : List Nat := (m.host.reads.filter (·.link == l)).flatMap (·.tags)

/-- The lowest `n` free tags of a link: 14 bits in flit mode, 10 otherwise (R410). -/
def Chip.freeTags (m : Chip) (l n : Nat) : List Nat :=
  let used := m.tagsOf l
  ((List.range (if m.flag (K.hostifLinkStat l) F.hostifLinkStatFlit then 16384 else 1024)).filter (!used.elem ·)).take n

/-- A read crosses the link in its requests, each with its tag. -/
def Chip.emitRead (m : Chip) (f a n id : Nat) (tags : List Nat) : Chip :=
  ((m.readParts f a n).zip tags).foldl (fun m p => m.emit (.host (.read f p.1.1 p.1.2 id p.2 (m.attrOf f)))) m

/-- The next number of an access (R361). -/
def Chip.takeSer (m : Chip) : Chip × Nat := ({ m with xlat := { m.xlat with ser := m.xlat.ser + 1 } }, m.xlat.ser)

/-- A write to a host address: sent, or held while its link is down, Bus Master Enable is 0 or earlier writes wait. -/
def Chip.hostWrite (m : Chip) (f : Option Nat) (a : Nat) (l : List Byte) (ser : Nat) (kind : HeldKind) : Chip :=
  let r := m.hostRoute a
  let fn := m.reqFunc f r.1
  if m.linkUp r.1 && m.bme fn && !(m.host.held.any (·.link == r.1)) then m.emitWrite fn r.2 l
  else Chip.syncHeld { m with host := { m.host with held := m.host.held ++ [⟨r.1, fn, r.2, l, ser, kind⟩] } }

/-- Read requests of a link that are outstanding (R410: at most 768). -/
def Chip.readsOut (m : Chip) (l : Nat) : Nat := (m.tagsOf l).length

/-- The data of the read is an input of the stage (R332): not a walk's, a reload's, nor that of a MIGRATE with RELOAD (R367). -/
def Chip.logged (m : Chip) (r : HostRead) : Bool :=
  match r.dest with
  | .vec _ _ _ | .dray _ _ _ _ | .code _ _ => true
  | .xfer id _ => !(m.sh.xfers.any fun x => x.id == id && x.reload)
  | .walk _ _ | .reload _ _ => false

/-- The log has no room for the record of the read: it is not issued (R332). -/
def Chip.readStalls (m : Chip) (r : HostRead) : Bool := m.logged r && m.logStalls r.len

/-- Reads that wait are sent in order while their link and the log take them. -/
def Chip.pumpReads (m : Chip) : Chip :=
  Chip.syncHeld ((m.host.reads.filter (!·.sent)).foldl (fun m r =>
    let n := (m.readParts r.func r.addr r.len).length
    if m.linkUp r.link && m.bme r.func && decide (m.readsOut r.link + n ≤ 768) && !(m.logged r && m.readsFromLog r.master)
        && !m.readStalls r then
      let tags := m.freeTags r.link n
      let m1 : Chip := { m with host := { m.host with reads := m.host.reads.map fun (e : HostRead) =>
        if e.id = r.id then { e with sent := true, tags := tags } else e } }
      m1.emitRead r.func r.addr r.len r.id tags
    else m) m)

/-- Writes that wait for a link are sent in order (R413). -/
def Chip.pumpHeld (m : Chip) (l : Nat) : Chip :=
  let go (acc : Chip × List HeldWrite) (w : HeldWrite) : Chip × List HeldWrite :=
    if w.link == l && m.linkUp l && m.bme w.func && !(acc.2.any (·.link == l)) then (acc.1.emitWrite w.func w.addr w.data, acc.2)
    else (acc.1, acc.2 ++ [w])
  let r := m.host.held.foldl go (m, [])
  { r.1 with host := { r.1.host with held := r.2 } }.syncHeld

/-- MSI-X messages that wait are sent once nothing holds them (R409). -/
def Chip.pumpMsix (m : Chip) : Chip :=
  m.host.msixPend.foldl (fun m e => m.sendMsix e.1 e.2) { m with host := { m.host with msixPend := [] } }

/-- What waits for a link goes as far as it can. -/
def Chip.pumpLink (m : Chip) (l : Nat) : Chip := (m.pumpHeld l).pumpReads.pumpMsix

/-- A read of a host address; `va` is the requested address that a record of it shows. -/
def Chip.hostRead (m : Chip) (f : Option Nat) (a n : Nat) (master : BitVec 16) (task : W16) (va : Nat)
    (dest : ReadDest) (ser : Nat) : Chip :=
  let r := m.hostRoute a
  let e : HostRead :=
    { id := m.host.nextId, link := r.1, func := m.reqFunc f r.1, addr := r.2, len := n, master := master, task := task,
      va := va, dest := dest, sent := false, tags := [], ser := ser }
  Chip.pumpReads { m with host := { m.host with reads := m.host.reads ++ [e], nextId := m.host.nextId + 1 } }

/-! ### Selfan ports (R416 to R423) -/

def linkPage (p : Nat) : PageId := ⟨.link, p⟩

def Chip.sfPort (m : Chip) (p : Nat) : SfPort := if h : p < 10 then m.sf.port[p] else SfPort.reset

def Chip.modPort (m : Chip) (p : Nat) (f : SfPort → SfPort) : Chip :=
  if h : p < 10 then { m with sf := { m.sf with port := m.sf.port.set p (f m.sf.port[p]) } } else m

def Chip.portUp (m : Chip) (p : Nat) : Bool := decide (p < 10) && m.flag (K.linkPortStat p) F.linkPortStatUp

/-- The port runs in Ethernet mode (R416). -/
def Chip.portEth (m : Chip) (p : Nat) : Bool := m.flag (K.linkPortCfg p) F.linkPortCfgMode

/-- The channel of a packet that arrives with its HOP value (R420). -/
def Packet.channel (k : Packet) : Nat :=
  (match k.typ with | .write | .read => 0 | _ => 5) + min 4 k.hop

/-- Receive slots of a channel (R420). -/
def channelSlots (ch : Nat) : Nat := if ch % 5 = 0 then 96 else 32

/-- The packet's payload: none in a READ, nor in a response other than OK (R417). -/
def Packet.payload (k : Packet) : Nat := k.data.length

/-! ### Packets on the link (R417) -/

/-- CRC-32C over words 0 to 2, the low half of word 3 and the payload. -/
def Flits.crc (f : Flits) : BitVec 32 :=
  crc32c (leBytes 8 f.w0.toNat ++ leBytes 8 f.w1.toNat ++ leBytes 8 f.w2.toNat ++ leBytes 4 (f.w3.toNat % 2 ^ 32) ++ f.data)

def Flits.good (f : Flits) : Bool := decide (f.w3.toNat / 2 ^ 32 = f.crc.toNat)

def Flits.lseq (f : Flits) : BitVec 12 := f.w3.setWidth 12

def PktType.code : PktType → Nat
  | .write => 1
  | .read => 2
  | .writeRsp => 3
  | .readRsp => 4

/-- BYTES: of the payload of a WRITE and a READ_RSP, and of what a READ asks for, less 1. -/
def Packet.bytesFld (k : Packet) : Nat :=
  match k.typ with
  | .write | .read => (k.bytes + 511) % 512
  | .readRsp => if k.status = 0 then (k.bytes + 511) % 512 else 0
  | .writeRsp => 0

/-- A packet as it goes on a link. -/
def Packet.flits (k : Packet) (lseq : BitVec 12) : Flits :=
  let w0 := k.typ.code + b2n k.notify * 2 ^ 4 + k.cls % 4 * 2 ^ 5 + k.hop % 8 * 2 ^ 13 + k.route.toNat * 2 ^ 16
    + k.dst.toNat * 2 ^ 32 + k.src.toNat * 2 ^ 48
  let w1 := k.off % 2 ^ 44 + k.win % 1024 * 2 ^ 44
  let w2 := k.tag.toNat + k.status.toNat * 2 ^ 32 + k.bytesFld * 2 ^ 40
  let f : Flits := ⟨BitVec.ofNat 64 w0, BitVec.ofNat 64 w1, BitVec.ofNat 64 w2, lseq.setWidth 64, k.data⟩
  { f with w3 := BitVec.ofNat 64 (lseq.toNat + f.crc.toNat * 2 ^ 32) }

/-- The packet that header words and payload spell; none for another TYPE, for a payload that is not as long as BYTES says, and
for an OFFSET or a length that is no multiple of 8. -/
def Flits.packet (f : Flits) : Option Packet :=
  let w (v : W64) (hi lo : Nat) : Nat := v.toNat / 2 ^ lo % 2 ^ (hi + 1 - lo)
  let n := w f.w2 48 40 + 1
  let ok := decide (w f.w2 39 32 = 0)
  let make (typ : PktType) (bytes : Nat) : Option Packet :=
    let len := match typ with
      | .write | .readRsp => bytes
      | .read | .writeRsp => 0
    if f.data.length = len ∧ bytes % 8 = 0 ∧ w f.w1 43 0 % 8 = 0 then
      some { typ := typ, notify := f.w0.getLsbD 4, cls := w f.w0 6 5, hop := w f.w0 15 13, route := BitVec.ofNat 16 (w f.w0 31 16),
             dst := BitVec.ofNat 16 (w f.w0 47 32), src := BitVec.ofNat 16 (w f.w0 63 48), off := w f.w1 43 0, win := w f.w1 53 44,
             tag := f.w2.setWidth 32, status := BitVec.ofNat 8 (w f.w2 39 32), bytes := bytes, data := f.data }
    else none
  match w f.w0 3 0 with
  | 1 => make .write n
  | 2 => make .read n
  | 3 => make .writeRsp 0
  | 4 => make .readRsp (if ok then n else 0)
  | _ => none

/-- The Ethernet-mode end of a peer. -/
def Chip.ethEnd (m : Chip) (n : Nat) : LinkEnd :=
  match m.sf.eth.find? (·.1 == n) with
  | some e => e.2
  | none => LinkEnd.reset

def Chip.setEth (m : Chip) (n : Nat) (e : LinkEnd) : Chip :=
  { m with sf := { m.sf with eth := (n, e) :: m.sf.eth.filter (·.1 != n) } }

/-- Counts a packet sent. -/
def Chip.countTx (m : Chip) (p : Nat) (k : Packet) : Chip := (m.count (K.linkTxPkts p) 1).count (K.linkTxBytes p) k.payload

/-- A flit port sends a packet when it holds a credit of its channel and room to replay it. -/
def Chip.flitReady (m : Chip) (p : Nat) (k : Packet) : Bool :=
  let s := m.sfPort p
  m.portUp p && decide (s.flit.replay.length < 256) &&
    decide ((s.sent.toList.getD k.channel 0) < (s.limit.toList.getD k.channel 0))

/-- Receive slots of a channel that the responses of sent requests hold (R420). -/
def Chip.reserved (m : Chip) (p ch : Nat) : Nat := (m.sf.out.filter fun o => o.sent && o.port == p && o.chan == ch).length

/-- The outstanding request that a waiting packet is. -/
def CplOut.isPacket (o : CplOut) (w : TxWait) : Bool :=
  w.peer == some o.peer && w.pkt.tag == o.tag && w.pkt.typ == (if o.wr then .write else .read)

/-- A request finds a receive slot for its response that neither a packet nor another request holds (R420). -/
def Chip.slotLeft (m : Chip) (p : Nat) (w : TxWait) : Bool :=
  match m.sf.out.find? (·.isPacket w) with
  | some o =>
    let s := m.sfPort p
    let at' (v : Vector Nat 10) : Nat := v.toList.getD o.chan 0
    decide (m.reserved p o.chan + (at' s.got - at' s.freed) < channelSlots o.chan)
  | none => true

def vinc {n : Nat} (v : Vector Nat n) (i : Nat) : Vector Nat n := if h : i < n then v.set i (v[i] + 1) else v

def Chip.flitSend (m : Chip) (p : Nat) (w : TxWait) : Chip :=
  let s := m.sfPort p
  let k := w.pkt
  let m1 := m.modPort p fun s =>
    { s with
      flit := { s.flit with tx := s.flit.tx + 1, replay := s.flit.replay ++ [⟨s.flit.tx, k, w.ser, w.peer, w.mac⟩] }
      sent := vinc s.sent k.channel }
  (m1.emit (.packet p (k.flits s.flit.tx))).countTx p k

/-- Cumulative credits that a port advertises: each channel's slots, and those freed since (R420). -/
def Chip.creditsOf (m : Chip) (p : Nat) : Vector Nat 10 := Vector.ofFn fun i => channelSlots i.val + (m.sfPort p).freed[i]

/-- A link-control flit leaves. -/
def Chip.linkFlit (m : Chip) (p : Nat) (good : Bool) (lseq : BitVec 12) : Chip := m.emit (.ack p good lseq (m.creditsOf p))

/-- A receive slot of a port is free again, and the far end hears of it (R420). -/
def Chip.freeSlot (m : Chip) (p ch : Nat) : Chip :=
  let m1 := m.modPort p fun s => { s with freed := vinc s.freed ch }
  m1.linkFlit p true ((m.sfPort p).flit.rx - 1)

/-- The channel by which a packet in passage arrived: its HOP has been counted since (R421). -/
def Packet.cameBy (k : Packet) : Nat := { k with hop := k.hop - 1 }.channel

/-! ### Ethernet mode (R422) -/

def couplePage (n : Nat) : PageId := ⟨.couple, n / 64⟩

def Chip.peerMac (m : Chip) (n : Nat) : W64 := m.reg (K.couplePeerMac (n / 64) (n % 64))

/-- The header of a frame to a peer whose PEER_MAC is `w`. -/
def Chip.ethHead (m : Chip) (w : W64) : EthHead :=
  { dst := BitVec.ofNat 48 (F.couplePeerMacMac.get w), src := BitVec.ofNat 48 (m.fld (K.coupleCplMac 0) F.coupleCplMacMac)
    vlan := if F.couplePeerMacVlan.bit w then some (BitVec.ofNat 3 (F.couplePeerMacPcp.get w), BitVec.ofNat 12 (F.couplePeerMacVid.get w)) else none
    etype := BitVec.ofNat 16 (m.fld (K.coupleCplCfg 0) F.coupleCplCfgEtype) }

/-- Priority of the frames to a peer whose PEER_MAC is `w`; untagged frames have priority 0. -/
def macPrio (w : W64) : Nat := if F.couplePeerMacVlan.bit w then F.couplePeerMacPcp.get w else 0

/-- Flow control pauses a peer's priority. -/
def Chip.paused (m : Chip) (p : Nat) (w : W64) : Bool :=
  m.flag (K.linkPortCfg p) F.linkPortCfgPfc && (m.sfPort p).paused.getLsbD (macPrio w)

/-- A packet leaves in a frame of an Ethernet-mode port, numbered per peer. -/
def Chip.ethSend (m : Chip) (p n : Nat) (w : TxWait) : Chip :=
  let e := m.ethEnd n
  let m1 := m.setEth n { e with tx := e.tx + 1, replay := e.replay ++ [⟨e.tx, w.pkt, w.ser, w.peer, w.mac⟩] }
  (m1.emit (.frame p (m.ethHead w.mac) (w.pkt.flits e.tx))).countTx p w.pkt

/-! ### The transmit arbiter of a port (R420) -/

/-- The port can send the packet now: a credit, room to replay it, and a slot for its response; in Ethernet mode room to replay it
with its peer, and no pause of its priority (R419, R420, R422). -/
def Chip.portReady (m : Chip) (p : Nat) (w : TxWait) : Bool :=
  if m.portEth p then m.portUp p && !(w.peer.isSome && m.paused p w.mac) && w.peer.all fun n => decide ((m.ethEnd n).replay.length < 256)
  else m.flitReady p w.pkt && m.slotLeft p w

/-- A packet leaves; one in passage frees the slot it took. -/
def Chip.portSend (m : Chip) (p : Nat) (w : TxWait) : Chip :=
  let m1 : Chip := { m with sf := { m.sf with out := m.sf.out.map fun o => if o.isPacket w then { o with sent := true } else o } }
  let m2 := match w.peer with
    | some n => if m.portEth p then m1.ethSend p n w else m1.flitSend p w
    | none => m1.flitSend p w
  match w.came with
  | some q => m2.freeSlot q w.pkt.cameBy
  | none => m2

/-- Packets of a port leave in the order of R287 while one of them can: lowest class first, in rotation among the module itself
and the ports that packets in passage came by. -/
def Chip.pumpPortN (m : Chip) (p : Nat) : Nat → Chip
  | 0 => m
  | fuel + 1 =>
    let s := m.sfPort p
    match arbitrate (fun w => w.pkt.cls + 1) (·.came) (·.passed) s.lastC1 s.turn (s.wait.filter (m.portReady p)) with
    | none => m
    | some w =>
      let m1 := m.modPort p fun s =>
        { s with
          wait := (s.wait.erase w).map fun v => { v with passed := v.passed + 1 }
          lastC1 := w.pkt.cls == 0, turn := w.came :: s.turn.filter (· != w.came) }
      (m1.portSend p w).pumpPortN p fuel

def Chip.pumpPort (m : Chip) (p : Nat) : Chip := m.pumpPortN p (m.sfPort p).wait.length

/-- A packet is handed to a port. -/
def Chip.portPut (m : Chip) (p : Nat) (w : TxWait) : Chip := (m.modPort p fun s => { s with wait := s.wait ++ [w] }).pumpPort p

/-! ### Couplings, the initiating side (R424, R429) -/

def Chip.peerCtl (m : Chip) (n : Nat) : W64 := m.reg (K.couplePeerCtl (n / 64) (n % 64))

/-- Couplings are served and issued. -/
def Chip.cplOn (m : Chip) : Bool := m.flag (K.coupleCplCfg 0) F.coupleCplCfgEn

def Chip.ownAddr (m : Chip) : BitVec 16 := BitVec.ofNat 16 (m.fld (K.coupleCplCfg 0) F.coupleCplCfgAddr)

/-- Ports that may carry the traffic of a peer whose PEER_CTL is `c` and are up, in ascending order. -/
def Chip.portsOf (m : Chip) (c : W64) : List Nat :=
  (List.range 10).filter fun p =>
    (F.couplePeerCtlPorts.get c).testBit p && m.portUp p && (m.portEth p == F.couplePeerCtlEth.bit c)

def Chip.peerPorts (m : Chip) (n : Nat) : List Nat := m.portsOf (m.peerCtl n)

/-- The port of a peer's next packet under its entry `c`: with HOPS = 0 its ports take turns (R424). -/
def Chip.choosePort (m : Chip) (n : Nat) (c : W64) : Option (Nat × Chip) :=
  match m.portsOf c with
  | [] => none
  | p :: t =>
    if F.couplePeerCtlHops.get c = 0 then
      let i := smapGet (fun _ => 0) m.sf.turn n
      some ((p :: t).getD (i % (t.length + 1)) p,
        { m with sf := { m.sf with turn := smapSet (fun _ => 0) m.sf.turn n ((i + 1) % (t.length + 1)) } })
    else some (p, m)

/-- A request of this module is outstanding. -/
def Chip.addOut (m : Chip) (o : CplOut) : Chip := { m with sf := { m.sf with out := m.sf.out ++ [o] } }

/-- Hands a packet to a port of its peer under an entry of PEER_CTL `c` and PEER_MAC `w`, a request with its place among those
outstanding; none when no port can carry it. -/
def Chip.sendUnder (m : Chip) (n : Nat) (c w : W64) (k : Packet) (ser : Option Nat) (o : Option CplOut) : Option Chip :=
  (m.choosePort n c).map fun e =>
    let k1 := { k with route := BitVec.ofNat 16 (F.couplePeerCtlRoute.get c), dst := BitVec.ofNat 16 (F.couplePeerCtlAddr.get c),
                       src := m.ownAddr, hop := 0 }
    let m1 := match o with
      | some o => e.2.addOut { o with dst := k1.dst, port := e.1, chan := 5 + min 4 (F.couplePeerCtlHops.get c), sent := false }
      | none => e.2
    m1.portPut e.1 ⟨k1, ser, none, some n, w, 0⟩

/-- The same under the entry that stands. -/
def Chip.sendPeer (m : Chip) (n : Nat) (k : Packet) (ser : Option Nat) (o : Option CplOut) : Option Chip :=
  m.sendUnder n (m.peerCtl n) (m.peerMac n) k ser o

abbrev cplNoPeer : Nat := 0x10
abbrev cplTimeout : Nat := 0x11
abbrev cplLinkDown : Nat := 0x12

/-- A job with a peer ends with a status other than OK and DUP: the PEER_ERR record (R429). -/
def Chip.peerErr (m : Chip) (n win off : Nat) (master : BitVec 16) (status : Nat) : Chip :=
  (m.record (couplePage n) 0x81 master (some status) (some (win * 2 ^ 44 + off)) 32).event (couplePage n) 16

/-- Writes to a peer that await their response. -/
def Chip.writesOut (m : Chip) (n : Nat) : Nat := (m.sf.out.filter fun o => o.wr && o.peer == n).length

def Chip.txOsn (m : Chip) (n : Nat) : Nat := m.fld (K.couplePeerOsn (n / 64) (n % 64)) F.couplePeerOsnTxOsn

/-- OSN of the next WRITE to a peer. -/
def Chip.nextOsn (m : Chip) (n : Nat) : Nat := (m.txOsn n + 1) % 2 ^ 32

/-- One WRITE leaves with the next OSN. -/
def Chip.writeOne (m : Chip) (w : CplWait) (notify : Bool) : Chip :=
  let osn := m.nextOsn w.peer
  let m1 := m.setFld (K.couplePeerOsn (w.peer / 64) (w.peer % 64)) F.couplePeerOsnTxOsn osn
  let k : Packet :=
    { typ := .write, notify := notify, cls := w.cls, hop := 0, route := 0, dst := 0, src := 0, off := w.off, win := w.win,
      tag := BitVec.ofNat 32 osn, status := 0, bytes := w.data.length, data := w.data }
  let o : CplOut :=
    { peer := w.peer, dst := 0, wr := true, tag := BitVec.ofNat 32 osn, win := w.win, off := w.off, len := w.data.length,
      master := w.master, task := w.task, va := 0, dest := w.dest, ser := w.ser, cls := w.cls, port := 0, chan := 0, sent := false, part := none }
  match m1.sendPeer w.peer k (some w.ser) (some o) with
  | some m2 => m2
  | none => m1.peerErr w.peer w.win w.off w.master cplLinkDown

/-- Waiting writes of a peer go in order while couplings are issued (R431) and fewer than 256 await their response (R424); one that
notifies is marked in the stage log first (R447). -/
def Chip.pumpPeer (m : Chip) (n : Nat) : Chip :=
  ((m.sf.wait.filter (·.peer == n)).foldl (fun (acc : Chip × Bool) w =>
    let m := acc.1
    if acc.2 && m.cplOn && decide (m.writesOut n < 256) then
      let notify := w.notify && Config.notifies n (m.nextOsn n)
      let out (m : Chip) : Chip := ({ m with sf := { m.sf with wait := m.sf.wait.erase w } }).writeOne w notify
      if notify then
        match m.markOut .markNotify w.master w.task (n + m.nextOsn n * 2 ^ 32) with
        | some m1 => (out m1, true)
        | none => (m.markWait, false)
      else (out m, true)
    else (m, false)) (m, true)).1

/-- A coupled write of any length, split at 512 B boundaries of the offset (R417); the last request notifies when asked
to. -/
def Chip.coupleWrite (m : Chip) (n win off : Nat) (l : List Byte) (master : BitVec 16) (task : W16) (notify : Bool)
    (dest : Option ReadDest) (cls ser : Nat) : Chip :=
  if !F.couplePeerCtlV.bit (m.peerCtl n) then m.peerErr n win off master cplNoPeer
  else
    let ps := pieces 512 off l.length (l.length + 1)
    let ws : List CplWait := ps.map fun p =>
      { peer := n, win := win, off := p.1, data := (l.drop (p.1 - off)).take p.2, master := master, task := task,
        notify := notify && decide (p.1 + p.2 = off + l.length), cls := cls - 1, dest := dest,
        ser := ser }
    ({ m with sf := { m.sf with wait := m.sf.wait ++ ws } }).pumpPeer n

/-- Tags in use are the outstanding reads'; the lowest free one is taken. -/
def Chip.freeTag (m : Chip) : Nat :=
  ((List.range 65536).find? fun t => !(m.sf.out.any fun o => !o.wr && o.tag == BitVec.ofNat 32 t)).getD 0

/-- The port of a read that no port has: it takes its record (R454), or waits until couplings are issued (R431). -/
abbrev noPort : Nat := 10

/-- A read of a peer is not sent now: a record of the stage log serves it (R454), or CPL_CFG.EN is 0 (R431). -/
def Chip.readWaits (m : Chip) (master : BitVec 16) : Bool := !m.cplOn || m.readsFromLog master

/-- One READ, within a 512 B boundary when it is sent. -/
def Chip.readOne (m : Chip) (n win off len : Nat) (master : BitVec 16) (task : W16) (va : Nat) (dest : ReadDest)
    (cls ser : Nat) (part : Option (Nat × Nat)) : Option Chip :=
  let tag := BitVec.ofNat 32 m.freeTag
  let k : Packet :=
    { typ := .read, notify := false, cls := cls - 1, hop := 0, route := 0, dst := 0, src := 0, off := off, win := win,
      tag := tag, status := 0, bytes := len, data := [] }
  let o : CplOut :=
    { peer := n, dst := 0, wr := false, tag := tag, win := win, off := off, len := len, master := master, task := task, va := va,
      dest := some dest, ser := ser, cls := cls, port := noPort, chan := 0, sent := false, part := part }
  if m.readWaits master then some (m.addOut o) else m.sendPeer n k (some ser) (some o)

/-- A coupled read, in requests that do not cross a 512 B boundary of the offset (R417, R424); `false` when it ended at once, and
its requester takes zeros (R429). -/
def Chip.coupleRead (m : Chip) (n win off len : Nat) (master : BitVec 16) (task : W16) (va : Nat) (dest : ReadDest)
    (cls ser : Nat) : Chip × Bool :=
  let ps := pieces 512 off len (len + 1)
  if !F.couplePeerCtlV.bit (m.peerCtl n) then (m.peerErr n win off master cplNoPeer, false)
  else if decide (ps.length ≤ 1) || m.readWaits master then
    match m.readOne n win off len master task va dest cls ser none with
    | some m1 => (m1, true)
    | none => (m.peerErr n win off master cplLinkDown, false)
  else if (m.peerPorts n).isEmpty then (m.peerErr n win off master cplLinkDown, false)
  else
    let id := m.host.nextId
    let m1 : Chip := { m with
      host := { m.host with nextId := id + 1 }
      sf := { m.sf with gather := m.sf.gather ++ [⟨id, ps.length, []⟩] } }
    (ps.zipIdx.foldl (fun (m : Chip) (e : (Nat × Nat) × Nat) =>
      (m.readOne n win e.1.1 e.1.2 master task va dest cls ser (some (id, e.2))).getD m) m1, true)

/-! ### Freight drays (R330, R331) -/

/-- Freight drays of each pool: shared, class 1, inbound. -/
def poolSize : Nat → Nat
  | 0 => 26
  | 1 => 2
  | _ => 4

def Chip.poolBusy (m : Chip) (p : Nat) : Nat := (m.host.jobs.filter fun j => j.granted && j.pool == p).length

def JobWork.isInbound : JobWork → Bool
  | .inbound _ => true
  | _ => false

/-- The pool that a job can be granted from now: its reserved drays first. -/
def Chip.poolFor (m : Chip) (j : Job) : Option Nat :=
  ((if j.cls = 1 then [1] else []) ++ (if j.work.isInbound then [2] else []) ++ [0]).find? fun p =>
    decide (m.poolBusy p < poolSize p)

/-- A job is asked for, unless its work already has one. -/
def Chip.askJob (m : Chip) (w : JobWork) (master : BitVec 16) (cls : Nat) : Chip :=
  let j : Job := { id := m.host.nextId, work := w, master := master, cls := cls, granted := false, pool := 0, passed := 0 }
  { m with host := { m.host with jobs := m.host.jobs ++ [j], nextId := m.host.nextId + 1 } }

def Chip.jobOf (m : Chip) (w : JobWork) : Option Job := m.host.jobs.find? (·.work == w)

/-- The job of a piece of work ends. -/
def Chip.endJob (m : Chip) (w : JobWork) : Chip :=
  { m with host := { m.host with jobs := m.host.jobs.filter (·.work != w) } }

/-- The next job that the allocation grants (R287, R331): the lowest class, and in it the masters in rotation; after a
class-1 grant an aged job first. -/
def Chip.nextJob (m : Chip) : Option Job :=
  arbitrate (·.cls) (·.master) (·.passed) m.host.lastC1 m.host.turn (m.host.jobs.filter fun j => !j.granted && (m.poolFor j).isSome)

/-- Grants a freight dray to the next job. -/
def Chip.grantJob (m : Chip) : Chip :=
  match m.nextJob with
  | none => m
  | some j =>
    let p := (m.poolFor j).getD 0
    { m with host := { m.host with
        jobs := m.host.jobs.map fun k =>
          if k.id = j.id then { k with granted := true, pool := p }
          else if k.granted then k else { k with passed := k.passed + 1 },
        lastC1 := decide (j.cls = 1), turn := j.master :: m.host.turn.filter (· != j.master) } }

end Sys2Proof.Machine
end

