-- ==== Sys2Proof/Machine/Tally.lean ====
section
/-! DEFINITION. A context's TALLY page as its engines use it: sticky flags, the stochastic-rounding counters, and the
counting of element results (R170, R175 to R178). -/
namespace Sys2Proof.Machine

/-- The TALLY page of a context (R54). -/
def Ctx.tally (x : Ctx) : Nat := 2 * x.coach.val + b2n x.aft

/-- Flags become sticky (R175). -/
def Chip.addFlags (m : Chip) (x : Ctx) (f : Flags) : Chip :=
  m.setReg (K.tallyFlags x.tally) (m.reg (K.tallyFlags x.tally) ||| f.zeroExtend 64)

def Chip.srSeed (m : Chip) (x : Ctx) : W64 := m.reg (K.tallySrSeed x.tally)

/-- One element result to be counted: its value, whether it is subnormal in its stored format, and whether it was
flushed. -/
structure Counted where
  v : Val
  sub : Bool
  flushed : Bool
  deriving DecidableEq, Repr

/-- The bits are a subnormal of the format (R178). -/
def Fmt.isSub (F : Fmt) (b : Nat) : Bool :=
  match F with
  | .fp f | .mx f => decide (b / 2 ^ f.fw % 2 ^ f.ew = 0) && decide (b % 2 ^ f.fw ≠ 0)
  | _ => false

/-- An element of a format at scale code `x` (MX) or tile scale `S` (ACC128). -/
def Fmt.counted (F : Fmt) (x : Nat) (S : Int) (b : Nat) (flushed : Bool) : Counted :=
  { v := F.decode x S b, sub := F.isSub b, flushed := flushed }

/-- A counter of the page, saturating at 2^48 - 1 (R178). -/
def Chip.tallyInc (m : Chip) (a : Nat) : Chip := m.setReg a (BitVec.ofNat 64 (satInc 48 (m.reg a).toNat))

/-- The bin of a value with exponent `E` (R178). -/
def tallyBin (base w E : Int) : Nat :=
  if E < base then 0 else if base + 62 * w ≤ E then 63 else (1 + (E - base) / w).toNat

def Chip.tallyOne (m : Chip) (t : Nat) (c : Counted) : Chip :=
  let ctl := m.reg (K.tallyTallyCtl t)
  let base : Int := signedOf 12 (F.tallyTallyCtlBinBase.get ctl)
  let w : Int := 2 ^ F.tallyTallyCtlBinShift.get ctl
  let m1 := m.tallyInc (K.tallyCntTotal t)
  let m2 := if c.flushed then m1.tallyInc (K.tallyCntFlush t) else m1
  match c.v with
  | .nan _ => m2.tallyInc (K.tallyCntNan t)
  | .inf _ => m2.tallyInc (K.tallyCntInf t)
  | .fin _ n e =>
    if n = 0 then m2.tallyInc (K.tallyCntZero t)
    else
      let m3 := m2.tallyInc (K.tallyBin t (tallyBin base w (flog2 n e)))
      if c.sub then m3.tallyInc (K.tallyCntSub t) else m3

/-- The register `r` is selected for counting. -/
def Chip.tallyReg (m : Chip) (t r : Nat) : Bool :=
  let ctl := m.reg (K.tallyTallyCtl t)
  F.tallyTallyCtlEn.bit ctl && F.tallyTallyCtlReg.bit ctl && (m.reg (K.tallyTallyVreg t)).getLsbD r

/-- The device physical address `a` is selected for counting. -/
def Chip.tallyMem (m : Chip) (t a : Nat) : Bool :=
  let ctl := m.reg (K.tallyTallyCtl t)
  F.tallyTallyCtlEn.bit ctl && F.tallyTallyCtlMem.bit ctl
    && decide (m.fld (K.tallyTallyLo t) F.tallyTallyLoAddr ≤ a ∧ a < m.fld (K.tallyTallyHi t) F.tallyTallyHiAddr)

end Sys2Proof.Machine
end

