-- ==== Sys2Proof/Machine/Xlat.lean ====
section
/-! DEFINITION. Translating an access (R337 to R345), the caches in front of the walkers (R346, R347), and the opening
of fault entries (R352, R353). -/
namespace Sys2Proof.Machine

/-! ### Entries (R339 to R342) -/

/-- Bits `[hi:lo]` of an entry. -/
def ebits (e : W64) (hi lo : Nat) : Nat := e.toNat / 2 ^ lo % 2 ^ (hi + 1 - lo)

def entV (e : W64) : Bool := e.getLsbD 0
def entLeaf (e : W64) : Bool := e.getLsbD 1
def entType (e : W64) : Nat := ebits e 3 2
def entR (e : W64) : Bool := e.getLsbD 4
def entW (e : W64) : Bool := e.getLsbD 5
def entSup (e : W64) : Bool := e.getLsbD 6
def entClass (e : W64) : Nat := ebits e 8 7

/-- A device address that a table may name (R342). -/
def tableRange (a : Nat) : Bool := decide (a < depotBase + 0x20000000)

/-- An entry with V = 1 is malformed at level `lvl` (R342). -/
def malformed (e : W64) (lvl : Nat) : Bool :=
  if entLeaf e then
    decide (2 ≤ lvl) || decide (entType e = 3) || (entW e && !entR e) || (decide (entType e ≠ 0) && decide (entClass e ≠ 0))
      || (decide (entType e = 0) && (decide (ebits e 63 42 ≠ 0) || !tableRange (ebits e 41 16 * 65536)))
      || (decide (lvl = 1) &&
          (if entType e = 2 then decide (ebits e 48 36 ≠ 0) else decide (ebits e 28 16 ≠ 0)))
  else
    decide (lvl = 0) || decide (2 ≤ entType e)
      || (decide (entType e = 0) && (decide (ebits e 63 42 ≠ 0) || !tableRange (ebits e 41 16 * 65536)))

/-- Table address of an ASID-table entry, and whether it lies in host memory (R339). -/
def asidTable (e : W64) : Nat × Bool := (ebits e 63 6 * 64, e.getLsbD 1)

/-- A malformed ASID-table entry with V = 1 (R342). -/
def asidMalformed (e : W64) : Bool := !e.getLsbD 1 && !tableRange (asidTable e).1

/-- Next table of a pointer entry, and whether it lies in host memory (R341). -/
def nextTable (e : W64) : Nat × Bool :=
  if entType e = 1 then (ebits e 63 16 * 65536, true) else (ebits e 41 16 * 65536, false)

/-- Where a leaf puts virtual address `va` (R341). -/
def leafPlace (e : W64) (block : Bool) (va : Nat) : Place :=
  let off := if block then va % 2 ^ 29 else va % 65536
  if entType e = 0 then .dev (ebits e 41 16 * 65536 + off)
  else if entType e = 1 then .host (ebits e 63 16 * 65536 + off)
  else .couple (ebits e 25 16) (ebits e 35 26) (ebits e 63 36 * 65536 + off)

/-! ### Causes (R352) and permission (R345) -/

abbrev xNotValid : Nat := 1
abbrev xNoRead : Nat := 2
abbrev xNoWrite : Nat := 3
abbrev xSupervisor : Nat := 4
abbrev xBadEntry : Nat := 5
abbrev xRange : Nat := 6
abbrev xWalkErr : Nat := 7
abbrev xNoAsid : Nat := 8

/-- The cause for which a leaf forbids an access, the lowest code first. -/
def forbids (e : W64) (write sup : Bool) : Option Nat :=
  if !write && !entR e then some xNoRead
  else if write && !entW e then some xNoWrite
  else if entSup e && !sup then some xSupervisor
  else none

/-! ### Caches (R346) -/

/-- The leaf maps page `page` of an ASID. -/
def XLeaf.maps (l : XLeaf) (asid : W16) (page : Nat) : Bool :=
  l.asid == asid && (if l.block then l.page / 8192 == page / 8192 else l.page == page)

/-- Not-recently-used replacement: room first, then the first entry not used since the marks were cleared last. -/
def nruPut {α : Type} (cap : Nat) (used : α → Bool) (clear : α → α) (e : α) (l : List α) : List α :=
  if l.length < cap then l ++ [e]
  else
    let l1 := if l.all used then l.map clear else l
    match l1.findIdx? (!used ·) with
    | some i => l1.set i e
    | none => l1

def leafPut (cap : Nat) (e : XLeaf) (l : List XLeaf) : List XLeaf :=
  nruPut cap (·.ref) (fun x => { x with ref := false }) e (l.filter fun x => !(x.maps e.asid e.page && x.block == e.block))

def ptrPut (e : XPtr) (l : List XPtr) : List XPtr :=
  nruPut 256 (·.ref) (fun x => { x with ref := false }) e
    (l.filter fun x => !(x.asid == e.asid && x.level == e.level && x.sel == e.sel))

/-- A hit marks the leaf as used. -/
def leafTouch (asid : W16) (page : Nat) (l : List XLeaf) : List XLeaf :=
  l.map fun x => if x.maps asid page then { x with ref := true } else x

def Chip.setXlat (m : Chip) (x : Xlat) : Chip := { m with xlat := x }

def Chip.modTlb (m : Chip) (c : Fin 64) (f : List XLeaf → List XLeaf) : Chip :=
  { m with xlat := { m.xlat with tlb := m.xlat.tlb.set c.val (f m.xlat.tlb[c.val]) } }

def rakeIx (r : Nat) : Fin 4 := ⟨r % 4, by omega⟩

def Chip.xrake (m : Chip) (r : Nat) : XRake := m.xlat.rake[(rakeIx r).val]

def Chip.modRake (m : Chip) (r : Nat) (f : XRake → XRake) : Chip :=
  { m with xlat := { m.xlat with rake := m.xlat.rake.set (rakeIx r).val (f m.xlat.rake[(rakeIx r).val]) } }

/-- A leaf that caused a fault stands in no TLB and in no translation cache (R343). -/
def Chip.dropLeaf (m : Chip) (asid : W16) (page : Nat) : Chip :=
  let keep (l : XLeaf) : Bool := !l.maps asid page
  { m with xlat := { m.xlat with
    tlb := m.xlat.tlb.map (·.filter keep)
    rake := m.xlat.rake.map fun r => { r with tc := r.tc.filter keep } } }

/-! ### Opening a fault entry (R353) -/

def faultPage : PageId := ⟨.fault, 0⟩

/-- FAULT.OPEN counts the open entries. -/
def Chip.syncOpen (m : Chip) : Chip := m.setFld K.faultOpen F.faultOpenCount m.xlat.faults.length

/-- An open entry holds the requester, or it waits for one to close (R353). -/
def Chip.faultHolds (m : Chip) (r : XReq) (task : W16) : Bool :=
  (m.xlat.faults.any fun f => f.reqs.any (· == (r, task))) || m.xlat.full.elem (r, task)

/-- A failing requester joins the open entry of its page, opens one, or stops without an entry when 64 are open. -/
def Chip.xfault (m : Chip) (q : XMiss) (cause level : Nat) : Chip :=
  let page := q.va / 65536
  let m1 := (m.count K.faultFaults 1).count (K.tlbFaults q.req.coach.val) 1
  let m2 : Chip := { m1 with xlat := { m1.xlat with toSide := m1.xlat.toSide ++ [(q.req, q.task)] } }
  if m2.xlat.faults.any fun f => f.asid == q.asid && f.page == page then
    let m3 : Chip := { m2 with xlat := { m2.xlat with faults := m2.xlat.faults.map fun (f : XFault) =>
      if f.asid == q.asid && f.page == page && !(f.reqs.any (· == (q.req, q.task))) then
        { f with reqs := f.reqs ++ [(q.req, q.task)] } else f } }
    m3.count K.faultCoalesced 1
  else if 64 ≤ m2.xlat.faults.length then
    let m3 : Chip := { m2 with xlat := { m2.xlat with full := m2.xlat.full ++ [(q.req, q.task)] } }
    (m3.count K.faultWaitFull 1).event faultPage 18
  else
    let f : XFault :=
      { seq := BitVec.ofNat 32 (m2.fld K.faultSeqNext F.faultSeqNextSeq), asid := q.asid, page := page, cause := cause,
        level := level, write := q.write, va := q.va, reqs := [(q.req, q.task)], stamp := m2.stamp 32, written := false }
    let m3 : Chip := { m2 with xlat := { m2.xlat with faults := m2.xlat.faults ++ [f] } }
    (m3.countFld K.faultSeqNext F.faultSeqNextSeq 1).syncOpen

/-- LEVEL of a cause that no entry of the tables decides (RANGE, NO_ASID) is left open: a free value. -/
def Chip.xfaultOpen (m : Chip) (q : XMiss) (cause : Nat) : Chip :=
  m.next.xfault q cause ((Config.freeWord m.tick).toNat % 4)

/-! ### Translating one access (R345 to R347) -/

/-- The outcome of a lookup. -/
inductive XRes where
  | ok (place : Place) (cls : Option Nat)
  /-- Its walk has not ended, or it waits for one of the four misses of its coach. -/
  | wait
  /-- It failed: an entry has been opened or joined. -/
  | fail
  deriving DecidableEq, Repr

/-- A leaf found in a cache decides the access. -/
def Chip.useLeaf (m : Chip) (q : XMiss) (l : XLeaf) : Chip × XRes :=
  match forbids l.leaf q.write q.sup with
  | some c => ((m.dropLeaf q.asid (q.va / 65536)).xfault q c 0, .fail)
  | none => (m, .ok (leafPlace l.leaf l.block q.va) (if entType l.leaf = 0 then some (entClass l.leaf) else none))

/-- Distinct pages that a coach's demand misses wait for. -/
def Chip.missPages (m : Chip) (c : Fin 64) : List (W16 × Nat) :=
  ((m.xlat.miss.filter (·.req.coach == c)).map fun q => (q.asid, q.va / 65536)).eraseDups

/-- A requester waits under the miss limit, or waits there no longer. -/
def Chip.setLimited (m : Chip) (r : XReq) (on : Bool) : Chip :=
  let l := m.xlat.limited.filter (· != r)
  { m with xlat := { m.xlat with limited := if on then l ++ [r] else l } }

/-- A demand access misses: it waits, and a walk of its page that an outrider has started is raised to class 1 (R350). -/
def Chip.missAdd (m : Chip) (q : XMiss) : Chip :=
  let page := q.va / 65536
  Chip.modRake { m with xlat := { m.xlat with miss := m.xlat.miss ++ [q] } } (q.req.coach.val / 16) fun k =>
    { k with walks := k.walks.map fun w => if w.asid == q.asid && w.page == page then { w with demand := true } else w }

/-- One access: TLB, then the rake's translation cache, then a miss; under the miss limit it waits, and the coach cycle is
counted (R347, R374). -/
def Chip.translate (m0 : Chip) (q : XMiss) : Chip × XRes :=
  let c := q.req.coach
  let page := q.va / 65536
  let m := m0.setLimited q.req false
  if 2 ^ 57 ≤ q.va then (m.xfaultOpen q xRange, .fail)
  else match (m.xlat.tlb[c.val]).find? (·.maps q.asid page) with
    | some l => ((m.count (K.tlbTlbHits c.val) 1).modTlb c (leafTouch q.asid page)).useLeaf q l
    | none => match (m.xrake (c.val / 16)).tc.find? (·.maps q.asid page) with
      | some l =>
        let m1 := (m.count (K.tlbTlbMisses c.val) 1).count K.xlatTcHits 1
        let m2 := m1.modRake (c.val / 16) fun r => { r with tc := leafTouch q.asid page r.tc }
        (m2.modTlb c (leafPut 512 { l with ref := true })).useLeaf q l
      | none =>
        if m.xlat.miss.any fun w => w.req == q.req && w.asid == q.asid && w.va / 65536 == page then (m, .wait)
        else if (m.missPages c).length ≥ 4 && !((m.missPages c).contains (q.asid, page)) then
          ((m.count (K.tlbMissWait c.val) 1).setLimited q.req true, .wait)
        else (((m.count (K.tlbTlbMisses c.val) 1).count K.xlatTcMisses 1).missAdd q, .wait)

/-- A requester's misses are forgotten (it stops). -/
def Chip.dropMisses (m : Chip) (r : XReq) : Chip :=
  { m with xlat := { m.xlat with miss := m.xlat.miss.filter (·.req != r), limited := m.xlat.limited.filter (· != r) } }

end Sys2Proof.Machine
end

