-- ==== Sys2Proof/Machine/VecEngine.lean ====
section
/-! DEFINITION. The vector engine of a coach (R80, R97, R181 to R220): issue of an entry, its start, the elements of a
memory entry, its completion, rejection and stop. -/
namespace Sys2Proof.Machine

def vecPage (c : Nat) : PageId := ⟨.vec, c⟩

def Chip.vec (m : Chip) (c : Fin 64) : VecEngine := (m.coach c).vec

/-- The vector state changes, and VOWN.DIRTY says so (R80, R107). -/
def Chip.modVec (m : Chip) (c : Fin 64) (f : VecEngine → VecEngine) : Chip :=
  m.modCoach c fun k => { k with vec := f k.vec, vown := { k.vown with dirty := true } }

def Chip.modVown (m : Chip) (c : Fin 64) (f : Vown → Vown) : Chip := m.modCoach c fun k => { k with vown := f k.vown }

/-- VOWN.OWNER names the context (R80). -/
def Chip.ownsVec (m : Chip) (x : Ctx) : Bool := (m.coach x.coach).vown.owner == (if x.aft then 2 else 1)

/-- The context that owns the engine. -/
def Chip.vecOwner (m : Chip) (c : Fin 64) : Option Ctx :=
  let o := (m.coach c).vown.owner
  if o = 1 then some ⟨c, false⟩ else if o = 2 then some ⟨c, true⟩ else none

/-- A claim waits (R80): CLAIM_F or CLAIM_A. A new claim takes VCLAIM_LIMIT as it stands (R107); aft is no longer made
to release once fore's claim ends. -/
def Vown.claim (v : Vown) (aft on : Bool) (lim : W32) : Vown :=
  if aft then { v with claimA := on, limitA := v.limitA && on, capA := if v.claimA then v.capA else lim }
  else { v with claimF := on, limitF := v.limitF && on, evict := v.evict && on, capF := if v.claimF then v.capF else lim }

def Chip.claimVec (m : Chip) (x : Ctx) (on : Bool) : Chip :=
  m.modVown x.coach fun v => v.claim x.aft on (BitVec.ofNat 32 (m.fld (K.coachVclaimLimit x.coach.val) F.coachVclaimLimitCycles))

/-! ### Issue (R95, R97, R185) -/

/-- Entries that a form pops, its descriptor included. -/
def VForm.pops : VForm → Nat
  | .c | .v | .vr => 1
  | .vx => 2
  | .vf | .vm => 5
  | .vms => 9

/-- Four entries as a 64-bit value, bits [15:0] on top (R85). -/
def four (l : List W16) : W64 :=
  (l.getD 3 0 ++ l.getD 2 0 ++ l.getD 1 0 ++ l.getD 0 0 : BitVec (16 + 16 + 16 + 16))

/-- A 64-bit value as four entries, bits [15:0] on top. -/
def unfour (v : W64) : List W16 :=
  [v.extractLsb' 0 16, v.extractLsb' 16 16, v.extractLsb' 32 16, v.extractLsb' 48 16]

/-- The rounding mode that an entry queued now will find: the last queued VSETCTL decides. -/
def VecEngine.rmAhead (k : VecEngine) : Nat :=
  match (k.q.reverse.find? fun e => !e.done && e.op.1 == .vsetctl) with
  | some e => e.x.toNat / 16 % 8
  | none => k.cfg.rm

abbrev rmSr : Nat := 5

/-- The counter value of an entry that rounds with SR (R170): the counter plus the earlier ones not yet advanced. -/
def Chip.vecSr (m : Chip) (x : Ctx) (o : VOp) : Option W64 :=
  let k := m.vec x.coach
  if o.rounds ∧ k.rmAhead = rmSr then
    some (m.reg (K.tallySrCtrV x.tally) + BitVec.ofNat 64 ((k.q.filter fun e => !e.done && e.sr.isSome).length))
  else none

/-- The entry that an instruction captures from the popped words, the descriptor on top. -/
def Chip.vecEntry (m : Chip) (x : Ctx) (o : VOp) (s : Bool) (l : List W16) : VEntry :=
  let k := m.ctx x
  let f := o.form s
  let below := l.drop 1
  { word := m.fetchWord x k.pc.toNat
    desc := if f = .c then 0 else l.getD 0 0
    x := if f = .c then l.getD 0 0 else if f = .vx then below.getD 0 0 else 0
    f := if f = .vf then four below else 0
    a := if f = .vm ∨ f = .vms then four below else 0
    t := if f = .vms then four (below.drop 4) else 0
    pc := k.pc
    aft := x.aft
    sup := k.status.lvl
    sr := m.vecSr x o
    started := false
    done := false
    cfg := none
    next := 0
    flight := []
    halt := false }

/-- The context may issue vector instructions: it owns the engine and is not made to release it (R80, R81). -/
def Chip.vecMine (m : Chip) (x : Ctx) : Bool := m.ownsVec x && !(x.aft && (m.coach x.coach).vown.evict)

/-- What keeps a vector instruction from being issued (R80, R81, R97), if anything. -/
def Chip.vecWait (m : Chip) (x : Ctx) : Option Plan :=
  if m.vecMine x then none else some (.wait .claim fun m => m.claimVec x true)

/-- An owner that goes on has no claim waiting. -/
def Chip.claimOver (m : Chip) (x : Ctx) : Chip := m.claimVec x false

/-- A vector instruction other than a VR form: it waits for the engine, then for room, and is queued. -/
def Chip.vecIssue (m : Chip) (x : Ctx) (o : VOp) (s : Bool) : Plan :=
  let n := (o.form s).pops
  m.withStacks x n 0 fun b =>
    match m.vecWait x with
    | some w => w
    | none =>
      if 8 ≤ (m.vec x.coach).q.length then .wait .queue id
      else
        let e := m.vecEntry x o s b.ds
        .done { b with ds := b.ds.drop n } (m.ctx x).status.c (fun m =>
          (m.modVec x.coach fun k => { k with q := k.q ++ [e] }).claimOver x) .seq

/-! ### Rejection (R216, R217) -/

/-- VDISCARD counts, up to its width. -/
def Chip.vdiscard (m : Chip) (c : Fin 64) (n : Nat) : Chip :=
  m.setFld (K.vecVdiscard c.val) F.vecVdiscardCount (min (m.fld (K.vecVdiscard c.val) F.vecVdiscardCount + n) (2 ^ 32 - 1))

/-- The deferred fault and the record of a rejected entry; `ix` the element of a per-element check. -/
def Chip.vecFault (m : Chip) (c : Fin 64) (e : VEntry) (detail : Nat) (ix : Option Nat) (addr : Option W64) : Chip :=
  let i := ix.getD 0
  let v := BitVec.ofNat 64 (detail % 256 + e.word.toNat * 2 ^ 8 + (i % 2 ^ 17) * 2 ^ 24 + b2n ix.isSome * 2 ^ 41 + 2 ^ 42)
  let m1 := m.setReg (K.vecVfault c.val) v
  let m2 := match addr with
    | some a => m1.setReg (K.vecVfaultAddr c.val) a
    | none => m1
  let d : DefFault :=
    { detail := detail, info := #v[e.pc, e.word, BitVec.ofNat 16 i, BitVec.ofNat 16 (i / 65536 % 2 + 2 * b2n ix.isSome)] }
  (m2.event (vecPage c.val) 16).modCtx ⟨c, e.aft⟩ fun k => { k with defVec := some d }

/-- Entry number `n` of the queue is rejected: the entries behind it that have not completed are discarded. -/
def Chip.vecReject (m : Chip) (c : Fin 64) (n detail : Nat) (ix : Option Nat) (addr : Option W64) : Chip :=
  let k := m.vec c
  match k.q[n]? with
  | none => m
  | some e =>
    let behind := k.q.drop (n + 1)
    let m1 := m.modVec c fun k => { k with q := k.q.take n, vresume := if ix.isSome then 0 else k.vresume }
    (m1.vdiscard c (behind.filter (!·.done)).length).vecFault c e detail ix addr

/-! ### VR forms (R136, R208, R209) -/

/-- A VR form waits until every earlier entry has completed; a failed check pushes zeros and leaves VEC_FAULT pending. -/
def Chip.vecRead (m : Chip) (x : Ctx) (o : VOp) : Plan :=
  m.withStacks x 1 0 fun b =>
    match m.vecWait x with
    | some w => w
    | none =>
      let k := m.vec x.coach
      if !k.q.isEmpty then .wait .engine id
      else
        let e := m.vecEntry x o false b.ds
        let push (v : W64) : Bank := { b with ds := unfour v ++ b.ds.drop 1 }
        match e.check k.cfg with
        | some d => .done (push 0) (m.ctx x).status.c (fun m => (m.vecFault x.coach e d none none).claimOver x) .seq
        | none =>
          .done (push (k.readOut e)) (m.ctx x).status.c
            (fun m => (m.count (K.vecVarithCyc x.coach.val) (if o = .vrdcfg then 1 else 2)).claimOver x) .seq

/-- One vector instruction by its form. -/
def semVec (o : VOp) (s : Bool) (m : Chip) (x : Ctx) : Plan :=
  if o.form s = .vr then m.vecRead x o else m.vecIssue x o s

/-- VCLAIM (R80): claims the engine; the owner goes on. -/
def semVclaim (m : Chip) (x : Ctx) : Plan :=
  m.withStacks x 0 0 fun b =>
    if m.vecMine x then .done b (m.ctx x).status.c (fun m => m.claimOver x) .seq
    else .wait .claim fun m => m.claimVec x true

/-- VREL (R82): waits until the owner's entries have completed, then sets OWNER to none. -/
def semVrel (m : Chip) (x : Ctx) : Plan :=
  m.withStacks x 0 0 fun b =>
    if !m.ownsVec x then .done b (m.ctx x).status.c id .seq
    else if !(m.vec x.coach).q.isEmpty then .wait .engine id
    else .done b (m.ctx x).status.c (fun m => m.modVown x.coach fun v => { v with owner := 0 }) .seq

/-! ### The elements of a memory entry (R210 to R214) -/

/-- It loads; otherwise it stores. -/
def VOp.loads (o : VOp) : Bool := o == .vldr || o == .vld || o == .vlds || o == .vldx

/-- Byte of memory at which element `i` begins, bits skipped in it, and bytes that it touches. -/
def VEntry.span (e : VEntry) (k : VecEngine) (c : VCfg) (i : Nat) : Nat × Nat × Nat :=
  let w := c.fmt.bits
  match e.op.1 with
  | .vld | .vst => ((e.a.toNat + w * i / 8) % 2 ^ 64, w * i % 8, (w * i % 8 + w + 7) / 8)
  | .vlds | .vsts => ((e.a + BitVec.ofNat 64 i * e.t).toNat, 0, w / 8)
  | _ => ((e.a + BitVec.ofNat 64 (k.elem (.uint 32) e.vs1 i)).toNat, 0, w / 8)

/-- The per-element check (R212, R216). -/
def VEntry.elemBad (e : VEntry) (k : VecEngine) (c : VCfg) (i : Nat) : Bool :=
  e.op.1.perElem && decide ((e.span k c i).1 % (c.fmt.bits / 8) ≠ 0)

/-- Bit `b` of byte `a` (counted from the array's first byte) as a unit-stride store leaves it, where an active element
covers it. -/
def VEntry.storeBit (e : VEntry) (k : VecEngine) (c : VCfg) (a b : Nat) : Option Bool :=
  let w := c.fmt.bits
  let i := (8 * a + b) / w
  if i < c.vl.toNat ∧ k.active c e i then some ((k.elem c.fmt e.vd i).testBit ((8 * a + b) % w)) else none

/-- Bits of element `i` in the bytes it touches, the other bits from `old`. -/
def mergeBits (old skip w v n : Nat) : List Byte :=
  leBytes n (old - (old / 2 ^ skip % 2 ^ w) * 2 ^ skip + (v % 2 ^ w) * 2 ^ skip)

/-- The bytes of a store of element `i` to host or peer memory, from `lo` bytes before its byte `at'` on and `n` in all: bits
that no active element of a unit-stride store covers are left open by the spec, free values. -/
def VEntry.remoteBytes (e : VEntry) (k : VecEngine) (c : VCfg) (i at' lo n : Nat) (free : Nat → Byte) : List Byte :=
  let s := e.span k c i
  let w := c.fmt.bits
  let v := k.elem c.fmt e.vd i
  (List.range n).map fun (j : Nat) =>
    (List.range 8).foldl (fun (r : Byte) b =>
      let bit : Option Bool :=
        if e.op.1 = .vst then
          let a : Int := (s.1 : Int) - (e.a.toNat : Int) + (at' : Int) + (j : Int) - (lo : Int)
          if a < 0 then none else e.storeBit k c a.toNat b
        else if lo ≤ at' + j ∧ 8 * (at' + j - lo) + b < w then some (v.testBit (8 * (at' + j - lo) + b))
        else none
      let x := bit.getD ((free j).getLsbD b)
      if x then r ||| BitVec.ofNat 8 (2 ^ b) else r) 0

/-- A loaded element goes to its register, and is counted (R176). -/
def Chip.vecLoaded (m : Chip) (c : Fin 64) (e : VEntry) (g : VCfg) (i : Nat) (l : List Byte) : Chip :=
  let k := m.vec c
  let s := e.span k g i
  let v := leNat l / 2 ^ s.2.1 % 2 ^ g.fmt.bits
  let m1 := m.modVec c fun k => k.setElem g.fmt e.vd i v
  let x : Ctx := ⟨c, e.aft⟩
  if m1.tallyReg x.tally (e.vd + i / perReg g.fmt) then m1.tallyOne x.tally (g.fmt.counted 127 (g.plainScale g.fmt) v false)
  else m1

/-- Element `i` of the head entry is answered. -/
def Chip.vecLand (m : Chip) (c : Fin 64) (i : Nat) : Chip :=
  m.modVec c fun k => match k.q with
    | e :: t => { k with q := { e with flight := e.flight.filter (·.ix != i) } :: t }
    | [] => k

/-- A memory entry that is to stop does so once every element sent is answered: VRESUME names the next (R215). -/
def Chip.vecSettle (m : Chip) (c : Fin 64) : Chip :=
  let k := m.vec c
  match k.q with
  | e :: t =>
    if e.halt && e.flight.isEmpty then
      let x : Ctx := ⟨c, e.aft⟩
      ((m.modVec c fun k =>
        { k with q := { e with started := false, halt := false } :: t,
                 vresume := BitVec.ofNat 32 (e.next + 2 ^ 17) }).dropMisses ⟨x.coach, 0⟩).endJob (.vec c.val)
    else m
  | [] => m

/-- The head memory entry is made to stop at an element boundary; a row move is not stopped (R211, R215). -/
def Chip.vecHalt (m : Chip) (c : Fin 64) : Chip :=
  let k := m.vec c
  match k.q with
  | e :: t =>
    if e.started && !e.done && e.op.1.fam == .mem then
      (m.modVec c fun k => { k with q := { e with halt := true } :: t }).vecSettle c
    else m
  | [] => m

def XSeg.isDev (s : XSeg) : Bool :=
  match s.place with
  | .dev _ => true
  | _ => false

/-- A coupled access keeps within 512 B of the window's offset (R417). -/
def XSeg.split (s : XSeg) : List XSeg :=
  match s.place with
  | .couple n w off => (pieces 512 off s.len (s.len + 1)).map fun p => { s with place := .couple n w p.1, len := p.2 }
  | _ => [s]

/-- Each piece with its number and its first byte in the element. -/
def segIndex : Nat → Nat → List XSeg → List (Nat × Nat × XSeg)
  | _, _, [] => []
  | j, o, s :: t => (j, o, s) :: segIndex (j + 1) (o + s.len) t

/-- Data of piece `j` of element `i` is kept for its load. -/
def Chip.vecKeep (m : Chip) (c : Fin 64) (i j : Nat) (l : List Byte) : Chip :=
  m.modVec c fun k => match k.q with
    | h :: t => { k with q := { h with flight := h.flight.map fun f => if f.ix = i then { f with got := (j, l) :: f.got } else f } :: t }
    | [] => k

/-- The bytes of a load, piece by piece: those that came from host or peer memory, and those that `dev` reads. -/
def VFlight.allGot (f : VFlight) : Bool := (segIndex 0 0 f.segs).all fun p => p.2.2.isDev || f.got.any (·.1 == p.1)

/-- A load whose pieces all lie in host or peer memory is answered with the last of them. -/
def Chip.vecGotAll (m : Chip) (c : Fin 64) (i : Nat) : Chip :=
  match (m.vec c).q with
  | e :: _ => match e.cfg, e.flight.find? (·.ix == i) with
    | some g, some f =>
      if f.allGot && !f.segs.any (·.isDev) then
        let l := (segIndex 0 0 f.segs).flatMap fun p => ((f.got.find? (·.1 == p.1)).map (·.2)).getD []
        ((m.vecLoaded c e g i l).vecLand c i).vecSettle c
      else m
    | _, _ => m
  | [] => m

/-- One piece of an element goes to the host or to a peer (R212, R361); one in device memory is performed with the element. -/
def Chip.vecSendPiece (m : Chip) (c : Fin 64) (e : VEntry) (g : VCfg) (i : Nat) (p : Nat × Nat × XSeg) : Chip :=
  let x : Ctx := ⟨c, e.aft⟩
  let k := m.vec c
  let va := (e.span k g i).1 + p.2.1
  let task := (m.ctx x).task
  let free (j : Nat) : Byte := Config.freeByte j m.tick
  let n := p.2.2.len
  match p.2.2.place with
  | .host a =>
    if e.op.1.loads then m.hostRead (m.taskFunc task) a n (ctxId x) task va (.vec c.val i p.1) p.2.2.ser
    else m.next.hostWrite (m.taskFunc task) a (e.remoteBytes k g i p.2.1 0 n free) p.2.2.ser .burst
  | .couple t w off =>
    let lo := off % 8
    let len := (lo + n + 7) / 8 * 8
    if e.op.1.loads then
      let r := m.coupleRead t w (off - lo) len (ctxId x) task va (.vec c.val i p.1) (e.cls g) p.2.2.ser
      if r.2 then r.1
      else (r.1.logData .peerRead (ctxId x) task va (List.replicate n 0)).vecKeep c i p.1 (List.replicate n 0)
    else
      m.next.coupleWrite t w (off - lo) (e.remoteBytes k g i p.2.1 lo len free) (ctxId x) task
        true (some (.vec c.val i p.1)) (e.cls g) p.2.2.ser
  | .dev _ => m

/-- One element has been translated; it is sent (R361). Loads from host or peer need a freight dray and room in the log. -/
def Chip.vecSend (m : Chip) (c : Fin 64) (e : VEntry) (g : VCfg) (i : Nat) (segs : List XSeg) : Chip × Bool :=
  let l := segs.flatMap XSeg.split
  let push (m : Chip) : Chip := m.modVec c fun k => match k.q with
    | h :: t => { k with q := { h with flight := h.flight ++ [⟨i, l, []⟩], next := i + 1 } :: t }
    | [] => k
  if l.all (·.isDev) then (push m, true)
  else if !m.hasJob (.vec c.val) then
    (if (m.jobOf (.vec c.val)).isNone then m.askJob (.vec c.val) (ctxId ⟨c, e.aft⟩) (e.cls g) else m, false)
  else if e.op.1.loads && m.logStalls (32 * l.length) then (m.logBlocked, false)
  else
    let m1 := (segIndex 0 0 l).foldl (fun (m : Chip) p => m.vecSendPiece c e g i p) (push m)
    (if e.op.1.loads then m1.vecGotAll c i else m1, true)

/-- Translates the bytes of an element, page by page. -/
def Chip.vecTranslate (m : Chip) (c : Fin 64) (e : VEntry) (va n : Nat) : Chip × Except Bool (List XSeg) :=
  let x : Ctx := ⟨c, e.aft⟩
  let k := m.ctx x
  (pieces 65536 va n (n + 1)).foldl (fun (a : Chip × Except Bool (List XSeg)) p =>
    match a.2 with
    | .error _ => a
    | .ok l =>
      let q : XMiss := { req := ⟨c, 0⟩, asid := k.asid, va := p.1, write := !e.op.1.loads, sup := e.sup, task := k.task }
      let r := a.1.translate q
      match r.2 with
      | .ok pl cl => let s := r.1.takeSer; (s.1, .ok (l ++ [⟨pl, cl, p.2, s.2⟩]))
      | .wait => (r.1, .error false)
      | .fail => (r.1, .error true)) (m, .ok [])

/-- Sends elements of the head entry in ascending order until all are sent, one waits, one fails, or 1,024 are in flight
(R191, R213). -/
def Chip.vecSendAll (m : Chip) (c : Fin 64) : Nat → Chip
  | 0 => m
  | fuel + 1 =>
    let k := m.vec c
    match k.q with
    | [] => m
    | e :: _ => match e.cfg with
      | none => m
      | some g =>
        if e.halt || decide (g.vl.toNat ≤ e.next) || decide (1024 ≤ e.flight.length) then m
        else
          let i := e.next
          let skip (m : Chip) : Chip := m.modVec c fun k => match k.q with
            | h :: t =>
              -- a masked-off position of a load (R187)
              let k1 := if e.op.1.loads && g.mzero then k.setElem g.fmt e.vd i 0 else k
              { k1 with q := { h with next := i + 1 } :: t }
            | [] => k
          if !k.active g e i then (skip m).vecSendAll c fuel
          else if e.elemBad k g i then
            if e.flight.isEmpty then m.vecReject c 0 vElemAlign (some i) (some (BitVec.ofNat 64 (e.span k g i).1)) else m
          else
            let s := e.span k g i
            let r := m.vecTranslate c e s.1 s.2.2
            match r.2 with
            | .error true => r.1.vecHalt c
            | .error false => r.1
            | .ok segs =>
              let t := r.1.vecSend c e g i segs
              if t.2 then t.1.vecSendAll c fuel else t.1

/-! ### Starting an entry (R190) -/

/-- Registers that an entry reads or writes, as ranges, and the mask registers it uses. -/
def VEntry.uses (e : VEntry) (c : VCfg) : List (Nat × Nat) × List Nat :=
  let regs := match e.op.1.fam with
    | .cvt => if c.fmt.isMx || (match (e.target c).1 with | some T => T.isMx | none => false) then
        (e.vs1, 1) :: e.groups c else e.groups c
    | .reduce => (e.vd, 1) :: (e.vs1, if e.op.1 = .vxdot then c.group else 1) :: e.groups c
    | .ins => [(e.vd, 1)]
    | _ => e.groups c
  let masks := (if e.me && e.op.1.masks then [c.mreg] else []) ++
    (match e.op.1.fam with
      | .mask => [e.vd % 8, e.vs1 % 8, e.vs2 % 8]
      | .compare => [e.vd % 8]
      | _ => if e.op.1 = .viota then [e.vs2 % 8] else if e.op.1 = .vmerge ∨ e.op.1 = .vcompress ∨ e.op.1 = .vexpand then
          [c.mreg] else [])
  (regs, masks)

/-- Two entries touch no register in common. -/
def usesDisjoint (a b : List (Nat × Nat) × List Nat) : Bool :=
  !(a.1.any fun r => b.1.any (rangesMeet r)) && !(a.2.any b.2.contains)

/-- It belongs to the memory pipe (R189). -/
def VOp.memPipe (o : VOp) : Bool := o.fam == .mem || o.fam == .row

/-- Entry `e`, number `n` of the queue, may start now. -/
def VecEngine.mayStart (k : VecEngine) (n : Nat) (e : VEntry) : Bool :=
  let before := k.q.take n
  let flying := before.filter (!·.done)
  if e.op.1.memPipe || e.op.1 == .vfsumo then flying.isEmpty
  else flying.all fun f => f.op.1.memPipe && f.started &&
    (match f.cfg with
      | some g => usesDisjoint (e.uses k.cfg) (f.uses g)
      | none => false)

/-- The engine works for a context: it runs or waits, owns the engine with its task's state in it (R80), is not being evicted
(R81), and no open fault entry holds its requests (R356). An entry that has not started waits while the context is on its shadow
bank (R120). -/
def Chip.vecGoes (m : Chip) (x : Ctx) (begun : Bool) : Bool :=
  let k := m.ctx x
  (k.st == .running || k.st == .waiting) && (begun || !k.status.shadow) && k.entering.isNone && !(x.aft && (m.coach x.coach).vown.evict)
    && m.ownsVec x && (m.coach x.coach).vown.tag == k.task && !(m.faultHolds ⟨x.coach, 0⟩ k.task)

/-- Rows of VLDR and VSTR (R211): first physical row, or the chock. -/
def Chip.vecRows (m : Chip) (x : Ctx) (e : VEntry) (g : VCfg) : Option Nat :=
  let r := (m.ctx x).rows e.sup
  if r.2 < e.a.toNat + 8 * g.group - 1 then none else some (r.1 + e.a.toNat)

/-- Chocks a context for an access outside its bound (R69, R211). -/
def Chip.chockCtx (m : Chip) (x : Ctx) (addr : Nat) : Chip :=
  ((m.chock (coachPage x.coach) (ctxId x) 2 addr (coachDomain x.coach.val)).modCtx x fun k =>
    { k with st := .chocked, wait := .none }).syncCoach x.coach

def Chip.startEntry (m : Chip) (c : Fin 64) (n : Nat) (e : VEntry) : Chip :=
  let k := m.vec c
  let x : Ctx := ⟨c, e.aft⟩
  -- an entry that goes on has its configuration from its first start (R189, R215)
  match e.check (e.cfg.getD k.cfg) with
  | some d => m.vecReject c n d none (if d = vElemAlign then some e.a else none)
  | none =>
    if e.op.1.fam = .row ∧ (m.vecRows x e k.cfg).isNone then m.chockCtx x e.a.toNat
    else
      let g := e.cfg.getD k.cfg
      let from0 := if k.vresume.getLsbD 17 then k.vresume.toNat % 2 ^ 17 else 0
      let m1 := m.modVec c fun k => { k with q := k.q.set n { e with started := true, cfg := some g, next := if e.op.1.fam = .mem then from0 else 0 } }
      if e.op.1.fam = .mem then m1.vecSendAll c (g.vl.toNat + 1) else m1

/-- VEC_ENTRY_START: the head memory entry goes on sending, or the first entry not started starts. -/
def Chip.vecStart (m : Chip) (c : Fin 64) : Chip :=
  let k := m.vec c
  let goOn : Chip := match k.q with
    | h :: _ => if h.started && h.op.1.fam == .mem && m.vecGoes ⟨c, h.aft⟩ true then m.vecSendAll c 131072 else m
    | [] => m
  match k.q.findIdx? (!·.started) with
  | some n =>
    match k.q[n]? with
    | some e => if m.vecGoes ⟨c, e.aft⟩ false && k.mayStart n e then m.startEntry c n e else goOn
    | none => m
  | none => goOn

def execVecEntryStart (c : Fin 64) (s : State) : Host.Outcome State Fault Refusal := onCoach c (fun m => m.vecStart c) s

/-! ### Answers to elements (R213) -/

/-- Two accesses to device memory touch a byte in common. -/
def segsMeet (a b : List XSeg) : Bool :=
  a.any fun s => b.any fun t => match s.place, t.place with
    | .dev p, .dev q => decide (p < q + t.len ∧ q < p + s.len)
    | _, _ => false

/-- The class of an access now: class 1 once an invalidation that waits for it has raised it (R362). -/
def Chip.clsNow (m : Chip) (ser cls : Nat) : Nat := if m.xlat.drains.any fun d => d.raised && decide (ser < d.upto) then 1 else cls

/-- The access is held: a block whose CRC failed twice (R317), or an eighth that a SPLIT adds (R299). -/
def Chip.segsHeld (m : Chip) (cls : Nat) (write noalloc : Bool) (l : List XSeg) : Bool :=
  l.any fun s => match s.place with
    | .dev p => m.devHeld (m.clsNow s.ser cls) write noalloc p s.len
    | _ => false

/-- The bad blocks that an engine's access meets are recorded for it (R317). -/
def Chip.segsNote (m : Chip) (master : BitVec 16) (write noalloc : Bool) (l : List XSeg) : Chip :=
  l.foldl (fun m s => match s.place with
    | .dev p => m.crcNote master write noalloc p s.len
    | _ => m) m

/-- Reads the pieces of an access to device memory; `none` where one of them fails. -/
def Chip.segsRead (m : Chip) (master : BitVec 16) (cls : Nat) (noalloc : Bool) : List XSeg → Chip × Option (List Byte)
  | [] => (m, some [])
  | s :: t => match s.place with
    | .dev p =>
      let r := m.devRead master (m.clsNow s.ser cls) p s.len noalloc
      let u := r.1.segsRead master cls noalloc t
      (u.1, match r.2, u.2 with
        | some a, some b => some (a ++ b)
        | _, _ => none)
    | _ => (m, none)

/-- Writes the pieces of an access to device memory. -/
def Chip.segsWrite (m : Chip) (master : BitVec 16) (cls : Nat) (noalloc : Bool) (l : List Byte) : List XSeg → Chip
  | [] => m
  | s :: t => match s.place with
    | .dev p => (m.devWrite master (m.clsNow s.ser cls) p (l.take s.len) noalloc s.cls).1.segsWrite master cls noalloc (l.drop s.len) t
    | _ => m.segsWrite master cls noalloc (l.drop s.len) t

/-- The bytes of a load: the pieces in device memory are read, those of host and peer have come; `none` where a read fails. -/
def Chip.flightRead (m : Chip) (master : BitVec 16) (cls : Nat) (f : VFlight) : List (Nat × Nat × XSeg) → Chip × Option (List Byte)
  | [] => (m, some [])
  | p :: t =>
    let r : Chip × Option (List Byte) := match p.2.2.place with
      | .dev a => m.devRead master (m.clsNow p.2.2.ser cls) a p.2.2.len false
      | _ => (m, (f.got.find? fun (q : Nat × List Byte) => q.1 == p.1).map fun (q : Nat × List Byte) => q.2)
    let u := r.1.flightRead master cls f t
    (u.1, match r.2, u.2 with
      | some a, some b => some (a ++ b)
      | _, _ => none)

/-- Bytes of device memory as they stand. -/
def Chip.segsPeek (m : Chip) (l : List XSeg) : List Byte :=
  l.flatMap fun s => match s.place with
    | .dev p => m.rdBytes p s.len
    | _ => List.replicate s.len 0

/-- The pieces of one element in device memory are performed. A load whose access fails takes a free value. -/
def Chip.vecPerform (m : Chip) (c : Fin 64) (e : VEntry) (g : VCfg) (f : VFlight) : Chip :=
  let i := f.ix
  let segs := f.segs
  let x : Ctx := ⟨c, e.aft⟩
  let k := m.vec c
  let s := e.span k g i
  if e.op.1.loads then
    let m0 := segs.foldl (fun m s => match s.place with
      | .dev p => m.scratchRead (m.ctx x).task p s.len
      | _ => m) m
    let r := m0.flightRead (ctxId x) (e.cls g) f (segIndex 0 0 segs)
    match r.2 with
    | some l => r.1.vecLoaded c e g i l
    | none => r.1.next.vecLoaded c e g i ((List.range s.2.2).map fun j => Config.freeByte j r.1.tick)
  else
    let v := k.elem g.fmt e.vd i
    let l := mergeBits (leNat (m.segsPeek segs)) s.2.1 g.fmt.bits v s.2.2
    let m1 := m.segsWrite (ctxId x) (e.cls g) false l segs
    match segs with
    | ⟨.dev p, _, _, _⟩ :: _ =>
      if m1.tallyMem x.tally p then m1.tallyOne x.tally (g.fmt.counted 127 (g.plainScale g.fmt) v false) else m1
    | _ => m1

/-- A coupled write of an element has been answered, or a host write has been sent. -/
def Chip.vecRemoteDone (m : Chip) (c : Fin 64) (i : Nat) (segs : List XSeg) : Bool :=
  !(segIndex 0 0 segs).any fun p =>
    let d : ReadDest := .vec c.val i p.1
    m.sf.out.any (·.dest == some d) || m.sf.wait.any (·.dest == some d) || m.host.held.any (·.ser == p.2.2.ser)
      || m.host.reads.any (·.dest == d)

/-- VEC_ELEMENT_RESPONSE: element `i` of coach `c` is answered; stores of one byte are performed in ascending order (R213). -/
def Chip.vecResponse (m : Chip) (c : Fin 64) (i : Nat) : Chip :=
  match (m.vec c).q with
  | e :: _ => match e.cfg, e.flight.find? (·.ix == i) with
    | some g, some f =>
      if !f.segs.any (·.isDev) then (if !e.op.1.loads && m.vecRemoteDone c i f.segs then (m.vecLand c i).vecSettle c else m)
      else if (e.op.1.loads && !f.allGot) || (!e.op.1.loads && !m.vecRemoteDone c i f.segs) then m
      else if m.segsHeld (e.cls g) (!e.op.1.loads) false f.segs then m.segsNote (ctxId ⟨c, e.aft⟩) (!e.op.1.loads) false f.segs
      else if e.flight.any (fun h => decide (h.ix < i) && segsMeet h.segs f.segs && !e.op.1.loads) then m
      else ((m.vecPerform c e g f).vecLand c i).vecSettle c
    | _, _ => m
  | [] => m

def execVecElementResponse (c : Fin 64) (i : Nat) (s : State) : Host.Outcome State Fault Refusal :=
  onCoach c (fun m => m.vecResponse c i) s

/-- Data of a load from host or peer memory arrives for piece `j` of element `i`. -/
def Chip.vecDeliver (m : Chip) (c : Fin 64) (i j : Nat) (l : List Byte) : Chip :=
  match (m.vec c).q with
  | e :: _ => match e.flight.find? (·.ix == i) with
    | some f => match f.segs[j]? with
      | some p =>
        let skip := match p.place with
          | .couple _ _ off => off % 8
          | _ => 0
        (m.vecKeep c i j ((l.drop skip).take p.len)).vecGotAll c i
      | none => m
    | none => m
  | [] => m

/-! ### Completion (R191, R193) -/

/-- Coach cycles in the arithmetic pipe (R191). -/
def VecEngine.cycles (k : VecEngine) (e : VEntry) : Nat :=
  let c := k.cfg
  let g := ((e.groups c).map (·.2)).foldl max 1
  match e.op.1.fam with
  | .config | .mask => 1
  | .reduce =>
    if e.op.1 = .vfsumo then
      let lo := if k.vresume.getLsbD 17 then k.vresume.toNat % 2 ^ 17 else 0
      8 + ((k.actives c e).filter fun i => decide (lo ≤ i)).length
    else max 8 (4 * g)
  | _ => 4 * g

/-- The key of an entry that rounds with SR: the counter value of its issue, and the seed in force when it is performed, as for the
matrix array and the drays (DESIGN CHOICE, log entry 96). -/
def Chip.vecKey (m : Chip) (x : Ctx) (e : VEntry) : W64 := srKey (m.srSeed x) 0 (e.sr.getD 0)

/-- Entries that are done leave from the head of the queue. -/
def VecEngine.popDone (k : VecEngine) : VecEngine := { k with q := k.q.dropWhile (·.done) }

def Chip.vecFinish (m : Chip) (c : Fin 64) (n : Nat) (e : VEntry) : Chip :=
  let m1 := m.modVec c fun k =>
    { k with q := k.q.set n { e with done := true },
             vresume := if e.op.1.fam = .mem ∨ e.op.1 = .vfsumo then 0 else k.vresume }
  let m2 := m1.modVec c VecEngine.popDone
  if e.sr.isSome then m2.count (K.tallySrCtrV (Ctx.tally ⟨c, e.aft⟩)) 1 else m2

/-- Recomputed chunks: VREPLAY, its event, and a report for each as the first or second mismatch of its chunk, which R450 treats
alike (R193, R450). -/
def Chip.vecReplays (m : Chip) (c : Fin 64) (x : Ctx) (n : Nat) : Chip :=
  if n = 0 then m
  else
    let m1 := m.setFld (K.vecVreplay c.val) F.vecVreplayCount (min (m.fld (K.vecVreplay c.val) F.vecVreplayCount + n) (2 ^ 32 - 1))
    let m2 := m1.event (vecPage c.val) 17
    (List.range n).foldl (fun m _ =>
      m.report { m.recEvent causeResidue (ctxId x) 0 (coachDomain c.val) with coach := some c.val, nth := 1 }) m2

/-- An arithmetic entry completes: result, flags and tally commit together. `replays` chunks were recomputed; when the
third check of one chunk fails nothing is written and the event is reported as a third mismatch. -/
def Chip.vecArith (m : Chip) (c : Fin 64) (n : Nat) (e : VEntry) (replays : Nat) (third : Bool) : Chip :=
  let x : Ctx := ⟨c, e.aft⟩
  let k := m.vec c
  let m0 := m.vecReplays c x replays
  if third then m0.report { m0.recEvent causeResidue (ctxId x) 0 (coachDomain c.val) with coach := some c.val, nth := 3 }
  else
    let o := k.exec e (m.vecKey x e)
    let m1 := (m0.modVec c fun _ => o.eng).addFlags x o.flags
    let m2 := o.elems.reverse.foldl (fun m v =>
      if m.tallyReg x.tally v.reg then m.tallyOne x.tally (v.fmt.counted v.x v.S v.bits v.flushed) else m) m1
    (m2.count (K.vecVarithCyc c.val) (k.cycles e + 4 * replays)).vecFinish c n e

/-- A row move (R211). -/
def Chip.vecRowMove (m : Chip) (c : Fin 64) (e : VEntry) (g : VCfg) : Chip :=
  let x : Ctx := ⟨c, e.aft⟩
  match m.vecRows x e g with
  | none => m
  | some p =>
    (List.range (8 * g.group)).foldl (fun m j =>
      let r := e.vd + j / 8
      if e.op.1 = .vldr then
        let d := m.coreRead (ctxId x) c.val (p + j) 0 512
        d.1.modVec c fun k => k.setVreg r (putBits (k.reg r) (4096 * (j % 8)) 4096 (leNat d.2))
      else
        m.coreWrite (ctxId x) c.val (p + j) 0 (leBytes 512 (((m.vec c).reg r).toNat / 2 ^ (4096 * (j % 8))))) m

/-- VEC_ENTRY_COMPLETE: the started entry of the memory pipe, or of the arithmetic pipe, completes. -/
def Chip.vecComplete (m : Chip) (c : Fin 64) (mem : Bool) (cycles replays : Nat) (third : Bool) : Chip :=
  let k := m.vec c
  match k.q.findIdx? fun e => e.started && !e.done && e.op.1.memPipe == mem with
  | none => m
  | some n => match k.q[n]? with
    | none => m
    | some e =>
      if mem then match e.cfg with
        | none => m
        | some g =>
          if e.op.1.fam = .row then
            ((m.vecRowMove c e g).count (K.vecVmemCyc c.val) cycles).vecFinish c n e
          else if e.halt || decide (e.next < g.vl.toNat) || !e.flight.isEmpty then m
          else ((m.count (K.vecVmemCyc c.val) cycles).vecFinish c n e).endJob (.vec c.val)
      else m.vecArith c n e replays third

def execVecEntryComplete (c : Fin 64) (mem : Bool) (cycles replays : Nat) (third : Bool) (s : State) :
    Host.Outcome State Fault Refusal :=
  onCoach c (fun m => m.vecComplete c mem cycles replays third) s

/-! ### Stops (R135, R192) -/

/-- A started VFSUMO stops before element `hi`: running sum and VRESUME are kept, and the flags of the additions made.
VARITH_CYC counts one cycle for each of them; the eight that R191 adds are counted when the entry completes (DESIGN CHOICE,
log entry 44: R191 gives no figure for a part). -/
def Chip.vecStopSum (m : Chip) (c : Fin 64) (hi : Nat) : Chip :=
  let k := m.vec c
  match k.q with
  | e :: t =>
    if e.started && !e.done && e.op.1 == .vfsumo then
      match k.cfg.fmt with
      | .fp f =>
        let from0 := if k.vresume.getLsbD 17 then (k.elem k.cfg.fmt e.vd 0, k.vresume.toNat % 2 ^ 17)
          else (k.elem k.cfg.fmt e.vs1 0, 0)
        let h := clamp from0.2 k.cfg.vl.toNat hi
        let r := k.sumOrdered k.cfg e f (m.vecKey ⟨c, e.aft⟩ e) from0.1 from0.2 h
        let added := ((k.actives k.cfg e).filter fun i => decide (from0.2 ≤ i ∧ i < h)).length
        ((m.modVec c fun k =>
          { (k.setElem k.cfg.fmt e.vd 0 r.1) with
            q := { e with started := false } :: t, vresume := BitVec.ofNat 32 (h + 2 ^ 17) }).addFlags ⟨c, e.aft⟩ r.2).count
          (K.vecVarithCyc c.val) added
      | _ => m
    else m
  | [] => m

/-- Started work of the context has reached its point (R135): no entry of it is started and not done. -/
def Chip.vecQuiet (m : Chip) (x : Ctx) : Bool :=
  !((m.vec x.coach).q.any fun e => e.aft == x.aft && e.started && !e.done)

end Sys2Proof.Machine
end

