-- ==== Sys2Proof/Machine/Matrix.lean ====
section
/-! DEFINITION. The matrix array (chapter 7): issue, check, prepare, fill, close and commit of an entry (R221 to R259). -/
namespace Sys2Proof.Machine

def mtxPage (c : Nat) : PageId := ⟨.mtx, c⟩

def Chip.mtx (m : Chip) (c : Fin 64) : MtxArray := (m.coach c).mtx

def Chip.modMtx (m : Chip) (c : Fin 64) (f : MtxArray → MtxArray) : Chip := m.modCoach c fun k => { k with mtx := f k.mtx }

/-- Split mode is in force (R253). -/
def Chip.mtxSplit (m : Chip) (c : Nat) : Bool := m.flag (K.mtxMtxCtl c) F.mtxMtxCtlSplit

/-! ### Descriptor fields (R228) -/

/-- Bits `[hi:lo]` of descriptor word `n`. -/
def MEntry.dw (e : MEntry) (n hi lo : Nat) : Nat :=
  (e.words.toList.getD n 0).toNat / 2 ^ lo % 2 ^ (hi + 1 - lo)

def MEntry.combine (e : MEntry) : Bool := e.dw 0 0 0 == 1
def MEntry.fixed (e : MEntry) : Bool := e.dw 0 1 1 == 1
def MEntry.noc (e : MEntry) : Bool := e.dw 0 2 2 == 1
def MEntry.rm (e : MEntry) : Nat := e.dw 0 6 4
def MEntry.sat (e : MEntry) : Bool := e.dw 0 7 7 == 1
def MEntry.fa (e : MEntry) : Nat := e.dw 1 5 0
def MEntry.fb (e : MEntry) : Nat := e.dw 1 11 6
def MEntry.cf (e : MEntry) : Nat := e.dw 1 14 12
def MEntry.df (e : MEntry) : Nat := e.dw 2 2 0
def MEntry.cRow (e : MEntry) : Nat := e.dw 2 15 3
def MEntry.dRow (e : MEntry) : Nat := e.dw 3 12 0
def MEntry.aOff (e : MEntry) : Nat := e.dw 4 7 0
def MEntry.bOff (e : MEntry) : Nat := e.dw 4 15 8
def MEntry.eRow (e : MEntry) : Nat := e.dw 4 12 0
def MEntry.mRows (e : MEntry) : Nat := e.dw 5 6 0 + 1
def MEntry.nCols (e : MEntry) : Nat := e.dw 5 14 8 + 1
def MEntry.kLen (e : MEntry) : Nat := e.dw 6 10 0 + 1
def MEntry.sfix (e : MEntry) : Int := signedOf 12 (e.dw 7 11 0)
/-- The operand buffers it reads: A0, A1, B0, B1 are 0 to 3. -/
def MEntry.aBuf (e : MEntry) : Nat := e.dw 0 8 8
def MEntry.bBuf (e : MEntry) : Nat := 2 + e.dw 0 9 9

/-- It rounds with SR (R170): a converted D under RM = SR. -/
def MEntry.usesSr (e : MEntry) : Bool := decide (e.rm = 5 ∧ e.df < 3)

/-! ### Tile forms (R229, R230) -/

/-- Bytes of an element of a form. -/
def formBytes : Nat → Nat
  | 0 => 8
  | 1 => 4
  | 2 => 2
  | _ => 16

def formFlt : Nat → Flt
  | 0 => fltFp64
  | 1 => fltFp32
  | _ => fltBf16

/-- Elements of a tile row. -/
def tileCols (split : Bool) : Nat := if split then 64 else 128

/-- Rows before the elements: tag row and special map. -/
def formHead (f : Nat) (split : Bool) : Nat := if f = 3 then 1 else if f = 4 then (if split then 5 else 9) else 0

/-- Rows that a tile occupies. -/
def formRows (f : Nat) (split : Bool) : Nat := formHead f split + 128 * tileCols split * formBytes f / 512

/-- Byte of element (r, c) from the tile's first row. -/
def elemByte (f : Nat) (split : Bool) (r c : Nat) : Nat :=
  512 * formHead f split + (r * tileCols split + c) * formBytes f

/-- Rows of a tile that hold its tag, the map or an element of the used region. -/
def usedRows (f : Nat) (split : Bool) (M N : Nat) : List Nat :=
  let span (lo n : Nat) : List Nat := (List.range ((lo + n - 1) / 512 - lo / 512 + 1)).map (lo / 512 + ·)
  let els := (List.range M).flatMap fun r => span (elemByte f split r 0) (N * formBytes f)
  let maps := if f = 4 then (List.range M).flatMap fun r =>
      span (512 + r * tileCols split / 4) ((r * tileCols split + N - 1) / 4 - r * tileCols split / 4 + 1) else []
  ((if 3 ≤ f then [0] else []) ++ maps ++ els).eraseDups

/-- A tile in core memory: form, first physical row. -/
structure Tile where
  form : Nat
  row : Nat
  deriving DecidableEq, Repr

def Tile.meets (a b : Tile) (split : Bool) : Bool := rangesMeet (a.row, formRows a.form split) (b.row, formRows b.form split)

/-- First physical row of a logical row of the entry's task (R280). -/
def Chip.tileRow (m : Chip) (c : Fin 64) (e : MEntry) (row : Nat) : Nat := ((m.ctx ⟨c, e.aft⟩).rows e.sup).1 + row

def Chip.tileC (m : Chip) (c : Fin 64) (e : MEntry) : Tile := ⟨e.cf, m.tileRow c e e.cRow⟩
def Chip.tileE (m : Chip) (c : Fin 64) (e : MEntry) : Tile := ⟨e.cf, m.tileRow c e e.eRow⟩
def Chip.tileD (m : Chip) (c : Fin 64) (e : MEntry) : Tile := ⟨e.df, m.tileRow c e e.dRow⟩

/-- `n` bytes of a tile from byte `b` of it; a row that is off reads zeros (R285). -/
def Chip.tileLE (m : Chip) (c : Fin 64) (t : Tile) (b n : Nat) : Nat :=
  if m.rowReady c.val (t.row + b / 512) then m.rdLE (rowAddr c.val t.row + b) n else 0

/-- The reads of a tile's rows from `lo` on, below `hi`, are counted, or recorded where a row is off (R284, R285). -/
def Chip.tileTouch (m : Chip) (c : Fin 64) (aft : Bool) (t : Tile) (split : Bool) (M N lo hi : Nat) : Chip :=
  ((usedRows t.form split M N).filter fun r => decide (lo ≤ r ∧ r < hi)).foldl
    (fun m r => (m.coreRead (ctxId ⟨c, aft⟩) c.val (t.row + r) 0 0).1) m

/-- One element of a C or E tile from its bits (R245): converted forms decode, a raw element is W × 2^S, the map code of a
combine form names the specials. -/
def tileTerm (form : Nat) (S : Int) (code v : Nat) : MTerm :=
  if form < 3 then match (formFlt form).decode v with
    | .nan s => .nan s
    | .inf n => .inf n
    | .fin n a e => .fin n a e
  else
    let w := signedOf 128 v
    match code with
    | 0 => .fin (decide (w < 0)) w.natAbs S
    | 1 => .inf false
    | 2 => .inf true
    | _ => .nan false

/-- The tag of an ACC128 tile from word 0 of its row: none when it fails its checks (R230), else S and PARTS. -/
def tagOf (form : Nat) (split : Bool) (v : Nat) : Option (Int × Nat) :=
  if v / 2 ^ 24 % 256 = 0xA7 ∧ (v / 2 ^ 16 % 2 = 1 ↔ form = 4) ∧ (v / 2 ^ 17 % 2 = 1 ↔ split = true) then
    some (signedOf 12 v, v / 2 ^ 48 % 65536)
  else none

def Chip.tileTag (m : Chip) (c : Fin 64) (t : Tile) (split : Bool) : Option (Int × Nat) :=
  tagOf t.form split (m.tileLE c t 0 8)

/-- S and PARTS of a tile that has been read; a converted tile has neither. -/
def TileBuf.sParts (b : TileBuf) (form : Nat) (split : Bool) : Int × Nat :=
  if form < 3 then (0, 0) else (tagOf form split b.tag).getD (0, 0)

/-- The used elements, row by row. -/
def TileBuf.terms (b : TileBuf) (form : Nat) (S : Int) : List MTerm :=
  b.vals.mapIdx fun i v => tileTerm form S (b.maps.getD i 0) v

/-- Positions of the used elements, row by row. -/
def usedElems (M N : Nat) : List (Nat × Nat) := (List.range M).flatMap fun r => (List.range N).map fun k => (r, k)

/-- Rows below `hi` of a tile that have not been read are read, in ascending order (R511). -/
def Chip.tileRead (m : Chip) (c : Fin 64) (t : Tile) (split : Bool) (M N hi : Nat) (b : TileBuf) : TileBuf :=
  let now (x : Nat) : Bool := decide (b.next ≤ x / 512 ∧ x / 512 < hi)
  let index (p : Nat × Nat) : Nat := p.1 * tileCols split + p.2
  let els := usedElems M N
  { tag := if 3 ≤ t.form ∧ now 0 then m.tileLE c t 0 8 else b.tag
    maps := b.maps ++ (if t.form = 4 then (els.filter fun p => now (512 + index p / 4)).map fun p =>
      m.tileLE c t (512 + index p / 4) 1 / 4 ^ (index p % 4) % 4 else [])
    vals := b.vals ++ (els.filter fun p => now (elemByte t.form split p.1 p.2)).map fun p =>
      m.tileLE c t (elemByte t.form split p.1 p.2) (formBytes t.form)
    next := max b.next hi }

/-- A whole tile as it stands. -/
def Chip.tileAll (m : Chip) (c : Fin 64) (t : Tile) (split : Bool) (M N : Nat) : TileBuf :=
  m.tileRead c t split M N (formRows t.form split) .empty

/-! ### Operands (R223, R224) -/

/-- The operand format of a code (R142). -/
def mtxFmt (code : Nat) : Option Fmt :=
  match Fmt.of code with
  | some .acc | some .e8m0 | none => none
  | some F => some F

/-- Kmax of a pair (R161, R222). -/
def kMax (A B : Fmt) : Nat :=
  let w := max A.slot B.slot
  if w = 64 then 128 else if w = 32 then 256 else if w = 16 then 512 else if w = 8 then 1024 else 2048

/-- Scales that a full buffer row of a format has (R224). -/
def rowScales (F : Fmt) : Nat := 8192 / F.slot / 32

/-- Element k of operand row r of the tile at `off` KiB of buffer `f`, decoded with its block's scale. -/
def Chip.operand (m : Chip) (c : Fin 64) (f off : Nat) (F : Fmt) (r k : Nat) : Val :=
  let b := F.bits * k
  let v := leNat (m.obufRead c.val f ((off + r) * 1024 + b / 8) ((b % 8 + F.bits + 7) / 8)) / 2 ^ (b % 8) % 2 ^ F.bits
  let x := if F.isMx then (m.obufByte c.val f ((off + 128) * 1024 + r * rowScales F + k / 32)).toNat else 127
  F.decode x 0 v

/-- Rows of a buffer that an operand occupies: element rows and rows of scales. -/
def operandRows (off rows K : Nat) (F : Fmt) : List (Nat × Nat) :=
  (off, rows) ::
    (if F.isMx then
      let lo := (off + 128) * 1024
      let hi := lo + (rows - 1) * rowScales F + (K - 1) / 32
      [(lo / 1024, hi / 1024 - lo / 1024 + 1)]
    else [])

/-- An operand stays within the 256 rows of its buffer (R225). -/
def operandFits (off rows K : Nat) (F : Fmt) : Bool := (operandRows off rows K F).all fun r => decide (r.1 + r.2 ≤ 256)

/-- The entry reads row `row` of buffer `f` and has not ended its fill (R226). A fill that a replay may still run again
counts as not ended, so that the replay finds the same operands (R238): it ends with the commit, since the writeback's check may
still ask for a replay (R250; log entry 62). -/
def MEntry.readsRow (e : MEntry) (f row : Nat) : Bool :=
  !e.combine &&
    (match mtxFmt e.fa, mtxFmt e.fb with
      | some A, some B =>
        (e.aBuf == f && (operandRows e.aOff e.mRows e.kLen A).any fun r => decide (r.1 ≤ row ∧ row < r.1 + r.2)) ||
        (e.bBuf == f && (operandRows e.bOff e.nCols e.kLen B).any fun r => decide (r.1 ≤ row ∧ row < r.1 + r.2))
      | _, _ => false)

/-- A dray write to a row of a buffer waits for the entries numbered below `mid` (R226). -/
def Chip.mtxHoldsRow (m : Chip) (c : Fin 64) (mid f row : Nat) : Bool :=
  ((m.mtx c).queue ++ (m.mtx c).arr).any fun e => decide (e.id < mid) && e.readsRow f row

/-! ### The checks of R256 -/

def MEntry.reservedSet (e : MEntry) : Bool :=
  decide (e.dw 0 3 3 ≠ 0 ∨ e.dw 0 15 10 ≠ 0 ∨ e.dw 1 15 15 ≠ 0 ∨ e.dw 3 15 13 ≠ 0 ∨ e.dw 5 7 7 ≠ 0 ∨ e.dw 5 15 15 ≠ 0
    ∨ e.dw 6 15 11 ≠ 0 ∨ e.dw 7 15 12 ≠ 0) ||
  (e.combine && decide (e.dw 4 15 13 ≠ 0 ∨ e.fa ≠ 0 ∨ e.fb ≠ 0 ∨ e.dw 0 9 8 ≠ 0 ∨ e.dw 6 10 0 ≠ 0))

abbrev mBadDesc : Nat := 1
abbrev mBadRsv : Nat := 2
abbrev mBadOp : Nat := 3
abbrev mBadFmt : Nat := 4
abbrev mBadRm : Nat := 5
abbrev mBadShape : Nat := 6
abbrev mBadBuf : Nat := 7
abbrev mOverlap : Nat := 8
abbrev mBadTag : Nat := 9

def MEntry.badFmt (e : MEntry) : Bool :=
  (!e.combine && ((mtxFmt e.fa).isNone || (mtxFmt e.fb).isNone)) || decide (5 ≤ e.df) || (!e.noc && decide (5 ≤ e.cf))
    || (e.combine && decide (e.cf ≠ 3 ∧ e.cf ≠ 4))

def MEntry.badShape (e : MEntry) (split : Bool) : Bool :=
  (split && decide (64 < e.nCols)) ||
    (!e.combine && (match mtxFmt e.fa, mtxFmt e.fb with
      | some A, some B => decide (kMax A B < e.kLen)
      | _, _ => false))

def MEntry.badBuf (e : MEntry) : Bool :=
  !e.combine && (match mtxFmt e.fa, mtxFmt e.fb with
    | some A, some B => !operandFits e.aOff e.mRows e.kLen A || !operandFits e.bOff e.nCols e.kLen B
    | _, _ => false)

/-- D overlaps a tile that is read without being that tile. -/
def Chip.mtxOverlap (m : Chip) (c : Fin 64) (e : MEntry) (split : Bool) : Bool :=
  let clash (t : Tile) : Bool := (m.tileD c e).meets t split && !(m.tileD c e == t)
  (!e.noc && clash (m.tileC c e)) || (e.combine && clash (m.tileE c e))

/-- The first failing check made before any tile is read. -/
def Chip.mtxCheck (m : Chip) (c : Fin 64) (e : MEntry) : Option Nat :=
  let split := m.mtxSplit c.val
  if e.d.toNat % 4 ≠ 0 then some mBadDesc
  else if e.reservedSet then some mBadRsv
  else if e.combine && e.noc then some mBadOp
  else if e.badFmt then some mBadFmt
  else if 6 ≤ e.rm then some mBadRm
  else if e.badShape split then some mBadShape
  else if e.badBuf then some mBadBuf
  else if m.mtxOverlap c e split then some mOverlap
  else none

/-- The logical row of the first tile that extends beyond MLIM (R257). -/
def Chip.mtxBeyond (m : Chip) (c : Fin 64) (e : MEntry) : Option Nat :=
  let lim := ((m.ctx ⟨c, e.aft⟩).rows e.sup).2
  let split := m.mtxSplit c.val
  let bad (f row : Nat) : Option Nat := if lim < row + formRows f split - 1 then some row else none
  (if e.noc then none else bad e.cf e.cRow) <|> (if e.combine then bad e.cf e.eRow else none) <|> bad e.df e.dRow

/-! ### Rejection (R256) -/

/-- A rejected entry's fault and record; every later entry of its context is discarded. `m` no longer holds the entry. -/
def Chip.mtxReject (m : Chip) (c : Fin 64) (e : MEntry) (detail : Nat) : Chip :=
  let later (x : MEntry) : Bool := x.aft == e.aft && decide (e.id < x.id)
  let a := m.mtx c
  let n := ((a.queue ++ a.arr).filter later).length
  let m1 := m.modMtx c fun a => { a with queue := a.queue.filter (!later ·), arr := a.arr.filter (!later ·) }
  let m2 := m1.setFld (K.mtxMdiscard c.val) F.mtxMdiscardCount (m1.fld (K.mtxMdiscard c.val) F.mtxMdiscardCount + n)
  let rec0 := BitVec.ofNat 64 (detail + e.d.toNat * 2 ^ 8 + b2n e.half * 2 ^ 24 + 2 ^ 25)
  let m3 := (m2.setReg (K.mtxMfault c.val (b2n e.aft)) rec0).event (mtxPage c.val) 16
  m3.modCtx ⟨c, e.aft⟩ fun k =>
    { k with defMtx := some { detail := detail, info := #v[e.pc, BitVec.ofNat 16 (detail + 256 * b2n e.half), 0, 0] } }

/-! ### Scales (R239, R248) -/

/-- floor(log2 |x|) + 1 of a finite non-zero value. -/
def hiOf (m : Nat) (e : Int) : Option Int := if m = 0 then none else some (flog2 m e + 1)

def maxOpt (a b : Option Int) : Option Int :=
  match a, b with
  | none, b => b
  | a, none => a
  | some x, some y => some (max x y)

def Val.hi : Val → Option Int
  | .fin _ m e => hiOf m e
  | _ => none

def MTerm.hi : MTerm → Option Int
  | .fin _ m e => hiOf m e
  | _ => none

def hiMax (l : List (Option Int)) : Option Int := l.foldl maxOpt none

/-- ceil(log2 K). -/
def ceilLog2 (K : Nat) : Int := if K ≤ 1 then 0 else (Nat.log2 (K - 1) : Int) + 1

def limitS (s : Int) : Int := max (-2048) (min 2047 s)

/-- hA + hB + L (R239). -/
def boundOf (hA hB : Option Int) (K : Nat) : Option Int :=
  match hA, hB with
  | some a, some b => some (a + b + ceilLog2 K)
  | _, _ => none

/-- The exponent scan of the used operands as they stand. -/
def Chip.productBound (m : Chip) (c : Fin 64) (e : MEntry) : Option Int :=
  match mtxFmt e.fa, mtxFmt e.fb with
  | some A, some B =>
    let hi (f off : Nat) (F : Fmt) (rows : Nat) : Option Int :=
      hiMax ((List.range rows).flatMap fun r => (List.range e.kLen).map fun k => (m.operand c f off F r k).hi)
    boundOf (hi e.aBuf e.aOff A e.mRows) (hi e.bBuf e.bOff B e.nCols) e.kLen
  | _, _ => none

/-- T - 127, limited; 0 when no used value is finite and non-zero. Where the bounds of T are all missing although a used value is finite
and non-zero (only one of A and B has one, and C has none), S is 0 too (DESIGN CHOICE, log entry 93: R239 gives no T there). -/
def strictScale (hab hc : Option Int) : Int :=
  match maxOpt hab hc with
  | none => 0
  | some t => limitS (t + 2 - 127)

/-! ### Prepare (R231, R239, R248) -/

/-- The C tile that has been read gives the entry its terms, S and PARTS. -/
def MEntry.takeC (e : MEntry) (b : TileBuf) (split : Bool) : MEntry :=
  let tag := b.sParts e.cf split
  { e with c := b.terms e.cf tag.1, cTag := tag.1, cParts := tag.2 }

/-- The tag of the E tile of a COMBINE fails. -/
def Chip.mtxBadE (m : Chip) (c : Fin 64) (e : MEntry) : Bool :=
  e.combine && (m.tileTag c (m.tileE c e) (m.mtxSplit c.val)).isNone

/-- Every element read has |W| below 2^126. -/
def TileBuf.small (b : TileBuf) : Bool := b.vals.all fun v => decide ((signedOf 128 v).natAbs < 2 ^ 126)

/-- The scale of a COMBINE (R248), from C as it was read and E as it stands. With different tags and no finite non-zero element there is
no T, and the scale is the larger of the two tags (DESIGN CHOICE, log entry 93). -/
def Chip.combineScale (m : Chip) (c : Fin 64) (e : MEntry) : Int :=
  if e.fixed then e.sfix
  else
    let split := m.mtxSplit c.val
    let b := m.tileAll c (m.tileE c e) split e.mRows e.nCols
    let tagE := (b.sParts e.cf split).1
    if decide (e.cTag = tagE) && e.cBuf.small && b.small then tagE
    else
      match hiMax ((e.c ++ b.terms e.cf tagE).map MTerm.hi) with
      | none => max e.cTag tagE
      | some h => max (max e.cTag tagE) (limitS (h + 2 - 127))

/-- The entry at the end of its Prepare: its scale is set. The exponent scan reads the operands at this point: the order of
its reads is not part of the behaviour (R511). -/
def Chip.prepared (m : Chip) (c : Fin 64) (e : MEntry) : MEntry :=
  let split := m.mtxSplit c.val
  let e1 := if e.noc || e.fwd.isSome || e.cGiven then e else e.takeC e.cBuf split
  if e.combine then
    { e1 with
      parts2 := ((m.tileTag c (m.tileE c e) split).getD (0, 0)).2, S := m.combineScale c e1, stage := .filling }
  else if e.fixed then { e1 with S := e.sfix, stage := .filling }
  else { e1 with S := strictScale (m.productBound c e) (hiMax (e1.c.map MTerm.hi)), stage := .filling }

/-- Replaces the entry of the same number in the array. -/
def Chip.setEntry (m : Chip) (c : Fin 64) (e : MEntry) : Chip :=
  m.modMtx c fun a => { a with arr := a.arr.map fun x => if x.id = e.id then e else x }

def Chip.dropEntry (m : Chip) (c : Fin 64) (e : MEntry) : Chip :=
  m.modMtx c fun a => { a with arr := a.arr.filter (·.id != e.id) }

/-- Prepare of an entry that stands in the array goes on: the rows of its C tile below `rows` are read, none where there is no
C or it is forwarded; with the last of them Prepare ends. The tags are checked as they are read (R230, R256). -/
def Chip.mtxPrepare (m : Chip) (c : Fin 64) (e : MEntry) (rows : Nat) : Chip :=
  let split := m.mtxSplit c.val
  let need := if e.noc || e.fwd.isSome || e.cGiven then 0 else formRows e.cf split
  let hi := min rows need
  let t := m.tileC c e
  let m1 := m.tileTouch c e.aft t split e.mRows e.nCols e.cBuf.next hi
  let e1 := { e with cBuf := m1.tileRead c t split e.mRows e.nCols hi e.cBuf }
  if (decide (0 < hi ∧ 3 ≤ e.cf) && (tagOf e.cf split e1.cBuf.tag).isNone) || m1.mtxBadE c e then
    (m1.dropEntry c e).mtxReject c e mBadTag
  else m1.setEntry c (if need ≤ hi then m1.prepared c e1 else e1)

/-! ### Hazards (R235) -/

/-- Started entries before `e` whose D overlaps what it reads. -/
def Chip.mtxBlockers (m : Chip) (c : Fin 64) (e : MEntry) : List MEntry :=
  let split := m.mtxSplit c.val
  ((m.mtx c).arr.takeWhile (·.id != e.id)).filter fun p =>
    (!e.noc && (m.tileD c p).meets (m.tileC c e) split) || (e.combine && (m.tileD c p).meets (m.tileE c e) split)

/-- The entry whose D it takes as its C, when it forwards. -/
def Chip.mtxForward (m : Chip) (c : Fin 64) (e : MEntry) : Option Nat :=
  let split := m.mtxSplit c.val
  let ps := m.mtxBlockers c e
  if e.fixed && !e.noc && ps.all (fun p =>
      (m.tileD c p).meets (m.tileC c e) split && m.tileD c p == m.tileC c e && p.aft == e.aft && p.half == e.half &&
        !(e.combine && (m.tileD c p).meets (m.tileE c e) split)) then
    ps.getLast?.map (·.id)
  else none

/-! ### Start (R232, R77) -/

/-- The first entry of a context's queue. -/
def MtxArray.head (a : MtxArray) (aft : Bool) : Option MEntry := a.queue.find? (·.aft == aft)

/-- The context lets its entries start: it runs or waits, on its main bank (R120), and no entry waits for its engines
(R234). -/
def Chip.mtxGoes (m : Chip) (x : Ctx) : Bool :=
  let k := m.ctx x
  (k.st == .running || k.st == .waiting) && !k.status.shadow && k.entering.isNone && ((m.mtx x.coach).head x.aft).isSome

/-- The side that the next start of a half serves. -/
def Chip.mtxSide (m : Chip) (c : Fin 64) (half : Bool) : Option Bool :=
  if m.mtxSplit c.val then (if m.mtxGoes ⟨c, half⟩ then some half else none)
  else if half then none
  else match m.mtxGoes ⟨c, false⟩, m.mtxGoes ⟨c, true⟩ with
    | true, true => some (decide (2 ≤ (m.mtx c).passed))
    | true, false => some false
    | false, true => some true
    | false, false => none

/-- A start of a side counts for the arbitration. -/
def Chip.mtxServed (m : Chip) (c : Fin 64) (aft : Bool) : Chip :=
  let both := m.mtxGoes ⟨c, false⟩ && m.mtxGoes ⟨c, true⟩
  m.modMtx c fun a => { a with passed := if !aft && both then a.passed + 1 else 0 }

/-- The entries of a pipeline in start order (R254). -/
def MtxArray.pipe (a : MtxArray) (half : Bool) : List MEntry := a.arr.filter (·.half == half)

/-- A pipeline has no room for a start (R232): one entry is in Prepare, or three are in the array. -/
def MtxArray.full (a : MtxArray) (half : Bool) : Bool :=
  decide (3 ≤ (a.pipe half).length) || (a.pipe half).any (·.stage == .waiting)

/-- MATRIX_ENTRY_START: Check. The entry then stands in the array, and its Prepare begins. -/
def Chip.mtxStart (m : Chip) (c : Fin 64) (half : Bool) : Chip :=
  let a := m.mtx c
  if m.pend (mtxPage c.val) || (if half then a.stop1 else a.stop0) || m.bufZeroing c.val || a.full half then m
  else match m.mtxSide c half with
    | none => m
    | some aft => match a.head aft with
      | none => m
      | some e0 =>
        let e := { e0 with half := half }
        let m1 := m.modMtx c fun a => { a with queue := a.queue.filter (·.id != e.id) }
        match m.mtxCheck c e with
        | some d => m1.mtxReject c e d
        | none => match m.mtxBeyond c e with
          | some row => m.chockCtx ⟨c, aft⟩ row
          | none =>
            let m2 := (m.mtxServed c aft).modMtx c fun a =>
              { a with queue := a.queue.filter (·.id != e.id), arr := a.arr ++ [{ e with stage := .waiting }] }
            m2.setEntry c { e with stage := .waiting, fwd := m2.mtxForward c e }

def execMatrixEntryStart (c : Fin 64) (half : Bool) (s : State) : Host.Outcome State Fault Refusal :=
  onCoach c (fun m => m.mtxStart c half) s

/-- MATRIX_PREPARE: the entry of a pipeline that is in Prepare goes on, unless an overlapping entry keeps it. -/
def Chip.mtxWaits (m : Chip) (c : Fin 64) (half : Bool) (rows : Nat) : Chip :=
  match ((m.mtx c).pipe half).find? (·.stage == .waiting) with
  | some e => if e.fwd.isSome || (m.mtxBlockers c e).isEmpty then m.mtxPrepare c e rows else m
  | none => m

def execMatrixPrepare (c : Fin 64) (half : Bool) (rows : Nat) (s : State) : Host.Outcome State Fault Refusal :=
  onCoach c (fun m => m.mtxWaits c half rows) s

/-! ### Window accumulation (R237, R245) -/

def MCell.zero : MCell := { acc := 0, nan := false, pinf := false, ninf := false, beyond := false }

/-- A finite term enters the window of scale 2^S: the cell, and whether it was rounded. -/
def MCell.add (k : MCell) (S : Int) (neg : Bool) (m : Nat) (e : Int) : MCell × Bool :=
  if m = 0 then (k, false)
  else
    let r := roundUnit 0 neg m e S 0
    let big := decide (2 ^ 159 ≤ r.1)
    let q : Int := if big then 2 ^ 159 - 1 else r.1
    ({ k with acc := k.acc + (if neg then -q else q), beyond := k.beyond || big }, r.2.2)

def MCell.special (k : MCell) (inf : Option Bool) : MCell :=
  match inf with
  | none => { k with nan := true }
  | some n => if n then { k with ninf := true } else { k with pinf := true }

/-- One product enters a cell: the cell, rounded, invalid. -/
def MCell.product (k : MCell) (S : Int) (a b : Val) : MCell × Bool × Bool :=
  let p := a.mul b
  let inv := decide (p.2 ≠ 0)
  match p.1 with
  | .nan _ => (k.special none, false, inv)
  | .inf n => (k.special (some n), false, inv)
  | .fin n m e => let r := k.add S n m e; (r.1, r.2, inv)

/-- An element of a C or E tile enters a cell. -/
def MCell.term (k : MCell) (S : Int) (t : MTerm) : MCell × Bool × Bool :=
  match t with
  | .nan s => (k.special none, false, s)
  | .inf n => (k.special (some n), false, false)
  | .fin n m e => let r := k.add S n m e; (r.1, r.2, false)

/-- Terms that enter a cell in turn. -/
def MCell.products (k : MCell) (S : Int) (l : List (Val × Val)) : MCell × Bool × Bool :=
  l.foldl (fun a p => let r := a.1.product S p.1 p.2; (r.1, a.2.1 || r.2.1, a.2.2 || r.2.2)) (k, false, false)

/-- Cells with what has entered them so far: rounded, invalid. -/
structure Filling where
  cells : List MCell
  inexact : Bool
  invalid : Bool

/-- A cell by cell step of a fill. -/
def Filling.step (f : Filling) (rs : List (MCell × Bool × Bool)) : Filling :=
  { cells := rs.map (·.1), inexact := f.inexact || rs.any (·.2.1), invalid := f.invalid || rs.any (·.2.2) }

/-- The elements k that fill cycle `j` reads (R511). -/
def fillSpan (kmax K j : Nat) : List Nat := (List.range K).filter fun k => decide (j * kmax ≤ k * 128 ∧ k * 128 < (j + 1) * kmax)

/-- Fill cycle `j` of an MMA entry: the elements that it reads, as they stand, enter the cells. -/
def Chip.fillCycle (m : Chip) (c : Fin 64) (e : MEntry) (A B : Fmt) (j : Nat) : MEntry :=
  let ks := fillSpan (kMax A B) e.kLen j
  let row (f off : Nat) (F : Fmt) (r : Nat) : List Val := ks.map fun k => m.operand c f off F r k
  let as := (List.range e.mRows).map (row e.aBuf e.aOff A)
  let bs := (List.range e.nCols).map (row e.bBuf e.bOff B)
  let f := (Filling.mk e.cells e.inexact e.invalid).step
    ((e.cells.zip (as.flatMap fun a => bs.map fun b => a.zip b)).map fun p => p.1.products e.S p.2)
  let hi (l : List (List Val)) : Option Int := hiMax (l.flatMap fun r => r.map Val.hi)
  { e with cells := f.cells, inexact := f.inexact, invalid := f.invalid, hA := maxOpt e.hA (hi as), hB := maxOpt e.hB (hi bs) }

/-- The E tile of a COMBINE, read in full, enters the cells. -/
def MEntry.withE (e : MEntry) (split : Bool) : MEntry :=
  let ts := e.eBuf.terms e.cf (e.eBuf.sParts e.cf split).1
  let f := (Filling.mk e.cells e.inexact e.invalid).step ((e.cells.zip ts).map fun p => p.1.term e.S p.2)
  { e with cells := f.cells, inexact := f.inexact, invalid := f.invalid, hA := hiMax (ts.map MTerm.hi) }

/-- The fill begins with empty windows (R233). -/
def MEntry.beginFill (e : MEntry) : MEntry :=
  { e with
    cells := List.replicate (e.mRows * e.nCols) MCell.zero, inexact := false, invalid := false, hA := none, hB := none
    eBuf := .empty }

/-- The fill of an entry advances from its cycle to cycle `n` of 128: an MMA entry reads its operands cycle by cycle, a COMBINE
the rows of its E tile, 8 in a cycle (4 in split mode). The last cycle ends it. `m` has counted the reads. -/
def Chip.fillTo (m : Chip) (c : Fin 64) (e0 : MEntry) (n : Nat) : MEntry :=
  let split := m.mtxSplit c.val
  let e := if e0.cyc = 0 then e0.beginFill else e0
  let e1 :=
    if e.combine then
      { e with eBuf := m.tileRead c (m.tileE c e) split e.mRows e.nCols (n * (if split then 4 else 8)) e.eBuf }
    else match mtxFmt e.fa, mtxFmt e.fb with
      | some A, some B => (List.range' e.cyc (n - e.cyc)).foldl (fun e j => m.fillCycle c e A B j) e
      | _, _ => e
  if n < 128 then { e1 with cyc := n }
  else { (if e.combine then e1.withE split else e1) with cyc := 128, stage := .filled }

/-- The entry of a pipeline whose fill goes on: every earlier one has ended its own. -/
def MtxArray.fills (a : MtxArray) (half : Bool) : Option MEntry :=
  match (a.pipe half).dropWhile fun e => e.stage == .filled || e.stage == .closed with
  | e :: _ => if e.stage == .filling then some e else none
  | [] => none

/-- MATRIX_FILL_END: the fill of a pipeline reaches cycle `cycles`; at 128 it ends. -/
def Chip.mtxFill (m : Chip) (c : Fin 64) (half : Bool) (cycles : Nat) : Chip :=
  match (m.mtx c).fills half with
  | some e =>
    let n := min 128 cycles
    if n ≤ e.cyc then m
    else
      let split := m.mtxSplit c.val
      let w := if split then 4 else 8
      let m1 := if e.combine then m.tileTouch c e.aft (m.tileE c e) split e.mRows e.nCols (e.cyc * w) (n * w) else m
      (m1.count (K.mtxFillCyc c.val) (n - e.cyc)).setEntry c (m1.fillTo c e n)
  | none => m

def execMatrixFillEnd (c : Fin 64) (half : Bool) (cycles : Nat) (s : State) : Host.Outcome State Fault Refusal :=
  onCoach c (fun m => m.mtxFill c half cycles) s

/-- The first entry of a pipeline: its Close, its Write and its commit come before the Close of the next (R231, R232). -/
def MtxArray.front (a : MtxArray) (half : Bool) : Option MEntry := (a.pipe half).head?

/-! ### Close (R243, R244, R250) -/

/-- C enters the windows. -/
def MEntry.withC (e : MEntry) : MEntry :=
  if e.noc then e
  else
    let rs := (e.cells.zip e.c).map fun p => p.1.term e.S p.2
    { e with cells := rs.map (·.1), inexact := e.inexact || rs.any (·.2.1), invalid := e.invalid || rs.any (·.2.2) }

/-- The cell left the window's range. -/
def MCell.overflows (k : MCell) : Bool := k.beyond || decide (k.acc < accLo ∨ accHi < k.acc)

/-- Bits that a two's complement integer needs. -/
def bitsOf (v : Int) : Int :=
  let n := if 0 ≤ v then v.toNat else (-v - 1).toNat
  if n = 0 then 1 else (Nat.log2 n : Int) + 2

/-- S' of a rescale (R244). -/
def MEntry.rescaled' (e : MEntry) : Int :=
  let T := strictScale (if e.combine then e.hA else boundOf e.hA e.hB e.kLen) (hiMax (e.c.map MTerm.hi))
  if e.cells.any (·.beyond) then T
  else
    let d := (e.cells.map fun k => bitsOf k.acc).foldl max 0 - 128
    min (e.S + d + 12) T

def sField (S : Int) : Nat := (S % 4096).toNat

/-- A replay: the fill runs again with empty windows (R233). -/
def MEntry.replay (e : MEntry) (S : Int) : MEntry :=
  { e with stage := .filling, cyc := 0, cells := [], S := S, saturated := false, replaying := true }

/-- An entry that stands behind one that is replayed abandons what its fill has made. -/
def MEntry.abandon (e : MEntry) : MEntry :=
  if e.stage = .waiting ∨ e.stage = .queued then e else { e with stage := .filling, cyc := 0, cells := [], saturated := false }

/-- An entry is replayed: it, and the fills begun behind it in its pipeline, run again. -/
def Chip.mtxReplay (m : Chip) (c : Fin 64) (e : MEntry) : Chip :=
  (m.modMtx c fun a =>
    let done := a.arr.takeWhile (·.id != e.id)
    { a with arr := done ++ (a.arr.drop done.length).map fun x => if x.half = e.half then x.abandon else x }).setEntry c e

/-- A residue mismatch: a replay, or the third one stops the half (R250). -/
def Chip.mtxMismatch (m : Chip) (c : Fin 64) (e : MEntry) : Chip :=
  let x : Ctx := ⟨c, e.aft⟩
  let told (m : Chip) : Chip := m.report
    { m.recEvent causeResidue (ctxId x) 0 (coachDomain c.val) with coach := some c.val, nth := e.replays + 1 }
  if 2 ≤ e.replays then
    told (((m.modMtx c fun a => if e.half then { a with stop1 := true } else { a with stop0 := true }).setEntry c
      { e with stage := .filled, replaying := false }).event (mtxPage c.val) 19)
  else
    let m1 := m.setFld (K.mtxMreplay c.val) F.mtxMreplayCount (m.fld (K.mtxMreplay c.val) F.mtxMreplayCount + 1)
    told ((m1.event (mtxPage c.val) 17).mtxReplay c { e.replay e.S with replays := e.replays + 1 })

/-- The record of a rescale. -/
def Chip.mtxRescaleRec (m : Chip) (c : Fin 64) (e : MEntry) (S' : Int) : Chip :=
  let a := K.mtxMrescale c.val (b2n e.aft)
  let n := (m.fld a F.mtxMrescaleCount + 1) % 2 ^ 32
  (m.setReg a (BitVec.ofNat 64 (sField e.S + sField S' * 2 ^ 16 + n * 2 ^ 32))).event (mtxPage c.val) 18

/-- Overflow mode of the entry's context. -/
def Chip.mtxSaturates (m : Chip) (c : Fin 64) (e : MEntry) : Bool :=
  m.flag (K.mtxMtxCtl c.val) (if e.aft then F.mtxMtxCtlOvfA else F.mtxMtxCtlOvfF)

/-- Saturation by the sign of acc; an acc of 0 stays 0. -/
def MCell.saturate (k : MCell) : MCell :=
  if k.overflows then { k with acc := if k.acc < 0 then accLo else if 0 < k.acc then accHi else 0 } else k

/-- MATRIX_ENTRY_CLOSE: residue check, then the overflow decision. -/
def Chip.mtxClose (m : Chip) (c : Fin 64) (half mismatch : Bool) : Chip :=
  match (m.mtx c).front half with
  | some e =>
    if e.stage != .filled || e.fwd.isSome || (if half then (m.mtx c).stop1 else (m.mtx c).stop0) then m
    else if mismatch then m.mtxMismatch c e
    else
      let e1 := e.withC
      if !(e1.cells.any MCell.overflows) then m.setEntry c { e1 with stage := .closed, replaying := false }
      else if m.mtxSaturates c e || e.rescaled then
        m.setEntry c { e1 with cells := e1.cells.map MCell.saturate, saturated := true, stage := .closed, replaying := false }
      else
        let S' := e1.rescaled'
        (m.mtxRescaleRec c e S').mtxReplay c { e.replay S' with rescaled := true }
  | none => m

def execMatrixEntryClose (c : Fin 64) (half mismatch : Bool) (s : State) : Host.Outcome State Fault Refusal :=
  onCoach c (fun m => m.mtxClose c half mismatch) s

/-! ### Writeback and commit (R246, R251) -/

/-- The value of a cell at writeback, and whether it is invalid. -/
def MCell.value (k : MCell) (rm : Nat) (S : Int) : Val × Bool :=
  if k.nan then (.nan false, false)
  else if k.pinf && k.ninf then (.nan false, true)
  else if k.pinf then (.inf false, false)
  else if k.ninf then (.inf true, false)
  else if k.acc = 0 then (.fin (rm == 2) 0 0, false)
  else (.fin (decide (k.acc < 0)) k.acc.natAbs S, false)

def Val.isSpecial : Val → Bool
  | .fin _ _ _ => false
  | _ => true

/-- One written element: position, bits of the element, map bits, flags, whether an infinity or NaN has reached it, from its cell or
by its conversion (R258), and as it is counted. -/
structure MOut where
  r : Nat
  c : Nat
  bits : Nat
  map : Nat
  flags : Flags
  special : Bool
  counted : Counted
  deriving DecidableEq, Repr

def MEntry.element (e : MEntry) (key : W64) (i : Nat) (k : MCell) : MOut :=
  let N := e.nCols
  let v := k.value e.rm e.S
  let inv := flIf v.2 flInvalid
  let rc : Rc := { rm := e.rm, sat := e.sat, key := key }
  let o (bits map : Nat) (fl : Flags) (n : Counted) : MOut :=
    { r := i / N, c := i % N, bits := bits, map := map, flags := fl ||| inv, special := v.1.isSpecial || n.v.isSpecial, counted := n }
  if e.df < 3 then
    let f := formFlt e.df
    let r := f.encode rc i v.1
    o r.1 0 r.2 ((Fmt.fp f).counted 127 0 r.1 false)
  else if e.df = 3 then
    let r := Fmt.acc.encode e.S rc i v.1
    o r.1 0 r.2 (Fmt.acc.counted 127 e.S r.1 false)
  else
    let w := if v.1.isSpecial then 0 else intBits 128 k.acc
    let mp := match v.1 with
      | .inf false => 1
      | .inf true => 2
      | .nan _ => 3
      | _ => 0
    o w mp 0 { v := if v.1.isSpecial then v.1 else Fmt.acc.decode 127 e.S w, sub := false, flushed := false }

def MEntry.parts (e : MEntry) : Nat :=
  min 65535 (if e.combine then e.cParts + e.parts2 else if e.noc ∨ e.cf < 3 then 1 else 1 + e.cParts)

/-- Word 0 of the tag row (R230). -/
def MEntry.tagWord (e : MEntry) (split : Bool) : Nat :=
  sField e.S + b2n e.fixed * 2 ^ 12 + b2n e.saturated * 2 ^ 13 + b2n e.rescaled * 2 ^ 14 + b2n e.inexact * 2 ^ 15
    + b2n (e.df == 4) * 2 ^ 16 + b2n split * 2 ^ 17 + 0xA7 * 2 ^ 24 + e.parts * 2 ^ 48

/-- Bytes of a tile, within one row, are written where the row is ready. -/
def Chip.tilePut (m : Chip) (c : Fin 64) (t : Tile) (b : Nat) (l : List Byte) : Chip :=
  if m.rowReady c.val (t.row + b / 512) then m.wrBytes (rowAddr c.val t.row + b) l else m

/-- The written rows are counted, or recorded where one is off. -/
def Chip.tileCount (m : Chip) (c : Fin 64) (aft : Bool) (t : Tile) (split : Bool) (M N : Nat) : Chip :=
  (usedRows t.form split M N).foldl (fun m r => m.coreWrite (ctxId ⟨c, aft⟩) c.val (t.row + r) 0 []) m

/-- Two map bits of element `n`. -/
def Chip.putMap (m : Chip) (c : Fin 64) (t : Tile) (n v : Nat) : Chip :=
  let b := m.tileLE c t (512 + n / 4) 1
  let s := 4 ^ (n % 4)
  m.tilePut c t (512 + n / 4) [BitVec.ofNat 8 (b - b / s % 4 * s + v * s)]

/-- The D tile is written (R246). -/
def Chip.writeTile (m : Chip) (c : Fin 64) (e : MEntry) (os : List MOut) : Chip :=
  let split := m.mtxSplit c.val
  let t := m.tileD c e
  let m1 := m.tileCount c e.aft t split e.mRows e.nCols
  let m2 := if 3 ≤ e.df then m1.tilePut c t 0 (leBytes 8 (e.tagWord split) ++ List.replicate 504 0) else m1
  os.foldl (fun m o =>
    let m' := m.tilePut c t (elemByte e.df split o.r o.c) (leBytes (formBytes e.df) o.bits)
    if e.df = 4 then m'.putMap c t (o.r * tileCols split + o.c) o.map else m') m2

/-- The tally of a writeback (R176 to R178). -/
def Chip.tallyTile (m : Chip) (c : Fin 64) (e : MEntry) (os : List MOut) : Chip :=
  let split := m.mtxSplit c.val
  let t := m.tileD c e
  let y := Ctx.tally ⟨c, e.aft⟩
  os.foldl (fun m o =>
    if m.tallyMem y (rowAddr c.val t.row + elemByte e.df split o.r o.c) then m.tallyOne y o.counted else m) m

/-- Active cell steps of the entry (R252). -/
def MEntry.steps (e : MEntry) : Nat :=
  e.mRows * e.nCols *
    (if e.combine then 1
    else match mtxFmt e.fa, mtxFmt e.fb with
      | some A, some B => (e.kLen * 128 + kMax A B - 1) / kMax A B
      | _, _ => 0)

/-- Entries that take this one's D as their C read it now (R235). -/
def Chip.forwardD (m : Chip) (c : Fin 64) (e : MEntry) : Chip :=
  let split := m.mtxSplit c.val
  (m.mtx c).arr.foldl (fun m x =>
    if x.fwd = some e.id then
      m.setEntry c { x.takeC (m.tileAll c (m.tileC c x) split x.mRows x.nCols) split with fwd := none, cGiven := true }
    else m) m

/-- Sticky status bits of a commit (R258). -/
def MEntry.status (e : MEntry) (os : List MOut) : W16 :=
  BitVec.ofNat 16 (2 * b2n e.rescaled + 4 * b2n e.saturated + 8 * b2n (os.any (·.special)) + 16 * b2n e.inexact)

/-- The commit. The whole D tile is written in this one step: a read of its rows before it finds the old contents, where R236 leaves
old or new open row by row (DESIGN CHOICE, log entry 94). -/
def Chip.mtxCommitEntry (m : Chip) (c : Fin 64) (e : MEntry) : Chip :=
  let x : Ctx := ⟨c, e.aft⟩
  let key := srKey (m.srSeed x) 1 e.sr
  let os := e.cells.mapIdx fun i k => e.element key i k
  let fl := os.foldl (fun f o => f ||| o.flags)
    (flIf e.inexact flInexact ||| flIf e.invalid flInvalid ||| flIf e.saturated (flOverflow ||| flSaturated))
  let m1 := (((m.writeTile c e os).dropEntry c e).forwardD c e).addFlags x fl
  let m2 := (m1.tallyTile c e os).count (K.mtxCellSteps c.val) e.steps
  let m3 := if e.usesSr then m2.count (K.tallySrCtrM x.tally) 1 else m2
  m3.modCtx x fun k => { k with mstat := k.mstat ||| e.status os, events := k.events ||| 0x2000 }

/-- MATRIX_ENTRY_COMMIT: the first entry of a pipeline commits once it has passed Close. A mismatch of the writeback
conversion's own residue check is answered as one of Close (R250). -/
def Chip.mtxCommit (m : Chip) (c : Fin 64) (half mismatch : Bool) : Chip :=
  match (m.mtx c).pipe half with
  | e :: _ =>
    if e.stage != .closed then m
    else if mismatch then m.mtxMismatch c e
    else m.mtxCommitEntry c e
  | [] => m

def execMatrixEntryCommit (c : Fin 64) (half mismatch : Bool) (s : State) : Host.Outcome State Fault Refusal :=
  onCoach c (fun m => m.mtxCommit c half mismatch) s

/-! ### Mode (R253) -/

/-- MTX_MODE_CHANGE: the array is empty, and a pending value applies. -/
def Chip.mtxMode (m : Chip) (c : Fin 64) : Chip :=
  if (m.mtx c).arr.isEmpty then m.applyStaged (mtxPage c.val) else m

def execMtxModeChange (c : Fin 64) (s : State) : Host.Outcome State Fault Refusal := onCoach c (fun m => m.mtxMode c) s

/-! ### The instructions (R96, R227, R258) -/

/-- Entries of a context, queued or in the array. -/
def Chip.mtxCount (m : Chip) (x : Ctx) : Nat :=
  (((m.mtx x.coach).queue ++ (m.mtx x.coach).arr).filter (·.aft == x.aft)).length

/-- MISSUE: waits while two entries of the context are queued, then captures the descriptor. -/
def semMissue (m : Chip) (x : Ctx) : Plan :=
  m.withStacks x 1 0 fun b => match b.ds with
    | d :: t =>
      let a := m.mtx x.coach
      if 2 ≤ (a.queue.filter (·.aft == x.aft)).length then .wait .queue id
      else match m.loadWords x d 8 with
        | .error bad => .chock bad
        | .ok ws =>
          let k := m.ctx x
          let before := ((a.queue ++ a.arr).filter fun e => e.aft == x.aft && e.usesSr).length
          let e : MEntry :=
            { id := m.issued, aft := x.aft, d := d, pc := k.pc, words := Vector.ofFn fun i => ws.getD i.val 0,
              sup := k.status.lvl, sr := m.reg (K.tallySrCtrM x.tally) + BitVec.ofNat 64 before, stage := .queued,
              half := false, c := [], cParts := 0, cTag := 0, fwd := none, cGiven := false, S := 0, cBuf := .empty, eBuf := .empty, cyc := 0,
              hA := none, hB := none, cells := [], inexact := false, invalid := false, parts2 := 0, replays := 0,
              replaying := false, rescaled := false, saturated := false }
          .done { b with ds := t } k.status.c
            (fun m => Chip.modMtx { m with issued := m.issued + 1 } x.coach fun a => { a with queue := a.queue ++ [e] }) .seq
    | [] => .fault vecStkUnf 0

/-- MWAIT: waits until every entry of the context has committed or trapped. -/
def semMwait (m : Chip) (x : Ctx) : Plan :=
  m.withStacks x 0 0 fun b =>
    if m.mtxCount x = 0 then .done b (m.ctx x).status.c id .seq else .wait .engine id

/-- MSTAT: waits likewise, then pushes and clears the sticky status. -/
def semMstat (m : Chip) (x : Ctx) : Plan :=
  m.withStacks x 0 0 fun b =>
    if m.mtxCount x = 0 then
      let k := m.ctx x
      let s := k.mstat ||| BitVec.ofNat 16 (b2n (m.mtxSplit x.coach.val))
      .done { b with ds := s :: b.ds } k.status.c (fun m => m.modCtx x fun k => { k with mstat := 0 }) .seq
    else .wait .engine id

end Sys2Proof.Machine
end

