-- ==== Sys2Proof/Machine/Dray.lean ====
section
/-! DEFINITION. Dray streams (R323 to R329): capture, checks, start, bursts, stops and completion. What a burst does at
its target is in DrayBurst.lean. -/
namespace Sys2Proof.Machine

def drayPage (c : Nat) : PageId := ⟨.dray, c⟩

def Chip.stream (m : Chip) (c : Fin 64) (s : Fin 8) : DStream := (m.coach c).dray[s.val]

def Chip.modStream (m : Chip) (c : Fin 64) (s : Fin 8) (f : DStream → DStream) : Chip :=
  m.modCoach c fun k => { k with dray := k.dray.set s.val (f k.dray[s.val]) }

/-! ### Descriptor fields (R323) -/

def DDesc.quad (e : DDesc) (n : Nat) : Nat :=
  e.dw n 15 0 + e.dw (n + 1) 15 0 * 2 ^ 16 + e.dw (n + 2) 15 0 * 2 ^ 32 + e.dw (n + 3) 15 0 * 2 ^ 48

def DDesc.op (e : DDesc) : Nat := e.dw 0 1 0
def DDesc.notify (e : DDesc) : Bool := e.dw 0 2 2 == 1
def DDesc.even (e : DDesc) : Bool := e.dw 0 3 3 == 1
def DDesc.ev (e : DDesc) : Nat := e.dw 0 7 4
def DDesc.gate (e : DDesc) : Bool := e.dw 0 8 8 == 1
def DDesc.gev (e : DDesc) : Nat := e.dw 0 12 9
def DDesc.noalloc (e : DDesc) : Bool := e.dw 0 13 13 == 1
def DDesc.skind (e : DDesc) : Nat := e.dw 1 2 0
def DDesc.dkind (e : DDesc) : Nat := e.dw 1 5 3
def DDesc.rm (e : DDesc) : Nat := e.dw 1 14 12
def DDesc.sat (e : DDesc) : Bool := e.dw 1 15 15 == 1
def DDesc.sfmt (e : DDesc) : Nat := e.dw 2 5 0
def DDesc.dfmt (e : DDesc) : Nat := e.dw 2 11 6
def DDesc.mxoff (e : DDesc) : Nat := e.dw 3 15 0
def DDesc.accs (e : DDesc) : Int := signedOf 12 (e.dw 3 11 0)
def DDesc.saddr (e : DDesc) : Nat := e.quad 4
def DDesc.daddr (e : DDesc) : Nat := e.quad 8
def DDesc.len (e : DDesc) : Nat := e.dw 12 15 0 + 1
def DDesc.rows (e : DDesc) : Nat := e.dw 13 15 0 + 1
def DDesc.sstr (e : DDesc) : Int := signedOf 16 (e.dw 14 15 0)
def DDesc.dstr (e : DDesc) : Int := signedOf 16 (e.dw 15 15 0)

abbrev opCopy : Nat := 0
abbrev opConvert : Nat := 1
abbrev opFill : Nat := 2
abbrev kVirt : Nat := 0
abbrev kCrow : Nat := 1
abbrev kObuf : Nat := 2
abbrev kPhys : Nat := 3

def DDesc.kind (e : DDesc) (wr : Bool) : Nat := if wr then e.dkind else e.skind
def DDesc.addr (e : DDesc) (wr : Bool) : Nat := if wr then e.daddr else e.saddr
def DDesc.str (e : DDesc) (wr : Bool) : Int := if wr then e.dstr else e.sstr

/-- The format of a side of a CONVERT. -/
def DDesc.fmt (e : DDesc) (wr : Bool) : Option Fmt := Fmt.of (if wr then e.dfmt else e.sfmt)

/-- It rounds with SR: it advances SR_CTR_D when it completes (R326). -/
def DDesc.usesSr (e : DDesc) : Bool := decide (e.op = opConvert ∧ e.rm = 5)

/-- Bytes of a row on a side. -/
def DDesc.rowBytes (e : DDesc) (wr : Bool) : Nat :=
  if e.op = opConvert then match e.fmt wr with
    | some F => F.bits * e.len / 8
    | none => 0
  else e.len

/-- Bytes that a converted row writes: an MX row in whole blocks, the missing positions of the last as zero bits (R157). -/
def DDesc.outBytes (e : DDesc) : Nat :=
  match e.fmt true with
  | some F => if F.isMx then F.bits * ((e.len + 31) / 32 * 32) / 8 else e.rowBytes true
  | none => e.rowBytes true

/-- A side is MX in memory (R325). -/
def DDesc.mxMem (e : DDesc) (wr : Bool) : Bool :=
  decide (e.op = opConvert ∧ e.kind wr ≠ kObuf) && (match e.fmt wr with
    | some F => F.isMx
    | none => false)

/-- Where row `j` of a side starts: in virtual or device memory modulo 2^64; in core memory by the byte of the partition;
in an operand buffer by its byte (R324). -/
def DDesc.rowStart (e : DDesc) (wr : Bool) (j : Nat) : Int :=
  let k := e.kind wr
  let step := (j : Int) * e.str wr * 64
  if k = kObuf then ((e.addr wr / 4 % 256 + j : Nat) : Int) * 1024
  else if k = kCrow then (e.addr wr : Int) * 512 + step
  else ((e.addr wr : Int) + step) % 2 ^ 64

/-- Bytes of scales that a row has in memory. -/
def DDesc.scaleLen (e : DDesc) : Nat := (e.len + 31) / 32

/-- Where the scales of row `j` start on an MX side in memory. -/
def DDesc.scaleStart (e : DDesc) (wr : Bool) (j : Nat) : Int :=
  let a := e.rowStart wr 0 + (e.mxoff : Int) * 4096 + (j : Int) * e.scaleLen
  if e.kind wr = kCrow then a else a % 2 ^ 64

/-- Target row `j` lies in core memory, or reaches into it. -/
def DDesc.coreRow (e : DDesc) (j : Nat) : Bool :=
  decide (e.dkind = kCrow) || (decide (e.dkind = kPhys) &&
    (let a := (e.rowStart true j).toNat
     decide (a < coreBase + 64 * 0x400000 ∧ coreBase < a + e.rowBytes true)))

/-- The target lies in core memory with one of its rows at least. -/
def DDesc.toCore (e : DDesc) : Bool := decide (e.dkind = kCrow) || (decide (e.dkind = kPhys) && (List.range e.rows).any e.coreRow)

/-! ### Checks (R323, R325, R328, R334) -/

abbrev dBadDesc : Nat := 1
abbrev dBadRsv : Nat := 2
abbrev dBadOp : Nat := 3
abbrev dBadKind : Nat := 4
abbrev dBadFmt : Nat := 5
abbrev dBadRm : Nat := 6
abbrev dBadAlign : Nat := 7
abbrev dBadShape : Nat := 8
abbrev dBadClass : Nat := 9

def DDesc.badRsv (e : DDesc) : Bool :=
  decide (e.dw 1 7 6 ≠ 0 ∨ e.dw 2 15 12 ≠ 0 ∨ e.dw 1 11 8 ≠ 0 ∨ (e.even = true ∧ 11 < e.ev) ∨ (e.gate = true ∧ 11 < e.gev)) ||
  (decide (e.op ≠ opConvert) && decide (e.dw 1 15 8 ≠ 0 ∨ e.dw 2 11 0 ≠ 0 ∨ e.mxoff ≠ 0)) ||
  (decide (e.op = opFill) && decide (e.skind ≠ 0 ∨ e.saddr ≠ 0 ∨ e.dw 14 15 0 ≠ 0)) ||
  (decide (e.op = opConvert) && (e.fmt false == some .acc || e.fmt true == some .acc) && !e.mxMem false && !e.mxMem true
    && decide (e.dw 3 15 12 ≠ 0))

def DDesc.badKind (e : DDesc) : Bool :=
  decide (4 ≤ e.dkind) || (decide (e.dkind = kPhys) && !e.sup) ||
    (decide (e.op ≠ opFill) && (decide (4 ≤ e.skind ∨ e.skind = kObuf) || (decide (e.skind = kPhys) && !e.sup)))

def DDesc.badFmt (e : DDesc) : Bool :=
  decide (e.op = opConvert) &&
    ((e.fmt false).isNone || (e.fmt true).isNone ||
      ((e.fmt false == some .acc || e.fmt true == some .acc) && (e.mxMem false || e.mxMem true)))

/-- A side's row starts and row length are not multiples of 8 bytes. -/
def DDesc.misaligned (e : DDesc) (wr : Bool) : Bool :=
  decide (e.rowStart wr 0 % 8 ≠ 0) ||
    (if e.op = opConvert then match e.fmt wr with
      | some F => decide (F.bits * e.len % 64 ≠ 0)
      | none => false
    else decide (e.len % 8 ≠ 0))

def DDesc.badAlign (e : DDesc) : Bool := e.misaligned true || (decide (e.op ≠ opFill) && e.misaligned false)

def DDesc.badShape (e : DDesc) : Bool :=
  (decide (e.dkind = kObuf) && (decide (1024 < e.rowBytes true) || decide (256 < e.daddr / 4 % 256 + e.rows))) ||
  (e.toCore && (decide (e.rowBytes true % 512 ≠ 0) || decide (e.dstr % 8 ≠ 0) || decide (e.rowStart true 0 % 512 ≠ 0))) ||
  (decide (e.op = opConvert) && ((e.fmt false).any Fmt.isMx || (e.fmt true).any Fmt.isMx) && decide (e.len % 32 ≠ 0)
    && decide (e.rows ≠ 1))

/-- CLS is 3, or it is 1 and the descriptor moves more than 4 KiB: the rows of its larger side count, scales do not (DESIGN CHOICE, log
entry 99). -/
def DDesc.badClass (e : DDesc) : Bool :=
  decide (e.dw 0 15 14 = 3) || (decide (e.dw 0 15 14 = 1) && decide (4096 < e.rows * max (e.rowBytes true) (e.rowBytes false)))

/-- The lowest reason that applies, if any. -/
def DDesc.check (e : DDesc) : Option Nat :=
  if e.d.toNat % 4 ≠ 0 then some dBadDesc
  else if e.badRsv then some dBadRsv
  else if e.op = 3 then some dBadOp
  else if e.badKind then some dBadKind
  else if e.badFmt then some dBadFmt
  else if e.op = opConvert ∧ 6 ≤ e.rm then some dBadRm
  else if e.badAlign then some dBadAlign
  else if e.badShape then some dBadShape
  else if e.badClass then some dBadClass
  else none

/-! ### Start, stop, rejection -/

/-- Descriptors queued beside the one that has begun, whether it runs or stands stopped (R327, R334). -/
def DStream.queued (t : DStream) : Nat := t.q.length - b2n (t.active || t.begun)

/-- A rejected descriptor: its record, its deferred fault, and the stream in error (R328). -/
def Chip.drayReject (m : Chip) (c : Fin 64) (s : Fin 8) (e : DDesc) (reason : Nat) : Chip :=
  let m1 := m.setReg (K.drayStreamErr c.val s.val) (BitVec.ofNat 64 (reason + e.d.toNat * 2 ^ 8 + 2 ^ 24))
  let m2 := (m1.event (drayPage c.val) 16).modStream c s fun t => { t with q := [], active := false, begun := false, err := true }
  m2.modCtx ⟨c, e.aft⟩ fun k =>
    { k with defDray := k.defDray ++ [{ detail := s.val, info := #v[e.pc, BitVec.ofNat 16 (reason + 256 * s.val), 0, 0] }] }

/-- The stream's descriptors run for their context: it runs or waits, and no open fault entry holds the stream (R356). One
that has not started waits while the context is on its shadow bank (R120). -/
def Chip.drayGoes (m : Chip) (c : Fin 64) (s : Fin 8) (e : DDesc) (begun : Bool) : Bool :=
  let k := m.ctx ⟨c, e.aft⟩
  (k.st == .running || k.st == .waiting) && (begun || !k.status.shadow) && !(m.faultHolds ⟨c, 1 + s.val⟩ k.task)

/-- STEP of an outrider declaration, in bytes (R374). -/
def orStep (ctl : W64) : Int := signedOf 32 (F.tlbOrCtlStep.get ctl) * 256

/-- Pages of tile `n` of a declaration (R349), each with the tile's first address. -/
def tilePages (or : W64 × W64) (n : Nat) : List (Nat × Nat) :=
  let a := (((F.tlbOrBaseVa.get or.1 : Nat) : Int) + (n : Int) * orStep or.2) % 2 ^ 57
  let len := (F.tlbOrCtlSpan.get or.2 + 1) * 65536
  (List.range ((a.toNat % 65536 + len + 65535) / 65536)).map fun i => ((a.toNat / 65536 + i) % 2 ^ 41, a.toNat)

/-- The outrider of a stream whose descriptor starts or goes on, under the declaration that the descriptor found: the pages
of the tiles ahead that it still has to walk. A tile that has met a faulting page is not walked again (R350, R351). -/
def Chip.outriderArm (m : Chip) (c : Fin 64) (s : Fin 8) (e : DDesc) : Chip :=
  let or := (m.stream c s).orNow
  let mine (h : XAhead) : Bool := h.coach == c && h.stream == s.val
  let rest := m.xlat.ahead.filter fun h => !mine h
  let k := m.ctx ⟨c, e.aft⟩
  if F.tlbOrCtlEn.bit or.2 then
    let pages := (List.range (F.tlbOrCtlLead.get or.2 + 1)).flatMap fun i => tilePages or (i + 1)
    let dead := ((m.xlat.ahead.filter fun h => mine h && h.asid == k.asid).flatMap (·.dead)).filter fun t => pages.any (·.2 == t)
    let h : XAhead :=
      { coach := c, stream := s.val, asid := k.asid, task := k.task, adv := F.tlbOrCtlAdv.bit or.2
        pages := pages.filter fun p => !dead.elem p.2, dead := dead }
    { m with xlat := { m.xlat with ahead := rest ++ [h] } }
  else { m with xlat := { m.xlat with ahead := rest } }

/-- OR_BASE advances by STEP when a descriptor completes; one written while the descriptor ran stands as written (R349). -/
def Chip.outriderStep (m : Chip) (c : Fin 64) (s : Fin 8) : Chip :=
  let t := m.stream c s
  if t.orSet then m
  else m.setFld (K.tlbOrBase c.val s.val) F.tlbOrBaseVa ((((F.tlbOrBaseVa.get t.orNow.1 : Nat) : Int) + orStep t.orNow.2) % 2 ^ 57).toNat

/-- DRAY_DESC_START: the head of the stream is checked and starts, or goes on at its row (R327, R328). -/
def Chip.drayStart (m : Chip) (c : Fin 64) (s : Fin 8) : Chip :=
  let t := m.stream c s
  match t.q with
  | e :: _ =>
    if t.active || !m.drayGoes c s e t.begun || m.bufZeroing c.val then m
    else if t.begun then
      (m.modStream c s fun t => { t with active := true, stopping := false, faulted := false, off := 0 }).outriderArm c s e
    else match e.check with
      | some r => m.drayReject c s e r
      | none =>
        if e.gate && !t.gate.getLsbD e.gev then m
        else (m.modStream c s fun t =>
          { t with
            active := true, begun := true, stopping := false, faulted := false, row := 0, off := 0, flags := 0,
            scales := [], again := none, orNow := (m.reg (K.tlbOrBase c.val s.val), m.reg (K.tlbOrCtl c.val s.val)), orSet := false
            gate := if e.gate then t.gate &&& ~~~ (BitVec.ofNat 12 (2 ^ e.gev)) else t.gate }).outriderArm c s e
  | [] => m

def execDrayDescStart (c : Fin 64) (s : Fin 8) (st : State) : Host.Outcome State Fault Refusal :=
  onCoach c (fun m => m.drayStart c s) st

/-! ### Rows, stops (R327) -/

/-- A burst of the unit has been sent, or its reads are done. -/
def DUnit.touched (u : DUnit) : Bool := u.scale.isSome || (u.rd ++ u.wr).any (·.st != .planned)

/-- Rows that are planned but not begun: their first unit stands there, and no burst of them has been sent. -/
def DStream.unbegun (t : DStream) : List Nat :=
  ((t.units.filter fun u => u.off == 0 && u.scale.isNone).map (·.row)).filter fun r => t.units.all fun u => u.row != r || !u.touched

/-- The first row not yet begun (R327), or the row of a burst that has failed. -/
def DStream.firstRow (t : DStream) : Nat :=
  let at' := if t.off = 0 ∨ t.row ∈ t.unbegun then t.row else t.row + 1
  (t.unbegun ++ t.again.toList).foldl min at'

/-- Rows not begun are given up; the descriptor will go on at the first of them. -/
def DStream.unplan (t : DStream) : DStream :=
  let d := t.unbegun
  let low (o : Option Nat) (r : Nat) : Option Nat := some (o.elim r (min r))
  { t with units := t.units.filter (fun u => !d.elem u.row), again := d.foldl low t.again, off := if t.row ∈ d then 0 else t.off }

/-- A unit whose translation failed has nothing under way. -/
def DUnit.over (u : DUnit) : Bool := u.failed && !(u.rd ++ u.wr).any (·.st == .sent)

/-- A descriptor that is to stop has stopped once no burst of a begun row is left (R327). -/
def Chip.draySettle (m0 : Chip) (c : Fin 64) (s : Fin 8) : Chip :=
  let m := m0.modStream c s fun t => { t with units := t.units.filter fun u => !u.over }
  let t := m.stream c s
  if t.active && t.stopping && t.units.isEmpty && (decide (t.off = 0) || t.again == some t.row) then
    (((m.modStream c s fun t =>
      { t with active := false, stopping := false, row := t.again.elim t.row (min t.row), off := 0, again := none,
               creditWait := false, freightWait := false }).dropMisses ⟨c, 1 + s.val⟩).endJob (.stream c.val s.val false)).endJob
      (.stream c.val s.val true)
  else m

/-- The running descriptor is made to stop at a row boundary. -/
def Chip.drayHalt (m : Chip) (c : Fin 64) (s : Fin 8) : Chip :=
  if (m.stream c s).active then (m.modStream c s fun t => { t with stopping := true }.unplan).draySettle c s else m

/-- The stream has stopped, or has nothing to stop. -/
def Chip.drayQuiet (m : Chip) (c : Fin 64) (s : Fin 8) : Bool := !(m.stream c s).active

/-- The translation of a burst of these units fails: the descriptor stops, and what is begun of other rows completes. It goes
on at the row of the burst, which is moved again from its start (R327, R353). -/
def Chip.drayFaulted (m : Chip) (c : Fin 64) (s : Fin 8) (p : DUnit → Bool) : Chip :=
  (m.modStream c s fun t =>
    let rows := (t.units.filter p).map (·.row)
    { t with
      units := t.units.map fun u => if p u then { u with failed := true } else u
      again := rows.foldl (fun o r => some (o.elim r (min r))) t.again, stopping := true, faulted := true }.unplan).draySettle c s

/-! ### Credits (R329) -/

/-- Read bursts of a stream that are in flight. -/
def DStream.credits (t : DStream) : Nat := (t.units.map fun u => (u.rd.filter (·.st == .sent)).length).foldl (· + ·) 0

/-- A read credit is left for stream `s`: 16 of its own, 128 shared. -/
def Chip.hasCredit (m : Chip) (c : Fin 64) (s : Fin 8) : Bool :=
  let shared := ((m.coach c).dray.toList.map fun t => t.credits - 16).foldl (· + ·) 0
  decide ((m.stream c s).credits < 16 ∨ shared < 128)

/-! ### Bursts of a side (R324 to R326) -/

/-- Size of a burst at device address `a`: 8 bytes in the register space, a row for a write of core memory, else 256. -/
def burstSize (wr : Bool) (a : Nat) : Nat := match regionOf a with
  | .regs _ => 8
  | .core _ _ _ => if wr then 512 else 256
  | _ => 256

/-- `n` bytes from `a` on, cut at multiples of the size that each place has. -/
def cutAt (size : Int → Nat) (a : Int) (n : Nat) : Nat → List (Int × Nat)
  | 0 => []
  | fuel + 1 =>
    if n = 0 then []
    else
      let z := size a
      let k := if z = 0 then n else min n (z - (a % z).toNat)
      (a, k) :: cutAt size (a + k) (n - k) fuel

/-- The bursts of `n` bytes of a side from address `a` of its space. -/
def DDesc.bursts (e : DDesc) (wr : Bool) (a : Int) (n : Nat) : List DPiece :=
  let k := e.kind wr
  let size (x : Int) : Nat :=
    if k = kObuf then 256 else if k = kCrow then (if wr then 512 else 256) else if k = kPhys then burstSize wr x.toNat else 256
  (cutAt size a n (n + 1)).map fun p => { a := p.1, len := p.2, st := .planned, seg := none, data := [] }

/-- The scales of a target in core memory are written as whole rows of their array (R325). -/
def DDesc.scaleRows (e : DDesc) : Bool := e.mxMem true && e.toCore

/-- The bursts that bring the unit at (row, off): the elements, then the scales of an MX row in memory. -/
def DDesc.readBursts (e : DDesc) (row off n : Nat) : List DPiece :=
  e.bursts false (e.rowStart false row + off) n
    ++ (if e.mxMem false then e.bursts false (e.scaleStart false row) e.scaleLen else [])

/-- Where the elements and the scales of a unit lie in the operand buffer that the descriptor writes (R224). -/
def DDesc.obufAt (e : DDesc) (u : DUnit) : Nat × Nat :=
  let off := e.daddr / 4 % 256
  ((off + u.row) * 1024 + u.off, (off + 128) * 1024 + u.row * ((e.fmt true).map rowScales).getD 0)

/-- The bursts that write a unit, or a row of the scale array; into an operand buffer the elements in their row and the scales of an
MX row where R224 puts them. -/
def DDesc.writeBursts (e : DDesc) (u : DUnit) : List DPiece :=
  match u.scale with
  | some r => e.bursts true (e.scaleStart true 0 + (512 * r : Nat)) 512
  | none =>
    if e.dkind = kObuf then
      let n := if e.op = opConvert then e.outBytes else u.len
      e.bursts true (e.obufAt u).1 n ++ e.bursts true (e.obufAt u).2 (u.data.length - n)
    else
    e.bursts true (e.rowStart true u.row + u.off) (if e.op = opConvert then e.outBytes else u.len)
      ++ (if e.mxMem true && !e.scaleRows then e.bursts true (e.scaleStart true u.row) e.scaleLen else [])

/-- Length of the unit at (row, off): a converted row is one unit; a row of core memory is written whole; the register
space takes 8 bytes; else 256-byte boundaries of both sides cut it. -/
def DDesc.unitLen (e : DDesc) (row off : Nat) : Nat :=
  let rest := e.len - off
  let s := (e.rowStart false row + off).toNat
  let d := (e.rowStart true row + off).toNat
  if e.op = opConvert then e.len
  else if e.coreRow row then min rest 512
  else
    let bs := if e.op = opFill ∨ e.skind ≠ kPhys then 256 else burstSize false s
    let bd := if e.dkind ≠ kPhys then 256 else burstSize true d
    let ns := if e.op = opFill then 256 else bs - s % bs
    min rest (min ns (bd - d % bd))

/-- The unit that is planned next, named `t.nextId`; a FILL has nothing to read. -/
def DDesc.nextUnit (e : DDesc) (t : DStream) : DUnit :=
  let n := e.unitLen t.row t.off
  let fill := decide (e.op = opFill)
  let u : DUnit :=
    { id := t.nextId, row := t.row, off := t.off, len := n
      rd := if fill then [] else e.readBursts t.row t.off (if e.op = opConvert then e.rowBytes false else n)
      wr := [], writing := fill, data := if fill then List.replicate n 0 else [], scale := none, failed := false }
  if fill then { u with wr := e.writeBursts u } else u

/-- The next unit is planned, and the place after it. -/
def DStream.plan (e : DDesc) (t : DStream) : DStream :=
  let u := e.nextUnit t
  let last := decide (e.op = opConvert ∨ e.len ≤ t.off + u.len)
  { t with units := t.units ++ [u], nextId := t.nextId + 1, row := if last then t.row + 1 else t.row
           off := if last then 0 else t.off + u.len }

/-- What the translation of a burst comes to. -/
inductive Sent where
  | ok (g : XSeg)
  | wait
  /-- Translation failed. -/
  | fail
  /-- Outside the task's memory: the address of the violation. -/
  | chock (a : Nat)
  deriving DecidableEq, Repr

/-- A burst to device memory takes the next number (R361). -/
def Chip.devBurst (m : Chip) (a n : Nat) : Chip × Sent :=
  let s := m.takeSer
  (s.1, .ok ⟨.dev a, none, n, s.2⟩)

/-- A burst of a side is translated, as it is sent (R361): core memory within the task's bound (R280), virtual memory through
its leaf. -/
def Chip.burstSeg (m : Chip) (c : Fin 64) (s : Fin 8) (e : DDesc) (wr : Bool) (a : Int) (n : Nat) : Chip × Sent :=
  let x : Ctx := ⟨c, e.aft⟩
  let k := m.ctx x
  if e.kind wr = kCrow then
    let r := k.rows e.sup
    let at0 : Nat := coreBase + c.val * 0x400000 + r.1 * 512
    if a < 0 ∨ ((r.2 + 1) * 512 : Nat) < a + n then (m, .chock ((at0 : Int) + a).toNat) else m.devBurst (at0 + a.toNat) n
  else if e.kind wr = kVirt then
    let q : XMiss := { req := ⟨c, 1 + s.val⟩, asid := k.asid, va := a.toNat, write := wr, sup := e.sup, task := k.task }
    let r := m.translate q
    match r.2 with
    | .ok pl cl => let u := r.1.takeSer; (u.1, .ok ⟨pl, cl, n, u.2⟩)
    | .wait => (r.1, .wait)
    | .fail => (r.1, .fail)
  else m.devBurst a.toNat n

/-! ### Issuing (R326, R329, R330) -/

def Chip.modUnit (m : Chip) (c : Fin 64) (s : Fin 8) (id : Nat) (f : DUnit → DUnit) : Chip :=
  m.modStream c s fun t => { t with units := t.units.map fun u => if u.id = id then f u else u }

/-- Burst `i` of one side of a unit. -/
def DUnit.setPiece (u : DUnit) (wr : Bool) (i : Nat) (f : DPiece → DPiece) : DUnit :=
  let go (l : List DPiece) : List DPiece := l.mapIdx fun j p => if j = i then f p else p
  if wr then { u with wr := go u.wr } else { u with rd := go u.rd }

/-- Bursts of a stream that are still to be sent, with their unit and place in it. -/
def DStream.open' (t : DStream) (wr : Bool) : List (DUnit × Nat × DPiece) :=
  (t.units.filter fun u => !u.failed && u.writing == wr).flatMap fun u =>
    ((if wr then u.wr else u.rd).zipIdx.filter fun p => p.1.st == .planned).map fun p => (u, p.2, p.1)

/-- The stream freezes before burst `i` of unit `u` (R69). -/
def Chip.freezeStream (m : Chip) (c : Fin 64) (s : Fin 8) (u i : Nat) : Chip := m.modStream c s fun t => { t with froze := (u, i) }

/-- The stream is chocked for burst `i` of unit `u`, outside its task's memory (R69). -/
def Chip.chockStream (m : Chip) (c : Fin 64) (s : Fin 8) (a u i : Nat) : Chip :=
  (m.chock (drayPage c.val) (streamId c.val s.val) 3 a (coachDomain c.val)).freezeStream c s u i

/-- A chocked stream sends the transfers before the violating one alone (R69). -/
def Chip.maySend (m : Chip) (c : Fin 64) (s : Fin 8) (u i : Nat) : Bool :=
  let f := (m.stream c s).froze
  !m.streamChocked c s.val || decide (u < f.1 ∨ (u = f.1 ∧ i < f.2))

/-- A freight dray works for this side; one is asked for when it does not (R330). -/
def Chip.needJob (m : Chip) (c : Fin 64) (s : Fin 8) (e : DDesc) (wr : Bool) (g : XSeg) : Option Chip :=
  let w : JobWork := .stream c.val s.val wr
  if g.isDev || m.hasJob w then none
  else if (m.jobOf w).isSome then some m
  else some (m.askJob w (streamId c.val s.val) e.cls)

/-- The stream waits for a credit or a freight dray; the coach cycle is counted (R334). -/
def Chip.drayWait (m : Chip) (c : Fin 64) (s : Fin 8) (credit : Bool) : Chip :=
  (m.count (if credit then K.drayCreditWait c.val else K.drayFreightWait c.val) 1).modStream c s fun t =>
    if credit then { t with creditWait := true } else { t with freightWait := true }

/-- A burst has been sent. -/
def Chip.draySent (m : Chip) (c : Fin 64) (s : Fin 8) (id : Nat) (wr : Bool) (i : Nat) (g : Option XSeg) : Chip :=
  (m.modUnit c s id fun u => u.setPiece wr i fun p => { p with st := .sent, seg := g }).modStream c s fun t =>
    { t with creditWait := t.creditWait && wr, freightWait := false }

/-- Buffer rows that the write of a unit reaches. -/
def DDesc.obufRows (e : DDesc) (row : Nat) : List Nat :=
  let off := e.daddr / 4 % 256
  (off + row) ::
    (match (if e.op = opConvert then e.fmt true else none) with
      | some F =>
        if F.isMx then
          let lo := (off + 128) * 1024 + row * rowScales F
          (List.range ((lo + e.scaleLen - 1) / 1024 - lo / 1024 + 1)).map (lo / 1024 + ·)
        else []
      | none => [])

/-- A write into an operand buffer waits for matrix entries issued before the DRGO (R226). -/
def Chip.drayInterlock (m : Chip) (c : Fin 64) (e : DDesc) (row : Nat) : Bool :=
  decide (e.dkind = kObuf) && (e.obufRows row).any fun r => m.mtxHoldsRow c e.mid (e.daddr % 4) r

/-! ### Conversion of a row (R325) -/

/-- Values of `n` elements packed in bytes, with their block scales. -/
def decodeRow (F : Fmt) (S : Int) (n : Nat) (bytes scales : List Byte) : List Val :=
  let w := leNat bytes
  (List.range n).map fun i => F.decode ((scales.getD (i / 32) 127).toNat) S (w / 2 ^ (F.bits * i) % 2 ^ F.bits)

/-- Elements packed without gaps. -/
def packBits (w : Nat) (l : List Nat) : List Byte :=
  leBytes ((w * l.length + 7) / 8) (l.zipIdx.foldl (fun a p => a + p.1 * 2 ^ (w * p.2)) 0)

/-- Values encoded into a format, the first with index `i0`: bytes, scales, flags. -/
def encodeRow (F : Fmt) (S : Int) (rc : Rc) (i0 : Nat) (l : List Val) : List Byte × List Byte × Flags :=
  match F.mxElem with
  | some M =>
    let bs := (List.range ((l.length + 31) / 32)).map fun j => mxEncode M rc (i0 + 32 * j) ((l.drop (32 * j)).take 32)
    (packBits F.bits (bs.flatMap fun b => b.2.1.map (·.1) ++ List.replicate (32 - b.2.1.length) 0), bs.map fun b => BitVec.ofNat 8 b.1,
      bs.foldl (fun f b => f ||| b.2.2) 0)
  | none =>
    let es := l.mapIdx fun i v => F.encode S rc (i0 + i) v
    (packBits F.bits (es.map (·.1)), [], es.foldl (fun f e => f ||| e.2) 0)

/-- A row read is converted: elements, scales, flags. -/
def DDesc.convert (e : DDesc) (key : W64) (row : Nat) (data : List Byte) : List Byte × List Byte × Flags :=
  match e.fmt false, e.fmt true with
  | some A, some B =>
    let n := e.rowBytes false
    encodeRow B e.accs { rm := e.rm, sat := e.sat, key := key } (row * e.len)
      (decodeRow A e.accs e.len (data.take n) (data.drop n))
  | _, _ => ([], [], 0)

/-- What a unit brings: the data read, or the converted row with the scales of an MX target after it. -/
def Chip.drayConvert (m : Chip) (c : Fin 64) (s : Fin 8) (e : DDesc) (row : Nat) (data : List Byte) : List Byte × Flags :=
  if e.op = opConvert then
    let r := e.convert (srKey (m.srSeed ⟨c, e.aft⟩) (8 + s.val) e.sr) row data
    (r.1 ++ r.2.1, r.2.2)
  else (data, 0)

/-- A row of the scale array whose scales have all come is written, with zeros after the last scale (R325). -/
def DStream.scaleUnit (e : DDesc) (row : Nat) (t : DStream) (r : Nat) : DStream :=
  let total := e.rows * e.scaleLen
  let bytes := (List.range 512).map fun i => (t.scales.find? (·.1 == 512 * r + i)).map (·.2)
  if (bytes.take (total - 512 * r)).all Option.isSome then
    let u : DUnit :=
      { id := t.nextId, row := row, off := 0, len := 512, rd := [], wr := [], writing := true, data := bytes.map (·.getD 0),
        scale := some r, failed := false }
    { t with nextId := t.nextId + 1, units := t.units ++ [{ u with wr := e.writeBursts u }] }
  else t

/-- The scales of a converted row join those of the rows before it. -/
def DStream.addScales (e : DDesc) (row : Nat) (l : List Byte) (t : DStream) : DStream :=
  let lo := row * e.scaleLen
  let t1 : DStream :=
    { t with scales := l.zipIdx.foldl (fun m p => smapInsert (lo + p.2) p.1 (smapErase (fun k => k == lo + p.2) m)) t.scales }
  if l.isEmpty then t1
  else (List.range ((lo + l.length - 1) / 512 - lo / 512 + 1)).foldl (fun t i => t.scaleUnit e row (lo / 512 + i)) t1

/-- Every read of a unit has been answered: its data is converted, and is to be written; the scales of a target in core
memory go to their array. Its flags wait for the descriptor's completion. -/
def Chip.drayGather (m : Chip) (c : Fin 64) (s : Fin 8) (id : Nat) : Chip :=
  let t := m.stream c s
  match t.q, t.units.find? (·.id == id) with
  | e :: _, some u =>
    if u.writing || u.failed || !u.rd.all (·.st == .done) then m.draySettle c s
    else
      let d := m.drayConvert c s e u.row (u.rd.flatMap (·.data))
      let n := if e.scaleRows then e.outBytes else d.1.length
      let w : DUnit := { u with writing := true, data := d.1.take n }
      (m.modUnit c s id fun _ => { w with wr := e.writeBursts w }).modStream c s fun t =>
        let t1 : DStream := { t with flags := t.flags ||| d.2 }
        if e.scaleRows then t1.addScales e u.row (d.1.drop n) else t1
  | _, _ => m

/-- The answer to a read burst is written: its credit returns (R329). -/
def Chip.drayReadIn (m : Chip) (c : Fin 64) (s : Fin 8) (id i : Nat) (l : List Byte) : Chip :=
  ((m.count (K.drayBytesRd c.val) l.length).modUnit c s id fun u => u.setPiece false i fun p => { p with st := .done, data := l }).drayGather
    c s id

/-- Data of a read burst arrives from host or peer. -/
def Chip.drayDeliver (m : Chip) (c : Fin 64) (s : Fin 8) (id i : Nat) (l : List Byte) : Chip :=
  match ((m.stream c s).units.find? (·.id == id)).bind fun u => u.rd[i]? with
  | some p =>
    let skip := match p.seg.map (·.place) with
      | some (.couple _ _ off) => off % 8
      | _ => 0
    if p.st == .sent then m.drayReadIn c s id i ((l.drop skip).take p.len) else m
  | none => m

/-- A read burst to host or peer leaves; a peer that cannot be reached gives zeros, which are logged. -/
def Chip.drayRead (m : Chip) (c : Fin 64) (s : Fin 8) (e : DDesc) (id i : Nat) (p : DPiece) (g : XSeg) : Chip :=
  let task := (m.ctx ⟨c, e.aft⟩).task
  let who := streamId c.val s.val
  let a := p.a.toNat
  let dest : ReadDest := .dray c.val s.val id i
  match g.place with
  | .dev _ => m
  | .host h => m.hostRead (m.taskFunc task) h g.len who task a dest g.ser
  | .couple n w off =>
    let lo := off % 8
    let r := m.coupleRead n w (off - lo) ((lo + g.len + 7) / 8 * 8) who task a dest e.cls g.ser
    if r.2 then r.1
    else
      let z := List.replicate g.len (0 : Byte)
      (r.1.logData .peerRead who task a z).drayReadIn c s id i z

/-- A read burst is translated and sent, when a credit is free; a remote one through a freight dray, and while the log takes
its data (R449). -/
def Chip.draySendRead (m : Chip) (c : Fin 64) (s : Fin 8) (e : DDesc) (u : DUnit) (i : Nat) (p : DPiece) : Chip :=
  if !m.hasCredit c s then m.drayWait c s true
  else
    let r := m.burstSeg c s e false p.a p.len
    match r.2 with
    | .chock a => r.1.chockStream c s a u.id i
    | .wait => r.1
    | .fail => r.1.drayFaulted c s (·.id == u.id)
    | .ok g => match r.1.needJob c s e false g with
      | some m1 => m1.drayWait c s false
      | none =>
        if !g.isDev && r.1.logStalls g.len then r.1.logBlocked
        else (r.1.draySent c s u.id false i (some g)).drayRead c s e u.id i p g

/-- Data of burst `i` of the write of a unit. -/
def DUnit.slice (u : DUnit) (i : Nat) : List Byte :=
  let lo := ((u.wr.take i).map (·.len)).foldl (· + ·) 0
  (u.data.drop lo).take ((u.wr[i]?.map (·.len)).getD 0)

/-- A write burst to host or peer leaves. Bytes of an 8-byte word of a peer's window that no data covers are left open. -/
def Chip.drayWrite (m : Chip) (c : Fin 64) (s : Fin 8) (e : DDesc) (u : DUnit) (i : Nat) (g : XSeg) : Chip :=
  let task := (m.ctx ⟨c, e.aft⟩).task
  let l := u.slice i
  match g.place with
  | .dev _ => m
  | .host h => m.hostWrite (m.taskFunc task) h l g.ser .burst
  | .couple n w off =>
    let lo := off % 8
    let pad := (lo + g.len + 7) / 8 * 8 - (lo + g.len)
    let free (j : Nat) : Byte := Config.freeByte j m.tick
    let l1 := (List.range lo).map free ++ l ++ (List.range pad).map fun j => free (8 + j)
    m.next.coupleWrite n w (off - lo) l1 (streamId c.val s.val) task true
      (some (.dray c.val s.val u.id i)) e.cls g.ser

/-- A write burst is translated and sent; one into an operand buffer once no matrix entry needs its rows (R226). -/
def Chip.draySendWrite (m : Chip) (c : Fin 64) (s : Fin 8) (e : DDesc) (u : DUnit) (i : Nat) (p : DPiece) : Chip :=
  if e.dkind = kObuf then (if m.drayInterlock c e u.row then m else m.draySent c s u.id true i none)
  else
    let r := m.burstSeg c s e true p.a p.len
    match r.2 with
    | .chock a => r.1.chockStream c s a u.id i
    | .wait => r.1
    | .fail => r.1.drayFaulted c s (·.id == u.id)
    | .ok g => match r.1.needJob c s e true g with
      | some m1 => m1.drayWait c s false
      | none => (r.1.draySent c s u.id true i (some g)).drayWrite c s e u i g

/-- DRAY_BURST_ISSUE: burst `n` of those of the running descriptor that are still to be sent, on the read or the write side,
or, past them on the read side, the first burst of the next unit: bursts are performed in any order (R326). A chocked stream
begins no further unit; what it has planned before the violating transfer completes (R69). -/
def Chip.drayIssue (m : Chip) (c : Fin 64) (s : Fin 8) (wr : Bool) (n : Nat) : Chip :=
  let t := m.stream c s
  match t.q with
  | e :: _ =>
    if !t.active then m
    else match (t.open' wr)[n]? with
      | some p =>
        if !m.maySend c s p.1.id p.2.1 then m
        else if wr then m.draySendWrite c s e p.1 p.2.1 p.2.2
        else m.draySendRead c s e p.1 p.2.1 p.2.2
      | none =>
        if wr || m.streamChocked c s.val || decide (e.rows ≤ t.row)
            || (t.stopping && (decide (t.off = 0) || t.again == some t.row)) then m
        else
          let u := e.nextUnit t
          let m1 := m.modStream c s (·.plan e)
          match u.rd with
          | p :: _ => m1.draySendRead c s e u 0 p
          | [] => m1
  | [] => m

def execDrayBurstIssue (c : Fin 64) (s : Fin 8) (wr : Bool) (n : Nat) (st : State) : Host.Outcome State Fault Refusal :=
  onCoach c (fun m => m.drayIssue c s wr n) st

/-- A burst is written into an operand buffer, as far as the buffer goes. -/
def Chip.drayObuf (m : Chip) (c : Fin 64) (e : DDesc) (u : DUnit) (i : Nat) (p : DPiece) : Chip :=
  m.obufWrite c.val (e.daddr % 4) p.a.toNat ((u.slice i).take (262144 - p.a.toNat))

/-! ### Completion (R326) -/

/-- DRAY_DESC_COMPLETE: every burst has been performed; all that the completion does, it does in this step (R326). -/
def Chip.drayComplete (m : Chip) (c : Fin 64) (s : Fin 8) : Chip :=
  let t := m.stream c s
  match t.q with
  | e :: q =>
    if t.active && t.units.isEmpty && decide (e.rows ≤ t.row) && t.again.isNone then
      let x : Ctx := ⟨c, e.aft⟩
      let m1 := (m.outriderStep c s).modStream c s fun t =>
        { t with q := q, active := false, begun := false, stopping := false, row := 0, off := 0, flags := 0, scales := [] }
      let m2 := ((m1.endJob (.stream c.val s.val false)).endJob (.stream c.val s.val true)).addFlags x t.flags
      let m3 := if e.usesSr then m2.count (K.tallySrCtrD x.tally s.val) 1 else m2
      let m4 := if e.notify then m3.setEvents x 0x1000 else m3
      if e.even then m4.setEvents x (BitVec.ofNat 16 (2 ^ e.ev)) else m4
    else m
  | [] => m

def execDrayDescComplete (c : Fin 64) (s : Fin 8) (st : State) : Host.Outcome State Fault Refusal :=
  onCoach c (fun m => m.drayComplete c s) st

/-! ### The instructions (R96, R323) -/

/-- The stream that an instruction names, when the context may use it. -/
def Chip.ownStream (m : Chip) (x : Ctx) (w : W16) : Option (Fin 8) :=
  if h : w.toNat < 8 then (if m.streamSide x.coach w.toNat = x.aft then some ⟨w.toNat, h⟩ else none) else none

/-- DRGO: waits while the stream is in error or four descriptors are queued, then captures the descriptor. -/
def semDrgo (m : Chip) (x : Ctx) : Plan :=
  m.withTop x 2 (fun w => (m.ownStream x w).isNone) 0x03 fun b => match b.ds with
    | w :: d :: r => match m.ownStream x w with
      | none => .fault vecOperand 0x03
      | some s =>
        let t := m.stream x.coach s
        if t.err || decide (4 ≤ t.queued) then .wait .queue id
        else match m.loadWords x d 16 with
          | .error bad => .chock bad
          | .ok ws =>
            let k := m.ctx x
            let e0 : DDesc :=
              { words := Vector.ofFn fun i => ws.getD i.val 0, d := d, pc := k.pc, aft := x.aft, sup := k.status.lvl, sr := 0,
                mid := m.issued }
            let before := (t.q.filter DDesc.usesSr).length
            let e := { e0 with sr := m.reg (K.tallySrCtrD x.tally s.val) + BitVec.ofNat 64 before }
            .done { b with ds := r } k.status.c (fun m => m.modStream x.coach s fun t => { t with q := t.q ++ [e] }) .seq
    | _ => .fault vecStkUnf 0

/-- DRWAIT: waits until the stream has no queued or active descriptor. -/
def semDrwait (m : Chip) (x : Ctx) : Plan :=
  m.withStacks x 1 0 fun b => match b.ds with
    | w :: r => match m.ownStream x w with
      | none => .fault vecOperand 0x03
      | some s =>
        if (m.stream x.coach s).q.isEmpty then .done { b with ds := r } (m.ctx x).status.c id .seq else .wait .engine id
    | _ => .fault vecStkUnf 0

/-- DRSTAT: queued descriptors, active, in error. -/
def semDrstat (m : Chip) (x : Ctx) : Plan :=
  m.withStacks x 1 0 fun b => match b.ds with
    | w :: r => match m.ownStream x w with
      | none => .fault vecOperand 0x03
      | some s =>
        let t := m.stream x.coach s
        .done { b with ds := BitVec.ofNat 16 (t.queued + 8 * b2n t.active + 16 * b2n t.err) :: r } (m.ctx x).status.c id .seq
    | _ => .fault vecStkUnf 0

end Sys2Proof.Machine
end

