-- ==== Sys2Proof/Machine/Events.lean ====
section
/-! DEFINITION. Group 0x38: events and waits, SENDEV and its delivery (R98 to R104). -/
namespace Sys2Proof.Machine

/-- EVENTS & mask. -/
def Context.matching (k : Context) (mask : W16) : W16 := k.events &&& mask

/-- The plan of an instruction that pushes and consumes the events `ev` on a stack whose operands are gone. -/
def Context.takeEvents (k : Context) (x : Ctx) (b : Bank) (rest : List W16) (v : W64) (upd : Chip → Chip) : Plan :=
  let ev : W16 := v.truncate 16
  .done { b with ds := ev :: rest } k.status.c
    (fun m => (upd m).modCtx x fun k => { k with events := k.events &&& ~~~ ev }) .seq

/-- WAITEV: waits until EVENTS & mask is not 0, pushes it and clears it; with mask 0 it pushes 0 at once (R99). -/
def semWaitev (m : Chip) (x : Ctx) : Plan :=
  m.withStacks x 1 0 fun b => match b.ds with
    | mask :: t =>
      let k := m.ctx x
      let ev := k.matching mask
      m.inputPlan x .waitev (if ev ≠ 0 ∨ mask = 0 then some (ev.zeroExtend 64) else none)
        (fun v upd => k.takeEvents x b t v upd) (.wait .waitev id)
    | _ => .fault vecStkUnf 0

/-- EVPOLL: as WAITEV, but it never waits (R99). -/
def semEvpoll (m : Chip) (x : Ctx) : Plan :=
  m.withStacks x 1 0 fun b => match b.ds with
    | mask :: t =>
      let k := m.ctx x
      m.inputPlan x .evpoll (some ((k.matching mask).zeroExtend 64)) (fun v upd => k.takeEvents x b t v upd) (.stall id)
    | _ => .fault vecStkUnf 0

/-- EVPEEK pushes EVENTS and clears nothing (R99). -/
def semEvpeek (m : Chip) (x : Ctx) : Plan :=
  m.inputPlan x .evpeek (some ((m.ctx x).events.zeroExtend 64))
    (fun v upd => m.withStacks x 0 0 fun b =>
      .done { b with ds := v.truncate 16 :: b.ds } (m.ctx x).status.c upd .seq) (.stall id)

/-- EVCLR clears EVENTS & mask (R99). -/
def semEvclr (m : Chip) (x : Ctx) : Plan :=
  m.withStacks x 1 0 fun b => match b.ds with
    | mask :: t => .done { b with ds := t } (m.ctx x).status.c
        (fun m => m.modCtx x fun k => { k with events := k.events &&& ~~~ mask }) .seq
    | _ => .fault vecStkUnf 0

/-- The target of a WAITUNTIL on the stack: t0 on top, then t1, t2, t3, then the mask. -/
def untilOf : List W16 → Option (W64 × W16 × List W16)
  | t0 :: t1 :: t2 :: t3 :: mask :: r => some (t3 ++ t2 ++ t1 ++ t0, mask, r)
  | _ => none

/-- WAITUNTIL: events first; then the counter at or above the target pushes 0; otherwise it waits (R102). -/
def semWaituntil (m : Chip) (x : Ctx) : Plan :=
  m.withStacks x 5 0 fun b => match untilOf b.ds with
    | some (t, mask, r) =>
      let k := m.ctx x
      let ev := k.matching mask
      let live := if ev ≠ 0 then some (ev.zeroExtend 64) else if t.toNat ≤ (m.cycle x.coach).toNat then some 0 else none
      m.inputPlan x .waituntil live (fun v upd => k.takeEvents x b r v upd) (.wait .waituntil id)
    | none => .fault vecStkUnf 0

/-! ### SENDEV (R100) -/

/-- Where a SENDEV goes. -/
inductive SendTarget where
  | ctx (x : Ctx)
  | stream (s : Fin 8)
  | host
  deriving DecidableEq, Repr

/-- The target that a word names; none for a word that R100 refuses. -/
def Chip.sendTarget (m : Chip) (x : Ctx) (w : W16) : Option SendTarget :=
  let n := w.toNat
  if n < 0x4000 then
    if n % 128 = 0 then some (.ctx ⟨⟨n / 256 % 64, Nat.mod_lt _ (by decide)⟩, n / 128 % 2 == 1⟩) else none
  else if n < 0x8000 then
    if n % 0x4000 < 8 then (m.ownStream x (w &&& 7)).map .stream else none
  else if n = 0x8000 then some .host
  else none

/-- Bit of COACH.PAGE_EVT of an event sent to the host (R100). -/
def hostEventBit (aft : Bool) (ev : Nat) : Nat := (if aft then 32 else 16) + ev

/-- SENDEV: to a context it is sent and delivered later; a stream's gate bit is set; the host's bit of PAGE_EVT is set
and marked in the stage log (R447). -/
def semSendev (m : Chip) (x : Ctx) : Plan :=
  m.withTop x 2 (fun w => (m.sendTarget x w).isNone) 0x04 fun b => match b.ds with
    | w :: e :: t =>
      let k := m.ctx x
      let b' := { b with ds := t }
      let ev := e.toNat
      if 11 < ev then .fault vecOperand 0x04
      else match m.sendTarget x w with
        | none => .fault vecOperand 0x04
        | some (.ctx y) => .done b' k.status.c (fun m => m.sendTo ⟨y, ev, k.asid, k.status.lvl, x.coach⟩) .seq
        | some (.stream s) => .done b' k.status.c
            (fun m => m.modStream x.coach s fun t => { t with gate := t.gate ||| BitVec.ofNat 12 (2 ^ ev) }) .seq
        | some .host => m.inputPlan x .markSendev (some 0)
            (fun _ upd => .done b' k.status.c (fun m => (upd m).event (coachPage x.coach) (hostEventBit x.aft ev)) .seq)
            (.stall id)
    | _ => .fault vecStkUnf 0

/-- A task-level send reaches only a context that runs a task with the sender's ASID (R101). -/
def Chip.sendReaches (m : Chip) (e : Send) : Bool :=
  e.sup || ((m.ctx e.target).task != 0 && (m.ctx e.target).asid == e.asid)

/-- EVENT_DELIVER: event number `n` on its way reaches its target, or is discarded and counted (R101). -/
def Chip.deliverEvent (m : Chip) (n : Nat) : Chip :=
  match m.sends[n]? with
  | none => m
  | some e =>
    let m1 := { m with sends := m.sends.eraseIdx n }
    if m.sendReaches e then m1.setEvents e.target (BitVec.ofNat 16 (2 ^ e.event))
    else m1.countFld (K.coachEvDrop e.drop.val) F.coachEvDropCount 1

end Sys2Proof.Machine
end

