-- ==== Sys2Proof/Machine/SaveArea.lean ====
section
/-! DEFINITION. The save area of a task (R389): where it lies, and the state it holds. The manual says what its rows
hold and not where in them; what a task writes there is restored, so the state is then a free function of what was saved
and of the bytes that were written. -/
namespace Sys2Proof.Machine

/-- The control state that the rows of R389 hold: the one that was saved, with the bytes written there since in its place. Which
bit of the state lies in which byte is left open. -/
opaque Config.overSaved : Saved → List (Nat × MByte) → Saved

/-- The vector state likewise. -/
opaque Config.overVec : VecEngine → List (Nat × MByte) → VecEngine

/-- The control state in an area that no placement or switch has saved to. -/
opaque Config.noSaved : W16 → Saved

/-- The task holds a partition. -/
def Task.placed (t : Task) : Bool := t.st != .waiting

/-- Device physical address of a logical row of the task. -/
def Task.rowAddr (t : Task) (r : Nat) : Nat := Sys2Proof.Machine.rowAddr t.coach (t.row + r)

/-- First row and length in bytes of the vector part and of the control part of the area. -/
def Task.vecArea (t : Task) : Nat × Nat := (t.rowAddr (t.mlim - 287), 273 * 512)
def Task.ctlArea (t : Task) : Nat × Nat := (t.rowAddr (t.mlim - 14), 15 * 512)

/-! ### Marking an area -/

/-- The bytes of an area become free values that `mark` names. -/
def Chip.markArea (m : Chip) (a : Nat × Nat) : Chip × Nat :=
  ({ m with mem := smapFill m.mem a.1 a.2 fun i => .free i m.tick, tick := m.tick + 1 }, m.tick)

/-- The bytes of `n` from offset `o` of an area marked `mark` on that have been written since. -/
def Chip.written' (m : Chip) (a : Nat × Nat) (mark o n : Nat) : List (Nat × MByte) :=
  (m.cellsOf (a.1 + o) n).filterMap fun e => if e.2 = MByte.free (o + e.1) mark then none else some (o + e.1, e.2)

def Chip.modTask (m : Chip) (h : W16) (f : Task → Task) : Chip :=
  { m with sh := { m.sh with tasks := m.sh.tasks.map fun t => if t.handle = h then f t else t } }

/-! ### The vector state of a task (R80, R82) -/

/-- The vector state of VOWN.TAG is saved; DIRTY clears. Task 0 has no save area. -/
def Chip.saveVec (m : Chip) (c : Fin 64) : Chip :=
  let k := m.coach c
  let clean := m.modVown c fun v => { v with dirty := false }
  match m.task k.vown.tag with
  | none => clean
  | some t =>
    let r := clean.markArea t.vecArea
    r.1.modTask t.handle fun t => { t with vec := some { mark := r.2, eng := k.vec } }

/-- The vector state that a task finds (R184, R389): its first 272 rows hold the data and mask registers, the last row the
rest. -/
def Chip.vecOf (m : Chip) (t : Task) : VecEngine :=
  match t.vec with
  | none => VecEngine.reset
  | some v =>
    let regs := m.written' t.vecArea v.mark 0 (272 * 512)
    let ctl := m.written' t.vecArea v.mark (272 * 512) 512
    let a := if regs.isEmpty then v.eng else
      let o := Config.overVec v.eng regs
      { v.eng with v := o.v, msk := o.msk }
    if ctl.isEmpty then a else { Config.overVec v.eng ctl with v := a.v, msk := a.msk }

/-- Task `h` takes the engine (R80): the state of TAG is saved when it is dirty, its own restored; for task 0 the
registers keep their contents. -/
def Chip.takeVec (m : Chip) (c : Fin 64) (h : W16) : Chip :=
  let v := (m.coach c).vown
  if v.tag = h then m
  else
    let m1 := if v.dirty then m.saveVec c else m
    let m2 := match m1.task h with
      | some t => m1.modVec c fun _ => m1.vecOf t
      | none => m1.modVec c fun k => { k with q := [] }
    m2.modVown c fun v => { v with tag := h, dirty := false }

/-- VCLAIM_GRANT: the engine is free, or aft has been made to release it and its work has stopped; fore's claim first. -/
def Chip.grantVec (m : Chip) (c : Fin 64) : Chip :=
  let v := (m.coach c).vown
  let free := v.owner == 0 || (v.owner == 2 && v.evict && m.vecQuiet ⟨c, true⟩)
  if !free || !(v.claimF || v.claimA) then m
  else
    let x : Ctx := ⟨c, !v.claimF⟩
    -- the state of task 0 has no save area, and a forced release discards its queue with it
    let m0 := if v.owner == 2 && v.tag == 0 && (m.ctx x).task == 0 then m.modVec c fun k => { k with q := [] } else m
    let m1 := (m0.takeVec c (m.ctx x).task).claimVec x false
    (m1.modVown c fun v => { v with owner := if x.aft then 2 else 1, evict := false }).setEvents x 0x4000

/-- VCLAIM_LIMIT_EXPIRE (R81): fore's claim makes aft release, its sum stopped before element `hi`; aft's is told. -/
def Chip.claimLimit (m : Chip) (c : Fin 64) (aft : Bool) (hi : Nat) : Chip :=
  let v := (m.coach c).vown
  let hit (m : Chip) : Chip := m.modVown c fun v => { v with limitHits := v.limitHits + 1 }
  if aft then
    if v.claimA && v.owner == 1 && !v.limitA && v.capA != 0 then
      (hit (m.modVown c fun v => { v with limitA := true })).event (coachPage c) 48
    else m
  else if v.claimF && v.owner == 2 && !v.limitF && v.capF != 0 then
    let m1 := hit (m.modVown c fun v => { v with limitF := true, evict := true })
    (m1.vecHalt c).vecStopSum c hi
  else m

/-- The engine is released as VREL does (R82): OWNER none, TAG as it was. -/
def Chip.releaseVec (m : Chip) (x : Ctx) : Chip :=
  let m1 := m.claimVec x false
  if m1.ownsVec x then m1.modVown x.coach fun v => { v with owner := 0, evict := false } else m1

end Sys2Proof.Machine
end

