-- ==== Sys2Proof/Machine/System.lean ====
section
/-! DEFINITION. Special registers, mode changes, returns and system calls, interrupt sources, and the boundary at which
a cause is taken (R90, R110 to R139). -/
namespace Sys2Proof.Machine

/-! ### Interrupt sources (R129, R130) -/

/-- Source `bit` becomes pending, with its stamp. -/
def Chip.setPend (m : Chip) (x : Ctx) (bit : Nat) : Chip :=
  let st := m.stamp (coachDomain x.coach.val)
  m.modCtx x fun k =>
    if k.intPend.getLsbD bit then k
    else { k with intPend := k.intPend ||| BitVec.ofNat 16 (2 ^ bit),
                  intStamp := if h : bit < 6 then k.intStamp.set bit st else k.intStamp }

abbrev srcSag : Nat := 0
abbrev srcThermal : Nat := 1
abbrev srcError : Nat := 2
abbrev srcShunt : Nat := 3
abbrev srcHost : Nat := 4
abbrev srcCmp : Nat := 5

/-- A source of the hub is on its way to a context (R129). -/
def Chip.postInt (m : Chip) (x : Ctx) (bit : Nat) : Chip := { m with posts := m.posts ++ [(x, bit)] }

def allCtxs : List Ctx := (List.finRange 64).flatMap fun c => [⟨c, false⟩, ⟨c, true⟩]

/-- A source of the hub is on its way to every context. -/
def Chip.postAll (m : Chip) (bit : Nat) : Chip := { m with posts := m.posts ++ allCtxs.map fun x => (x, bit) }

/-- INT_PEND_SET: a post reaches its context. No rule says on what occasion the shunter posts a message (bit [3]): it may do
so whenever its block runs (log entry 42). -/
def Chip.pendSet (m : Chip) (p : PendSource) : Chip :=
  match p with
  | .posted n => match m.posts[n]? with
    | none => m
    | some p => Chip.setPend { m with posts := m.posts.eraseIdx n } p.1 p.2
  | .shunt x => if m.flag K.shuntShuntCtl F.shuntShuntCtlEn then m.setPend x srcShunt else m

/-- CMP_MATCH: the counter of the coach is at or above the armed target (R130); a counter that stands reaches nothing
(R26). -/
def Chip.cmpMatch (m : Chip) (x : Ctx) : Chip :=
  let k := m.ctx x
  if !k.cmpArmed || !m.domRuns (coachDomain x.coach.val) then m
  else
    let m1 := m.setDom (coachDomain x.coach.val) fun d =>
      { d with count := if d.count.toNat < k.cmp.toNat then k.cmp else d.count }
    (m1.modCtx x fun k => { k with cmpArmed := false }).setPend x srcCmp

/-- A supply sag or a thermal warning holds its source (R129). -/
def Chip.sourceHolds (m : Chip) (bit : Nat) : Bool :=
  (bit == srcSag && m.flag K.pwrPwrStat F.pwrPwrStatSag) || (bit == srcThermal && m.flag K.pwrPwrStat F.pwrPwrStatThermWarn)

/-- INT_ACK clears bits; one whose condition still holds is set again. -/
def Chip.intAck (m : Chip) (x : Ctx) (w : W16) : Chip :=
  let m1 := m.modCtx x fun k => { k with intPend := k.intPend &&& ~~~ w }
  ([srcSag, srcThermal] : List Nat).foldl (fun m b => if w.getLsbD b && m.sourceHolds b then m.setPend x b else m) m1

/-- The sources that a supply sag or a thermal warning holds are set in a context that has been reset or that takes over a
task's state while the warning lasts (R129, R472, R475). -/
def Chip.holdSources (m : Chip) (x : Ctx) : Chip :=
  ([srcSag, srcThermal] : List Nat).foldl (fun m b => if m.sourceHolds b then m.setPend x b else m) m

/-! ### Special registers (R90, R115) -/

/-- The value that RDSR reads. MBASE and MLIM are those of the level (R280), CBASE and CLIM too (R90). -/
def Context.readSr (k : Context) (x : Ctx) (n : Nat) : W16 :=
  let b := k.bank
  match n with
  | 0x00 => k.status.word
  | 0x01 => b.lc
  | 0x02 => b.ls
  | 0x03 => b.le
  | 0x04 => b.dsb
  | 0x05 => b.dsl
  | 0x06 => b.dsp
  | 0x07 => b.rsb
  | 0x08 => b.rsl
  | 0x09 => b.rsp
  | 0x0A => k.events
  | 0x0B => BitVec.ofNat 16 (x.coach.val + 64 * b2n x.aft)
  | 0x0C => k.asid
  | 0x0D => k.task
  | 0x0E => BitVec.ofNat 16 k.base
  | 0x0F => BitVec.ofNat 16 k.lim
  | 0x10 => BitVec.ofNat 16 (k.rows k.status.lvl).1
  | 0x11 => BitVec.ofNat 16 (k.rows k.status.lvl).2
  | 0x40 => k.trapBase
  | 0x41 => k.trapRa
  | 0x42 => k.trapSt
  | 0x43 => k.shdRa
  | 0x44 => k.shdSt
  | 0x45 => k.sysRa
  | 0x46 => k.sysSt
  | 0x47 => k.dfRa
  | 0x48 => k.dfSt
  | 0x49 => k.cause
  | 0x4A => k.dfCause
  | 0x4B => k.info[0]
  | 0x4C => k.info[1]
  | 0x4D => k.info[2]
  | 0x4E => k.info[3]
  | 0x4F => k.entryEn
  | 0x60 => k.intPend
  | 0x61 => k.intEn
  | 0x63 => k.cmp.extractLsb' 0 16
  | 0x64 => k.cmp.extractLsb' 16 16
  | 0x65 => k.cmp.extractLsb' 32 16
  | 0x66 => k.cmp.extractLsb' 48 16
  | 0x67 => k.brakeLimit
  | 0x68 => k.shadow.dsb
  | 0x69 => k.shadow.dsl
  | 0x6A => k.shadow.dsp
  | 0x6B => k.shadow.rsb
  | 0x6C => k.shadow.rsl
  | 0x6D => k.shadow.rsp
  | n => if h : 0x50 ≤ n ∧ n < 0x60 then k.entry[n - 0x50] else 0

/-- A register of a bank as WRSR leaves it: 1 LC, 2 LS, 3 LE, 4 DSB, 5 DSL, 6 DSP, 7 RSB, 8 RSL, 9 RSP. -/
def Bank.write (b : Bank) (n : Nat) (w : W16) : Bank :=
  match n with
  | 1 => { b with lc := w }
  | 2 => { b with ls := w }
  | 3 => { b with le := w }
  | 4 => { b with dsb := w }
  | 5 => { b with dsl := w }
  | 6 => { b with dsp := w }
  | 7 => { b with rsb := w }
  | 8 => { b with rsl := w }
  | 9 => { b with rsp := w }
  | _ => b

def putWord (v : W64) (i : Nat) (w : W16) : W64 :=
  (v &&& ~~~ ((0xFFFF : W64) <<< (16 * i))) ||| ((w.zeroExtend 64) <<< (16 * i))

/-- The supervisor registers outside the banks as WRSR leaves them; a read-only or unlisted one ignores it. The saved STATUS copies
0x42, 0x44, 0x46 and 0x48 keep all sixteen bits: whether bits [15:7], which R111 reserves in STATUS, are reserved there too is
open (the model's choice, log entry 92). -/
def Context.writeSr (k : Context) (n : Nat) (w : W16) : Context :=
  match n with
  | 0x40 => { k with trapBase := w &&& 0xFFC0 }
  | 0x41 => { k with trapRa := w }
  | 0x42 => { k with trapSt := w }
  | 0x43 => { k with shdRa := w }
  | 0x44 => { k with shdSt := w }
  | 0x45 => { k with sysRa := w }
  | 0x46 => { k with sysSt := w }
  | 0x47 => { k with dfRa := w }
  | 0x48 => { k with dfSt := w }
  | 0x4F => { k with entryEn := w }
  | 0x61 => { k with intEn := w &&& 0x3F }
  | 0x63 => { k with cmp := putWord k.cmp 0 w, cmpArmed := true }
  | 0x64 => { k with cmp := putWord k.cmp 1 w }
  | 0x65 => { k with cmp := putWord k.cmp 2 w }
  | 0x66 => { k with cmp := putWord k.cmp 3 w }
  | 0x67 => { k with brakeLimit := w }
  | n => if h : 0x50 ≤ n ∧ n < 0x60 then { k with entry := k.entry.set (n - 0x50) w } else k

/-- Number in the bank of a SHD register. -/
def shdIndex (n : Nat) : Option Nat := if 0x68 ≤ n ∧ n < 0x6E then some (n - 0x64) else none

def semRdsr (n : BitVec 7) (m : Chip) (x : Ctx) : Plan := m.pushes x [(m.ctx x).readSr x n.toNat]

/-- WRSR: STATUS takes C alone; bank registers go to the bank in use, SHD registers to the shadow bank. -/
def semWrsr (n : BitVec 7) (m : Chip) (x : Ctx) : Plan :=
  m.withStacks x 1 0 fun b => match b.ds with
    | w :: t =>
      let k := m.ctx x
      let b' := { b with ds := t }
      if n = 0 then .done b' (w.getLsbD 0) id .seq
      else if n.toNat < 0x0A then .done (b'.write n.toNat w) k.status.c id .seq
      else if n = 0x62 then .done b' k.status.c (fun m => m.intAck x w) .seq
      else match shdIndex n.toNat with
        | some i =>
          if k.status.shadow then .done (b'.write i w) k.status.c id .seq
          else .done b' k.status.c (fun m => m.modCtx x fun k => { k with shadow := k.shadow.write i w }) .seq
        | none => .done b' k.status.c (fun m => m.modCtx x fun k => k.writeSr n.toNat w) .seq
    | _ => .fault vecStkUnf 0

/-! ### Mode changes (R123 to R126, R132, R138) -/

/-- The instruction completes. -/
def Context.retire (k : Context) : Context := { k with st := .running, wait := .none, retired := k.retired + 1, looped := false }

/-- An instruction that changes STATUS and goes on. -/
def Chip.statusOp (m : Chip) (x : Ctx) (f : Status → Status) : Plan :=
  m.withStacks x 0 0 fun b => .done b (m.ctx x).status.c (fun m => m.modCtx x fun k => k.setStatus (f k.status)) .seq

def semBrake (m : Chip) (x : Ctx) : Plan := m.statusOp x fun s => { s with brake := true }
def semUnbrake (m : Chip) (x : Ctx) : Plan := m.statusOp x fun s => { s with brake := false }
def semTstable (m : Chip) (x : Ctx) : Plan := m.statusOp x fun s => { s with stable := true, df := false }

/-- A return: STATUS and PC together. -/
def Chip.returnTo (m : Chip) (x : Ctx) (pc : W16) (s : Status) : Plan :=
  m.withStacks x 0 0 fun _ => .raw fun m => m.modCtx x fun k => { k.retire.setStatus s with pc := pc, stale := [] }

/-- TRET: the pair that DF and TP choose (R123). -/
def semTret (m : Chip) (x : Ctx) : Plan :=
  let k := m.ctx x
  if k.status.df then m.returnTo x k.dfRa (Status.ofWord k.dfSt)
  else if k.status.tp then m.returnTo x k.trapRa (Status.ofWord k.trapSt)
  else m.returnTo x k.shdRa (Status.ofWord k.shdSt)

/-- SYSRET: C, LVL and BRAKE of SYS_ST (R124). -/
def semSysret (m : Chip) (x : Ctx) : Plan :=
  let k := m.ctx x
  let s := Status.ofWord k.sysSt
  m.returnTo x k.sysRa { k.status with c := s.c, lvl := s.lvl, brake := s.brake }

/-- SYSCALL n (R125): the return address under the loop rule, LVL 1, ENTRY[n]. -/
def semSyscall (n : BitVec 4) (m : Chip) (x : Ctx) : Plan :=
  m.withStacks x 0 0 fun b => .raw fun m => m.modCtx x fun k =>
    let r := (loopNext b b k.pc).getD (b, k.pc + 1)
    let k1 := { (k.retire.setBank r.1) with sysRa := r.2, sysSt := k.status.word }
    { k1.setStatus { k.status with lvl := true } with pc := k.entry[n.toNat], stale := [] }

/-- SETMODE (R138): when LVL falls, execution goes on at the physical word that follows. -/
def semSetmode (m : Chip) (x : Ctx) : Plan :=
  m.withStacks x 1 0 fun b => match b.ds with
    | w :: t =>
      let k := m.ctx x
      let lower := !w.getLsbD 0
      if 4 ≤ w.toNat then .fault vecOperand 0x05
      else if lower && (k.status.shadow || k.status.df) then .fault vecOperand 0x05
      else
        let b' := { b with ds := t }
        let s := { k.status with lvl := !lower, brake := w.getLsbD 1 }
        if lower then .raw fun m => m.modCtx x fun k =>
          { (k.retire.setBank b').setStatus s with pc := k.pc + 1 - k.cbase }
        else .done b' k.status.c (fun m => m.modCtx x fun k => k.setStatus s) .seq
    | _ => .fault vecStkUnf 0

/-! ### What decides at a boundary (R117, R127) -/

/-- The first item of R117 that is present. -/
inductive Bound where
  /-- A hub stop that applies here. -/
  | hub
  /-- A chock on the fetch of the next instruction, at the logical address of its first word out of range. -/
  | fetch (a : Nat)
  /-- A deferred fault: 0 MTX, 1 VEC, 2 DRAY. -/
  | deferred (kind : Nat) (d : DefFault)
  /-- An asynchronous event with its INFO. -/
  | async (bit : Nat) (info : W64)
  /-- A logged entry or the log itself holds the context here (R449, R454). -/
  | stall
  /-- The next instruction. -/
  | go
  deriving DecidableEq, Repr

/-- A hub stop applies: STOP, and the end of a task, at every boundary; the others with BRAKE 0 and STABLE 1 (R127, R394). -/
def Context.hubDue (k : Context) : Bool :=
  k.stopReq.any fun h => h == .stop || h == .ending || (!k.status.brake && k.status.stable)

/-- The lowest source that is pending and enabled. -/
def Context.source (k : Context) : Option Nat :=
  ([0, 1, 2, 3, 4, 5] : List Nat).find? fun b => k.intPend.getLsbD b && k.intEn.getLsbD b

/-- A live asynchronous event; the stage log must have room for its record. -/
def Chip.liveAsync (m : Chip) (k : Context) : Bound :=
  if k.status.brake then .go
  else match k.source with
    | none => .go
    | some b => if m.logStalls 0 then .stall else .async b (if h : b < 6 then k.intStamp[b] else 0)

/-- Source of a recorded entry. -/
def LogKind.source : LogKind → Option Nat
  | .async v => some (v - 0x10)
  | _ => none

/-- The next recorded entry of a maker, whatever records of it come before. -/
def Chip.nextAsync (m : Chip) (x : Ctx) (task : W16) : Option LogRec :=
  m.stg.log.find? fun r => !r.reached && r.madeBy (ctxId x) task && r.kind.source.isSome

/-- The asynchronous event that is taken here: in a re-execution the recorded one at its retired count, and no live source
(R131, R454); it waits until every earlier record is reached. -/
def Chip.asyncAt (m : Chip) (x : Ctx) : Bound :=
  let k := m.ctx x
  if m.reexec then
    match m.nextAsync x k.task with
    | none => .go
    | some r =>
      if r.retired = k.retired ∧ !k.status.brake then
        (if m.logHead = some r then .async (r.kind.source.getD 0) r.value else .stall)
      else .go
  else m.liveAsync k

/-- Words that the instruction at PC takes. -/
def Chip.lenOf (m : Chip) (x : Ctx) : Nat :=
  match decodeOp (m.fetchWord x (m.ctx x).pc.toNat) with
  | some o => o.len
  | none => 1

/-- The first word of the next instruction that lies out of range (R117, item 2): its own, or its operand word. -/
def Chip.fetchBad (m : Chip) (x : Ctx) : Option Nat :=
  let k := m.ctx x
  if !k.inRange k.pc.toNat then some k.pc.toNat
  else if 2 ≤ m.lenOf x ∧ !k.inRange (k.pc + 1).toNat then some (k.pc + 1).toNat
  else none

/-- What decides; an event that has been taken waits for its entry and for nothing else (R135). -/
def Chip.boundary (m : Chip) (x : Ctx) : Bound :=
  let k := m.ctx x
  match k.entering with
  | some e => .async e.1 e.2
  | none => if k.hubDue then .hub
  else match m.fetchBad x with
  | some a => .fetch a
  | none => match (if k.status.stable then k.defMtx else none), (if k.status.stable then k.defVec else none),
      (if k.status.stable then k.defDray else []) with
    | some d, _, _ => .deferred 0 d
    | none, some d, _ => .deferred 1 d
    | none, none, d :: _ => .deferred 2 d
    | none, none, [] => m.asyncAt x

/-! ### Entry (R118, R133, R134) -/

/-- The reset of a coach is reported to the shunter (R134): the tasks that ran there have lost their state in it. No rule but
those of a rollback lets them go on (log entry 43). -/
def Chip.loseTasks (m : Chip) (c : Fin 64) : Chip :=
  { m with sh := { m.sh with tasks := m.sh.tasks.map fun t =>
      if t.coach = c.val ∧ (t.st = .running ∨ t.st = .leaving) then { t with st := .lost } else t } }

/-- A third fault resets the coach (R33, R134): control unit, vector engine and matrix array, whose pages hold their reset
values (R63). -/
def Chip.thirdFault (m : Chip) (x : Ctx) : Chip :=
  let k := m.ctx x
  let e := { m.recEvent causeFault3 (ctxId x) 0 (coachDomain x.coach.val) with
    coach := some x.coach.val, task := k.task, retired := k.retired }
  let m1 := m.modCoach x.coach fun c =>
    { Coach.reset with dray := c.dray }
  let ids : List (BitVec 16) := [ctxId ⟨x.coach, false⟩, ctxId ⟨x.coach, true⟩]
  let lo := pageBase .coach x.coach.val
  let m2 := ((((Chip.resetPages { m1 with chocks := m1.chocks.filter fun h => !(ids.elem h.master) } lo (lo + 0x3000)).loseTasks
    x.coach).dropMisses ⟨x.coach, 0⟩).endJob (.vec x.coach.val))
  let a := K.rstResetCause
  let cause (w : W64) : W64 := F.rstResetCauseCoachId.put (F.rstResetCauseCoach.put w 1) x.coach.val
  let m3 := ((m2.setReg a (cause (m2.reg a))).holdSources ⟨x.coach, false⟩).holdSources ⟨x.coach, true⟩
  ((m3.report e).logEvent (.reset (cause 0))).syncCoach x.coach

/-- A cause is entered: its registers, and PC from the handler table. A claim that waits ends (R103). -/
def Chip.enterTrap (m : Chip) (x : Ctx) (c : Cause) (ra : W16) (looped : Bool) : Chip :=
  let k := m.ctx x
  if !k.status.stable && k.status.df then m.thirdFault x
  else
    let r := { k with st := .running, wait := .none }.enterRegs c ra looped
    let pc := m.cmWord x.coach (k.trapBase.toNat + r.2)
    (m.setCtx x { r.1 with pc := pc, stale := [], looped := false, entering := none }).claimVec x false

/-- The word on top of the data stack, spilled or not; 0 on an empty stack. -/
def Chip.topWord (m : Chip) (x : Ctx) : W16 :=
  let k := m.ctx x
  match k.bank.ds with
  | a :: _ => a
  | [] => if k.bank.depth = 0 then 0 else m.loadWord x (k.bank.dsp - 1).toNat

/-- The engines' work of a context is made to reach its point (R135, R192, R215); a running VFSUMO stops before element `hi`. -/
def Chip.haltVec (m : Chip) (x : Ctx) (hi : Nat) : Chip :=
  if (m.vec x.coach).q.any (fun e => e.aft == x.aft && e.started && !e.done) then (m.vecHalt x.coach).vecStopSum x.coach hi
  else m

/-- A synchronous fault of the instruction at PC (R116, R121); INFO2 and INFO3 are left open. A stack fault is of supervisor class
and stops what the vector engine runs at an element boundary, VFSUMO before a free element (R118, R192, R215). -/
def Chip.syncFault (m : Chip) (x : Ctx) (v detail : Nat) : Chip :=
  let k := m.ctx x
  let f := Config.freeWord m.tick
  let c : Cause :=
    { v := v, cls := if v = vecStkOvf ∨ v = vecStkUnf then .supervisor else .task, detail := detail,
      info := #v[m.fetchWord x k.pc.toNat, m.topWord x, f.extractLsb' 0 16, f.extractLsb' 16 16] }
  let m1 := if c.cls = .supervisor then (m.next.haltVec x (Config.freeWord (m.tick + 1)).toNat).next else m.next
  m1.enterTrap x c k.pc false

/-- A deferred fault is entered and is no longer pending. -/
def Chip.takeDeferred (m : Chip) (x : Ctx) (kind : Nat) (d : DefFault) : Chip :=
  let k := m.ctx x
  let m1 := match kind with
    | 0 => m.modCtx x fun k => { k with defMtx := none }
    | 1 => m.modCtx x fun k => { k with defVec := none }
    | _ =>
      -- the stream leaves its error (R328)
      (m.modCtx x fun k => { k with defDray := k.defDray.drop 1 }).modStream x.coach
        ⟨d.detail % 8, Nat.mod_lt _ (by decide)⟩ fun t => { t with err := false }
  m1.enterTrap x { v := 0x08 + kind, cls := .task, detail := d.detail, info := d.info } k.pc k.looped

/-- No vector or matrix work of the context is in progress. -/
def Chip.enginesQuiet (m : Chip) (x : Ctx) : Bool :=
  m.vecQuiet x && !((m.mtx x.coach).arr.any fun e => e.aft == x.aft)

/-- An asynchronous event: once taken it is entered when the engines have reached their point (R119, R135) and the stage log has
room for its record (R131). -/
def Chip.takeAsync (m : Chip) (x : Ctx) (bit : Nat) (info : W64) (hi : Nat) : Chip :=
  let m1 := m.haltVec x hi
  if !m1.enginesQuiet x || (!m1.reexec && m1.logStalls 0) then m1.modCtx x fun k => { k with entering := some (bit, info) }
  else
    let k := m1.ctx x
    let m2 := if m1.reexec then m1.logReach else m1.logRec (ctxRec x k (.async (0x10 + bit)) info)
    m2.enterTrap x
      { v := 0x10 + bit, cls := .supervisor, detail := 0,
        info := #v[info.extractLsb' 0 16, info.extractLsb' 16 16, info.extractLsb' 32 16, info.extractLsb' 48 16] }
      k.pc k.looped

/-! ### The brake limit (R128) -/

/-- BRAKE_LIMIT_EXPIRE: one hang report of a BRAKE interval, to the shunter in SHUNT.HANG_REC and to the stage controller.
No rule says what the stage controller does with it: it holds the last. -/
def Chip.brakeExpire (m : Chip) (x : Ctx) : Chip :=
  let k := m.ctx x
  if k.status.brake && !k.hangSent && k.limitNow != 0 then
    let v := x.coach.val + b2n x.aft * 64 + k.pc.toNat * 2 ^ 16 + k.cause.toNat * 2 ^ 32 + k.task.toNat * 2 ^ 48
    let m1 := (m.setReg K.shuntHangRec (BitVec.ofNat 64 v)).event ⟨.shunt, 0⟩ 16
    Chip.modCtx { m1 with stg := { m1.stg with hang := BitVec.ofNat 64 v } } x fun k => { k with hangSent := true }
  else m

end Sys2Proof.Machine
end

