-- ==== Sys2Proof/Machine/Insn.lean ====
section
/-! DEFINITION. One instruction of a context at its boundary: the operation at PC, its plan, and what comes of it (R88,
R112, R117, R120); the instruction rows of the table; TRAP_ENTRY and WAIT_RELEASE. -/
namespace Sys2Proof.Machine

/-- What an operation does. -/
def runOp (o : Op) (m : Chip) (x : Ctx) : Plan :=
  match o with
  | .lit v => semLit v m x
  | .rdsr n => semRdsr n m x
  | .wrsr n => semWrsr n m x
  | .syscall n => semSyscall n m x
  | .vec o s => semVec o s m x
  | .nop => semNop m x
  | .litw => semLitw m x
  | .drop => semDrop m x
  | .dup => semDup m x
  | .swap => semSwap m x
  | .over => semOver m x
  | .rot => semRot m x
  | .nip => semNip m x
  | .tuck => semTuck m x
  | .pick => semPick m x
  | .drop2 => semDrop2 m x
  | .dup2 => semDup2 m x
  | .swap2 => semSwap2 m x
  | .depth => semDepth m x
  | .tor => semTor m x
  | .fromr => semFromr m x
  | .rfetch => semRfetch m x
  | .rdepth => semRdepth m x
  | .add => semAdd m x
  | .adc => semAdc m x
  | .sub => semSub m x
  | .sbb => semSbb m x
  | .neg => semNeg m x
  | .inc => semInc m x
  | .dec => semDec m x
  | .mul => semMul m x
  | .muls => semMuls m x
  | .udivmod => semUdivmod m x
  | .and => semAnd m x
  | .or => semOr m x
  | .xor => semXor m x
  | .not => semNot m x
  | .shl => semShl m x
  | .shr => semShr m x
  | .sar => semSar m x
  | .rol => semRol m x
  | .eq => semEq m x
  | .ne => semNe m x
  | .ltu => semLtu m x
  | .lts => semLts m x
  | .geu => semGeu m x
  | .ges => semGes m x
  | .zeq => semZeq m x
  | .cnt => semCnt m x
  | .fetch => semFetch m x
  | .store => semStore m x
  | .fetchp => semFetchp m x
  | .storep => semStorep m x
  | .fetch4 => semFetch4 m x
  | .store4 => semStore4 m x
  | .br => semBr m x
  | .bz => semBz m x
  | .bnz => semBnz m x
  | .call => semCall m x
  | .ret => semRet m x
  | .brx => semBrx m x
  | .callx => semCallx m x
  | .loop => semLoop m x
  | .endloop => semEndloop m x
  | .lpush => semLpush m x
  | .lpop => semLpop m x
  | .missue => semMissue m x
  | .mwait => semMwait m x
  | .mstat => semMstat m x
  | .drgo => semDrgo m x
  | .drwait => semDrwait m x
  | .drstat => semDrstat m x
  | .waitev => semWaitev m x
  | .sendev => semSendev m x
  | .waituntil => semWaituntil m x
  | .evpoll => semEvpoll m x
  | .evpeek => semEvpeek m x
  | .evclr => semEvclr m x
  | .sysret => semSysret m x
  | .tret => semTret m x
  | .brake => semBrake m x
  | .unbrake => semUnbrake m x
  | .setmode => semSetmode m x
  | .tstable => semTstable m x
  | .vclaim => semVclaim m x
  | .vrel => semVrel m x

/-- The plan of the instruction at PC, with the checks that come before its own: ILLEGAL, PRIV, SYSCALL_OFF (R117). -/
def Chip.planOf (m : Chip) (x : Ctx) : Plan :=
  let k := m.ctx x
  match decodeOp (m.fetchWord x k.pc.toNat) with
  | none => .fault vecIllegal 0
  | some o =>
    if k.status.shadow && o.engine then .fault vecIllegal 1
    else if !k.status.lvl && o.priv then .fault vecPriv 0
    else match o with
      | .syscall n => if k.entryEn.getLsbD n.toNat then runOp o m x else .fault vecSyscallOff n.toNat
      | _ => runOp o m x

/-- A plan takes effect. -/
def Chip.carry (m : Chip) (x : Ctx) : Plan → Chip
  | .done b c upd next =>
    match m.spillAll x b with
    | .ok (m1, b1) => (upd m1).modCtx x fun k => k.complete b1 c (m.lenOf x) next
    | .error (.chock a) => m.chockCtx x a
    | .error (.fault v d) => m.syncFault x v d
    | .error _ => m
  | .fault v d => m.syncFault x v d
  | .chock a => m.chockCtx x a
  | .wait w upd => (upd m).modCtx x fun k => { k with st := .waiting, wait := w }
  | .stall upd => upd m
  | .raw upd => upd m

/-- The coach of the context is clocked. -/
def Chip.coachOn (m : Chip) (c : Fin 64) : Bool := if h : coachDomain c.val < 34 then (m.dom[coachDomain c.val]).run else false

/-- STAGED values of the context's TALLY page are applied at an instruction boundary (R66, R179). -/
def Chip.tallyBoundary (m : Chip) (x : Ctx) : Chip := m.applyStaged ⟨.tally, x.tally⟩

/-- The instruction at PC is executed at its boundary. -/
def Chip.execute (m0 : Chip) (x : Ctx) : Chip :=
  let m := m0.tallyBoundary x
  m.carry x (m.planOf x)

/-- An instruction row: the context runs, nothing comes before its next instruction (R117), and the operation at PC is
one of those that `p` picks; otherwise the instruction is not due. -/
def insn (x : Ctx) (p : Op → Bool) (m : Chip) : Chip :=
  let k := m.ctx x
  let due := match decodeOp (m.fetchWord x k.pc.toNat) with
    | some o => p o
    | none => false
  if k.st == .running && m.coachOn x.coach && m.boundary x == .go && due then m.execute x else m

/-- WAIT_RELEASE: the waiting instruction runs again from its beginning (R99, R103); it goes on waiting while its condition
is not met. -/
def Chip.waitRelease (m : Chip) (x : Ctx) : Chip :=
  if (m.ctx x).st == .waiting && m.coachOn x.coach && m.boundary x == .go then m.execute x else m

/-- WAITUNTIL_EXPIRE: the counter reaches the target of a waiting WAITUNTIL (R102). -/
def Chip.untilExpire (m : Chip) (x : Ctx) : Chip :=
  let k := m.ctx x
  if k.st == .waiting && k.wait == .waituntil then
    match m.fillData x 5 k.bank 5 with
    | .ok b => match untilOf b.ds with
      | some (t, _, _) => (m.setDom (coachDomain x.coach.val) fun d =>
          { d with count := if d.count.toNat < t.toNat then t else d.count }).waitRelease x
      | none => m
    | .error _ => m
  else m

/-- TRAP_ENTRY: the cause that R117 selects at this boundary is taken; a running VFSUMO stops before element `hi`. -/
def Chip.trapEntry (m : Chip) (x : Ctx) (hi : Nat) : Chip :=
  let k := m.ctx x
  if (k.st == .running || k.st == .waiting) && m.coachOn x.coach then
    match m.boundary x with
    | .fetch a => m.chockCtx x a
    | .deferred kind d => (m.tallyBoundary x).takeDeferred x kind d
    | .async bit info => m.takeAsync x bit info hi
    | .go => match m.planOf x with
      | .fault v d => m.syncFault x v d
      | _ => m
    | _ => m
  else m

/-! ### The rows -/

def execTrapEntry (x : Ctx) (hi : Nat) (s : State) : Host.Outcome State Fault Refusal := onCoach x.coach (fun m => m.trapEntry x hi) s
def execWaitRelease (x : Ctx) (s : State) : Host.Outcome State Fault Refusal := onCoach x.coach (fun m => m.waitRelease x) s
def execWaituntilExpire (x : Ctx) (s : State) : Host.Outcome State Fault Refusal := onCoach x.coach (fun m => m.untilExpire x) s
def execEventDeliver (n : Nat) (s : State) : Host.Outcome State Fault Refusal := onChip (fun m => m.deliverEvent n) s
def execVclaimGrant (c : Fin 64) (s : State) : Host.Outcome State Fault Refusal := onCoach c (fun m => m.grantVec c) s
def execVclaimLimitExpire (c : Fin 64) (aft : Bool) (hi : Nat) (s : State) : Host.Outcome State Fault Refusal :=
  onCoach c (fun m => m.claimLimit c aft hi) s
def execIntPendSet (p : PendSource) (s : State) : Host.Outcome State Fault Refusal := onChip (fun m => m.pendSet p) s
def execCmpMatch (x : Ctx) (s : State) : Host.Outcome State Fault Refusal := onChip (fun m => m.cmpMatch x) s
def execBrakeLimitExpire (x : Ctx) (s : State) : Host.Outcome State Fault Refusal := onChip (fun m => m.brakeExpire x) s

/-- LIT with the value `v`. -/
def execLit (x : Ctx) (v : BitVec 15) (s : State) : Host.Outcome State Fault Refusal := onChip (insn x (· == .lit v)) s
/-- RDSR n. -/
def execRdsr (x : Ctx) (n : BitVec 7) (s : State) : Host.Outcome State Fault Refusal := onChip (insn x (· == .rdsr n)) s
/-- WRSR n. -/
def execWrsr (x : Ctx) (n : BitVec 7) (s : State) : Host.Outcome State Fault Refusal := onChip (insn x (· == .wrsr n)) s
/-- SYSCALL n. -/
def execSyscall (x : Ctx) (n : BitVec 4) (s : State) : Host.Outcome State Fault Refusal := onChip (insn x (· == .syscall n)) s

def execNop (x : Ctx) (s : State) : Host.Outcome State Fault Refusal := onChip (insn x (· == .nop)) s
def execLitw (x : Ctx) (s : State) : Host.Outcome State Fault Refusal := onChip (insn x (· == .litw)) s
def execDrop (x : Ctx) (s : State) : Host.Outcome State Fault Refusal := onChip (insn x (· == .drop)) s
def execDup (x : Ctx) (s : State) : Host.Outcome State Fault Refusal := onChip (insn x (· == .dup)) s
def execSwap (x : Ctx) (s : State) : Host.Outcome State Fault Refusal := onChip (insn x (· == .swap)) s
def execOver (x : Ctx) (s : State) : Host.Outcome State Fault Refusal := onChip (insn x (· == .over)) s
def execRot (x : Ctx) (s : State) : Host.Outcome State Fault Refusal := onChip (insn x (· == .rot)) s
def execNip (x : Ctx) (s : State) : Host.Outcome State Fault Refusal := onChip (insn x (· == .nip)) s
def execTuck (x : Ctx) (s : State) : Host.Outcome State Fault Refusal := onChip (insn x (· == .tuck)) s
def execPick (x : Ctx) (s : State) : Host.Outcome State Fault Refusal := onChip (insn x (· == .pick)) s
def execDrop2 (x : Ctx) (s : State) : Host.Outcome State Fault Refusal := onChip (insn x (· == .drop2)) s
def execDup2 (x : Ctx) (s : State) : Host.Outcome State Fault Refusal := onChip (insn x (· == .dup2)) s
def execSwap2 (x : Ctx) (s : State) : Host.Outcome State Fault Refusal := onChip (insn x (· == .swap2)) s
def execDepth (x : Ctx) (s : State) : Host.Outcome State Fault Refusal := onChip (insn x (· == .depth)) s
def execTor (x : Ctx) (s : State) : Host.Outcome State Fault Refusal := onChip (insn x (· == .tor)) s
def execFromr (x : Ctx) (s : State) : Host.Outcome State Fault Refusal := onChip (insn x (· == .fromr)) s
def execRfetch (x : Ctx) (s : State) : Host.Outcome State Fault Refusal := onChip (insn x (· == .rfetch)) s
def execRdepth (x : Ctx) (s : State) : Host.Outcome State Fault Refusal := onChip (insn x (· == .rdepth)) s
def execAdd (x : Ctx) (s : State) : Host.Outcome State Fault Refusal := onChip (insn x (· == .add)) s
def execAdc (x : Ctx) (s : State) : Host.Outcome State Fault Refusal := onChip (insn x (· == .adc)) s
def execSub (x : Ctx) (s : State) : Host.Outcome State Fault Refusal := onChip (insn x (· == .sub)) s
def execSbb (x : Ctx) (s : State) : Host.Outcome State Fault Refusal := onChip (insn x (· == .sbb)) s
def execNeg (x : Ctx) (s : State) : Host.Outcome State Fault Refusal := onChip (insn x (· == .neg)) s
def execInc (x : Ctx) (s : State) : Host.Outcome State Fault Refusal := onChip (insn x (· == .inc)) s
def execDec (x : Ctx) (s : State) : Host.Outcome State Fault Refusal := onChip (insn x (· == .dec)) s
def execMul (x : Ctx) (s : State) : Host.Outcome State Fault Refusal := onChip (insn x (· == .mul)) s
def execMuls (x : Ctx) (s : State) : Host.Outcome State Fault Refusal := onChip (insn x (· == .muls)) s
def execUdivmod (x : Ctx) (s : State) : Host.Outcome State Fault Refusal := onChip (insn x (· == .udivmod)) s
def execAnd (x : Ctx) (s : State) : Host.Outcome State Fault Refusal := onChip (insn x (· == .and)) s
def execOr (x : Ctx) (s : State) : Host.Outcome State Fault Refusal := onChip (insn x (· == .or)) s
def execXor (x : Ctx) (s : State) : Host.Outcome State Fault Refusal := onChip (insn x (· == .xor)) s
def execNot (x : Ctx) (s : State) : Host.Outcome State Fault Refusal := onChip (insn x (· == .not)) s
def execShl (x : Ctx) (s : State) : Host.Outcome State Fault Refusal := onChip (insn x (· == .shl)) s
def execShr (x : Ctx) (s : State) : Host.Outcome State Fault Refusal := onChip (insn x (· == .shr)) s
def execSar (x : Ctx) (s : State) : Host.Outcome State Fault Refusal := onChip (insn x (· == .sar)) s
def execRol (x : Ctx) (s : State) : Host.Outcome State Fault Refusal := onChip (insn x (· == .rol)) s
def execEq (x : Ctx) (s : State) : Host.Outcome State Fault Refusal := onChip (insn x (· == .eq)) s
def execNe (x : Ctx) (s : State) : Host.Outcome State Fault Refusal := onChip (insn x (· == .ne)) s
def execLtu (x : Ctx) (s : State) : Host.Outcome State Fault Refusal := onChip (insn x (· == .ltu)) s
def execLts (x : Ctx) (s : State) : Host.Outcome State Fault Refusal := onChip (insn x (· == .lts)) s
def execGeu (x : Ctx) (s : State) : Host.Outcome State Fault Refusal := onChip (insn x (· == .geu)) s
def execGes (x : Ctx) (s : State) : Host.Outcome State Fault Refusal := onChip (insn x (· == .ges)) s
def execZeq (x : Ctx) (s : State) : Host.Outcome State Fault Refusal := onChip (insn x (· == .zeq)) s
def execCnt (x : Ctx) (s : State) : Host.Outcome State Fault Refusal := onChip (insn x (· == .cnt)) s
def execFetch (x : Ctx) (s : State) : Host.Outcome State Fault Refusal := onChip (insn x (· == .fetch)) s
def execStore (x : Ctx) (s : State) : Host.Outcome State Fault Refusal := onChip (insn x (· == .store)) s
def execFetchp (x : Ctx) (s : State) : Host.Outcome State Fault Refusal := onChip (insn x (· == .fetchp)) s
def execStorep (x : Ctx) (s : State) : Host.Outcome State Fault Refusal := onChip (insn x (· == .storep)) s
def execFetch4 (x : Ctx) (s : State) : Host.Outcome State Fault Refusal := onChip (insn x (· == .fetch4)) s
def execStore4 (x : Ctx) (s : State) : Host.Outcome State Fault Refusal := onChip (insn x (· == .store4)) s
def execBr (x : Ctx) (s : State) : Host.Outcome State Fault Refusal := onChip (insn x (· == .br)) s
def execBz (x : Ctx) (s : State) : Host.Outcome State Fault Refusal := onChip (insn x (· == .bz)) s
def execBnz (x : Ctx) (s : State) : Host.Outcome State Fault Refusal := onChip (insn x (· == .bnz)) s
def execCall (x : Ctx) (s : State) : Host.Outcome State Fault Refusal := onChip (insn x (· == .call)) s
def execRet (x : Ctx) (s : State) : Host.Outcome State Fault Refusal := onChip (insn x (· == .ret)) s
def execBrx (x : Ctx) (s : State) : Host.Outcome State Fault Refusal := onChip (insn x (· == .brx)) s
def execCallx (x : Ctx) (s : State) : Host.Outcome State Fault Refusal := onChip (insn x (· == .callx)) s
def execLoop (x : Ctx) (s : State) : Host.Outcome State Fault Refusal := onChip (insn x (· == .loop)) s
def execEndloop (x : Ctx) (s : State) : Host.Outcome State Fault Refusal := onChip (insn x (· == .endloop)) s
def execLpush (x : Ctx) (s : State) : Host.Outcome State Fault Refusal := onChip (insn x (· == .lpush)) s
def execLpop (x : Ctx) (s : State) : Host.Outcome State Fault Refusal := onChip (insn x (· == .lpop)) s
def execMissue (x : Ctx) (s : State) : Host.Outcome State Fault Refusal := onCoach x.coach (insn x (· == .missue)) s
def execMwait (x : Ctx) (s : State) : Host.Outcome State Fault Refusal := onChip (insn x (· == .mwait)) s
def execMstat (x : Ctx) (s : State) : Host.Outcome State Fault Refusal := onChip (insn x (· == .mstat)) s
def execDrgo (x : Ctx) (s : State) : Host.Outcome State Fault Refusal := onCoach x.coach (insn x (· == .drgo)) s
def execDrwait (x : Ctx) (s : State) : Host.Outcome State Fault Refusal := onChip (insn x (· == .drwait)) s
def execDrstat (x : Ctx) (s : State) : Host.Outcome State Fault Refusal := onChip (insn x (· == .drstat)) s
def execWaitev (x : Ctx) (s : State) : Host.Outcome State Fault Refusal := onChip (insn x (· == .waitev)) s
def execSendev (x : Ctx) (s : State) : Host.Outcome State Fault Refusal := onChip (insn x (· == .sendev)) s
def execWaituntil (x : Ctx) (s : State) : Host.Outcome State Fault Refusal := onChip (insn x (· == .waituntil)) s
def execEvpoll (x : Ctx) (s : State) : Host.Outcome State Fault Refusal := onChip (insn x (· == .evpoll)) s
def execEvpeek (x : Ctx) (s : State) : Host.Outcome State Fault Refusal := onChip (insn x (· == .evpeek)) s
def execEvclr (x : Ctx) (s : State) : Host.Outcome State Fault Refusal := onChip (insn x (· == .evclr)) s
def execSysret (x : Ctx) (s : State) : Host.Outcome State Fault Refusal := onChip (insn x (· == .sysret)) s
def execTret (x : Ctx) (s : State) : Host.Outcome State Fault Refusal := onChip (insn x (· == .tret)) s
def execBrake (x : Ctx) (s : State) : Host.Outcome State Fault Refusal := onChip (insn x (· == .brake)) s
def execUnbrake (x : Ctx) (s : State) : Host.Outcome State Fault Refusal := onChip (insn x (· == .unbrake)) s
def execSetmode (x : Ctx) (s : State) : Host.Outcome State Fault Refusal := onChip (insn x (· == .setmode)) s
def execTstable (x : Ctx) (s : State) : Host.Outcome State Fault Refusal := onChip (insn x (· == .tstable)) s
def execVclaim (x : Ctx) (s : State) : Host.Outcome State Fault Refusal := onCoach x.coach (insn x (· == .vclaim)) s
def execVrel (x : Ctx) (s : State) : Host.Outcome State Fault Refusal := onCoach x.coach (insn x (· == .vrel)) s

/-- A vector instruction: operation `o`, in its scalar form when `sc` (only where the manual lists one). -/
def vinsn (x : Ctx) (o : VOp) (sc : Bool) (s : State) : Host.Outcome State Fault Refusal := onCoach x.coach (insn x (· == .vec o sc)) s

def execVsetvl (x : Ctx) (s : State) : Host.Outcome State Fault Refusal := vinsn x .vsetvl false s
def execVsettype (x : Ctx) (s : State) : Host.Outcome State Fault Refusal := vinsn x .vsettype false s
def execVsetctl (x : Ctx) (s : State) : Host.Outcome State Fault Refusal := vinsn x .vsetctl false s
def execVsetaccs (x : Ctx) (s : State) : Host.Outcome State Fault Refusal := vinsn x .vsetaccs false s
def execVfadd (x : Ctx) (sc : Bool) (s : State) : Host.Outcome State Fault Refusal := vinsn x .vfadd sc s
def execVfsub (x : Ctx) (sc : Bool) (s : State) : Host.Outcome State Fault Refusal := vinsn x .vfsub sc s
def execVfmul (x : Ctx) (sc : Bool) (s : State) : Host.Outcome State Fault Refusal := vinsn x .vfmul sc s
def execVfmin (x : Ctx) (sc : Bool) (s : State) : Host.Outcome State Fault Refusal := vinsn x .vfmin sc s
def execVfmax (x : Ctx) (sc : Bool) (s : State) : Host.Outcome State Fault Refusal := vinsn x .vfmax sc s
def execVfma (x : Ctx) (sc : Bool) (s : State) : Host.Outcome State Fault Refusal := vinsn x .vfma sc s
def execVfms (x : Ctx) (sc : Bool) (s : State) : Host.Outcome State Fault Refusal := vinsn x .vfms sc s
def execVfnma (x : Ctx) (sc : Bool) (s : State) : Host.Outcome State Fault Refusal := vinsn x .vfnma sc s
def execVfsgnj (x : Ctx) (sc : Bool) (s : State) : Host.Outcome State Fault Refusal := vinsn x .vfsgnj sc s
def execVfabs (x : Ctx) (s : State) : Host.Outcome State Fault Refusal := vinsn x .vfabs false s
def execVfneg (x : Ctx) (s : State) : Host.Outcome State Fault Refusal := vinsn x .vfneg false s
def execVfrece (x : Ctx) (s : State) : Host.Outcome State Fault Refusal := vinsn x .vfrece false s
def execVfrsqe (x : Ctx) (s : State) : Host.Outcome State Fault Refusal := vinsn x .vfrsqe false s
def execVfrecs (x : Ctx) (sc : Bool) (s : State) : Host.Outcome State Fault Refusal := vinsn x .vfrecs sc s
def execVfrsqs (x : Ctx) (sc : Bool) (s : State) : Host.Outcome State Fault Refusal := vinsn x .vfrsqs sc s
def execVadd (x : Ctx) (sc : Bool) (s : State) : Host.Outcome State Fault Refusal := vinsn x .vadd sc s
def execVsub (x : Ctx) (sc : Bool) (s : State) : Host.Outcome State Fault Refusal := vinsn x .vsub sc s
def execVmul (x : Ctx) (sc : Bool) (s : State) : Host.Outcome State Fault Refusal := vinsn x .vmul sc s
def execVmulh (x : Ctx) (sc : Bool) (s : State) : Host.Outcome State Fault Refusal := vinsn x .vmulh sc s
def execVmin (x : Ctx) (sc : Bool) (s : State) : Host.Outcome State Fault Refusal := vinsn x .vmin sc s
def execVmax (x : Ctx) (sc : Bool) (s : State) : Host.Outcome State Fault Refusal := vinsn x .vmax sc s
def execVand (x : Ctx) (sc : Bool) (s : State) : Host.Outcome State Fault Refusal := vinsn x .vand sc s
def execVor (x : Ctx) (sc : Bool) (s : State) : Host.Outcome State Fault Refusal := vinsn x .vor sc s
def execVxor (x : Ctx) (sc : Bool) (s : State) : Host.Outcome State Fault Refusal := vinsn x .vxor sc s
def execVshl (x : Ctx) (sc : Bool) (s : State) : Host.Outcome State Fault Refusal := vinsn x .vshl sc s
def execVshr (x : Ctx) (sc : Bool) (s : State) : Host.Outcome State Fault Refusal := vinsn x .vshr sc s
def execVpopc (x : Ctx) (s : State) : Host.Outcome State Fault Refusal := vinsn x .vpopc false s
def execVcvt (x : Ctx) (s : State) : Host.Outcome State Fault Refusal := vinsn x .vcvt false s
def execVrescale (x : Ctx) (s : State) : Host.Outcome State Fault Refusal := vinsn x .vrescale false s
def execVcadd (x : Ctx) (s : State) : Host.Outcome State Fault Refusal := vinsn x .vcadd false s
def execVmv (x : Ctx) (s : State) : Host.Outcome State Fault Refusal := vinsn x .vmv false s
def execVbcast (x : Ctx) (s : State) : Host.Outcome State Fault Refusal := vinsn x .vbcast false s
def execVmerge (x : Ctx) (s : State) : Host.Outcome State Fault Refusal := vinsn x .vmerge false s
def execVmeq (x : Ctx) (sc : Bool) (s : State) : Host.Outcome State Fault Refusal := vinsn x .vmeq sc s
def execVmne (x : Ctx) (sc : Bool) (s : State) : Host.Outcome State Fault Refusal := vinsn x .vmne sc s
def execVmlt (x : Ctx) (sc : Bool) (s : State) : Host.Outcome State Fault Refusal := vinsn x .vmlt sc s
def execVmle (x : Ctx) (sc : Bool) (s : State) : Host.Outcome State Fault Refusal := vinsn x .vmle sc s
def execVmgt (x : Ctx) (sc : Bool) (s : State) : Host.Outcome State Fault Refusal := vinsn x .vmgt sc s
def execVmge (x : Ctx) (sc : Bool) (s : State) : Host.Outcome State Fault Refusal := vinsn x .vmge sc s
def execVfsumo (x : Ctx) (s : State) : Host.Outcome State Fault Refusal := vinsn x .vfsumo false s
def execVfsumt (x : Ctx) (s : State) : Host.Outcome State Fault Refusal := vinsn x .vfsumt false s
def execVxsum (x : Ctx) (s : State) : Host.Outcome State Fault Refusal := vinsn x .vxsum false s
def execVxdot (x : Ctx) (s : State) : Host.Outcome State Fault Refusal := vinsn x .vxdot false s
def execVfmaxr (x : Ctx) (s : State) : Host.Outcome State Fault Refusal := vinsn x .vfmaxr false s
def execVfminr (x : Ctx) (s : State) : Host.Outcome State Fault Refusal := vinsn x .vfminr false s
def execVisum (x : Ctx) (s : State) : Host.Outcome State Fault Refusal := vinsn x .visum false s
def execVimaxr (x : Ctx) (s : State) : Host.Outcome State Fault Refusal := vinsn x .vimaxr false s
def execViminr (x : Ctx) (s : State) : Host.Outcome State Fault Refusal := vinsn x .viminr false s
def execVandr (x : Ctx) (s : State) : Host.Outcome State Fault Refusal := vinsn x .vandr false s
def execVorr (x : Ctx) (s : State) : Host.Outcome State Fault Refusal := vinsn x .vorr false s
def execVxorr (x : Ctx) (s : State) : Host.Outcome State Fault Refusal := vinsn x .vxorr false s
def execVcompress (x : Ctx) (s : State) : Host.Outcome State Fault Refusal := vinsn x .vcompress false s
def execVexpand (x : Ctx) (s : State) : Host.Outcome State Fault Refusal := vinsn x .vexpand false s
def execViota (x : Ctx) (s : State) : Host.Outcome State Fault Refusal := vinsn x .viota false s
def execVid (x : Ctx) (s : State) : Host.Outcome State Fault Refusal := vinsn x .vid false s
def execVrgather (x : Ctx) (s : State) : Host.Outcome State Fault Refusal := vinsn x .vrgather false s
def execVslideup (x : Ctx) (s : State) : Host.Outcome State Fault Refusal := vinsn x .vslideup false s
def execVslidedn (x : Ctx) (s : State) : Host.Outcome State Fault Refusal := vinsn x .vslidedn false s
def execVins (x : Ctx) (s : State) : Host.Outcome State Fault Refusal := vinsn x .vins false s
def execVext (x : Ctx) (s : State) : Host.Outcome State Fault Refusal := vinsn x .vext false s
def execVexth (x : Ctx) (s : State) : Host.Outcome State Fault Refusal := vinsn x .vexth false s
def execVrdcfg (x : Ctx) (s : State) : Host.Outcome State Fault Refusal := vinsn x .vrdcfg false s
def execVmand (x : Ctx) (s : State) : Host.Outcome State Fault Refusal := vinsn x .vmand false s
def execVmor (x : Ctx) (s : State) : Host.Outcome State Fault Refusal := vinsn x .vmor false s
def execVmxor (x : Ctx) (s : State) : Host.Outcome State Fault Refusal := vinsn x .vmxor false s
def execVmandn (x : Ctx) (s : State) : Host.Outcome State Fault Refusal := vinsn x .vmandn false s
def execVmnot (x : Ctx) (s : State) : Host.Outcome State Fault Refusal := vinsn x .vmnot false s
def execVmset (x : Ctx) (s : State) : Host.Outcome State Fault Refusal := vinsn x .vmset false s
def execVmclr (x : Ctx) (s : State) : Host.Outcome State Fault Refusal := vinsn x .vmclr false s
def execVmmv (x : Ctx) (s : State) : Host.Outcome State Fault Refusal := vinsn x .vmmv false s
def execVmpop (x : Ctx) (s : State) : Host.Outcome State Fault Refusal := vinsn x .vmpop false s
def execVmfirst (x : Ctx) (s : State) : Host.Outcome State Fault Refusal := vinsn x .vmfirst false s
def execVldr (x : Ctx) (s : State) : Host.Outcome State Fault Refusal := vinsn x .vldr false s
def execVstr (x : Ctx) (s : State) : Host.Outcome State Fault Refusal := vinsn x .vstr false s
def execVld (x : Ctx) (s : State) : Host.Outcome State Fault Refusal := vinsn x .vld false s
def execVst (x : Ctx) (s : State) : Host.Outcome State Fault Refusal := vinsn x .vst false s
def execVlds (x : Ctx) (s : State) : Host.Outcome State Fault Refusal := vinsn x .vlds false s
def execVsts (x : Ctx) (s : State) : Host.Outcome State Fault Refusal := vinsn x .vsts false s
def execVldx (x : Ctx) (s : State) : Host.Outcome State Fault Refusal := vinsn x .vldx false s
def execVstx (x : Ctx) (s : State) : Host.Outcome State Fault Refusal := vinsn x .vstx false s

end Sys2Proof.Machine
end

