-- ==== Sys2Proof/Machine/OnChip.lean ====
section
/-! DEFINITION. The commands of the CMEM, DEPOT and HBM pages, accesses to core memory, the depot and the stacks, and
patrol (R278, R284, R294, R299 to R302, R307, R310, R316 to R318). -/
namespace Sys2Proof.Machine

/-! ### Accesses -/

/-- An access to memory by a master: `data` for a write; a read of `n` bytes. -/
structure MemAcc where
  m : BitVec 16
  cls : Nat
  addr : Nat
  len : Nat
  data : Option (List Byte)
  deriving DecidableEq, Repr

/-- The access is served; its answer crosses to the master. -/
def Chip.serve (m : Chip) (q : MemAcc) (noalloc : Bool) : Chip :=
  match q.data with
  | some l =>
    let r := m.fabWrite q.m q.cls q.addr l noalloc none
    r.1.emit (.access q.m q.addr (if r.2 then some [] else none))
  | none =>
    let r := m.fabRead q.m q.cls q.addr q.len noalloc
    r.1.emit (.access q.m q.addr r.2)

/-- CMEM_FABRIC_ACCESS (R278, R285). -/
def Chip.cmemAccess (m : Chip) (q : MemAcc) : Chip :=
  match regionOf q.addr with
  | .core _ _ _ => m.serve q false
  | _ => m

/-- A parity error that a read finds (R307): a clean line is fetched again; a dirty line, or addressable memory, is
reported. -/
def Chip.depotParity (m : Chip) (a : Nat) : Chip :=
  let dirtyAt (m : Chip) (s : Nat) : Chip :=
    let m1 := (m.record (depotPage s) 0x82 0 none (some a) 4).event (depotPage s) 17
    m1.report { m1.recEvent causeDepot (BitVec.ofNat 16 (0xA000 + s)) a 4 with demand := true }
  match regionOf a with
  | .hbm =>
    let sl := m.stackOf a
    let l := sl.2 / 256
    let k := m.slice sl.1
    match k.lines.find? (·.line == l), k.boot.find? (·.line == l) with
    | some d, _ => if d.dirty then dirtyAt m sl.1
      else (((m.modSlice sl.1 fun k => { k with lines := k.lines.filter (·.line != l) }).count (K.depotParityFixed sl.1) 1).record
        (depotPage sl.1) 0x81 0 none (some a) 4).event (depotPage sl.1) 17
    | none, some d => if d.dirty then dirtyAt m sl.1
      else (((m.modSlice sl.1 fun k => { k with boot := k.boot.filter (·.line != l) }).count (K.depotParityFixed sl.1) 1).record
        (depotPage sl.1) 0x81 0 none (some a) 4).event (depotPage sl.1) 17
    | none, none => m
  | .depot s _ => dirtyAt m s
  | _ => m

/-- The parity error is in state that must be repaired before the access can go on. -/
def Chip.parityStops (m : Chip) (a : Nat) : Bool :=
  match regionOf a with
  | .hbm =>
    let sl := m.stackOf a
    let k := m.slice sl.1
    k.lines.any (fun d => d.line == sl.2 / 256 && d.dirty) || k.boot.any (fun d => d.line == sl.2 / 256 && d.dirty)
  | .depot _ _ => true
  | _ => false

/-- DEPOT_ACCESS (R292, R294, R299): served at its slice, or held while a SPLIT adds its eighth, while a parity error or a
bad block is repaired (R307, R317). -/
def Chip.depotAccess (m : Chip) (q : MemAcc) (noalloc parity : Bool) : Chip :=
  let n := match q.data with
    | some l => l.length
    | none => q.len
  let h := heldReq q.m q.cls q.addr q.data n noalloc
  if n ≠ 0 ∧ m.splitHeld q.cls q.addr n then m.holdAccess h
  else match regionOf q.addr with
    | .hbm | .depot _ _ | .depotHole =>
      let m1 := if parity then m.depotParity q.addr else m
      if parity && m.parityStops q.addr then { m1 with crcHeld := m1.crcHeld ++ [{ h with parity := true }] }
      else if m1.crcHolds q.data.isSome noalloc q.addr n then m1.holdAccess h
      else (m1.serve q noalloc).scratchRead (if idKind q.m = 2 then
          (m1.ctx ⟨⟨idIndex q.m / 2 % 64, Nat.mod_lt _ (by decide)⟩, idIndex q.m % 2 == 1⟩).task else 0) q.addr
            (if q.data.isNone then q.len else 0)
    | _ => m

/-- A scrub reads a block, whose CRC fails `fails` times (R317, R318). -/
def Chip.scrubBlock (m : Chip) (b fails : Nat) (master : BitVec 16) : Chip :=
  if m.badCrc.elem b ∨ 2 ≤ fails then (m.markBad b).crcError (b * 64) 2 master
  else if fails = 1 then m.count (K.hbmCrcRetry (m.stackOf (b * 64)).1) 1
  else m

/-- The issuer of the running scrub pass. -/
def Chip.scrubber (m : Chip) (s : Nat) : BitVec 16 :=
  BitVec.ofNat 16 (m.fld (K.pageCmdStat (hbmPage s).base) F.pageCmdStatIssuer)

/-- The running pass of a stack goes on to stack-local address `to`: every block before it has been read, in ascending
order, and the bad ones are found (R318); PROGRESS follows the address. -/
def Chip.scrubTo (m : Chip) (s hi : Nat) : Chip :=
  let pos := m.fld (K.hbmScrubPos s) F.hbmScrubPosAddr
  if hi ≤ pos ∨ 2 ^ 36 ≤ pos then m
  else
    let found := m.badCrc.filter fun b =>
      let sl := m.stackOf (b * 64)
      decide (sl.1 = s ∧ pos ≤ sl.2 ∧ sl.2 < hi)
    let rec' := found.mergeSort fun x y => decide ((m.stackOf (x * 64)).2 ≤ (m.stackOf (y * 64)).2)
    let m1 := rec'.foldl (fun m b => m.crcError (b * 64) 2 (m.scrubber s)) (m.count (K.hbmRdBytes s) (hi - pos))
    (m1.setFld (K.hbmScrubPos s) F.hbmScrubPosAddr hi).setFld (K.pageCmdStat (hbmPage s).base) F.pageCmdStatProgress
      (min 999 (hi * 1000 / 2 ^ 36))

/-- The class of a master's read that reaches the stack (R319): translation and the stage controller 1; a stream that of its running
descriptor; a context that of its running vector access, else 2 for a fetch; every other master 3. -/
def Chip.masterClass (m : Chip) (master : BitVec 16) : Nat :=
  let c (n : Nat) : Fin 64 := ⟨n % 64, Nat.mod_lt _ (by decide)⟩
  match idKind master with
  | 2 => match (m.coach (c (idIndex master / 2))).vec.q with
    | e :: _ => if e.aft == (idIndex master % 2 == 1) && !e.flight.isEmpty then (e.cfg.map e.cls).getD 3 else 2
    | [] => 2
  | 3 => (((m.coach (c (idIndex master / 8))).dray[idIndex master % 8]'(Nat.mod_lt _ (by decide))).q.head?.map DDesc.cls).getD 3
  | 8 => if master = hubId .xlat ∨ master = stageId then 1 else 3
  | _ => 3

/-- HBM_READ (R317): the block at `a` is read; `fails` tells how often its CRC fails now, `scrub` whether a scrub or
prefetch reads it. A block that is known bad fails twice; a demand access to it is held. A read of the running pass takes the
pass past its block. -/
def Chip.hbmRead (m : Chip) (master : BitVec 16) (a fails : Nat) (scrub : Bool) : Chip :=
  match regionOf a with
  | .hbm =>
    let sl := m.stackOf a
    let s := sl.1
    let b := a / 64
    let l := sl.2 / 64 * 64
    if scrub then
      if m.busy (hbmPage s) && decide (m.fld (K.hbmScrubPos s) F.hbmScrubPosAddr ≤ l) then
        let m1 := m.scrubTo s l
        let m2 := if 2 ≤ fails then m1.markBad b
          else if fails = 1 ∧ m1.badCrc.elem b = false then m1.count (K.hbmCrcRetry s) 1 else m1
        if l + 64 < 2 ^ 36 then m2.scrubTo s (l + 64) else m2
      else (m.count (K.hbmRdBytes s) 64).scrubBlock b fails master
    else
      let m1 := m.count (K.hbmRdBytes s) 64
      let f := if m.badCrc.elem b then 2 else fails
      let data (m : Chip) : Chip := m.emit (.access master a (some (m.rdBytes (b * 64) 64)))
      if f = 0 then data m1
      else if f = 1 then data (m1.count (K.hbmCrcRetry s) 1)
      else
        let m2 := (m1.markBad b).crcError (b * 64) 0 master
        { m2 with crcHeld := m2.crcHeld ++ [heldReq master (m.masterClass master) (b * 64) none 64 true] }
  | _ => m

/-- HBM_WRITE (R316, R437): `fails` tells how often the CRC of the first and of the last block fails when it is read for a
merge. -/
def Chip.hbmPut (m : Chip) (master : BitVec 16) (a : Nat) (l : List Byte) (fails : Nat × Nat) : Chip :=
  match regionOf a with
  | .hbm =>
    if m.inMirror a ∧ master ≠ stageId then m.mirrorWrite master a l.length none
    else ((m.stackBytes (m.stackOf a).1 a l.length true).hbmWrite a l master fails).tagWrite master a l.length none
  | _ => m

/-! ### CMEM commands (R284, R310) -/

/-- Quarters that hold a row of a valid partition. -/
def Chip.usedQuarters (m : Chip) (c : Nat) : Nat → Bool := fun q =>
  (List.range 8).any fun i =>
    let w := m.reg (K.cmemPart c i)
    let b := F.cmemPartBase.get w
    F.cmemPartValid.bit w && decide (b / 2048 ≤ q ∧ q ≤ (b + F.cmemPartLim.get w) / 2048)

/-- QPOWER at its acceptance. -/
def Chip.qpower (m : Chip) (c : Nat) (l : Launch) : Chip :=
  let p := cmemPage c
  let old := m.fld (K.cmemQpwr c) F.cmemQpwrOn
  let new := l.arg.toNat
  if 16 ≤ new then m.endCmd p cmdBadArg
  else
    let off := (List.range 4).filter fun q => old.testBit q && !new.testBit q
    if off.any (m.usedQuarters c) then m.endCmd p cmdNotIdle
    else
      let m1 := off.foldl (fun m q => m.zeroMem (rowAddr c (2048 * q)) (2048 * 512)) m
      let rdy := m.fld (K.cmemQpwr c) F.cmemQpwrReady
      let m2 := (m1.setFld (K.cmemQpwr c) F.cmemQpwrOn new).setFld (K.cmemQpwr c) F.cmemQpwrReady (Nat.land rdy new)
      if Nat.land rdy new = new then m2.endCmd p cmdOk else m2

/-- QUARTER_READY: quarter `q`, turned on, reads zero; QPOWER ends with the last one. -/
def Chip.quarterReady (m : Chip) (c q : Nat) : Chip :=
  let on := m.fld (K.cmemQpwr c) F.cmemQpwrOn
  let rdy := m.fld (K.cmemQpwr c) F.cmemQpwrReady
  if on.testBit q && !rdy.testBit q then
    let m1 := (m.zeroMem (rowAddr c (2048 * q)) (2048 * 512)).setFld (K.cmemQpwr c) F.cmemQpwrReady (rdy + 2 ^ q)
    if rdy + 2 ^ q = on ∧ m.busy (cmemPage c) ∧ m.cmdCode (cmemPage c) = 1 then m1.endCmd (cmemPage c) cmdOk else m1
  else m

/-- First row and number of rows of a ZERO command. -/
def zeroRange (arg : Nat) : Nat × Nat := (arg % 8192, arg / 8192 % 8192 + 1)

/-- A ZERO of a coach begins with its first row. -/
def Chip.zeroBegin (m : Chip) (c : Nat) : Chip := { m with zeroed := smapSet (fun _ => 0) m.zeroed c 0 }

/-- ZERO at its acceptance: the argument check. -/
def Chip.zeroCheck (m : Chip) (c : Nat) (l : Launch) : Chip :=
  let r := zeroRange l.arg.toNat
  if 2 ^ 26 ≤ l.arg.toNat ∨ 8192 < r.1 + r.2 then m.endCmd (cmemPage c) cmdBadArg
  else m.zeroBegin c

/-- Rows become zero, one at a time and counted; those of a quarter that is off are skipped. -/
def Chip.zeroRows (m : Chip) (c first n : Nat) : Chip :=
  (List.range n).foldl (fun m i =>
    if m.rowReady c (first + i) then (m.zeroMem (rowAddr c (first + i)) 512).count (K.cmemRowsWr c) 1 else m) m

/-- The running ZERO of a coach writes its next rows, up to `n` of them; PROGRESS follows. -/
def Chip.zeroOn (m : Chip) (c n : Nat) : Chip :=
  let r := zeroRange (m.cmdArg (cmemPage c))
  let pos := smapGet (fun _ => 0) m.zeroed c
  let k := min n (r.2 - pos)
  { (m.zeroRows c (r.1 + pos) k).setFld (K.pageCmdStat (cmemPage c).base) F.pageCmdStatProgress (min 999 ((pos + k) * 1000 / r.2)) with
    zeroed := smapSet (fun _ => 0) m.zeroed c (pos + k) }

/-- The end of ZERO: its last rows are written. -/
def Chip.zeroEnd (m : Chip) (c : Nat) : Chip := (m.zeroOn c 8192).endCmd (cmemPage c) cmdOk

/-- BUFZERO at its acceptance. -/
def Chip.bufzeroCheck (m : Chip) (c : Fin 64) (l : Launch) : Chip :=
  let a := m.mtx c
  if l.arg ≠ 0 then m.endCmd (cmemPage c) cmdBadArg
  else if !a.queue.isEmpty || !a.arr.isEmpty || (m.coach c).dray.toList.any (·.active) then m.endCmd (cmemPage c) cmdNotIdle
  else m

def Chip.bufzeroEnd (m : Chip) (c : Nat) : Chip := (m.obufZero c).endCmd (cmemPage c) cmdOk

/-! ### DEPOT commands (R299 to R302) -/

/-- A staging post or a rollback is being performed (R302). -/
def Chip.stageMoves (m : Chip) : Bool := m.stg.post == .quiesce || m.stg.post == .mirror || m.stg.rb != .none

def Chip.splitStart (m : Chip) (s : Nat) (l : Launch) : Chip :=
  let p := depotPage s
  let a := l.arg.toNat
  if 8 < a then m.endCmd p cmdBadArg
  else if m.stageMoves then m.endCmd p cmdNotIdle
  else if a = m.eighths s then m.endCmd p cmdOk
  else (m.setFld (K.depotSplit s) F.depotSplitPendA a).modSlice s fun k => { k with walk := 0 }

/-- What a walk does with a line that it meets: writes it back or not, and leaves the line as it is then, or nothing. -/
def Chip.walkLine (m : Chip) (s : Nat) (d : DLine) : Option DLine :=
  match m.cmdCode (depotPage s) with
  | 1 => if 16 - 2 * m.pendEighths s ≤ d.way then none else some d
  | 2 => some { d with dirty := false }
  | _ => none

/-- The walk of the running command passes the sets up to `n`: dirty lines that leave or are flushed are written back
(R299, R301). PROGRESS counts sets, and for a SPLIT the eighths that it still has to clear as one set each. -/
def Chip.walkTo (m : Chip) (s n : Nat) : Chip :=
  let k := m.slice s
  let hi := min n 8192
  let met (d : DLine) : Bool := decide (k.walk ≤ lineSet d.line ∧ lineSet d.line < hi)
  let back := k.lines.filter fun d => met d && d.dirty && m.walkLine s d != some d
  let e := if m.cmdCode (depotPage s) = 1 then max (m.eighths s) (m.pendEighths s) - min (m.eighths s) (m.pendEighths s) else 0
  let m1 := m.modSlice s fun k =>
    { k with lines := k.lines.filterMap fun d => if met d then m.walkLine s d else some d, walk := max k.walk hi }
  (back.foldl (fun m d => m.writeBack s d.line) m1).setFld (K.pageCmdStat (depotPage s).base) F.pageCmdStatProgress
    (min 999 (max k.walk hi * 1000 / (8192 + e)))

/-- The end of SPLIT: the walk is over, leaving lines are gone, added eighths are zero. -/
def Chip.splitEnd (m : Chip) (s : Nat) : Chip :=
  let a0 := m.eighths s
  let a1 := m.pendEighths s
  let m1 := (m.walkTo s 8192).modSlice s fun k => { k with raised := false, walk := 0 }
  let base := depotBase + s * 0x2000000
  let m2 := m1.zeroMem (base + min a0 a1 * 0x400000) ((max a0 a1 - min a0 a1) * 0x400000)
  let m3 := (m2.setFld (K.depotSplit s) F.depotSplitA a1).setFld (K.depotSplit s) F.depotSplitCways (16 - 2 * a1)
  m3.endCmd (depotPage s) cmdOk

/-- FLUSH and FLUSH_INVAL at their acceptance. -/
def Chip.flushStart (m : Chip) (s : Nat) (l : Launch) : Chip :=
  if l.arg ≠ 0 then m.endCmd (depotPage s) cmdBadArg
  else if m.stageMoves then m.endCmd (depotPage s) cmdNotIdle
  else m.modSlice s fun k => { k with walk := 0 }

/-- The end of a flush: the walk has passed the ways, and the boot follows; its lines stay valid or not. -/
def Chip.flushEnd (m : Chip) (s : Nat) (inval : Bool) : Chip :=
  let m1 := m.walkTo s 8192
  let back := (m1.slice s).boot.filter (·.dirty)
  let m2 := back.foldl (fun m b => m.writeBack s b.line) m1
  let m3 := m2.modSlice s fun k =>
    { k with boot := if inval then [] else k.boot.map fun d => { d with dirty := false }, raised := false, walk := 0 }
  m3.endCmd (depotPage s) cmdOk

/-- WRITEBACK_RAISE: what a running command still has to write back goes on in class 3 (R299). -/
def Chip.raiseWritebacks (m : Chip) (s : Nat) : Chip :=
  if m.busy (depotPage s) then m.modSlice s fun k => { k with raised := true } else m

/-! ### Scrub (R318) -/

abbrev patrolId : BitVec 16 := 0x8031

def Chip.scrubStart (m : Chip) (s : Nat) (l : Launch) : Chip :=
  if l.arg ≠ 0 then m.endCmd (hbmPage s) cmdBadArg else m.setReg (K.hbmScrubPos s) 0

/-- The end of a pass: the rest of the stack has been read (R318). -/
def Chip.scrubEnd (m : Chip) (s : Nat) : Chip :=
  let m1 := m.scrubTo s (2 ^ 36)
  let patrol := m.scrubber s = patrolId
  let m2 := ((m1.count (K.hbmScrubPasses s) 1).setReg (K.hbmScrubPos s) 0).endCmd (hbmPage s) cmdOk
  if patrol then m2.event (hbmPage s) 17 else m2

/-- PATROL_START: the controller starts a pass itself. -/
def Chip.patrolStart (m : Chip) (s : Nat) : Chip :=
  if m.flag (K.hbmScrubCtl s) F.hbmScrubCtlPatrol && !m.busy (hbmPage s) && decide (8 ≤ m.phase) then
    let l : Launch := { m := patrolId, tag := 0, arg := 0, gen := none }
    (m.beginCmd (hbmPage s) 1 l).scrubStart s l
  else m

/-! ### The rows -/

def execCmemFabricAccess (w : BitVec 16) (cls a n : Nat) (d : Option (List Byte)) (s : State) : Host.Outcome State Fault Refusal :=
  onHbm (fun m => m.cmemAccess ⟨w, cls, a, n, d⟩) s
def execDepotAccess (w : BitVec 16) (cls a n : Nat) (d : Option (List Byte)) (noalloc parity : Bool) (s : State) :
    Host.Outcome State Fault Refusal :=
  onHbm (fun m => m.depotAccess ⟨w, cls, a, n, d⟩ noalloc parity) s
def execDepotLineFill (i : Fin 16) (l : Nat) (s : State) : Host.Outcome State Fault Refusal := onHbm (fun m => m.lineFill i l) s
def execHbmRead (w : BitVec 16) (a fails : Nat) (scrub : Bool) (s : State) : Host.Outcome State Fault Refusal :=
  onHbm (fun m => m.hbmRead w a fails scrub) s
def execHbmWrite (w : BitVec 16) (a : Nat) (d : List Byte) (fails : Nat × Nat) (s : State) : Host.Outcome State Fault Refusal :=
  onHbm (fun m => m.hbmPut w a d fails) s
def execQpower (c : Fin 64) (l : Launch) (s : State) : Host.Outcome State Fault Refusal :=
  onChip (fun m => m.issue (cmemPage c) 1 l fun l m => m.qpower c l) s
def execQuarterReady (c : Fin 64) (q : Fin 4) (s : State) : Host.Outcome State Fault Refusal := onChip (fun m => m.quarterReady c q) s
def execZero (c : Fin 64) (l : Launch) (s : State) : Host.Outcome State Fault Refusal :=
  onChip (fun m => m.issue (cmemPage c) 2 l fun l m => m.zeroCheck c l) s
def execBufzero (c : Fin 64) (l : Launch) (s : State) : Host.Outcome State Fault Refusal :=
  onChip (fun m => m.issue (cmemPage c) 3 l fun l m => m.bufzeroCheck c l) s
def execSplit (i : Fin 16) (l : Launch) (s : State) : Host.Outcome State Fault Refusal :=
  onChip (fun m => m.issue (depotPage i) 1 l fun l m => m.splitStart i l) s
def execFlush (i : Fin 16) (l : Launch) (s : State) : Host.Outcome State Fault Refusal :=
  onChip (fun m => m.issue (depotPage i) 2 l fun l m => m.flushStart i l) s
def execFlushInval (i : Fin 16) (l : Launch) (s : State) : Host.Outcome State Fault Refusal :=
  onChip (fun m => m.issue (depotPage i) 3 l fun l m => m.flushStart i l) s
def execWritebackRaise (i : Fin 16) (s : State) : Host.Outcome State Fault Refusal := onChip (fun m => m.raiseWritebacks i) s
def execScrub (i : Fin 16) (l : Launch) (s : State) : Host.Outcome State Fault Refusal :=
  onChip (fun m => m.issue (hbmPage i) 1 l fun l m => m.scrubStart i l) s
def execPatrolStart (i : Fin 16) (s : State) : Host.Outcome State Fault Refusal := onChip (fun m => m.patrolStart i) s

end Sys2Proof.Machine
end

