-- ==== Sys2Proof/Machine/XlatRun.lean ====
section
/-! DEFINITION. Walks, outriders, the fault queue and invalidation (R346 to R373). -/
namespace Sys2Proof.Machine

def xlatPage : PageId := ⟨.xlat, 0⟩
def invalPage : PageId := ⟨.inval, 0⟩

/-! ### Walks (R347) -/

/-- VA bits that select the entry of level `lvl` (4: the ASID-table entry). -/
def walkSel (lvl page : Nat) : Nat :=
  match lvl with
  | 4 => 0
  | 3 => page / 2 ^ 39
  | 2 => page / 2 ^ 26
  | 1 => page / 2 ^ 13
  | _ => page

/-- Index of a page in a table of level `lvl`. -/
def walkIndex (lvl page : Nat) : Nat := if lvl = 3 then walkSel 3 page % 4 else walkSel lvl page % 8192

/-- The read of a walk: counted, and sent over the host link when its table lies there. -/
def Chip.walkRead (m : Chip) (r : Nat) (w : XWalk) : Chip :=
  let m1 := m.count K.xlatWalkReads 1
  if w.host then
    let s := m1.takeSer
    s.1.hostRead none w.addr 8 (hubId .xlat) 0 w.addr (.walk r w.id) s.2
  else m1

/-- The deepest walk-cache entry that covers a page: its level and the entry. -/
def XRake.deepest (k : XRake) (asid : W16) (page : Nat) : Option (Nat × W64) :=
  ([1, 2, 3, 4] : List Nat).findSome? fun l =>
    (k.wc.find? fun p => p.asid == asid && p.level == l && p.sel == walkSel l page).map fun p => (l, p.entry)

/-- Where a walk goes from a pointer entry of level `lvl`: level, host, address of the next entry. -/
def walkNext (lvl : Nat) (e : W64) (page : Nat) : Nat × Bool × Nat :=
  let t := if lvl = 4 then asidTable e else nextTable e
  (lvl - 1, t.2, t.1 + 8 * walkIndex (lvl - 1) page)

/-- First read of a walk: from the walk cache, or the ASID table. -/
def Chip.walkFrom (m : Chip) (r : Nat) (asid : W16) (page : Nat) : Nat × Bool × Nat :=
  match (m.xrake r).deepest asid page with
  | some (l, e) => walkNext l e page
  | none =>
    let t := m.reg K.xlatAsidTbl
    (4, F.xlatAsidTblHost.bit t, F.xlatAsidTblAddr.get t * 32768 + asid.toNat % 4096 * 8)

def Chip.modWalk (m : Chip) (r id : Nat) (f : XWalk → XWalk) : Chip :=
  m.modRake r fun k => { k with walks := k.walks.map fun w => if w.id = id then f w else w }

def Chip.dropWalk (m : Chip) (r id : Nat) : Chip :=
  m.modRake r fun k => { k with walks := k.walks.filter (·.id != id) }

/-- A burst of the unit waits for the translation that has failed. -/
def DUnit.waitsFor (u : DUnit) (q : XMiss) : Bool :=
  !u.failed && u.writing == q.write &&
    (if u.writing then u.wr else u.rd).any fun p => p.st == .planned && decide (p.a.toNat / 65536 = q.va / 65536)

/-- The requester of a failed access stops (R353). -/
def Chip.stopReq (m : Chip) (q : XMiss) : Chip :=
  if q.req.engine = 0 then m.vecHalt q.req.coach
  else m.drayFaulted q.req.coach ⟨(q.req.engine - 1) % 8, by omega⟩ (·.waitsFor q)

/-! ### Advice and fault records (R354, R368, R369) -/

/-- The value of an attribute for a page: the most recent range that covers it. -/
def Chip.adviceOf (m : Chip) (asid : W16) (page attr : Nat) : Nat :=
  match m.xlat.advice.reverse.find? fun a => a.asid == asid && a.attr == attr && decide (a.page ≤ page ∧ page < a.page + a.pages) with
  | some a => a.value
  | none => 0

/-- The eight words of a fault record. -/
def Chip.faultWords (m : Chip) (f : XFault) (advisory : Bool) (coaches : Nat) (engines : Nat) (task : W16) : List W64 :=
  let w0 := f.seq.toNat + (f.asid.toNat % 4096) * 2 ^ 32 + f.cause * 2 ^ 44 + (f.level % 4) * 2 ^ 48 + b2n f.write * 2 ^ 50
    + b2n advisory * 2 ^ 51 + (m.adviceOf f.asid f.page 1 % 4) * 2 ^ 52 + (m.adviceOf f.asid f.page 2 % 2) * 2 ^ 54
    + b2n m.xlat.phase * 2 ^ 63
  [BitVec.ofNat 64 w0, BitVec.ofNat 64 (f.va % 2 ^ 57), BitVec.ofNat 64 coaches,
    BitVec.ofNat 64 (engines + task.toNat * 2 ^ 16), f.stamp, 0, 0, 0]

/-- The numbers of a list as the bits of a word. -/
def bitsOfList (l : List Nat) : Nat := l.eraseDups.foldl (fun a i => a + 2 ^ i) 0

def XFault.coaches (f : XFault) : Nat := bitsOfList (f.reqs.map (·.1.coach.val))
def XFault.engines (f : XFault) : Nat := bitsOfList (f.reqs.map (·.1.engine))

def Chip.faultQSize (m : Chip) : Nat := 2 ^ m.fld K.faultQCtl F.faultQCtlLog2size

/-- The ring has no space (R355). -/
def Chip.faultQFull (m : Chip) : Bool :=
  decide ((m.fld K.faultQTail F.faultQTailIndex + 1) % m.faultQSize = m.fld K.faultQHead F.faultQHeadIndex % m.faultQSize)

/-- Where the next record goes (R355). -/
def Chip.faultSlot (m : Chip) : Nat := m.fld K.faultQBase F.faultQBaseAddr * 4096 + m.fld K.faultQTail F.faultQTailIndex * 64

/-- The memory that the next record goes to holds the write (R299, R317). -/
def Chip.faultSlotHeld (m : Chip) : Bool := !m.flag K.faultQBase F.faultQBaseHost && m.devHeld 1 true false m.faultSlot 64

/-- A record is written at Q_TAIL, which advances (R355). -/
def Chip.putRecord (m : Chip) (ws : List W64) : Chip :=
  let tail := m.fld K.faultQTail F.faultQTailIndex
  let a := m.faultSlot
  let bytes := ws.flatMap fun w => leBytes 8 w.toNat
  let m1 := if m.flag K.faultQBase F.faultQBaseHost then
      let s := m.takeSer
      s.1.hostWrite none a bytes s.2 .record
    else (m.devWrite (hubId .fault) 1 a bytes false none).1
  let next := (tail + 1) % m.faultQSize
  let m2 := m1.setFld K.faultQTail F.faultQTailIndex next
  let m3 := if next = 0 then { m2 with xlat := { m2.xlat with phase := !m2.xlat.phase } } else m2
  m3.event faultPage 16

/-- FAULT_RECORD_WRITE: the oldest open entry whose record is not written; a full ring is told once more. -/
def Chip.faultWrite (m : Chip) : Chip :=
  match m.xlat.faults.find? (!·.written) with
  | none => m
  | some f =>
    if !m.flag K.faultQCtl F.faultQCtlEn then m
    else if m.faultQFull then m.event faultPage 17
    else if m.faultSlotHeld then m.crcNote (hubId .fault) true false m.faultSlot 64
    else
      let task := match f.reqs with
        | r :: _ => r.2
        | [] => 0
      let m1 := m.putRecord (m.faultWords f false f.coaches f.engines task)
      { m1 with xlat := { m1.xlat with faults := m1.xlat.faults.map fun (g : XFault) =>
          if g.seq = f.seq then { g with written := true } else g } }

def execFaultRecordWrite (s : State) : Host.Outcome State Fault Refusal := onChip Chip.faultWrite s

/-- The SEQ of an advisory record is left open: a free value among the numbers that have been passed already, and none of an
open entry, so that no RESOLVE of it finds one (R356). -/
def Chip.advisorySeq (m : Chip) : W32 :=
  let v : W32 := BitVec.ofNat 32 (m.fld K.faultSeqNext F.faultSeqNextSeq) - 1 - BitVec.ofNat 32 ((Config.freeWord m.tick).toNat % 2 ^ 31)
  (((List.range 65).map fun i => v - BitVec.ofNat 32 i).find? fun s => !m.xlat.faults.any (·.seq == s)).getD v

/-- The advisory record of an outrider (R351, R355). -/
def Chip.advisory (m : Chip) (asid : W16) (page cause level : Nat) (c : Fin 64) (s : Nat) : Chip :=
  if !m.flag K.faultQCtl F.faultQCtlEn || m.faultQFull then m.count K.faultAdvLost 1
  else
    let side := m.streamSide c s
    let f : XFault :=
      { seq := m.advisorySeq, asid := asid, page := page, cause := cause, level := level, write := false,
        va := page * 65536, reqs := [], stamp := m.stamp 32, written := true }
    m.next.putRecord (m.faultWords f true (2 ^ c.val) (2 ^ (1 + s)) (m.ctx ⟨c, side⟩).task)

/-! ### The end of a walk -/

/-- The misses that a walk serves. -/
def XMiss.served (q : XMiss) (r : Nat) (w : XWalk) : Bool :=
  decide (q.req.coach.val / 16 = r) && q.asid == w.asid && decide (q.va / 65536 = w.page)

/-- An outrider that meets a faulting entry stops walking the tile; the first of a tile makes an advisory record (R350,
R351). -/
def Chip.outriderFail (m : Chip) (w : XWalk) (cause level : Nat) : Chip :=
  match w.outrider with
  | none => m
  | some (c, s, tile) => match m.xlat.ahead.find? fun h => h.coach == c && h.stream == s && h.asid == w.asid with
    | none => m
    | some h =>
      let m1 : Chip := { m with xlat := { m.xlat with ahead := m.xlat.ahead.map fun (g : XAhead) =>
        if g = h then { g with pages := g.pages.filter (·.2 != tile), dead := if g.dead.elem tile then g.dead else g.dead ++ [tile] }
        else g } }
      if h.adv && !h.dead.elem tile then m1.advisory w.asid w.page cause level c s else m1

/-- A walk fails: every requester that waits for its page fails. LEVEL of a cause outside the tables is left open. -/
def Chip.walkFail (m : Chip) (r : Nat) (w : XWalk) (cause level : Nat) : Chip :=
  let qs := m.xlat.miss.filter (·.served r w)
  let m1 : Chip := { m.dropWalk r w.id with xlat := { (m.dropWalk r w.id).xlat with
    miss := m.xlat.miss.filter (!·.served r w) } }
  let lvl := if level ≤ 3 then level else (Config.freeWord m.tick).toNat % 4
  let m2 := qs.foldl (fun m q => (m.xfault q cause lvl).stopReq q) m1.next
  m2.outriderFail w cause lvl

/-- A walk ends with a leaf: it fills the translation cache, and the TLBs of the coaches that wait for it. One that forbids
an access that waits for it causes a fault, and is not cached (R343). -/
def Chip.walkDone (m : Chip) (r : Nat) (w : XWalk) (leaf : W64) (block : Bool) : Chip :=
  let l : XLeaf := { asid := w.asid, page := w.page, block := block, leaf := leaf, ref := true }
  let qs := m.xlat.miss.filter (·.served r w)
  let m1 := (m.dropWalk r w.id).modRake r fun k => { k with tc := leafPut 16384 l k.tc }
  let gone (m : Chip) : Chip := { m with xlat := { m.xlat with miss := m.xlat.miss.filter (!·.served r w) } }
  let bad := qs.filterMap fun q => (forbids leaf q.write q.sup).map fun c => (q, c)
  if bad.isEmpty then ((qs.map (·.req.coach)).eraseDups).foldl (fun m c => m.modTlb c (leafPut 512 l)) (gone m1)
  else bad.foldl (fun m e => (m.xfault e.1 e.2 0).stopReq e.1) ((gone (m.dropWalk r w.id)).dropLeaf w.asid w.page)

/-- An entry that a walk has read, or an error (R347, R352). -/
def Chip.walkEntry (m : Chip) (r : Nat) (w : XWalk) (d : Option W64) : Chip :=
  if w.again then
    let f := m.walkFrom r w.asid w.page
    let w' := { w with again := false, level := f.1, host := f.2.1, addr := f.2.2 }
    if m.flag K.xlatAsidTbl F.xlatAsidTblEn then (m.modWalk r w.id fun _ => w').walkRead r w' else m.walkFail r w xNoAsid 4
  else match d with
    | none => m.walkFail r w xWalkErr w.level
    | some e =>
      let goOn : Chip :=
        let f := walkNext w.level e w.page
        let w' := { w with level := f.1, host := f.2.1, addr := f.2.2 }
        let p : XPtr := { asid := w.asid, level := w.level, sel := walkSel w.level w.page, entry := e, ref := true }
        ((m.modRake r fun k => { k with wc := ptrPut p k.wc }).modWalk r w.id fun _ => w').walkRead r w'
      if w.level = 4 then (if !entV e || asidMalformed e then m.walkFail r w xNoAsid 4 else goOn)
      else if !entV e then m.walkFail r w xNotValid w.level
      else if malformed e w.level then m.walkFail r w xBadEntry w.level
      else if entLeaf e then m.walkDone r w e (decide (w.level = 1))
      else goOn

/-- WALK_READ_RESPONSE: a read of a table in device memory returns; it is held where its block's CRC fails or a SPLIT
brings its eighth (R317, R299). -/
def Chip.walkResponse (m : Chip) (r : Fin 4) (id : Nat) : Chip :=
  match (m.xrake r.val).walks.find? (·.id == id) with
  | none => m
  | some w =>
    if w.host then m
    else if m.devHeld (if w.demand then 1 else 4) false false w.addr 8 then m.crcNote (hubId .xlat) false false w.addr 8
    else
      let d := m.devRead (hubId .xlat) (if w.demand then 1 else 4) w.addr 8 false
      d.1.walkEntry r.val w (d.2.map fun l => BitVec.ofNat 64 (leNat l))

def execWalkReadResponse (r : Fin 4) (id : Nat) (s : State) : Host.Outcome State Fault Refusal :=
  onChip (fun m => m.walkResponse r id) s

/-- The entry that a read of a host table brings. -/
def Chip.walkDeliver (m : Chip) (r id : Nat) (d : Option (List Byte)) : Chip :=
  match (m.xrake r).walks.find? (·.id == id) with
  | none => m
  | some w => m.walkEntry r w (d.map fun l => BitVec.ofNat 64 (leNat l))

/-! ### Starting walks -/

/-- A walk is under way for a page. -/
def XRake.walking (k : XRake) (asid : W16) (page : Nat) : Bool := k.walks.any fun w => w.asid == asid && w.page == page

/-- A walk starts on a free walker. -/
def Chip.walkStart (m : Chip) (r : Nat) (asid : W16) (page : Nat) (demand : Bool) (o : Option (Fin 64 × Nat × Nat)) : Chip :=
  let f := m.walkFrom r asid page
  let w : XWalk :=
    { id := m.xlat.walk, asid := asid, page := page, level := f.1, host := f.2.1, addr := f.2.2, demand := demand,
      outrider := o, again := false }
  let m1 : Chip := { m with xlat := { m.xlat with walk := m.xlat.walk + 1 } }
  let m2 := m1.modRake r fun k => { k with walks := k.walks ++ [w] }
  let m3 := if demand then m2.count K.xlatWalks 1 else m2
  if m.flag K.xlatAsidTbl F.xlatAsidTblEn then m3.walkRead r w else m3.walkFail r w xNoAsid 4

/-- The demand misses of a rake that no walk serves. -/
def Chip.unwalked (m : Chip) (r : Nat) : List XMiss :=
  m.xlat.miss.filter fun q => decide (q.req.coach.val / 16 = r) && !((m.xrake r).walking q.asid (q.va / 65536))

/-- PAGE_WALK: the next demand walk in rotation among the coaches, the oldest of the first coach behind the one served last (R347); with none, a page that advice names (R369). -/
def Chip.pageWalk (m : Chip) (r : Fin 4) : Chip :=
  let k := m.xrake r.val
  if 4 ≤ k.walks.length then m
  else match m.unwalked r.val with
    | [] => match k.want with
      | (asid, page) :: t =>
        let m1 := m.modRake r.val fun k => { k with want := t }
        if k.walking asid page || k.tc.any (·.maps asid page) then m1 else m1.walkStart r.val asid page false none
      | [] => m
    | q0 :: qs =>
      let far (q : XMiss) : Nat := (q.req.coach.val % 16 + 15 - k.last.val) % 16
      let q := qs.foldl (fun b d => if far d < far b then d else b) q0
      let m1 := m.modRake r.val fun k => { k with last := ⟨q.req.coach.val % 16, Nat.mod_lt _ (by decide)⟩ }
      m1.walkStart r.val q.asid (q.va / 65536) true none

def execPageWalk (r : Fin 4) (s : State) : Host.Outcome State Fault Refusal := onChip (fun m => m.pageWalk r) s

/-- OUTRIDER_WALK: the next page of the tiles ahead of a stream, while its task runs, no demand walk waits and fewer than two walkers
serve outriders (R350). Pages already translated or being walked are passed. -/
def Chip.outriderWalk (m : Chip) (c : Fin 64) (s : Fin 8) : Chip :=
  let r := c.val / 16
  let k := m.xrake r
  match m.xlat.ahead.find? fun h => h.coach == c && h.stream == s.val with
  | none => m
  | some h =>
    let side : Ctx := ⟨c, m.streamSide c s.val⟩
    let going := ((m.ctx side).st == .running || (m.ctx side).st == .waiting) && (m.ctx side).task == h.task
    let rest := h.pages.dropWhile fun p => k.walking h.asid p.1 || k.tc.any (·.maps h.asid p.1)
    let keep (l : List (Nat × Nat)) : Chip := { m with xlat := { m.xlat with ahead := m.xlat.ahead.map fun (g : XAhead) =>
      if g.coach == c && g.stream == s.val then { g with pages := l } else g } }
    if !going || !(m.unwalked r).isEmpty || decide (4 ≤ k.walks.length)
        || decide (2 ≤ (k.walks.filter (!·.demand)).length) then m
    else match rest with
      | [] => keep []
      | (p, tile) :: t => ((keep t).count K.xlatOrWalks 1).walkStart r h.asid p false (some (c, s.val, tile))

def execOutriderWalk (c : Fin 64) (s : Fin 8) (st : State) : Host.Outcome State Fault Refusal :=
  onChip (fun m => m.outriderWalk c s) st

/-! ### The fault page (R371) -/

/-- Setting Q_CTL.EN restarts the ring. -/
def Chip.faultRestart (m : Chip) : Chip :=
  let m1 := (m.setFld K.faultQTail F.faultQTailIndex 0).setFld K.faultQHead F.faultQHeadIndex 0
  { m1 with xlat := { m1.xlat with phase := true } }

/-- The entry of a SEQ. -/
def Chip.faultOf (m : Chip) (seq : Nat) : Option XFault := m.xlat.faults.find? fun f => decide (f.seq.toNat = seq)

/-- An entry closes; the requesters that stopped for want of one retry (R353). -/
def Chip.closeFault (m : Chip) (f : XFault) : Chip :=
  Chip.syncOpen { m with xlat := { m.xlat with faults := m.xlat.faults.filter (·.seq != f.seq), full := [] } }

/-- Advice ACCESSED_BY makes the rakes of its mask walk a page whose entry is retried (R369). -/
def Chip.adviceWalks (m : Chip) (f : XFault) : Chip :=
  let mask := m.adviceOf f.asid f.page 3
  (List.range 4).foldl (fun m r =>
    if mask.testBit r then m.modRake r fun k => { k with want := k.want ++ [(f.asid, f.page)] } else m) m

/-! ### Invalidation (R358 to R363) -/

/-- FIFO_STAT. -/
def Chip.syncFifo (m : Chip) : Chip :=
  (m.setFld K.invalFifoStat F.invalFifoStatDepth m.xlat.fifo.length).setFld K.invalFifoStat F.invalFifoStatStall
    (b2n (!m.xlat.stalled.isEmpty))

/-- A descriptor enters the FIFO, or waits on its link while 256 are there (R358). -/
def Chip.invalPut (m : Chip) (d : InvDesc) : Chip :=
  Chip.syncFifo (if m.xlat.fifo.length < 256 then { m with xlat := { m.xlat with fifo := m.xlat.fifo ++ [d] } }
    else { m with xlat := { m.xlat with stalled := m.xlat.stalled ++ [d] } })

def InvDesc.op (d : InvDesc) : Nat := d.words[0].toNat % 256
def InvDesc.asid (d : InvDesc) : W16 := BitVec.ofNat 16 (d.words[0].toNat / 256 % 4096)
def InvDesc.seq (d : InvDesc) : Nat := d.words[0].toNat / 2 ^ 32
def InvDesc.page (d : InvDesc) : Nat := d.words[1].toNat / 65536
def InvDesc.count (d : InvDesc) : Nat := d.words[2].toNat % 2 ^ 32

/-- A bad descriptor (R359): another OP, a reserved field, a count of 0 or a range past 2^57 of PAGES, a base that is not
64-byte aligned. -/
def InvDesc.bad (d : InvDesc) : Bool :=
  decide (4 ≤ d.op ∨ d.words[0].toNat / 2 ^ 20 % 2 ^ 12 ≠ 0 ∨ d.words[1].toNat / 2 ^ 57 ≠ 0 ∨ d.words[2].toNat / 2 ^ 32 ≠ 0
    ∨ d.words[3].toNat % 64 ≠ 0) ||
  (decide (d.op = 1) && decide (d.words[1].toNat % 65536 ≠ 0 ∨ d.count = 0 ∨ 2 ^ 41 < d.page + d.count))

/-- The leaf is removed by a descriptor (R360). -/
def InvDesc.removesLeaf (d : InvDesc) (l : XLeaf) : Bool :=
  match d.op with
  | 1 => l.asid == d.asid &&
    (if l.block then decide (l.page / 8192 * 8192 < d.page + d.count ∧ d.page < l.page / 8192 * 8192 + 8192)
      else decide (d.page ≤ l.page ∧ l.page < d.page + d.count))
  | 2 => l.asid == d.asid
  | 3 => true
  | _ => false

def InvDesc.removesPtr (d : InvDesc) (p : XPtr) : Bool :=
  match d.op with
  | 1 | 2 => p.asid == d.asid
  | 3 => true
  | _ => false

/-- A walk whose result it may remove walks again. -/
def InvDesc.removesWalk (d : InvDesc) (w : XWalk) : Bool :=
  match d.op with
  | 1 | 2 => w.asid == d.asid
  | 3 => true
  | _ => false

/-- What a descriptor removes, from every cache in one step. -/
def Chip.invalidate (m : Chip) (d : InvDesc) : Chip :=
  { m with xlat := { m.xlat with
      tlb := m.xlat.tlb.map fun l => l.filter (!d.removesLeaf ·)
      rake := m.xlat.rake.map fun k =>
        { k with
          tc := k.tc.filter (!d.removesLeaf ·), wc := k.wc.filter (!d.removesPtr ·)
          walks := k.walks.map fun w => if d.removesWalk w then { w with again := true } else w } } }

/-- INVAL_ACCEPT: the head of the FIFO. -/
def Chip.invalAccept (m : Chip) : Chip :=
  match m.xlat.fifo with
  | [] => m
  | d :: t =>
    let bad := d.bad
    let x := m.xlat
    let fifo := t ++ x.stalled.take 1
    let drain : InvDrain := { desc := d, bad := bad, upto := x.ser, accAt := m.counter 32, raised := false }
    let m1 := Chip.syncFifo { m with xlat := { x with fifo := fifo, stalled := x.stalled.drop 1, drains := x.drains ++ [drain] } }
    let m2 := m1.setFld K.invalLastAcc F.invalLastAccSeq d.seq
    if bad then (m2.count K.invalBadDesc 1).event invalPage 17 else m2.invalidate d

/-- A piece of device memory that was issued with a number below `n` is in the list. -/
def segsBefore (n : Nat) (l : List XSeg) : Bool := l.any fun s => s.isDev && decide (s.ser < n)

def LinkEnd.before (e : LinkEnd) (n : Nat) : Bool :=
  e.replay.any fun p => match p.ser with
    | some k => decide (k < n)
    | none => false

/-- An access issued with a number below `n` has not drained (R362). -/
def Chip.undrained (m : Chip) (n : Nat) : Bool :=
  (m.coaches.toList.any fun k =>
    (k.vec.q.any fun e => e.flight.any fun f => segsBefore n f.segs) ||
    (k.dray.toList.any fun t => t.units.any fun u =>
      segsBefore n (((u.rd ++ u.wr).filter (·.st == .sent)).filterMap (·.seg)))) ||
  (m.host.reads.any fun r => !r.sent && decide (r.ser < n)) || (m.host.held.any fun w => decide (w.ser < n)) ||
  (m.sf.wait.any fun w => decide (w.ser < n)) ||
  (m.sf.port.toList.any fun p => p.flit.before n || p.wait.any fun w => match w.ser with
    | some k => decide (k < n)
    | none => false) ||
  (m.sf.eth.any fun e => e.2.before n)

/-- A packet of an access issued with a number below `n` goes on in class 1. -/
def Packet.raise (k : Packet) (ser : Option Nat) (n : Nat) : Packet :=
  if ser.any fun s => decide (s < n) then { k with cls := 0 } else k

/-- DRAIN_RAISE: accesses that a descriptor still waits for are raised to class 1 on every hop that remains: those at their
memory (`clsNow`), and what waits for a port. -/
def Chip.drainRaise (m : Chip) : Chip :=
  let up (d : InvDrain) : InvDrain := if m.undrained d.upto then { d with raised := true } else d
  let ds := m.xlat.drains.map up
  let n := ((ds.filter (·.raised)).map (·.upto)).foldl max 0
  { m with
    xlat := { m.xlat with drains := ds }
    sf := { m.sf with
      wait := m.sf.wait.map fun w => if w.ser < n then { w with cls := 0 } else w
      port := m.sf.port.map fun p => { p with wait := p.wait.map fun w => { w with pkt := w.pkt.raise w.ser n } } } }

def execDrainRaise (s : State) : Host.Outcome State Fault Refusal := onChip Chip.drainRaise s

/-- A write on a link, whatever its address names. -/
def Chip.linkWrite (m : Chip) (l a : Nat) (bytes : List Byte) : Chip :=
  let f := linkPf l
  if m.bme f && !(m.host.held.any (·.link == l)) then m.emitWrite f a bytes
  else Chip.syncHeld { m with host := { m.host with held := m.host.held ++ [⟨l, f, a, bytes, m.xlat.ser, .inval⟩] } }

/-- INVAL_COMPLETION: the oldest accepted descriptor has drained. -/
def Chip.invalComplete (m : Chip) : Chip :=
  match m.xlat.drains with
  | [] => m
  | d :: t =>
    if m.undrained d.upto then m
    else
      let m1 : Chip := { m with xlat := { m.xlat with drains := t } }
      let l := d.desc.link.val
      let ns := ((m.counter 32 - d.accAt).toNat * 2500) / 1000
      let m2 := if m1.fld K.invalDrainMax F.invalDrainMaxNs < ns then
          m1.setFld K.invalDrainMax F.invalDrainMaxNs (min ns (2 ^ 32 - 1)) else m1
      if !m2.linkUp l then (m2.count K.invalLostCpl 1).event invalPage 18
      else
        let slot := m2.fld K.invalSlot F.invalSlotSlot
        let w0 := d.desc.seq + slot * 2 ^ 32 + b2n d.bad * 2 ^ 48
        let m3 := m2.linkWrite l (d.desc.words[3].toNat + slot * 16) (leBytes 8 w0 ++ leBytes 8 (m2.stamp 32).toNat)
        ((m3.setFld K.invalLastDone F.invalLastDoneSeq d.desc.seq).count K.invalDoneCount 1).event invalPage 16

def execInvalCompletion (s : State) : Host.Outcome State Fault Refusal := onChip Chip.invalComplete s

/-! ### Multicast (R358, R412) -/

/-- A posted write lies in the multicast window of a link whose group the link receives. -/
def Chip.inMulticast (m : Chip) (l : Fin 2) (a : Nat) : Bool :=
  let base := m.host.mcBase[l.val]
  let size := m.host.mcSize[l.val]
  decide (size ≠ 0 ∧ base ≤ a ∧ (a - base) / size < 64) && (m.host.mcRecv[l.val]).getLsbD ((a - base) / size)

/-- INVAL_MULTICAST: a 32-byte aligned posted write in the window is a descriptor; another write there is discarded. -/
def Chip.invalMulticast (m : Chip) (l : Fin 2) (a : Nat) (bytes : List Byte) : Chip :=
  if !m.linkUp l.val || !m.inMulticast l a then m
  else if m.linkStalled l then m.waitBehind l (.mcast a bytes)
  else if a % 32 = 0 ∧ bytes.length = 32 then
    m.invalPut { words := Vector.ofFn fun i => BitVec.ofNat 64 (leNat ((bytes.drop (8 * i.val)).take 8)), link := l }
  else (m.count K.invalBadDesc 1).count K.hostifMcDrop 1

def execInvalMulticast (l : Fin 2) (a : Nat) (bytes : List Byte) (s : State) : Host.Outcome State Fault Refusal :=
  onChip (fun m => m.invalMulticast l a bytes) s

end Sys2Proof.Machine
end

