-- ==== Sys2Proof/Machine/Queue.lean ====
section
/-! DEFINITION. Submission queues, the entries taken from them and their completions (R375 to R383, R366 to R369). -/
namespace Sys2Proof.Machine

def shuntPage : PageId := ⟨.shunt, 0⟩
def dbPage (q : Nat) : PageId := ⟨.doorbell, q⟩
abbrev shuntId : BitVec 16 := 0x8006

def Chip.modShunt (m : Chip) (f : Shunter → Shunter) : Chip := { m with sh := f m.sh }

/-- The shunter takes, places, dispatches, preempts and switches nothing (R400, R452, R460). -/
def Chip.shuntHold (m : Chip) : Bool :=
  m.stg.post == .quiesce || m.stg.post == .mirror || m.stg.rb != .none || m.stageState == 5

/-- SHUNT_CTL.EN, and nothing holds the shunter; in a held failure the rails of the coaches and of memory are down (R48). -/
def Chip.shuntGoes (m : Chip) : Bool := m.flag K.shuntShuntCtl F.shuntShuntCtlEn && !m.shuntHold && !m.board.heldFail

/-! ### Rings (R375 to R377, R404) -/

def Chip.sqSize (m : Chip) (q : Nat) : Nat := 2 ^ clamp 4 16 (m.fld (K.doorbellQctl q) F.doorbellQctlSqLog2)
def Chip.cqSize (m : Chip) (q : Nat) : Nat := 2 ^ clamp 4 16 (m.fld (K.doorbellQctl q) F.doorbellQctlCqLog2)

/-- What the shunter keeps of a queue beside its page. -/
def Chip.qstate (m : Chip) (q : Nat) : QState :=
  (m.sh.queues.find? (·.queue == q)).getD { queue := q, phase := true, ended := 0, wrote := 0 }

def Chip.setQstate (m : Chip) (k : QState) : Chip :=
  m.modShunt fun s => { s with queues := k :: s.queues.filter (·.queue != k.queue) }

/-- Entries of a queue that are taken and not completed. -/
def Chip.taken (m : Chip) (q : Nat) : Nat :=
  (m.sh.entries.filter (·.queue == q)).length + (m.sh.tasks.filter (·.queue == q)).length

/-- Free slots of a completion ring: the ring is full when one slot is left, since equal indices mean an empty one. -/
def Chip.cqFree (m : Chip) (q : Nat) : Nat :=
  let n := m.cqSize q
  let t := m.fld (K.doorbellCqTail q) F.doorbellCqTailIndex
  let h := m.fld (K.doorbellCqHead q) F.doorbellCqHeadIndex
  n - 1 - (t + n - h % n) % n

/-- An entry is pending in a queue that may give it up. -/
def Chip.mayTake (m : Chip) (q : Nat) : Bool :=
  m.flag (K.doorbellQctl q) F.doorbellQctlEn
    && m.fld (K.doorbellSqHead q) F.doorbellSqHeadIndex != m.fld (K.doorbellSqTail q) F.doorbellSqTailIndex % m.sqSize q
    && decide (m.taken q + 1 ≤ m.cqFree q)

/-- The next queue in rotation; while 2,048 tasks are held (`full`), a queue whose next entry is known to be a TASK is passed
over (R377). -/
def Chip.nextQueue (m : Chip) (full : Bool) : Option Nat :=
  ((List.range 1024).map fun i => (m.sh.last + 1 + i) % 1024).find? fun q => m.mayTake q && !(full && m.sh.skip.elem q)

/-- The doorbell (R376): a write of SQ_TAIL; BAD_DB when it is not below the ring size. -/
def Chip.doorbell (m : Chip) (q v : Nat) : Chip :=
  if v < m.sqSize q then m.setFld (K.doorbellSqTail q) F.doorbellSqTailIndex v else m.event (dbPage q) 16

/-- Setting QCTL.EN restarts both rings at index 0 with PHASE 1; a recorded doorbell is kept (R376, R404). -/
def Chip.restartQueue (m : Chip) (q : Nat) : Chip :=
  let m1 := ((m.setFld (K.doorbellSqHead q) F.doorbellSqHeadIndex 0).setFld (K.doorbellCqTail q) F.doorbellCqTailIndex 0).setFld
    (K.doorbellCqHead q) F.doorbellCqHeadIndex 0
  (m1.setQstate { m1.qstate q with phase := true }).modShunt fun s => { s with skip := s.skip.filter (· != q) }

/-! ### Entry words (R378) -/

def wbits (w : W64) (hi lo : Nat) : Nat := w.toNat / 2 ^ lo % 2 ^ (hi + 1 - lo)

def entryType (w : W64) : Nat := wbits w 7 0
def entryOrder (w : W64) : Bool := w.getLsbD 8
def entryIrq (w : W64) : Bool := w.getLsbD 9
def entryTag (w : W64) : Nat := wbits w 31 16

abbrev tTask : Nat := 0x01
abbrev tXfer : Nat := 0x02
abbrev tPost : Nat := 0x03
abbrev tEnd : Nat := 0x04
abbrev tMigrate : Nat := 0x10
abbrev tAdvise : Nat := 0x11

/-- Fields that a body other than a TASK's or a MIGRATE's must leave 0 (R368, R382). -/
def bodyReserved (w : Vector W64 8) : Bool :=
  let rest (l : List (Fin 8)) : Bool := l.any fun i => w[i] != 0
  match entryType w[0] with
  | 0x02 => decide (wbits w[3] 63 34 ≠ 0) || rest [4, 5, 6, 7]
  | 0x11 => decide (wbits w[1] 63 57 ≠ 0 ∨ wbits w[2] 63 44 ≠ 0 ∨ wbits w[3] 63 12 ≠ 0 ∨ wbits w[3] 7 4 ≠ 0)
      || rest [4, 5, 6, 7]
  | _ => false

/-- Another TYPE, or a reserved field that is not 0 (R378). -/
def badHeader (w : Vector W64 8) : Bool :=
  !(([tTask, tXfer, tPost, tEnd, tMigrate, tAdvise] : List Nat).elem (entryType w[0]))
    || decide (wbits w[0] 15 10 ≠ 0 ∨ wbits w[0] 63 32 ≠ 0) || bodyReserved w

/-! ### Completions (R380, R381) -/

abbrev stOk : Nat := 0x00
abbrev stBadType : Nat := 0x01
abbrev stBadArg : Nat := 0x02
abbrev stNoSpace : Nat := 0x03
abbrev stEnded : Nat := 0x04
abbrev stAborted : Nat := 0x05
abbrev stFenced : Nat := 0x06
abbrev stRbAbort : Nat := 0x07
abbrev stNoTask : Nat := 0x08
abbrev stXferErr : Nat := 0x09
abbrev stTaskFail : Nat := 0x0A

/-- The record in its slot, in class 1; CQ_TAIL and PHASE go on. Completions carry the physical function of their link
(R411). -/
def Chip.writeCompletion (m : Chip) (q : Nat) (head : W64) (status result task : Nat) : Chip :=
  let tail := m.fld (K.doorbellCqTail q) F.doorbellCqTailIndex
  let k := m.qstate q
  let w0 := entryTag head + q * 2 ^ 16 + status * 2 ^ 32 + entryType head * 2 ^ 40 + b2n k.phase * 2 ^ 63
  let w1 := result % 2 ^ 32 + task * 2 ^ 32
  let s := m.takeSer
  let m1 := s.1.hostWrite none (m.fld (K.doorbellCqBase q) F.doorbellCqBaseAddr * 4096 + tail * 16)
    (leBytes 8 w0 ++ leBytes 8 w1) s.2 .record
  let next := (tail + 1) % m.cqSize q
  let m2 := m1.setFld (K.doorbellCqTail q) F.doorbellCqTailIndex next
  if next = 0 then m2.setQstate { k with phase := !k.phase } else m2

/-- An entry ends: its mark, its record unless a re-execution wrote it before the rollback (R401), and its message. It
waits (none) for its mark. -/
def Chip.complete (m : Chip) (q : Nat) (head : W64) (status result task : Nat) : Option Chip :=
  let k := m.qstate q
  let ord := k.ended + 1
  (m.markOut .markCompletion shuntId (BitVec.ofNat 16 task) (q + ord * 2 ^ 32)).map fun m1 =>
    let m2 := m1.setQstate { k with ended := ord }
    let m3 := if m.reexec && decide (ord ≤ k.wrote) then m2 else m2.writeCompletion q head status result task
    if entryIrq head then
      m3.sendMsix (m3.fld (K.doorbellQctl q) F.doorbellQctlFunc) (m3.fld (K.doorbellQctl q) F.doorbellQctlVec)
    else m3

def Chip.dropSEntry (m : Chip) (e : SEntry) : Chip :=
  m.modShunt fun s => { s with entries := s.entries.filter (·.order != e.order) }

/-- An entry other than an accepted TASK completes. -/
def Chip.finish (m : Chip) (e : SEntry) (status result : Nat) : Chip :=
  match m.complete e.queue e.words[0] status result 0 with
  | some m1 => m1.dropSEntry e
  | none => m.markWait

/-! ### Taking entries (R377, R378, R401) -/

/-- An entry is taken: it waits for its turn, or completes at once when its header is bad. -/
def Chip.putEntry (m : Chip) (q index : Nat) (w : Vector W64 8) : Chip :=
  let e : SEntry := { queue := q, index := index, ord := m.sh.taken, words := w, order := m.sh.order, started := false, aim := 0 }
  let m1 := m.modShunt fun s => { s with entries := s.entries ++ [e], order := s.order + 1, taken := s.taken + 1 }
  if badHeader w then m1.finish e stBadType 0 else m1

/-- Tasks held, counted from acceptance, and TASK entries that are taken. -/
def Chip.tasksHeld (m : Chip) : Nat :=
  m.sh.tasks.length + (m.sh.entries.filter fun e => entryType e.words[0] == tTask && !badHeader e.words).length

/-- The words of an entry from the payload of its record. -/
def wordsOf (l : List Byte) : Vector W64 8 := Vector.ofFn fun i => BitVec.ofNat 64 (leNat ((l.drop (8 * i.val)).take 8))

/-- ENTRY_TAKE: an entry that waits only for its BAD_TYPE completion gets it; else, in a re-execution the next entry of the
log is taken, and live the one of queue `q`, whose ring slot holds `w`. While 2,048 tasks are held a TASK entry stays in its
ring, SQ_HEAD with it, and the rotation goes on to the other queues (R377). -/
def Chip.entryTake (m : Chip) (q : Nat) (w : Vector W64 8) : Chip :=
  if !m.shuntGoes then m
  else match m.sh.entries.find? fun e => badHeader e.words with
    | some e => m.finish e stBadType 0
    | none =>
      if m.reexec then match m.logHead with
        | some r =>
          if r.kind = .entry then
            let q := r.value.toNat % 1024
            let i := r.value.toNat / 65536 % 65536
            let w := wordsOf r.payload
            if m.stg.aborted.elem m.sh.taken then m.logReach.modShunt fun s => { s with taken := s.taken + 1 }
            else if decide (2048 ≤ m.tasksHeld) && entryType w[0] == tTask then m
            else m.logReach.putEntry q i w
          else m
        | none => m
      else
        let index := m.fld (K.doorbellSqHead q) F.doorbellSqHeadIndex
        let full := decide (2048 ≤ m.tasksHeld)
        let a := m.fld (K.doorbellSqBase q) F.doorbellSqBaseAddr * 4096 + index * 64
        let r := m.hostRoute a
        let f := linkPf r.1
        let n := (m.readParts f r.2 64).length
        if m.nextQueue full != some q || !m.linkUp r.1 || !m.bme f || decide (768 < m.readsOut r.1 + n) then m
        else if full && entryType w[0] == tTask then m.modShunt fun s => { s with skip := q :: s.skip }
        else if m.logStalls 64 then m.logBlocked
        else
          let m1 := (m.emitRead f r.2 64 m.host.nextId (m.freeTags r.1 n)).setFld (K.doorbellSqHead q) F.doorbellSqHeadIndex ((index + 1) % m.sqSize q)
          let m2 := { m1 with host := { m1.host with nextId := m1.host.nextId + 1 } }
          let m3 := (m2.count (K.doorbellEntries q) 1).logData .entry shuntId 0 (q + index * 2 ^ 16)
            (w.toList.flatMap fun v => leBytes 8 v.toNat)
          (m3.modShunt fun s => { s with last := q, skip := if full then s.skip else [] }).putEntry q index w

def execEntryTake (q : Fin 1024) (w : Vector (BitVec 64) 8) (s : State) : Host.Outcome State Fault Refusal :=
  onChip (fun m => m.entryTake q.val w) s

/-- ORDER: every earlier entry of the queue has completed. -/
def Chip.inOrder (m : Chip) (e : SEntry) : Bool :=
  !entryOrder e.words[0] ||
    (!(m.sh.entries.any fun f => f.queue == e.queue && decide (f.order < e.order))
      && !(m.sh.tasks.any fun t => t.queue == e.queue && decide (t.order < e.order)))

/-- The oldest entry of a type that may start and satisfies `p`. -/
def Chip.nextEntry (m : Chip) (type : Nat) (p : SEntry → Bool) : Option SEntry :=
  m.sh.entries.find? fun e => entryType e.words[0] == type && !badHeader e.words && m.inOrder e && p e

/-- The entry starts. -/
def Chip.startEntryOf (m : Chip) (e : SEntry) (aim : W16) : Chip :=
  let up (f : SEntry) : SEntry := if f.order = e.order then { f with started := true, aim := aim } else f
  m.modShunt fun s => { s with entries := s.entries.map up }

/-! ### Limits of the queue (R379) -/

def Chip.asidOk (m : Chip) (q asid : Nat) : Bool :=
  m.flag (K.doorbellQctl q) F.doorbellQctlAsidAny || decide (asid = m.fld (K.doorbellQctl q) F.doorbellQctlAsid)

def Chip.privOk (m : Chip) (q : Nat) : Bool := m.flag (K.doorbellQctl q) F.doorbellQctlPriv

/-! ### ADVISE (R368) -/

def Chip.syncAdvice (m : Chip) : Chip := m.setFld K.xlatAdvUsed F.xlatAdvUsedCount m.xlat.advice.length

/-- The range of an ADVISE entry; none when a field is out of range. -/
def adviseOf (w : Vector W64 8) : Option XAdvice :=
  let attr := wbits w[3] 3 0
  let value := wbits w[3] 11 8
  let pages := wbits w[2] 31 0
  if w[1].toNat % 65536 ≠ 0 ∨ pages = 0 ∨ attr = 0 ∨ 4 < attr ∨ (attr = 1 ∧ 2 < value) ∨ (attr = 2 ∧ 1 < value) then none
  else some
    { asid := BitVec.ofNat 16 (wbits w[2] 43 32), page := wbits w[1] 56 16, pages := pages, attr := attr, value := value }

/-- ADVISE_ENTRY. -/
def Chip.adviseEntry (m : Chip) : Chip :=
  if m.shuntHold then m
  else match m.nextEntry tAdvise fun _ => true with
    | none => m
    | some e => match adviseOf e.words with
      | none => m.finish e stBadArg 0
      | some a =>
        let put (l : List XAdvice) : Chip := Chip.syncAdvice { m with xlat := { m.xlat with advice := l } }
        if !m.asidOk e.queue a.asid.toNat then m.finish e stBadArg 0
        else if a.attr = 4 then
          let gone (b : XAdvice) : Bool := b.asid == a.asid && decide (a.page ≤ b.page ∧ b.page + b.pages ≤ a.page + a.pages)
          match (put (m.xlat.advice.filter (!gone ·))).complete e.queue e.words[0] stOk 0 0 with
          | some m1 => m1.dropSEntry e
          | none => m.markWait
        else if 256 ≤ m.xlat.advice.length then m.finish e stNoSpace 0
        else match (put (m.xlat.advice ++ [a])).complete e.queue e.words[0] stOk 0 0 with
          | some m1 => m1.dropSEntry e
          | none => m.markWait

def execAdviseEntry (s : State) : Host.Outcome State Fault Refusal := onChip Chip.adviseEntry s

/-! ### XFER and MIGRATE (R366, R367, R382) -/

/-- A device range that a transfer may name: HBM, addressable depot, and core memory where `core` says so. -/
def xferRange (core : Bool) (a n : Nat) : Bool :=
  decide (a + n ≤ depotBase) || decide (depotBase ≤ a ∧ a + n ≤ depotBase + 0x20000000) ||
    (core && decide (coreBase ≤ a ∧ a + n ≤ coreBase + 64 * 0x400000 ∧ a % 512 = 0 ∧ n % 512 = 0))

/-- A side of a transfer is in order. -/
def xferSide (core host : Bool) (unit a n : Nat) : Bool := decide (a % unit = 0) && (host || xferRange core a n)

/-- The transfer that an XFER entry asks for; none for BAD_ARG. -/
def xferOf (e : SEntry) (id : Nat) : Option Xfer :=
  let w := e.words
  let n := wbits w[3] 31 0 * 64
  let sh := w[3].getLsbD 32
  let dh := w[3].getLsbD 33
  if n = 0 ∨ sh = dh ∨ !xferSide true sh 64 w[1].toNat n ∨ !xferSide true dh 64 w[2].toNat n then none
  else some
    { id := id, queue := e.queue, ord := e.ord, migrate := false, reload := false, srcHost := sh, dstHost := dh,
      src := w[1].toNat, dst := w[2].toNat, len := n, next := 0, done := 0, err := false }

/-- The transfer that a MIGRATE entry asks for. A RELOAD registers a host address (R439), so its source is one. -/
def migrateOf (e : SEntry) (id : Nat) : Option Xfer :=
  let w := e.words
  let n := wbits w[3] 31 0 * 65536
  let sh := w[3].getLsbD 32
  let dh := w[3].getLsbD 33
  let rl := w[3].getLsbD 34
  let rsv := decide (wbits w[3] 63 35 ≠ 0) || w[4] != 0 || w[5] != 0 || w[6] != 0 || w[7] != 0
  if n = 0 ∨ rsv ∨ (sh ∧ dh) ∨ (rl ∧ (dh ∨ !sh)) ∨ !xferSide false sh 65536 w[1].toNat n
      ∨ !xferSide false dh 65536 w[2].toNat n then none
  else some
    { id := id, queue := e.queue, ord := e.ord, migrate := true, reload := rl, srcHost := sh, dstHost := dh,
      src := w[1].toNat, dst := w[2].toNat, len := n, next := 0, done := 0, err := false }

/-- A transfer starts: up to four freight-dray jobs in class 3. -/
def Chip.xferStart (m : Chip) (e : SEntry) (x : Xfer) : Chip :=
  let m1 := (m.startEntryOf e 0).modShunt fun s => { s with xfers := s.xfers ++ [x], nextXfer := s.nextXfer + 1 }
  (List.range (min 4 ((x.len + 4095) / 4096))).foldl (fun m _ => m.askJob (.xfer x.id) shuntId 3) m1

/-- XFER_ENTRY and MIGRATE_ENTRY. -/
def Chip.xferEntry (m : Chip) (type : Nat) (f : SEntry → Nat → Option Xfer) : Chip :=
  if m.shuntHold then m
  else match m.nextEntry type fun e => !e.started with
    | none => m
    | some e =>
      if !m.privOk e.queue then m.finish e stBadArg 0
      else match f e m.sh.nextXfer with
        | some x => m.xferStart e x
        | none => m.finish e stBadArg 0

def execXferEntry (s : State) : Host.Outcome State Fault Refusal := onChip (fun m => m.xferEntry tXfer xferOf) s
def execMigrateEntry (s : State) : Host.Outcome State Fault Refusal := onChip (fun m => m.xferEntry tMigrate migrateOf) s

def Chip.modXfer (m : Chip) (id : Nat) (f : Xfer → Xfer) : Chip :=
  m.modShunt fun s => { s with xfers := s.xfers.map fun x => if x.id = id then f x else x }

def Chip.xferById (m : Chip) (id : Nat) : Option Xfer := m.sh.xfers.find? (·.id == id)

/-- Reads of a transfer that are under way. -/
def Chip.xferReads (m : Chip) (id : Nat) : Nat :=
  (m.host.reads.filter fun r => match r.dest with
    | .xfer i _ => i == id
    | _ => false).length

/-- A transfer from the host asks for its next pieces of at most 4,096 bytes, one for each freight dray it has, while the
log takes their records (R332, R449); a MIGRATE with RELOAD is not logged (R367). -/
def Chip.xferStep (m : Chip) (id : Nat) : Nat → Chip
  | 0 => m
  | fuel + 1 => match m.xferById id with
    | none => m
    | some x =>
      let drays := (m.host.jobs.filter fun j => j.work == .xfer id && j.granted).length
      if !x.srcHost || x.err || decide (x.len ≤ x.next) || decide (drays ≤ m.xferReads id) then m
      else
        let n := min 4096 (x.len - x.next)
        if !x.reload && m.logStalls n then m.logBlocked
        else
          let s := m.takeSer
          let m1 := s.1.hostRead none (x.src + x.next) n shuntId 0 (x.src + x.next) (.xfer id x.next) s.2
          (m1.modXfer id fun x => { x with next := x.next + n }).xferStep id fuel

/-- Writes to device memory in pieces that every region serves: rows of core memory, else 256 bytes. A piece that is held
is performed later, for the transfer it belongs to. With the bytes that are written. -/
def Chip.devPut (m : Chip) (master : BitVec 16) (cls a : Nat) (l : List Byte) (xfer : Option Nat) : Chip × Nat :=
  (pieces (if coreBase ≤ a then 512 else 256) a l.length (l.length + 1)).foldl
    (fun (acc : Chip × Nat) p =>
      let d := (l.drop (p.1 - a)).take p.2
      if acc.1.devHeld cls true false p.1 p.2 then
        (acc.1.holdAccess { heldReq master cls p.1 (some d) p.2 false with target := true, xfer := xfer }, acc.2)
      else ((acc.1.devWrite master cls p.1 d false none).1, acc.2 + p.2)) (m, 0)

/-- Reads device memory in the same pieces; none where one of them fails. -/
def Chip.devGet (m : Chip) (master : BitVec 16) (cls a n : Nat) : Chip × Option (List Byte) :=
  (pieces (if coreBase ≤ a then 512 else 256) a n (n + 1)).foldl (fun (acc : Chip × Option (List Byte)) p =>
    let r := acc.1.devRead master cls p.1 p.2 false
    (r.1, match acc.2, r.2 with
      | some x, some y => some (x ++ y)
      | _, _ => none)) (m, some [])

/-- Target writes of inbound data are deferred: a post holds, or a rollback moves (R443, R452). -/
def Chip.defers (m : Chip) : Bool :=
  m.stg.post == .quiesce || m.stg.post == .mirror || m.stg.rb != .none

def Chip.deferWrite (m : Chip) (d : Deferred) : Chip := { m with stg := { m.stg with deferred := m.stg.deferred ++ [d] } }

/-- Data that arrives for a transfer goes to its target. -/
def Chip.xferDeliver (m : Chip) (id off : Nat) (l : List Byte) (err : Bool) : Chip :=
  match m.xferById id with
  | none => m
  | some x =>
    if err then m.modXfer id fun x => { x with err := true }
    else
      let r := m.devPut shuntId 3 (x.dst + off) l (some id)
      (r.1.modXfer id fun x => { x with done := x.done + r.2 }).xferStep id 4

/-- A transfer out of device memory moves its next piece. -/
def Chip.xferOut (m : Chip) (x : Xfer) : Chip :=
  let n := min 4096 (x.len - x.next)
  if m.devHeld 3 false false (x.src + x.next) n then m.crcNote shuntId false false (x.src + x.next) n
  else
    let r := m.devGet shuntId 3 (x.src + x.next) n
    match r.2 with
    | none => r.1.modXfer x.id fun x => { x with err := true }
    | some l =>
      let s := r.1.takeSer
      let w := if x.dstHost then (s.1.hostWrite none (x.dst + x.next) l s.2 .transfer, n)
        else r.1.devPut shuntId 3 (x.dst + x.next) l (some x.id)
      w.1.modXfer x.id fun x => { x with next := x.next + n, done := x.done + w.2 }

/-- The registration that a MIGRATE with RELOAD leaves (R367, R439); none when no room is left. -/
def Chip.registerRange (m : Chip) (r : Registration) : Option Chip :=
  if 4096 ≤ m.stg.regist.length then none
  else
    let m1 : Chip := { m with stg := { m.stg with regist := m.stg.regist ++ [r] } }
    some (((List.range r.count).foldl (fun m i => m.setTag (r.first + i) clsReloadable) m1).regUsed)

/-- A transfer has moved everything, or failed and no read of it is left: its entry completes. -/
def Chip.xferEnd (m : Chip) (x : Xfer) : Chip :=
  match m.sh.entries.find? fun e => e.ord == x.ord && e.started with
  | none => m
  | some e =>
    let reg := if x.reload && !x.err then m.registerRange ⟨x.dst / 65536, x.len / 65536, BitVec.ofNat 64 x.src, false⟩ else some m
    let status := if x.err then stXferErr else if reg.isNone then stNoSpace else stOk
    let m1 := reg.getD m
    match m1.complete e.queue e.words[0] status (x.done / 64) 0 with
    | none => m.markWait
    | some m2 => ((m2.dropSEntry e).endJob (.xfer x.id)).modShunt fun s => { s with xfers := s.xfers.filter (·.id != x.id) }

/-- The work of a transfer's freight dray: the next piece out of device memory, or its end. -/
def Chip.xferWork (m : Chip) (id : Nat) : Chip :=
  match m.xferById id with
  | none => m
  | some x =>
    if (x.err && m.xferReads id == 0) || x.done == x.len then m.xferEnd x
    else if !x.srcHost && !m.shuntHold && m.hasJob (.xfer id) && decide (x.next < x.len) then m.xferOut x
    else m.xferStep id 4

end Sys2Proof.Machine
end

