-- ==== Sys2Proof/Machine/Shunter.lean ====
section
/-! DEFINITION. Tasks (R383 to R404): acceptance, placement, dispatch, switches, siding, ends, fencing and relocation; the
hub stop of a context (R127), and the commands of the COACH, SHUNT and FAULT pages (R109, R356, R403). -/
namespace Sys2Proof.Machine

/-! ### Streams and engines of a side -/

def Chip.sideStreams (m : Chip) (x : Ctx) : List (Fin 8) := (List.finRange 8).filter fun s => m.streamSide x.coach s.val == x.aft

/-- The engines' work of a context is made to stop (R215, R327, R393). -/
def Chip.stopEngines (m : Chip) (x : Ctx) (hi : Nat) : Chip :=
  (m.sideStreams x).foldl (fun m s => m.drayHalt x.coach s) (m.haltVec x hi)

/-- It has stopped; a chocked stream stands where it froze (R69). -/
def Chip.sideQuiet (m : Chip) (x : Ctx) : Bool :=
  m.enginesQuiet x && (m.sideStreams x).all fun s => m.drayQuiet x.coach s || m.streamChocked x.coach s.val

/-! ### Control state in and out (R389, R390, R393) -/

/-- Outrider declarations of a side and the TALLY page except its header, by page offset; the TLB page's are raised by
0x1000. -/
def Chip.savedRegs (m : Chip) (x : Ctx) : SMap W64 :=
  let tb := pageBase .tally x.tally
  let lb := pageBase .tlb x.coach.val
  (m.regs.filter fun e => decide (tb + 0x100 ≤ e.1 ∧ e.1 < tb + 0x1000)).map (fun e => (e.1 - tb, e.2)) ++
    (m.regs.filter fun e => decide (lb + 0x180 ≤ e.1 ∧ e.1 < lb + 0x200) &&
      (m.streamSide x.coach ((e.1 - lb - 0x180) / 16) == x.aft)).map (fun e => (e.1 - lb + 0x1000, e.2))

/-- The registers that `savedRegs` gave take the place of those that stand. -/
def Chip.putSaved (m : Chip) (x : Ctx) (l : SMap W64) : Chip :=
  let tb := pageBase .tally x.tally
  let lb := pageBase .tlb x.coach.val
  let gone (a : Nat) : Bool := decide (tb + 0x100 ≤ a ∧ a < tb + 0x1000) ||
    (decide (lb + 0x180 ≤ a ∧ a < lb + 0x200) && (m.streamSide x.coach ((a - lb - 0x180) / 16) == x.aft))
  let own (o : Nat) : Bool := decide (0x100 ≤ o ∧ o < 0x1000) ||
    (decide (0x1180 ≤ o ∧ o < 0x1200) && (m.streamSide x.coach ((o - 0x1180) / 16) == x.aft))
  let new : SMap W64 := (l.filter fun e => own e.1).map fun e => (if e.1 < 0x1000 then tb + e.1 else lb + e.1 - 0x1000, e.2)
  { m with regs := smapSetAll regReset (smapErase gone m.regs) new }

/-- The control state of a context and its engines, as it is saved. -/
def Chip.controlOf (m : Chip) (x : Ctx) (mark : Nat) : Saved where
  mark := mark
  ctx := m.ctx x
  mtx := (m.mtx x.coach).queue.filter (·.aft == x.aft)
  streams := (m.sideStreams x).map fun s => (s.val, m.stream x.coach s)
  regs := m.savedRegs x

/-- A context without a task: it waits for one, or is fenced with its coach. -/
def Chip.idleCtx (m : Chip) (x : Ctx) : Chip :=
  let fenced := m.flag (K.shuntCoachCfg x.coach.val) F.shuntCoachCfgFenced
  (m.modCtx x fun k =>
    { k with st := if fenced then .fenced else .idle, wait := .none, task := 0, asid := 0, stopReq := [],
             defMtx := none, defVec := none, defDray := [], cmpArmed := false, stale := [] }).syncCoach x.coach.val

/-- The queues of a side are empty. -/
def Chip.clearSide (m : Chip) (x : Ctx) : Chip :=
  (m.sideStreams x).foldl (fun m s => m.modStream x.coach s fun _ => DStream.reset)
    (m.modMtx x.coach fun a => { a with queue := a.queue.filter (·.aft != x.aft) })

/-- The task of a context leaves it: its control state is saved, the engine is released (R82), the context is idle. -/
def Chip.leaveCtx (m : Chip) (x : Ctx) (t : Task) (st : TaskState) : Chip :=
  let m1 := m.tallyBoundary x
  let r := m1.markArea t.ctlArea
  let sv := m1.controlOf x r.2
  let m2 := ((r.1.releaseVec x).clearSide x).modTask t.handle fun t =>
    { t with st := st, since := m.sh.order, saved := some sv }
  (m2.modShunt fun s => { s with order := s.order + 1 }).idleCtx x

/-- A bank as an area holds it: it has room for the sixteen entries of each stack that may be registered (R86). -/
def Bank.held (b : Bank) : Bank := { b with ds := b.ds.take 16, rs := b.rs.take 16 }

def Saved.held (s : Saved) : Saved := { s with ctx := { s.ctx with main := s.ctx.main.held, shadow := s.ctx.shadow.held } }

/-- The control state that a task finds: what was saved, with what was written into the area since in its place (R389). -/
def Chip.controlIn (m : Chip) (t : Task) : Saved :=
  match t.saved with
  | none => (Config.noSaved t.handle).held
  | some s =>
    let w := m.written' t.ctlArea s.mark 0 t.ctlArea.2
    if w.isEmpty then s else (Config.overSaved s w).held

/-- The context of a task as it starts: its own state, the bounds of the partition that names it (R280), and what stays with
the hardware context (R390). -/
def Context.restored (k : Context) (t : Task) (part : Nat × Nat) (s : Context) : Context :=
  { s with
    st := .running, wait := .none, task := t.handle, asid := BitVec.ofNat 16 t.asid, cbase := BitVec.ofNat 16 t.cbase
    clim := BitVec.ofNat 16 t.clim, mbase := BitVec.ofNat 16 part.1, mlim := BitVec.ofNat 16 part.2
    trapBase := k.trapBase, entryEn := k.entryEn, entry := k.entry, intEn := k.intEn, brakeLimit := k.brakeLimit
    limitNow := k.brakeLimit, shadow := k.shadow, stopReq := [], stale := [], entering := none }

/-- The context has been taken: no switch of it makes room any more (R392, R397). -/
def Chip.forgetRoom (m : Chip) (x : Ctx) : Chip :=
  m.modShunt fun s => { s with tasks := s.tasks.map fun t =>
    if t.coach = x.coach.val ∧ t.side = some x.aft then { t with forTask := none } else t }

/-- A task starts on a context. -/
def Chip.enterCtx (m : Chip) (x : Ctx) (t : Task) : Chip :=
  let s := m.controlIn t
  let m1 := ((m.clearSide x).modMtx x.coach fun a =>
    { a with queue := a.queue ++ s.mtx.map fun e => { e with aft := x.aft } })
  let m2 := (s.streams.filter fun e => decide (e.1 < 8) && m.streamSide x.coach e.1 == x.aft).foldl (fun m e => m.modStream x.coach ⟨e.1 % 8, Nat.mod_lt _ (by decide)⟩ fun _ => e.2) m1
  let m3 := (m2.putSaved x s.regs).modCtx x fun k => k.restored t ((m.partition x.coach t.handle).getD (t.row, t.mlim)) s.ctx
  let m4 := (m3.applyStaged ⟨.tally, x.tally⟩).modTask t.handle fun t =>
    { t with st := .running, disp := m.counter 32, side := some x.aft }
  (((m4.forgetRoom x).count K.shuntDispatches 1).holdSources x).syncCoach x.coach.val

/-! ### Which context runs a task, what may use a context (R391) -/

def Chip.ctxOf (m : Chip) (h : W16) : Option Ctx := if h = 0 then none else allCtxs.find? fun x => (m.ctx x).task == h

def Chip.coachCfg (m : Chip) (c : Fin 64) : W64 := m.reg (K.shuntCoachCfg c.val)

/-- COACH_CFG[c].EN is 1 and FENCED is 0. -/
def Chip.coachOpen (m : Chip) (c : Fin 64) : Bool :=
  F.shuntCoachCfgEn.bit (m.coachCfg c) && !F.shuntCoachCfgFenced.bit (m.coachCfg c)

def Task.sideOk (t : Task) (aft : Bool) : Bool := t.side.all (· == aft)

def Task.mayUse (t : Task) (x : Ctx) : Bool := decide (t.coach = x.coach.val) && t.placed && t.sideOk x.aft

/-- The better of two tasks: priority, then the longer time ready. -/
def betterTask (t u : Task) : Task := if decide (u.prio < t.prio) || (u.prio == t.prio && decide (u.since < t.since)) then u else t

def bestTask : List Task → Option Task
  | [] => none
  | t :: r => some (r.foldl betterTask t)

/-- Ready tasks that may use a context. -/
def Chip.readyFor (m : Chip) (x : Ctx) : List Task :=
  if m.coachOpen x.coach then m.sh.tasks.filter fun t => t.st == .ready && t.mayUse x && t.ending.isNone else []

/-! ### Ending a task (R394) -/

/-- A task is to end: its context stops as STOP does, and its engines stop. -/
def Chip.markEnding (m : Chip) (h : W16) (status result : Nat) : Chip :=
  match m.task h with
  | none => m
  | some t =>
    if t.ending.isSome then m
    else
      let m1 := m.modTask h fun t => { t with ending := some (status, BitVec.ofNat 32 result) }
      match m1.ctxOf h with
      | none => m1
      | some x =>
        let m2 := m1.modCtx x fun k => { k with stopReq := .ending :: k.stopReq }
        if (m2.ctx x).st.going then m2 else m2.stopEngines x 0

/-- An open entry holds a requester of the task, or one of them waits for an entry to close (R353). -/
def Chip.taskHeld (m : Chip) (h : W16) : Bool :=
  (m.xlat.faults.any fun f => f.reqs.any (·.2 == h)) || m.xlat.full.any (·.2 == h)

/-- Sided tasks that no open entry holds are ready again (R396). -/
def Chip.wakeSided (m : Chip) : Chip :=
  (m.sh.tasks.filter fun t => t.st == .sided && !m.taskHeld t.handle).foldl
    (fun m t => (m.modTask t.handle fun t => { t with st := .ready, since := m.sh.order }).modShunt fun s =>
      { s with order := s.order + 1 }) m

/-- Requesters of a task leave every open fault entry. One left without a requester closes: those that stopped for want of an entry
retry, and sided tasks that nothing holds are ready (R353, R394, R396). -/
def Chip.leaveFaults (m : Chip) (h : W16) : Chip :=
  let fs := (m.xlat.faults.map fun (f : XFault) => { f with reqs := f.reqs.filter (·.2 != h) }).filter (!·.reqs.isEmpty)
  let closed := decide (fs.length < m.xlat.faults.length)
  (Chip.syncOpen { m with xlat := { m.xlat with
    faults := fs, full := if closed then [] else m.xlat.full.filter (·.2 != h), toSide := m.xlat.toSide.filter (·.2 != h)
    miss := m.xlat.miss.filter (·.task != h) } }).when closed Chip.wakeSided

/-- The vector state of a task is discarded. -/
def Chip.dropVec (m : Chip) (c : Fin 64) (h : W16) : Chip :=
  if (m.coach c).vown.tag = h then
    (m.modVec c fun k => { k with q := [] }).modVown c fun v => { v with tag := 0, dirty := false }
  else m

/-- PART[i] of a coach. -/
def Chip.setPart (m : Chip) (c i : Nat) (v : W64) : Chip := (m.setReg (K.cmemPart c i) v).bumpGen (cmemPage c)

/-- Reads of a task's code that have not come are given up. -/
def Chip.dropCode (m : Chip) (h : W16) : Chip :=
  { m with host := { m.host with reads := m.host.reads.filter fun r => match r.dest with
    | .code k _ => k != h.toNat
    | _ => true } }

/-- Everything that a task holds is freed; its rows keep their contents. The END command that names it ends (R403). -/
def Chip.freeTask (m : Chip) (t : Task) : Chip :=
  let c : Fin 64 := ⟨t.coach % 64, Nat.mod_lt _ (by decide)⟩
  let m1 := (m.leaveFaults t.handle).dropCode t.handle
  let m2 := match m1.ctxOf t.handle with
    | none => m1
    | some x =>
      let jobs (m : Chip) : Chip := (m.sideStreams x).foldl (fun (m : Chip) (s : Fin 8) =>
        (m.endJob (.stream x.coach.val s.val false)).endJob (.stream x.coach.val s.val true)) (m.endJob (.vec x.coach.val))
      ((jobs (m1.releaseVec x)).clearSide x).idleCtx x
  let m2 : Chip := { m2 with chocks := m2.chocks.filter (·.task != t.handle) }
  let m3 := if t.placed then
      (m2.dropVec c t.handle).setPart t.coach t.part (F.cmemPartValid.put (m2.reg (K.cmemPart t.coach t.part)) 0)
    else m2
  let m4 := m3.modShunt fun s => { s with tasks := s.tasks.filter (·.handle != t.handle) }
  let m5 := { m4 with stg := { m4.stg with stale := m4.stg.stale.filter (· != t.handle), diverged := m4.stg.diverged.filter (· != t.handle) } }.syncCoach
    c.val
  if m5.busy shuntPage && m5.cmdCode shuntPage == 1 && m5.cmdArg shuntPage == t.handle.toNat then m5.endCmd shuntPage cmdOk else m5

/-- A task ends: its completion, and everything it held; none while its completion waits for its mark. -/
def Chip.endTask (m : Chip) (t : Task) (status result : Nat) : Option Chip :=
  (m.complete t.queue t.words[0] status result t.handle.toNat).map fun m1 => m1.freeTask t

/-- TASK_END: a task that is to end has stopped. A running END command names its task once no post holds it (R400). -/
def Chip.taskEnd (m : Chip) (h : W16) : Chip :=
  match m.task h with
  | none => m
  | some t => match t.ending with
    | none =>
      if m.busy shuntPage && m.cmdCode shuntPage == 1 && m.cmdArg shuntPage == h.toNat && !m.shuntHold then
        m.markEnding h stEnded 0
      else m
    | some (status, result) =>
      let stopped := match m.ctxOf h with
        | none => true
        | some x => !(m.ctx x).st.going && m.sideQuiet x
      if !stopped || m.stg.rb != .none then m
      else (m.endTask t status result.toNat).getD m.markWait

def execTaskEnd (h : BitVec 16) (s : State) : Host.Outcome State Fault Refusal := onChip (fun m => m.taskEnd h) s

/-- A write of CTX_DONE that is attributed to a context (R395). -/
def Chip.ctxDone (m : Chip) (x : Ctx) (v : W64) : Chip :=
  let k := m.ctx x
  if k.task ≠ 0 then
    m.markEnding k.task (if F.shuntCtxDoneFail.bit v then stTaskFail else stOk) (F.shuntCtxDoneResult.get v)
  else if k.st.going || k.st == .stopped then m.idleCtx x
  else m

/-! ### Hub stops (R127, R393) -/

/-- A context that has been stopped, and its engines with it, leaves its task or is fenced. A task that leaves while an open
entry holds a requester of it is sided, whatever it leaves for (R396). A chocked context that leaves for a fence leaves its chock
behind: R70 and R398 are silent (the model's choice, log entry 32). -/
def Chip.hubLeave (m : Chip) (x : Ctx) : Chip :=
  let k := m.ctx x
  let has (h : HubStop) : Bool := k.stopReq.elem h
  let ready := k.st == .chocked || (k.st == .stopped && !k.status.brake && k.status.stable)
  if has .ending || !ready || !m.sideQuiet x then m
  else match m.task k.task with
    | some t =>
      if has .fence then
        let m1 := m.leaveCtx x t .stranded
        { m1 with chocks := m1.chocks.filter (·.master != ctxId x) }
      else if k.st == .chocked then m
      else if has .side then
        (m.leaveCtx x t (if m.taskHeld t.handle then .sided else .ready)).count K.shuntSidings 1
      else if has .switch || has .yield then
        let m1 := if m.taskHeld t.handle then (m.leaveCtx x t .sided).count K.shuntSidings 1 else m.leaveCtx x t .ready
        m1.when (has .switch) fun m => m.count K.shuntPreempts 1
      else m
    | none => if has .fence then m.idleCtx x else m

/-- HUB_STOP: a context reaches the boundary at which a hub stop takes effect and stops; once its engines have stopped it
goes on to what it was stopped for. A running VFSUMO stops before element `hi`. -/
def Chip.hubStop (m : Chip) (x : Ctx) (hi : Nat) : Chip :=
  let k := m.ctx x
  if k.stopReq.isEmpty then m
  else if k.st.going then
    if !k.hubDue || k.entering.isSome then m
    else
      let m1 := (m.modCtx x fun k => { k with st := .stopped, wait := .none, entering := none, stopReq := if k.stopReq.elem .stop then k.stopReq.filter fun h => h != .stop && h != .quiesce else k.stopReq }).claimVec x false
      let m2 := m1.stopEngines x hi
      let p := coachPage x.coach
      let m3 := if k.stopReq.elem .stop && m2.busy p && m2.cmdCode p == 2 then m2.endCmd p cmdOk else m2
      m3.syncCoach x.coach.val
  else m.hubLeave x

def execHubStop (x : Ctx) (hi : Nat) (s : State) : Host.Outcome State Fault Refusal := onCoach x.coach (fun m => m.hubStop x hi) s

def Chip.askStop (m : Chip) (x : Ctx) (h : HubStop) : Chip :=
  m.modCtx x fun k => if k.stopReq.elem h then k else { k with stopReq := k.stopReq ++ [h] }

/-! ### Acceptance (R379, R384, R385) -/

/-- The BAD_ARG cases of a TASK entry. -/
def badTask (t : Task) : Bool :=
  let w := t.words
  let n := 2 ^ t.stk
  let code := t.codeAddr
  let len := 2 * t.codeWords
  w[2].getLsbD 47 || decide (wbits w[2] 63 53 ≠ 0) || decide (wbits w[7] 63 56 ≠ 0) || decide (wbits w[3] 11 0 ≠ t.asid)
    || decide (t.sideBits = 3) || decide (t.codeWords = 0 ∨ t.clim + 1 < t.codeWords) || decide (t.mlim < 288)
    || decide (t.stk < 4) || decide (t.clim + 1 < t.dsb + n) || decide (t.clim + 1 < t.rsb + n)
    || decide (t.dsb < t.rsb + n ∧ t.rsb < t.dsb + n) || decide (t.clim < t.entry) || w[4] == 0 || decide (code % 8 ≠ 0)
    || (!t.codeHost && !decide (code + len ≤ depotBase) && !decide (depotBase ≤ code ∧ code + len ≤ depotBase + 0x20000000))

/-- The task of an entry, under handle `h`. -/
def Chip.taskOf (m : Chip) (e : SEntry) (h : W16) : Task :=
  let t : Task :=
    { handle := h, queue := e.queue, index := e.index, ord := e.ord, words := e.words, prio := 0, st := .waiting, order := e.order,
      since := e.order, coach := 0, part := 0, row := 0, cbase := 0, side := none, disp := 0, code := 0, cleared := false,
      saved := none, vec := none, ending := none, forTask := none, posted := false, solo := false }
  { t with
    prio := max (t.fld 2 49 48) (m.fld (K.doorbellQctl e.queue) F.doorbellQctlPrioFloor)
    side := if t.sideBits = 1 then some false else if t.sideBits = 2 then some true else none }

/-- The handle that a re-executed entry had, if it has had one in this stage. -/
def Chip.handleFits (m : Chip) (e : SEntry) (h : W16) : Bool :=
  match m.stg.given.find? fun g => g.1 == e.ord with
  | some g => !m.reexec || g.2 == h
  | none => true

/-- TASK_ENTRY: the oldest TASK entry that may start is accepted under the handle `h`, which no task holds, or completes. -/
def Chip.taskEntry (m : Chip) (h : W16) : Chip :=
  if m.shuntHold then m
  else match m.nextEntry tTask fun _ => true with
    | none => m
    | some e =>
      let t := m.taskOf e h
      if badTask t || !m.asidOk e.queue t.asid then m.finish e stBadArg 0
      else if h = 0 ∨ (m.task h).isSome ∨ !m.handleFits e h then m
      else
        let m1 := (m.dropSEntry e).modShunt fun s => { s with tasks := s.tasks ++ [t] }
        { m1 with stg := { m1.stg with given := (e.ord, h) :: m1.stg.given } }

def execTaskEntry (h : BitVec 16) (s : State) : Host.Outcome State Fault Refusal := onChip (fun m => m.taskEntry h) s

/-! ### POST and END entries (R383) -/

/-- The task of a queue whose TASK entry carries a TAG. -/
def Chip.taskByTag (m : Chip) (q : Nat) (w : Vector W64 8) : Option Task :=
  m.sh.tasks.find? fun t => t.queue == q && decide (entryTag t.words[0] = wbits w[1] 15 0)

/-- INT_PEND bit [4] of a saved context, with its stamp. -/
def Context.pendHost (k : Context) (stamp : W64) : Context :=
  if k.intPend.getLsbD srcHost then k else { k with intPend := k.intPend ||| 0x10, intStamp := k.intStamp.set 4 stamp }

/-- The HOST interrupt of a task: in its context, in its saved image, or in the image that it will get. -/
def Chip.postTask (m : Chip) (t : Task) : Chip :=
  match m.ctxOf t.handle with
  | some x => m.setPend x srcHost
  | none => m.modTask t.handle fun t => match t.saved with
    | some s => { t with saved := some { s with ctx := s.ctx.pendHost (m.stamp (coachDomain t.coach)) } }
    | none => { t with posted := true }

/-- POST_ENTRY. -/
def Chip.postEntry (m : Chip) : Chip :=
  if m.shuntHold then m
  else match m.nextEntry tPost fun _ => true with
    | none => m
    | some e => match m.taskByTag e.queue e.words with
      | none => m.finish e stNoTask 0
      | some t => match (m.postTask t).complete e.queue e.words[0] stOk 0 0 with
        | some m1 => m1.dropSEntry e
        | none => m.markWait

def execPostEntry (s : State) : Host.Outcome State Fault Refusal := onChip Chip.postEntry s

/-- END_ENTRY: a started one completes once its task is gone; another ends its task. -/
def Chip.endEntry (m : Chip) : Chip :=
  if m.shuntHold then m
  else match m.nextEntry tEnd fun e => e.started && (m.task e.aim).isNone with
    | some e => m.finish e stOk 0
    | none => match m.nextEntry tEnd fun e => !e.started with
      | none => m
      | some e => match m.taskByTag e.queue e.words with
        | none => m.finish e stNoTask 0
        | some t => (m.startEntryOf e t.handle).markEnding t.handle stEnded 0

def execEndEntry (s : State) : Host.Outcome State Fault Refusal := onChip Chip.endEntry s

/-! ### Placement (R387 to R389) -/

/-- The lowest start at or above `lo` of `n` units that end at most at `top` and avoid the blocked ranges (first, last). -/
def lowestGap (blocked : List (Nat × Nat)) (lo n top : Nat) : Option Nat :=
  let ok (a : Nat) : Bool := decide (lo ≤ a ∧ a + n ≤ top + 1) && !(blocked.any fun b => decide (a ≤ b.2 ∧ b.1 < a + n))
  let cands := (lo :: blocked.map fun b => b.2 + 1).filter ok
  match cands with
  | [] => none
  | a :: t => some (t.foldl min a)

/-- Tasks that stand on a coach. -/
def Chip.residents (m : Chip) (c : Nat) : List Task := m.sh.tasks.filter fun t => t.placed && decide (t.coach = c)

/-- Where a task fits on a coach: PART, first row, first word. -/
def Chip.fitsOn (m : Chip) (t : Task) (c : Fin 64) : Option (Nat × Nat × Nat) :=
  let parts := (List.range 8).map fun i => m.reg (K.cmemPart c.val i)
  let res := m.residents c.val
  let held := (parts.filter F.cmemPartValid.bit).map fun v =>
    (F.cmemPartBase.get v, F.cmemPartBase.get v + F.cmemPartLim.get v)
  let dark := ((List.range 4).filter fun q => !m.rowReady c.val (2048 * q)).map fun q => (2048 * q, 2048 * q + 2047)
  let cfg := m.coachCfg c
  if !t.affinity c.val || !m.coachOpen c then none
  else if !m.flag K.shuntShuntCtl F.shuntShuntCtlMix && res.any (fun u => u.asid != t.asid) then none
  else match (List.range 8).find? fun i => !F.cmemPartValid.bit (m.reg (K.cmemPart c.val i)),
      lowestGap (held ++ dark) (F.shuntCoachCfgRowLo.get cfg) (t.mlim + 1) 8191,
      lowestGap (res.map fun u => (u.cbase, u.cbase + u.clim)) (F.shuntCoachCfgCmLo.get cfg) (t.clim + 1) 65535 with
    | some i, some r, some w => some (i, r, w)
    | _, _, _ => none

/-- The coach where a task goes: with an idle context of its side, then the fewest residents, then the lowest. -/
def Chip.placeOf (m : Chip) (t : Task) : Option (Fin 64 × Nat × Nat × Nat) :=
  let idle (c : Fin 64) : Bool := ([false, true] : List Bool).any fun a => t.sideOk a && (m.ctx ⟨c, a⟩).st == .idle
  let key (c : Fin 64) : Nat := (if idle c then 0 else 1000) + (m.residents c.val).length
  let cs := (List.finRange 64).filterMap fun c => (m.fitsOn t c).map fun p => (c, p)
  match cs with
  | [] => none
  | a :: l => some (l.foldl (fun b d => if key d.1 < key b.1 then d else b) a)

/-- Counters of R170 at SRBASE, and SR_SEED, in the initial TALLY state. -/
def Task.initialRegs (t : Task) : SMap W64 :=
  let sb := BitVec.ofNat 64 t.srbase
  (0x128, t.seed) :: (0x130, sb) :: (0x138, sb) :: (List.range 8).map fun s => (0x140 + 8 * s, sb)

/-- The initial control state (R389). -/
def Task.initial (t : Task) (stamp : W64) : Context :=
  let b : Bank :=
    { Bank.reset with
      ds := unfour t.arg, dsb := BitVec.ofNat 16 t.dsb, dsl := BitVec.ofNat 16 (t.dsb + 2 ^ t.stk)
      dsp := BitVec.ofNat 16 t.dsb, rsb := BitVec.ofNat 16 t.rsb, rsl := BitVec.ofNat 16 (t.rsb + 2 ^ t.stk)
      rsp := BitVec.ofNat 16 t.rsb }
  let k := { Context.reset with pc := BitVec.ofNat 16 t.entry, status := Status.ofWord 0x0010, main := b }
  if t.posted then k.pendHost stamp else k

/-- The last step of a placement: the initial image is written, and the task is resident and ready. -/
def Chip.placed (m : Chip) (t : Task) : Chip :=
  let a := m.markArea t.vecArea
  let b := a.1.markArea t.ctlArea
  let sv : Saved := { mark := b.2, ctx := t.initial (m.stamp (coachDomain t.coach)), mtx := [], streams := [], regs := t.initialRegs }
  (b.1.modTask t.handle fun t =>
    { t with st := .ready, since := m.sh.order, saved := some sv, vec := some { mark := a.2, eng := VecEngine.reset } }).modShunt
    fun s => { s with order := s.order + 1 }

/-- Words of code. -/
def codeWords : List Byte → List W16
  | a :: b :: t => (b ++ a : BitVec (8 + 8)) :: codeWords t
  | _ => []

/-- Code arrives at byte `off`; with the last of it the placement ends. -/
def Chip.codeDeliver (m : Chip) (h : W16) (off : Nat) (l : List Byte) (err : Bool) : Chip :=
  match m.task h with
  | none => m
  | some t =>
    if t.st != .placing || t.ending.isSome then m
    else if err then m.modTask h fun t => { t with ending := some (stXferErr, 0) }
    else
      let c : Fin 64 := ⟨t.coach % 64, Nat.mod_lt _ (by decide)⟩
      let m1 := (m.setCms c (t.cbase + off / 2) (codeWords l)).modTask h fun t => { t with code := t.code + l.length }
      if t.code + l.length = 2 * t.codeWords then m1.placed t else m1

/-- The reads of code from the host. -/
def Chip.codeReads (m : Chip) (t : Task) : Chip :=
  (pieces 4096 0 (2 * t.codeWords) 64).foldl (fun m p =>
    let s := m.takeSer
    s.1.hostRead (m.taskFunc t.handle) (t.codeAddr + p.1) p.2 shuntId t.handle (t.codeAddr + p.1) (.code t.handle.toNat p.1) s.2) m

/-- Code in device memory is read. -/
def Chip.codeLocal (m : Chip) (t : Task) : Chip :=
  let n := 2 * t.codeWords
  if m.devHeld 3 false false t.codeAddr n then m.crcNote shuntId false false t.codeAddr n
  else
    let r := m.devGet shuntId 3 t.codeAddr n
    match r.2 with
    | some l => r.1.codeDeliver t.handle 0 l false
    | none => r.1.codeDeliver t.handle 0 [] true

/-- A placement goes on: its rows are cleared by ZERO (R310), then its code is read. -/
def Chip.placeGo (m : Chip) (t : Task) : Chip :=
  let p := cmemPage t.coach
  if t.ending.isSome then m
  else if !t.cleared then
    if t.clear && m.busy p then m
    else
      let l : Launch := { m := shuntId, tag := 0, arg := BitVec.ofNat 48 (t.row + t.mlim * 8192), gen := none }
      let m1 := if t.clear then ((m.beginCmd p 2 l).zeroBegin t.coach).zeroEnd t.coach else m
      let m2 := m1.modTask t.handle fun t => { t with cleared := true }
      if t.codeHost then m2.codeReads t else m2.codeLocal t
  else if !t.codeHost && t.code == 0 then m.codeLocal t
  else m

/-- A placement starts. -/
def Chip.placeAt (m : Chip) (t : Task) (p : Fin 64 × Nat × Nat × Nat) : Chip :=
  let w := p.2.2.1 + t.mlim * 2 ^ 16 + t.handle.toNat * 2 ^ 32 + 2 ^ 63
  let t1 := { t with st := .placing, coach := p.1.val, part := p.2.1, row := p.2.2.1, cbase := p.2.2.2 }
  ((m.setPart p.1.val p.2.1 (BitVec.ofNat 64 w)).modTask t.handle fun _ => t1).placeGo t1

/-- The placement has a step that it can take now. -/
def Chip.placeStep (m : Chip) (t : Task) : Bool :=
  t.st == .placing && t.ending.isNone &&
    ((!t.cleared && !(t.clear && m.busy (cmemPage t.coach))) ||
      (t.cleared && !t.codeHost && t.code == 0 && !m.devHeld 3 false false t.codeAddr (2 * t.codeWords)))

/-- Waiting tasks in order of priority and acceptance. -/
def insertTask (t : Task) : List Task → List Task
  | [] => [t]
  | u :: r => if u.prio ≤ t.prio then u :: insertTask t r else t :: u :: r

def Chip.waitingTasks (m : Chip) : List Task :=
  (m.sh.tasks.filter fun t => t.st == .waiting && t.ending.isNone).foldl (fun l t => insertTask t l) []

/-- No unfenced, enabled coach is in the task's affinity (R398). -/
def Chip.noCoach (m : Chip) (t : Task) : Bool := !((List.finRange 64).any fun d => t.affinity d.val && m.coachOpen d)

/-- A fenced coach is in the task's affinity, and no coach that could hold it: such a task ends with FENCED (R398). -/
def Chip.fencedOut (m : Chip) (t : Task) : Bool :=
  m.noCoach t && (List.finRange 64).any fun d => t.affinity d.val && F.shuntCoachCfgFenced.bit (m.coachCfg d)

/-- Waiting tasks that fencing has left without a coach end. -/
def Chip.endFenced (m : Chip) : Chip :=
  (m.sh.tasks.filter fun t => t.st == .waiting && t.ending.isNone && m.fencedOut t).foldl
    (fun m t => m.markEnding t.handle stFenced 0) m

/-- TASK_PLACE: a placement goes on, or the first waiting task that fits is placed. -/
def Chip.taskPlace (m : Chip) : Chip :=
  if !m.shuntGoes then m
  else
  let m := m.endFenced
  match m.sh.tasks.find? m.placeStep with
    | some t => m.placeGo t
    | none => match m.waitingTasks.findSome? fun t => (m.placeOf t).map fun p => (t, p) with
      | some r => m.placeAt r.1 r.2
      | none => m

def execTaskPlace (s : State) : Host.Outcome State Fault Refusal := onHbm Chip.taskPlace s

/-! ### Dispatch, switches, slices (R392, R397) -/

/-- TASK_DISPATCH: an idle context takes the best ready task that may use it. -/
def Chip.taskDispatch (m : Chip) (x : Ctx) : Chip :=
  if !m.shuntGoes || (m.ctx x).st != .idle then m
  else match bestTask (m.readyFor x) with
    | none => m
    | some t =>
      match t.forTask.bind fun h => (m.readyFor x).find? (·.handle == h) with
      | some u => m.enterCtx x u
      | none => m.enterCtx x t

def execTaskDispatch (x : Ctx) (s : State) : Host.Outcome State Fault Refusal := onChip (fun m => m.taskDispatch x) s

/-- The context that runs a task which a ready task outranks: the lowest priority, then the longest run. -/
def Chip.victimOf (m : Chip) (t : Task) : Option (Ctx × Task) :=
  let l := allCtxs.filterMap fun x =>
    if t.mayUse x && (m.ctx x).st.going then
      (m.task (m.ctx x).task).bind fun u => if u.st == .running && u.ending.isNone && decide (t.prio < u.prio) then some (x, u) else none
    else none
  match l with
  | [] => none
  | a :: r => some (r.foldl (fun b d =>
      if decide (b.2.prio < d.2.prio) || (b.2.prio == d.2.prio && decide (d.2.disp.toNat < b.2.disp.toNat)) then d else b) a)

/-- A switch is decided. -/
def Chip.decideSwitch (m : Chip) (x : Ctx) (u : Task) (h : HubStop) (t : W16) : Chip :=
  (m.askStop x h).modTask u.handle fun u => { u with st := .leaving, forTask := some t }

/-- A ready task has no idle context that it may use, and none is being freed for it. -/
def Chip.wantsSwitch (m : Chip) (t : Task) : Bool :=
  t.st == .ready && t.ending.isNone && m.coachOpen ⟨t.coach % 64, Nat.mod_lt _ (by decide)⟩
    && !(allCtxs.any fun x => t.mayUse x && (m.ctx x).st == .idle)
    && !(m.sh.tasks.any fun u => u.st == .leaving && u.forTask == some t.handle)

/-- TASK_SWITCH: the best ready task that outranks a running one takes its context. -/
def Chip.taskSwitch (m : Chip) : Chip :=
  if !m.shuntGoes then m
  else match bestTask (m.sh.tasks.filter fun t => m.wantsSwitch t && (m.victimOf t).isSome) with
    | none => m
    | some t => match m.victimOf t with
      | some v => m.decideSwitch v.1 v.2 .switch t.handle
      | none => m

def execTaskSwitch (s : State) : Host.Outcome State Fault Refusal := onChip Chip.taskSwitch s

/-- SLICE_EXPIRE: the task of a context has run for its slice, and a ready task of equal priority may use the context. -/
def Chip.sliceExpire (m : Chip) (x : Ctx) : Chip :=
  let slice := m.fld K.shuntShuntCtl F.shuntShuntCtlSlice
  match m.task (m.ctx x).task with
  | some u =>
    if !m.shuntGoes || slice = 0 || u.st != .running || u.ending.isSome then m
    else match bestTask ((m.readyFor x).filter fun t => t.prio == u.prio) with
      | some t =>
        let due := u.disp.toNat + slice * 40000
        (m.setDom 32 fun d => { d with count := if d.count.toNat < due then BitVec.ofNat 64 due else d.count }).decideSwitch x u .switch
          t.handle
      | none => m
  | none => m

def execSliceExpire (x : Ctx) (s : State) : Host.Outcome State Fault Refusal := onChip (fun m => m.sliceExpire x) s

/-- VLIMIT_SWITCH: aft's claim has passed its limit, and another ready task may use aft. -/
def Chip.vlimitSwitch (m : Chip) (c : Fin 64) : Chip :=
  let x : Ctx := ⟨c, true⟩
  let v := (m.coach c).vown
  match m.task (m.ctx x).task with
  | some u =>
    if !m.shuntGoes || !(v.claimA && v.limitA) || u.st != .running || u.ending.isSome then m
    else match bestTask (m.readyFor x) with
      | some t => m.decideSwitch x u .yield t.handle
      | none => m
  | none => m

def execVlimitSwitch (c : Fin 64) (s : State) : Host.Outcome State Fault Refusal := onChip (fun m => m.vlimitSwitch c) s

/-- SIDE_TASK: the task of the oldest failing requester is sided (R396); one that has left its context meanwhile is sided
where it is. Supervisor code that the host started has no task:
its requester stands stopped until the entry closes. -/
def Chip.sideTask (m : Chip) : Chip :=
  match m.xlat.toSide with
  | [] => m
  | r :: rest =>
    let m1 : Chip := { m with xlat := { m.xlat with toSide := rest } }
    if m.shuntHold then m
    else match m1.task r.2, m1.ctxOf r.2 with
      | some t, some x =>
        if t.ending.isSome then m1
        else (m1.askStop x .side).modTask t.handle fun t => { t with st := .leaving }
      | some t, none =>
        if t.st == .ready && m1.taskHeld t.handle then (m1.modTask t.handle fun t => { t with st := .sided }).count K.shuntSidings 1
        else m1
      | none, _ => m1

def execSideTask (s : State) : Host.Outcome State Fault Refusal := onChip Chip.sideTask s

/-! ### RESOLVE (R356, R372) -/

/-- The RESOLVE command. -/
def Chip.resolve (m : Chip) (l : Launch) : Chip :=
  let a := l.arg.toNat
  let p : PageId := ⟨.fault, 0⟩
  if a / 2 ^ 33 ≠ 0 then m.endCmd p cmdBadArg
  else match m.faultOf (a % 2 ^ 32) with
    | none => m.endCmd p 0x20
    | some f =>
      let m1 := m.closeFault f
      let m2 := if a / 2 ^ 32 % 2 = 1 then
          (f.reqs.map (·.2)).eraseDups.foldl (fun m h => if h = 0 then m else m.markEnding h stAborted 0) m1
        else m1.adviceWalks f
      m2.wakeSided.endCmd p cmdOk

def execResolve (l : Launch) (s : State) : Host.Outcome State Fault Refusal :=
  onChip (fun m => m.issue ⟨.fault, 0⟩ 1 l fun l m => m.resolve l) s

/-! ### SHUNT commands (R398, R399, R403) -/

/-- END: the task ends at TASK_END, after a post that holds the shunter. -/
def Chip.endStart (m : Chip) (l : Launch) : Chip :=
  let h := l.arg.toNat
  if 65536 ≤ h ∨ (m.task (BitVec.ofNat 16 h)).isNone then m.endCmd shuntPage cmdBadArg
  else if m.shuntHold then m
  else m.markEnding (BitVec.ofNat 16 h) stEnded 0

/-- A coach is fenced: nothing more goes there, its contexts stop, its tasks are stranded; one that was being placed waits
again. -/
def Chip.fenceCoach (m : Chip) (c : Fin 64) : Chip :=
  let m1 := m.setFld (K.shuntCoachCfg c.val) F.shuntCoachCfgFenced 1
  let m2 := ([false, true] : List Bool).foldl (fun m a =>
    let x : Ctx := ⟨c, a⟩
    let k := m.ctx x
    if k.st.going || k.task != 0 then
      let m' := m.askStop x .fence
      if k.st.going then m' else m'.stopEngines x 0
    else m.idleCtx x) m1
  let m3 := (m2.sh.tasks.filter fun t => t.coach == c.val && t.st == .placing).foldl (fun m t => m.dropCode t.handle) m2
  m3.modShunt fun s => { s with tasks := s.tasks.map fun t =>
    if t.coach == c.val && (t.st == .ready || t.st == .sided || t.st == .placing) then
      (if t.st == .placing then { t with st := .waiting, cleared := false, code := 0 } else { t with st := .stranded })
    else t }

/-- FENCE: it acts once no post holds it. -/
def Chip.fenceStart (m : Chip) (l : Launch) : Chip :=
  if h : l.arg.toNat < 64 then (if m.shuntHold then m else m.fenceCoach ⟨l.arg.toNat, h⟩)
  else m.endCmd shuntPage cmdBadArg

/-- Both contexts of a fenced coach show STATE 6. -/
def Chip.fencedOff (m : Chip) (c : Fin 64) : Bool :=
  m.flag (K.shuntCoachCfg c.val) F.shuntCoachCfgFenced && (m.ctx ⟨c, false⟩).st == .fenced && (m.ctx ⟨c, true⟩).st == .fenced

/-! ### Relocation (R399) -/

/-- A coach that may take a group. -/
def Chip.targetFor (m : Chip) (g : List Task) : Option (Fin 64) :=
  (List.finRange 64).find? fun d =>
    m.coachOpen d && !((List.range 8).any fun i => m.flag (K.cmemPart d.val i) F.cmemPartValid)
      && (m.ctx ⟨d, false⟩).st == .idle && (m.ctx ⟨d, true⟩).st == .idle && g.all fun t => t.affinity d.val

/-- Quarters of a coach that hold rows `[r, r + n)` are powered and ready. -/
def Chip.powerRows (m : Chip) (c r n : Nat) : Chip :=
  ((List.range 4).filter fun q => decide (2048 * q < r + n ∧ r < 2048 * q + 2048) && !m.rowReady c (2048 * q)).foldl (fun m q =>
    let z := m.zeroMem (rowAddr c (2048 * q)) (2048 * 512)
    (z.setFld (K.cmemQpwr c) F.cmemQpwrOn (Nat.lor (z.fld (K.cmemQpwr c) F.cmemQpwrOn) (2 ^ q))).setFld (K.cmemQpwr c) F.cmemQpwrReady
      (Nat.lor (z.fld (K.cmemQpwr c) F.cmemQpwrReady) (2 ^ q))) m

/-- One task moves from coach `c` to coach `d`, with its rows, its words and its side; the engine that it leaves names it no
longer. -/
def Chip.moveTask (m : Chip) (c d : Fin 64) (t : Task) : Chip :=
  let v := m.reg (K.cmemPart c.val t.part)
  let n := t.mlim + 1
  let m1 := (m.powerRows d.val t.row n).putCells (rowAddr d.val t.row) (n * 512) (m.cellsOf (rowAddr c.val t.row) (n * 512))
  let words := (List.range (t.clim + 1)).map fun i => m.cmWord c (t.cbase + i)
  let m2 := ((m1.setCms d t.cbase words).setPart d.val t.part v).setPart c.val t.part (F.cmemPartValid.put v 0)
  let st : TaskState := if m.taskHeld t.handle then .sided else .ready
  let m3 := if (m.coach c).vown.tag = t.handle then
      (m2.modVec c fun k => { k with q := [] }).modVown c fun v => { v with tag := 0, dirty := false }
    else m2
  (m3.modTask t.handle fun t => { t with coach := d.val, st := st, since := m.sh.order, solo := false }).modShunt
    fun s => { s with order := s.order + 1 }

/-- The operand buffers of a coach are copied. -/
def Chip.copyObuf (m : Chip) (c d : Fin 64) : Chip := { m with obuf := smapCopy 0 m.obuf (c.val * 2 ^ 20) (d.val * 2 ^ 20) (2 ^ 20) }

def Chip.moveGroup (m : Chip) (c d : Fin 64) (g : List Task) : Chip := g.foldl (fun m t => m.moveTask c d t) (m.copyObuf c d)

/-- Once no task of a fenced coach is left there, every PART of it becomes invalid. -/
def Chip.clearParts (m : Chip) (c : Fin 64) : Chip :=
  if (m.residents c.val).isEmpty then
    (List.range 8).foldl (fun m i =>
      let v := m.reg (K.cmemPart c.val i)
      if F.cmemPartValid.bit v then m.setPart c.val i (F.cmemPartValid.put v 0) else m) m
  else m

/-- Tasks of a fenced coach that are still to move. -/
def Chip.strandedOf (m : Chip) (c : Fin 64) : List Task := (m.residents c.val).filter fun t => t.st == .stranded && t.ending.isNone

/-- The whole group moves, or splits for good where no coach serves it (R399). -/
def Chip.relocateAll (m : Chip) (c : Fin 64) : Chip :=
  let g := (m.strandedOf c).filter (!·.solo)
  if g.isEmpty then m
  else match m.targetFor g with
    | some d => m.moveGroup c d g
    | none => m.modShunt fun s => { s with tasks := s.tasks.map fun t =>
        if t.st = .stranded ∧ t.coach = c.val then { t with solo := true } else t }

/-- RELOCATE_GROUP: tasks with no coach left end with FENCED; the rest of a fenced coach moves together, or each task of a
group that has split by itself. -/
def Chip.relocateGo (m0 : Chip) (c : Fin 64) : Chip :=
  let m := (if (m0.coach c).vown.dirty then m0.saveVec c else m0).endFenced
  let m1 := ((m.strandedOf c).filter m.noCoach).foldl (fun m t => m.markEnding t.handle stFenced 0) m
  let m2 := m1.relocateAll c
  let m3 := ((m2.strandedOf c).filter (·.solo)).foldl (fun m t => match m.targetFor [t] with
    | some d => m.moveGroup c d [t]
    | none => m) m2
  m3.clearParts c

/-- The end of FENCE: every resident task has moved, ended, or waits for a target, which has been sought. A FENCE that a post
held acts now. -/
def Chip.fenceEnd (m : Chip) : Chip :=
  let c : Fin 64 := ⟨m.cmdArg shuntPage % 64, Nat.mod_lt _ (by decide)⟩
  if m.shuntHold then m
  else if !m.flag (K.shuntCoachCfg c.val) F.shuntCoachCfgFenced then m.fenceCoach c
  else if m.fencedOff c then
    let m1 := m.relocateGo c
    if (m1.residents c.val).all fun t => t.st == .stranded && t.ending.isNone then (m1.endCmd shuntPage cmdOk).event shuntPage 17
    else m1
  else m

/-- UNFENCE. -/
def Chip.unfence (m : Chip) (l : Launch) : Chip :=
  if h : l.arg.toNat < 64 then
    let c : Fin 64 := ⟨l.arg.toNat, h⟩
    if (List.range 8).any fun i => m.flag (K.cmemPart c.val i) F.cmemPartValid then m.endCmd shuntPage cmdNotIdle
    else
      let m1 := m.setFld (K.shuntCoachCfg c.val) F.shuntCoachCfgFenced 0
      let m2 := ([false, true] : List Bool).foldl (fun m a =>
        if (m.ctx ⟨c, a⟩).st == .fenced then m.idleCtx ⟨c, a⟩ else m) m1
      m2.endCmd shuntPage cmdOk
  else m.endCmd shuntPage cmdBadArg

def execEnd (l : Launch) (s : State) : Host.Outcome State Fault Refusal :=
  onChip (fun m => m.issue shuntPage 1 l fun l m => m.endStart l) s
def execFence (l : Launch) (s : State) : Host.Outcome State Fault Refusal :=
  onChip (fun m => m.issue shuntPage 2 l fun l m => m.fenceStart l) s
def execUnfence (l : Launch) (s : State) : Host.Outcome State Fault Refusal :=
  onChip (fun m => m.issue shuntPage 3 l fun l m => m.unfence l) s

def Chip.relocate (m : Chip) (c : Fin 64) : Chip := if !m.fencedOff c || m.shuntHold then m else m.relocateGo c

def execRelocateGroup (c : Fin 64) (s : State) : Host.Outcome State Fault Refusal := onChip (fun m => m.relocate c) s

/-! ### COACH commands (R109) -/

/-- START; during a post or a rollback the context goes on when that ends. -/
def Chip.ctxStart (m : Chip) (c : Fin 64) (l : Launch) : Chip :=
  let p := coachPage c
  let x : Ctx := ⟨c, l.arg.getLsbD 0⟩
  let k := m.ctx x
  if 2 ≤ l.arg.toNat then m.endCmd p cmdBadArg
  else if k.st == .held || k.st == .stopped then
    let go (k : Context) : Context :=
      if m.stg.post == .quiesce || m.stg.post == .mirror || m.stg.rb != .none then
        { k with st := .stopped, stopReq := if k.stopReq.elem .quiesce then k.stopReq else .quiesce :: k.stopReq }
      else { k with st := .running, wait := .none }
    ((((m.applyStaged p).applyStaged ⟨.tally, x.tally⟩).modCtx x go).syncCoach c.val).endCmd p cmdOk
  else m.endCmd p cmdNotIdle

/-- STOP: it ends when STATE reads 3, at HUB_STOP. -/
def Chip.ctxStop (m : Chip) (c : Fin 64) (l : Launch) : Chip :=
  let p := coachPage c
  let x : Ctx := ⟨c, l.arg.getLsbD 0⟩
  if 2 ≤ l.arg.toNat then m.endCmd p cmdBadArg
  else if (m.ctx x).st.going then m.askStop x .stop
  else m.endCmd p cmdNotIdle

/-- VFLUSH. -/
def Chip.vflush (m : Chip) (c : Fin 64) (l : Launch) : Chip :=
  let p := coachPage c
  let busy := match m.vecOwner c with
    | some x => (m.ctx x).st.going
    | none => false
  if 2 ≤ l.arg.toNat then m.endCmd p cmdBadArg
  else if busy then m.endCmd p cmdNotIdle
  else
    let tag := (m.coach c).vown.tag
    let m1 := if tag = 0 then m else (m.saveVec c).modVec c fun k => { k with q := [] }
    ((m1.modVown c fun v => { v with owner := 0, dirty := false, tag := 0, evict := false }).syncCoach c.val).endCmd p cmdOk

def execStart (c : Fin 64) (l : Launch) (s : State) : Host.Outcome State Fault Refusal :=
  onChip (fun m => m.issue (coachPage c) 1 l fun l m => m.ctxStart c l) s
def execStop (c : Fin 64) (l : Launch) (s : State) : Host.Outcome State Fault Refusal :=
  onChip (fun m => m.issue (coachPage c) 2 l fun l m => m.ctxStop c l) s
def execVflush (c : Fin 64) (l : Launch) (s : State) : Host.Outcome State Fault Refusal :=
  onChip (fun m => m.issue (coachPage c) 3 l fun l m => m.vflush c l) s

end Sys2Proof.Machine
end

