-- ==== Sys2Proof/Machine/HostLink.lean ====
section
/-! DEFINITION. The host links (R41, R42, R405 to R415): training and resets, configuration, BAR2, the completions of the
module's reads, and what waits for a link. -/
namespace Sys2Proof.Machine

/-! ### Links and functions -/

/-- Link `l` exists (R406). -/
def Chip.hasLink (m : Chip) (l : Nat) : Bool := decide (l = 0) || m.bifur

/-- The physical functions of a link and its virtual functions, by index (R406). -/
def Chip.linkFuncs (m : Chip) (l : Nat) : List (Fin 16) := (List.finRange 16).filter fun f => m.linkOf f.val == l && m.hasLink l

/-- Virtual functions of the link, in order. -/
def Chip.linkVfs (m : Chip) (l : Nat) : List (Fin 16) := (m.linkFuncs l).filter fun f => m.isVf f.val

/-- NumVFs of a link: the first so many virtual functions exist (R414). -/
def Chip.setNumVfs (m : Chip) (l n : Nat) : Chip :=
  ((m.linkVfs l).zipIdx).foldl (fun (m : Chip) (e : Fin 16 × Nat) =>
    (m.setFld (K.funcFstat e.1.val) F.funcFstatPresent (b2n (decide (e.2 < n)))).syncRun ⟨.func, e.1.val⟩) m

/-- Requests of the host on link `l` that the module has received and not completed are discarded (R413): BAR2 accesses that
their memory holds, descriptors that wait for the FIFO, and writes that wait behind them. -/
def Chip.dropReceived (m : Chip) (l : Fin 2) : Chip :=
  let mine (h : HeldReq) : Bool := idKind h.master == 1 && !h.target && m.linkOf (idIndex h.master % 16) == l.val
  { m with
    crcHeld := m.crcHeld.filter (!mine ·)
    slices := m.slices.map fun k => { k with held := k.held.filter (!mine ·) }
    xlat := { m.xlat with stalled := m.xlat.stalled.filter (·.link != l) }
    host := { m.host with behind := m.host.behind.filter (·.1 != l) } }

/-- A LINK reset (R33, R413): configuration space and the state of the link return to their reset values; reads under way
and writes not sent are held, but for invalidation completions, which are lost (R363). -/
def Chip.linkReset (m0 : Chip) (l : Fin 2) : Chip :=
  let m := m0.dropReceived l
  let fs := m.linkFuncs l.val
  let h := m.host
  let cfg := h.cfg.mapIdx fun i c => if fs.any (·.val == i) then FuncCfg.reset else c
  let lost (w : HeldWrite) : Bool := w.kind == .inval && w.link == l.val
  let m1 : Chip := ({ m with host := { h with
    cfg := cfg, mcBase := h.mcBase.set l.val 0, mcSize := h.mcSize.set l.val 0, mcRecv := h.mcRecv.set l.val 0,
    msix := smapErase (fun k => fs.any fun f => k / 2048 == f.val) h.msix,
    msixPend := h.msixPend.filter fun e => !(fs.any (·.val == e.1)),
    held := h.held.filter (!lost ·),
    reads := h.reads.map fun r => if r.link = l.val then { r with sent := false, tags := [] } else r } }
    : Chip).count K.invalLostCpl (h.held.filter lost).length
  let m2 := (fs.foldl (fun (m : Chip) f => m.setFld (K.funcFstat f.val) F.funcFstatBme 0) m1).setNumVfs l.val 0
  let m3 := (m2.setReg (K.hostifLinkStat l.val) 0).setFld K.rstResetCause F.rstResetCauseLink 1
  (m3.logEvent (.reset (F.rstResetCauseLink.put 0 1))).syncHeld

/-- LINK_RESET: a hot reset, or the link goes down. -/
def execLinkReset (l : Fin 2) (s : State) : Host.Outcome State Fault Refusal :=
  onChip (fun m => m.when (m.hasLink l.val && m.linkUp l.val) fun m => m.linkReset l) s

/-- Training of link `l` has begun (R41). -/
def Chip.training (m : Chip) (l : Fin 2) : Bool := if l = 0 then m.board.train0 else m.board.train1

/-- The perst of link `l` is deasserted. -/
def Chip.perstHigh (m : Chip) (l : Fin 2) : Bool := if l = 0 then m.board.perst0N else m.board.perst1N

/-- HOST_LINK_TRAIN (R41): the PCIe core runs and the link's perst is deasserted. -/
def execHostLinkTrain (l : Fin 2) (s : State) : Host.Outcome State Fault Refusal :=
  onChip (fun m => m.when (m.hasLink l.val && m.domRuns 21 && m.perstHigh l && !m.training l) fun m =>
    m.modBoard fun b => if l = 0 then { b with train0 := true } else { b with train1 := true }) s

/-- PERST1_CHANGE (R13, R33): on a bifurcated module it holds link 1 in LINK reset, or releases it. Within a MODULE reset, which
takes the whole link, its cause is recorded all the same (R37). -/
def execPerst1Change (high : Bool) (s : State) : Host.Outcome State Fault Refusal :=
  onChip (fun m => m.when (m.board.perst1N != high) fun m =>
    let m1 := m.modBoard fun b => { b with perst1N := high }
    if !m1.bifur || m1.board.por then m1
    else if high then m1.modBoard fun b => { b with link1Held := false }
    else
      let m2 := m1.modBoard fun b => { b with link1Held := true, train1 := false }
      if m2.board.inReset then m2.setFld K.rstResetCause F.rstResetCauseLink 1 else m2.linkReset 1) s

/-- PERST0_DEASSERT (R41): link 0 may train; the MODULE cause clears. -/
def execPerst0Deassert (s : State) : Host.Outcome State Fault Refusal :=
  onChip (fun m => m.when (!m.board.perst0N) fun m =>
    (m.modBoard fun b => { b with perst0N := true }).causeClears (· == .perst)) s

/-- HOST_LINK_UP (R405, R413): the link is up at a generation and width; what was held goes on, platform
events that waited for a link too (R487). -/
def execHostLinkUp (l : Fin 2) (gen width : Nat) (flit : Bool) (s : State) : Host.Outcome State Fault Refusal :=
  onChip (fun m =>
    let widths : List Nat := if m.bifur then [1, 2, 4, 8] else [1, 2, 4, 8, 16]
    m.when (m.hasLink l.val && m.training l && !m.linkUp l.val && decide (3 ≤ gen ∧ gen ≤ 6) && widths.elem width
        && (flit || decide (gen ≠ 6))) fun m =>
      (m.setReg (K.hostifLinkStat l.val) (BitVec.ofNat 64 (1 + gen * 2 + width * 16 + b2n flit * 512))).pumpLink l.val |>.sendEvents) s

/-! ### Configuration (R42, R46, R48, R406, R409, R410, R412) -/

/-- Bytes 0 to 15 of the MSI-X entries of a function, and from 0x6000 its Pending Bit Array (R407). -/
def Chip.msixByte (m : Chip) (f a : Nat) : Byte :=
  let n := m.msixSize f
  if a < 16 * n then ((m.msixEntry f (a / 16)) >>> (8 * (a % 16))).setWidth 8
  else if 0x6000 ≤ a ∧ a < 0x6000 + (n + 63) / 64 * 8 then
    BitVec.ofNat 8 (((List.range 8).map fun i => b2n (m.host.msixPend.elem (f, 8 * (a - 0x6000) + i)) * 2 ^ i).foldl (· + ·) 0)
  else 0

/-- An access to BAR4/5 is a doubleword or a quadword in its place (PRESUMED, the PCIe rules; log entry 50). -/
def tableShape (off n : Nat) : Bool := decide ((n = 4 ∨ n = 8) ∧ off % n = 0 ∧ off + n ≤ 0x8000)

/-- A byte of an MSI-X entry is written. -/
def Chip.msixPut (m : Chip) (f a : Nat) (b : Byte) : Chip :=
  if a < 16 * m.msixSize f then
    let i := 8 * (a % 16)
    let e := (m.msixEntry f (a / 16) &&& ~~~ (BitVec.ofNat 128 (0xFF * 2 ^ i))) ||| ((b.setWidth 128) <<< i)
    { m with host := { m.host with msix := smapSet (fun _ => msixReset) m.host.msix (f * 2048 + a / 16) e } }
  else m

/-- A write to the table takes effect; messages that an entry no longer masks are sent. -/
def Chip.tableWrite (m : Chip) (f off : Nat) (l : List Byte) : Chip :=
  if tableShape off l.length then (l.zipIdx.foldl (fun (m : Chip) (e : Byte × Nat) => m.msixPut f (off + e.2) e.1) m).pumpMsix else m

/-- A configuration write takes effect. -/
def Chip.cfgWrite (m : Chip) (f : Fin 16) (w : CfgAccess) : Chip :=
  let l := m.linkOf f.val
  let mod (g : FuncCfg → FuncCfg) (m : Chip) : Chip := { m with host := { m.host with cfg := m.host.cfg.set f.val (g m.host.cfg[f.val]) } }
  match w with
  | .bme on => (m.setFld (K.funcFstat f.val) F.funcFstatBme (b2n on)).pumpLink l
  | .msixMask k => (mod (fun c => { c with msixMask := k }) m).pumpMsix
  | .payload n => if ([128, 256, 512] : List Nat).elem n then mod (fun c => { c with mps := n }) m else m
  | .readReq n => if ([128, 256, 512, 1024, 2048, 4096] : List Nat).elem n then mod (fun c => { c with mrrs := n }) m else m
  | .ordering r i => mod (fun c => { c with relaxed := r, ido := i }) m
  | .ecrc on => mod (fun c => { c with ecrc := on }) m
  | .aerClear b => mod (fun c => { c with aer := c.aer &&& ~~~ b }) m
  | .tableWrite off l => m.tableWrite f.val off l
  | .numVfs n => if m.isVf f.val || decide ((m.linkVfs l).length < n) then m else m.setNumVfs l n
  | .multicast b n r =>
    if m.isVf f.val then m
    else
      let i : Fin 2 := if l = 0 then 0 else 1
      { m with host := { m.host with
        mcBase := m.host.mcBase.set i.val b, mcSize := m.host.mcSize.set i.val n, mcRecv := m.host.mcRecv.set i.val r } }
  | .read _ | .tableRead _ _ | .other => m

/-- What a configuration read returns (R406, R407, R409, R410, R412). -/
def Chip.cfgRead (m : Chip) (f : Fin 16) (r : CfgField) : List Nat :=
  let c := m.host.cfg[f.val]
  let l := m.linkOf f.val
  match r with
  | .ids => [if m.isVf f.val then 0x6417 else 0x6416, 0xA1, 0x120000]
  | .sriov => if m.isVf f.val then [] else
      [(m.linkVfs l).length, 1, 1, 0x6417, ((m.linkVfs l).filter fun v => m.present v.val).length]
  | .bar 0 => [0x8000000, 0]
  | .bar 1 => [2 ^ 42, 1]
  | .bar 2 => [0x8000, 0]
  | .msix => [m.msixSize f.val, b2n c.msixMask, 4, 0, 0x6000]
  | .control => [b2n (m.bme f.val), c.mps, 512, c.mrrs, 4096, b2n c.relaxed, b2n c.ido, b2n c.ecrc]
  | .aer => [c.aer.toNat]
  | .multicast =>
    let i : Fin 2 := if l = 0 then 0 else 1
    if m.isVf f.val then [] else [64, m.host.mcBase[i], m.host.mcSize[i], m.host.mcRecv[i].toNat]

/-- The values with which a request is completed: those of a read; a free value where the manual gives no register. -/
def Chip.cfgValue (m : Chip) (f : Fin 16) : CfgAccess → List Nat
  | .read r => m.cfgRead f r
  | .other => [(Config.freeWord m.tick).toNat]
  | _ => []

/-- AER notes an uncorrectable error of a function: bit 14 a completion timeout, bit 20 an unsupported request (R410; the bits
are those of the PCIe rules, log entry 50). -/
def Chip.aerNote (m : Chip) (f bit : Nat) : Chip :=
  let c := m.cfgOf f
  { m with host := { m.host with cfg := m.host.cfg.set (f % 16) { c with aer := c.aer ||| BitVec.ofNat 32 (2 ^ bit) } (by omega) } }

/-- Retry Status has ended: the module is ready, or it stands in a held failure state or a recovery boot. -/
def Chip.cfgOpen (m : Chip) : Bool := m.ready || m.board.heldFail || m.flag K.rstBootStat F.rstBootStatRecovery

/-- CONFIG_REQUEST: answered with Retry Status before the module is ready, else completed. A held failure state and a
recovery boot offer the physical functions alone. Accesses to the MSI-X table and the Pending Bit Array in BAR4/5 (R407) come by
this command too; they are memory requests and wait for the module to be ready. -/
def Chip.configRequest (m : Chip) (f : Fin 16) (w : CfgAccess) : Chip :=
  if !m.linkUp (m.linkOf f.val) then m
  else match w with
    | .tableRead off n =>
      if m.present f.val && m.ready && tableShape off n then
        m.emit (.access (funcId f.val) off (some ((List.range n).map fun i => m.msixByte f.val (off + i))))
      else m.emit (.unsupported (funcId f.val) off)
    | .tableWrite off l => m.when (m.present f.val && m.ready) fun m => m.tableWrite f.val off l
    | _ =>
      if !m.cfgOpen then m.emit (.config f.val true [])
      else if !m.present f.val || (m.isVf f.val && !m.ready) then m.emit (.unsupported (funcId f.val) 0)
      else
        let r := (m.cfgWrite f w).emit (.config f.val false (m.cfgValue f w))
        if w = .other then r.next else r

def execConfigRequest (f : Fin 16) (w : CfgAccess) (s : State) : Host.Outcome State Fault Refusal := onChip (fun m => m.configRequest f w) s

/-! ### BAR2 (R408) -/

/-- The access lies in the function's window. -/
def Chip.inWindow (m : Chip) (f a n : Nat) : Bool :=
  let w := m.reg (K.funcMemWin f)
  F.funcMemWinEn.bit w && decide (F.funcMemWinBase.get w * 65536 ≤ a) && decide (a + n ≤ (m.fld (K.funcMemLim f) F.funcMemLimLim + 1) * 65536)
    && decide (a + n ≤ regBase)

/-- A write of the host or a peer lands: HBM in pieces of a line, else as it came; `false` is an access error. -/
def Chip.landWrite (m : Chip) (master : BitVec 16) (cls a : Nat) (l : List Byte) (rc : Option Nat) : Chip × Bool :=
  if a < depotBase then
    (pieces 256 a l.length (l.length + 1)).foldl (fun (acc : Chip × Bool) p =>
      let r := acc.1.devWrite master cls p.1 ((l.drop (p.1 - a)).take p.2) false rc
      (r.1, acc.2 && r.2)) (m, true)
  else m.fabWrite master cls a l false rc

/-- A read of the host: HBM in pieces of a line, else as it came. -/
def Chip.landRead (m : Chip) (master : BitVec 16) (cls a n : Nat) : Chip × Option (List Byte) :=
  if a < depotBase then m.devGet master cls a n else m.fabRead master cls a n false

/-- A target write that waits for its turn: after a post, or in a re-execution when the log reaches it (R443, R454). -/
def Chip.waitsTurn (m : Chip) : Bool := m.defers || m.reexec

/-- The input's record enters the log; its effect waits. -/
def Chip.deferRecord (m : Chip) (r : LogRec) (t : DefTarget) : Chip := (m.logPut r).deferWrite ⟨r, t⟩

/-- Bytes from `a` on as the deferred writes of a post leave them (R428): a read that follows the response of a write returns its
data. During a rollback and a re-execution memory is served as it stands (R458). -/
def Chip.overDeferred (m : Chip) (a : Nat) (l : List Byte) : List Byte :=
  if m.stg.post == .quiesce || m.stg.post == .mirror then
    m.stg.deferred.foldl (fun l (d : Deferred) => match d.target with
      | .write =>
        let b := d.entry.value.toNat
        l.zipIdx.map fun e => if b ≤ a + e.2 then (d.entry.payload[a + e.2 - b]?).getD e.1 else e.1
      | .read _ => l) l
  else l

/-- HOST_BAR2_ACCESS: a read of `n` bytes, or a write, by a function. -/
def Chip.bar2 (m : Chip) (f : Fin 16) (a n : Nat) (d : Option (List Byte)) : Chip :=
  let id := funcId f.val
  let len := match d with
    | some l => l.length
    | none => n
  let no (m : Chip) : Chip := (m.aerNote f.val 20).emit (.unsupported id a)
  let shut (m : Chip) : Chip := if d.isNone then no m else m
  if !m.linkUp (m.linkOf f.val) || len = 0 then m
  else if !m.present f.val || !m.ready || m.chocked id then shut m
  else if !m.inWindow f.val a len then shut (m.count (K.funcMemDeny f.val) 1)
  else if m.devHeld 3 d.isSome false a len then m.holdAccess (heldReq id 3 a d len false)
  else match d with
    | none =>
      let r := m.landRead id 3 a n
      match r.2 with
      | some l => r.1.emit (.access id a (some (m.overDeferred a l)))
      | none => no r.1
    | some l =>
      if (m.stalledLink id).isSome then m.waitBehind ⟨m.linkOf f.val % 2, Nat.mod_lt _ (by decide)⟩ (.bar2 f a l)
      else if m.logStalls len then m.logBlocked
      else if m.waitsTurn && !m.inMirror a then m.deferRecord (dataRec .bar2Write id 0 a l (some ⟨3, none, none⟩)) .write
      else
        let r := m.landWrite id 3 a l none
        if r.2 then r.1.logRec (dataRec .bar2Write id 0 a l (some ⟨3, none, none⟩)) else no r.1

/-- A notification reaches the context that its window names, or is discarded (R428). -/
def Chip.notifyWindow (m : Chip) (n : Notice) : Chip :=
  let w := n.ctl
  let x : Ctx := ⟨⟨F.coupleWinCtlNcoach.get w % 64, Nat.mod_lt _ (by decide)⟩, F.coupleWinCtlNside.bit w⟩
  let k := m.ctx x
  if F.coupleWinCtlNen.bit w && k.task != 0 && decide (k.asid.toNat = F.coupleWinCtlNasid.get w) then m.setEvents x 0x8000
  else (m.record (couplePage n.win) 0x82 (peerId n.peer) none none 32).event (couplePage n.win) 18

/-- A write of a peer or a deferred target write lands, in pieces that every region serves. -/
def Chip.peerPut (m : Chip) (master : BitVec 16) (cls a : Nat) (l : List Byte) (rc : Option Nat) : Chip :=
  (pieces (if coreBase ≤ a then 512 else 256) a l.length (l.length + 1)).foldl
    (fun m p => (m.fabWrite master cls p.1 ((l.drop (p.1 - a)).take p.2) false rc).1) m

/-- A target write whose input has been logged is performed, and notifies; where its memory holds it, it waits there
(R299, R317, R332). -/
def Chip.targetPut (m : Chip) (h : HeldReq) : Chip :=
  if h.len ≠ 0 ∧ m.devHeld h.cls true h.noalloc h.addr h.len then m.holdAccess h
  else
    let m1 := m.peerPut h.master h.cls h.addr h.data h.rc
    let m2 := match h.xfer with
      | some id => (m1.modXfer id fun x => { x with done := x.done + h.len }).xferStep id 4
      | none => m1
    match h.notify with
    | some w => m2.notifyWindow w
    | none => m2

/-- A held access goes on: a target write, the host's as it came, another of the fabric at its slice. -/
def Chip.retryHeld (m : Chip) (h : HeldReq) : Chip :=
  let d := if h.write then some h.data else none
  if h.target then m.targetPut h
  else if idKind h.master = 1 then m.bar2 ⟨idIndex h.master % 16, Nat.mod_lt _ (by decide)⟩ h.addr h.len d
  else m.depotAccess ⟨h.master, h.cls, h.addr, h.len, d⟩ h.noalloc false

/-- Accesses that a SPLIT held are performed in their order (R299). -/
def Chip.releaseHeld (m : Chip) (s : Nat) : Chip :=
  (m.slice s).held.foldl Chip.retryHeld (m.modSlice s fun k => { k with held := [] })

/-- What a bad block or a parity error still holds, once the repair of granule `g` is done (R307, R317). -/
def Chip.stillHeld (m : Chip) (g : Nat) (h : HeldReq) : Bool :=
  if h.parity then granuleOf h.addr != g else m.crcHolds h.write h.noalloc h.addr h.len

/-- Accesses that waited for a repair of granule `g` go on in their order (R317); engines that wait look again. -/
def Chip.releaseCrc (m : Chip) (g : Nat) : Chip :=
  let go := m.crcHeld.filter fun h => !m.stillHeld g h
  go.foldl Chip.retryHeld
    { m with crcHeld := m.crcHeld.filter (m.stillHeld g), crcSeen := m.crcSeen.filter fun e => m.badCrc.elem e.2 }

def execHostBar2Access (f : Fin 16) (a n : Nat) (d : Option (List Byte)) (s : State) : Host.Outcome State Fault Refusal :=
  onHbm (fun m => m.bar2 f a n d) s

/-! ### Reads of the module that end (R332, R410, R413) -/

def Chip.dropRead (m : Chip) (id : Nat) : Chip :=
  Chip.pumpReads { m with host := { m.host with reads := m.host.reads.filter (·.id != id) } }

/-- A dray or vector read that ends in error: zeros, and a HOST_ERR record (R413). -/
def Chip.hostErr (m : Chip) (r : HostRead) (err : Bool) : Chip :=
  if err then (m.record ⟨.hostif, 0⟩ 0x80 r.master none (some r.va) 21).event ⟨.hostif, 0⟩ 16 else m

/-- Reloaded bytes of a granule reach it, or the reload fails (R450). -/
def Chip.reloadDeliver (m : Chip) (g off : Nat) (l : List Byte) (err : Bool) : Chip :=
  if err then (m.endJob (.reload g)).report (m.recEvent causeReload stageId (g * 65536) 32)
  else (m.devPut stageId 1 (g * 65536 + off) l none).1

/-- The data of a read reaches what asked for it; what enters the stage is logged first. A read whose record has no room
stays as it is. From Hold to Release the target writes of transfers and of code are deferred (R442, R443); the elements of a
vector entry and the rows of a dray that were sent are delivered, since they complete before their engine has stopped (R215,
R327; DEDUCED, log entry 101). -/
def Chip.readDeliver (m : Chip) (r : HostRead) (data : List Byte) (err : Bool) : Chip :=
  let l := if err then List.replicate r.len 0 else data
  let c (c : Nat) : Fin 64 := ⟨c % 64, Nat.mod_lt _ (by decide)⟩
  let deferred : Chip :=
    if m.logStalls r.len then m.logBlocked
    else (m.dropRead r.id).deferRecord (dataRec .transfer r.master r.task r.va l none) (.read r)
  let logged (kind : LogKind) (go : Chip → Chip) : Chip :=
    if m.logStalls r.len then m.logBlocked else go ((m.dropRead r.id).logData kind r.master r.task r.va l)
  match r.dest with
  | .walk k id => (m.dropRead r.id).walkDeliver k id (if err then none else some l)
  | .vec k i j => logged .hostRead fun m => (m.hostErr r err).vecDeliver (c k) i j l
  | .dray k s b g => logged .hostRead fun m => (m.hostErr r err).drayDeliver (c k) ⟨s % 8, Nat.mod_lt _ (by decide)⟩ b g l
  | .xfer id off =>
    if err || (m.xferById id).any (·.reload) then (m.dropRead r.id).xferDeliver id off l err
    else if m.defers then deferred
    else logged .transfer fun m => m.xferDeliver id off l false
  | .code h off =>
    if err then (m.dropRead r.id).codeDeliver (BitVec.ofNat 16 h) off l true
    else if m.defers then deferred
    else logged .transfer fun m => m.codeDeliver (BitVec.ofNat 16 h) off l false
  | .reload g off => (m.dropRead r.id).reloadDeliver g off l err

def Chip.readById (m : Chip) (id : Nat) : Option HostRead := m.host.reads.find? fun r => r.id == id

/-- HOST_COMPLETION: the completion of a read, with its data or an error status. -/
def Chip.hostCompletion (m : Chip) (id : Nat) (data : List Byte) (err : Bool) : Chip :=
  match m.readById id with
  | some r => if r.sent && m.linkUp r.link && (err || decide (data.length = r.len)) then m.readDeliver r data err else m
  | none => m

def execHostCompletion (id : Nat) (data : List Byte) (err : Bool) (s : State) : Host.Outcome State Fault Refusal :=
  onHbm (fun m => m.hostCompletion id data err) s

/-- HOST_COMPLETION_TIMEOUT: a read has had no completion for 50 ms. -/
def execHostCompletionTimeout (id : Nat) (s : State) : Host.Outcome State Fault Refusal :=
  onChip (fun m => match m.readById id with
    | some r => if r.sent then (m.aerNote r.func 14).readDeliver r [] true else m
    | none => m) s

/-- HOST_HOLD_EXPIRE: the oldest write that a link holds, or one of its reads, has waited for HOLD_LIMIT; what waited behind the
write goes on. -/
def Chip.holdExpire (m : Chip) (l : Fin 2) (id : Option Nat) : Chip :=
  match id with
  | none =>
    match m.host.held.find? fun w => w.link == l.val && !(m.linkUp l.val && m.bme w.func) with
    | some w => ({ m with host := { m.host with held := m.host.held.erase w } } : Chip).pumpHeld l.val
    | none => m
  | some id => match m.readById id with
    | some r =>
      if r.link = l.val && !r.sent && !(m.linkUp l.val && m.bme r.func) && !(m.logged r && m.readsFromLog r.master) then m.readDeliver r [] true else m
    | none => m

def execHostHoldExpire (l : Fin 2) (id : Option Nat) (s : State) : Host.Outcome State Fault Refusal := onChip (fun m => m.holdExpire l id) s

end Sys2Proof.Machine
end

