-- ==== Sys2Proof/Machine/Selfan.lean ====
section
/-! DEFINITION. What arrives on the Selfan ports (R416 to R433): link-level retry and credits, passage, the checks of
inbound requests, the responses to the module's own, and ports that train and go down. -/
namespace Sys2Proof.Machine

/-- The first valid peer entry with a Selfan address (R425 step 1). -/
def Chip.peerOf (m : Chip) (a : BitVec 16) : Option Nat :=
  (List.range 1024).find? fun n =>
    F.couplePeerCtlV.bit (m.peerCtl n) && decide (F.couplePeerCtlAddr.get (m.peerCtl n) = a.toNat)

/-! ### Receiving (R417, R419, R422) -/

/-- What the receiving end of a link does with a packet: accepts it, sends a NAK, or discards it. -/
inductive Recv where
  | accept | nak | discard
  deriving DecidableEq, Repr

/-- A bad packet is always answered with a NAK; one out of order only when none is already awaited. -/
def LinkEnd.recv (e : LinkEnd) (lseq : BitVec 12) (good : Bool) : Recv :=
  if !good then .nak else if lseq = e.rx then .accept else if e.naked then .discard else .nak

/-- A flit port receives a packet; `true` when it is accepted. -/
def Chip.flitRecv (m : Chip) (p : Nat) (lseq : BitVec 12) (good : Bool) (k : Packet) : Chip × Bool :=
  let e := (m.sfPort p).flit
  let m0 := if good then m else m.count (K.linkCrcErr p) 1
  match e.recv lseq good with
  | .accept =>
    let m1 := m0.modPort p fun s => { s with flit := { e with rx := e.rx + 1, naked := false }, got := vinc s.got k.channel }
    ((((m1.linkFlit p true lseq).count (K.linkRxPkts p) 1).count (K.linkRxBytes p) k.payload), true)
  | .nak => ((m0.modPort p fun s => { s with flit := { e with naked := true } }).linkFlit p false (e.rx - 1), false)
  | .discard => (m0, false)

/-- The same end to end for a peer in Ethernet mode. -/
def Chip.ethRecv (m : Chip) (p n : Nat) (lseq : BitVec 12) (good : Bool) (k : Packet) : Chip × Bool :=
  let e := m.ethEnd n
  let m0 := if good then m else m.count (K.linkCrcErr p) 1
  match e.recv lseq good with
  | .accept =>
    let m1 := m0.setEth n { e with rx := e.rx + 1, naked := false }
    ((((m1.emit (.ackFrame p n true lseq)).count (K.linkRxPkts p) 1).count (K.linkRxBytes p) k.payload), true)
  | .nak => ((m0.setEth n { e with naked := true }).emit (.ackFrame p n false (e.rx - 1)), false)
  | .discard => (m0, false)

/-- A receive slot of a flit port is free again; an Ethernet port has no credits. -/
def Chip.slotDone (m : Chip) (p : Nat) (k : Packet) : Chip := if m.portEth p then m else m.freeSlot p k.channel

/-- A packet for another module leaves by its next port, or is discarded (R421). -/
def Chip.forward (m : Chip) (p : Nat) (k : Packet) : Chip :=
  let q := k.route.toNat / 2 ^ (4 * k.hop) % 16
  if 4 ≤ k.hop ∨ 9 < q ∨ !m.portUp q ∨ m.portEth q then (m.count (K.linkFwdDrop p) 1).freeSlot p k.channel
  else (m.count (K.linkFwdPkts p) 1).portPut q ⟨{ k with hop := k.hop + 1 }, none, some p, none, 0, 0⟩

/-! ### Output sequence numbers (R427) -/

def Chip.rxOsn (m : Chip) (n : Nat) : Nat := m.fld (K.couplePeerOsn (n / 64) (n % 64)) F.couplePeerOsnRxOsn

def Chip.osnBits (m : Chip) (n : Nat) : BitVec 256 := smapGet (fun _ => 0) m.sf.osn n

/-- How far an OSN lies above RX_OSN, modulo 2^32. -/
def Chip.osnAhead (m : Chip) (n osn : Nat) : Nat := (osn + 2 ^ 32 - m.rxOsn n) % 2 ^ 32

/-- At most RX_OSN, or performed or refused above it. -/
def Chip.osnDup (m : Chip) (n osn : Nat) : Bool :=
  let d := m.osnAhead n osn
  decide (d = 0) || decide (2 ^ 31 ≤ d) || (decide (d ≤ 256) && (m.osnBits n).getLsbD (d - 1))

/-- More than 256 above RX_OSN. -/
def Chip.osnFar (m : Chip) (n osn : Nat) : Bool := decide (256 < m.osnAhead n osn ∧ m.osnAhead n osn < 2 ^ 31)

/-- RX_OSN moves past every write at its head that is performed or refused. -/
def Chip.osnAdvance (m : Chip) (n : Nat) : Nat → Chip
  | 0 => m
  | fuel + 1 =>
    let b := m.osnBits n
    if b.getLsbD 0 then
      let m1 : Chip := { m with sf := { m.sf with osn := smapSet (fun _ => 0) m.sf.osn n (b >>> 1) } }
      (m1.setFld (K.couplePeerOsn (n / 64) (n % 64)) F.couplePeerOsnRxOsn (m.rxOsn n + 1)).osnAdvance n fuel
    else m

/-- A write is performed or refused. -/
def Chip.osnMark (m : Chip) (n osn : Nat) : Chip :=
  let d := m.osnAhead n osn
  if d = 0 ∨ 256 < d then m
  else
    let b := m.osnBits n ||| BitVec.ofNat 256 (2 ^ (d - 1))
    { m with sf := { m.sf with osn := smapSet (fun _ => 0) m.sf.osn n b } }.osnAdvance n 256

/-! ### Inbound requests (R425 to R428) -/

abbrev sfOk : Nat := 0x00
abbrev sfDup : Nat := 0x01
abbrev sfChocked : Nat := 0x02
abbrev sfBadWin : Nat := 0x03
abbrev sfAccessErr : Nat := 0x04

/-- The response to a request of peer `n` under an entry of it; it is lost when no port can carry it. -/
def Chip.respondUnder (m : Chip) (n : Nat) (c w : W64) (k : Packet) (status : Nat) (data : List Byte) : Chip :=
  (m.sendUnder n c w
    { k with typ := if k.typ = .write then .writeRsp else .readRsp, notify := false, status := BitVec.ofNat 8 status,
             bytes := data.length, data := data } none none).getD m

/-- The response under the entry that stands. -/
def Chip.respond (m : Chip) (n : Nat) (k : Packet) (status : Nat) (data : List Byte) : Chip :=
  m.respondUnder n (m.peerCtl n) (m.peerMac n) k status data

/-- Priorities in use at an Ethernet-mode port: those of its peers (R422). -/
def Chip.priosOf (m : Chip) (p : Nat) : BitVec 8 :=
  (List.range 1024).foldl (fun (v : BitVec 8) n =>
    let c := m.peerCtl n
    if F.couplePeerCtlV.bit c && F.couplePeerCtlEth.bit c && (F.couplePeerCtlPorts.get c).testBit p then
      v ||| BitVec.ofNat 8 (2 ^ macPrio (m.peerMac n)) else v) 0

/-- Priority flow control of an Ethernet-mode port (R422): it pauses the priorities in use while requests hold as many receive
slots as a port has for them, and lets them go on when one is free (R420; DESIGN CHOICE, log entry 103). -/
def Chip.flowControl (m : Chip) (p : Nat) : Chip :=
  let full := decide (channelSlots 0 ≤ (m.sf.inb.filter (·.port == p)).length)
  let old := (m.sfPort p).pausing
  if !m.portEth p || !m.flag (K.linkPortCfg p) F.linkPortCfgPfc || full == (old != 0) then m
  else
    let v := if full then m.priosOf p else 0
    (m.modPort p fun s => { s with pausing := v }).emit (.pause p v)

/-- A write that is decided is marked. -/
def Chip.markIf (m : Chip) (n : Nat) (k : Packet) : Chip := if k.typ = .write then m.osnMark n k.tag.toNat else m

/-- The window admits the request (R425 step 3). -/
def Chip.windowOk (m : Chip) (n : Nat) (k : Packet) : Bool :=
  let w := m.reg (K.coupleWinCtl (k.win / 64) (k.win % 64))
  let pages := m.fld (K.coupleWinSize (k.win / 64) (k.win % 64)) F.coupleWinSizePages
  F.coupleWinCtlV.bit w && (F.coupleWinCtlPeerAny.bit w || decide (F.coupleWinCtlPeer.get w = n))
    && decide (k.off + k.bytes ≤ pages * 65536) && (if k.typ = .write then F.coupleWinCtlW.bit w else F.coupleWinCtlR.bit w)

/-- The request passed its checks: a freight dray is asked for (R330, R331). -/
def Chip.takeInbound (m : Chip) (n p : Nat) (k : Packet) : Chip :=
  let id := m.host.nextId
  let w := m.reg (K.coupleWinCtl (k.win / 64) (k.win % 64))
  let base := m.fld (K.coupleWinBase (k.win / 64) (k.win % 64)) F.coupleWinBaseBase
  let i : Inbound :=
    { id := id, peer := n, port := p, pkt := k, addr := base * 65536 + k.off, cls := F.coupleWinCtlRclass.get w,
      winCtl := w, peerCtl := m.peerCtl n, peerMac := m.peerMac n, asked := true }
  ({ m with
    sf := { m.sf with inb := m.sf.inb ++ [i] }
    host := { m.host with nextId := id + 1 } }.askJob (.inbound id) (peerId n) (k.cls + 1)).flowControl p

/-- A request for this module (R425): the first step that fails decides. A stopped module discards it (R460). -/
def Chip.inRequest (m : Chip) (p : Nat) (k : Packet) : Chip :=
  let drop (m : Chip) : Chip := m.slotDone p k
  if !m.cplOn || m.stageState == 5 then drop m
  else match m.peerOf k.src with
    | none => drop ((m.count (K.coupleUnknownSrc 0) 1).event (couplePage 0) 19)
    | some n =>
      let write := k.typ == .write
      let counts := K.coupleWinCnt (k.win / 64) (k.win % 64)
      if write && m.osnFar n k.tag.toNat then drop m
      else if m.chocked (peerId n) then drop ((m.markIf n k).respond n k sfChocked [])
      else if !m.windowOk n k then
        let m1 := (m.chock (couplePage k.win) (peerId n) 4 (k.win * 2 ^ 44 + k.off) 32).countFld counts F.coupleWinCntDenied 1
        drop ((m1.markIf n k).respond n k sfBadWin [])
      else if write && m.osnDup n k.tag.toNat then drop ((m.count (K.coupleDupCnt 0) 1).respond n k sfDup [])
      else m.takeInbound n p k

/-- The access at the target fails (R278, R292, R437). -/
def Chip.targetFails (m : Chip) (a n : Nat) (write : Bool) : Bool :=
  match regionOf a with
  | .hbm => decide (depotBase < a + n) || (write && m.inMirror a)
  | .depot s x => !wordShaped a n || decide (m.openEighths s * 0x400000 < x + n)
  | .core _ _ off => if write then !(off == 0 && n == 512) else !(wordShaped a n && decide (off + n ≤ 512))
  | _ => true

/-- The inbound job is over: its response under the entry that the request was checked under, its slot, its freight dray (R332, R420,
R430). -/
def Chip.inboundDone (m : Chip) (i : Inbound) (status : Nat) (data : List Byte) : Chip :=
  let m1 := (m.respondUnder i.peer i.peerCtl i.peerMac i.pkt status data).slotDone i.port i.pkt
  (({ m1 with sf := { m1.sf with inb := m1.sf.inb.filter (·.id != i.id) } } : Chip).endJob (.inbound i.id)).flowControl i.port

/-- What an inbound WRITE notifies once it is performed (R428), under the window that it was checked under (R430). -/
def Inbound.notice (i : Inbound) : Option Notice := if i.pkt.notify then some ⟨i.peer, i.pkt.win, i.winCtl⟩ else none

/-- What remains of an inbound WRITE once its freight dray has it: its record, its target write, OK (R332, R425 steps 5
and 6); during a post, a rollback and a re-execution the target write waits its turn (R443, R454). -/
def Chip.inboundWrite (m : Chip) (i : Inbound) : Chip :=
  let k := i.pkt
  let n := k.data.length
  let osn := k.tag.toNat
  let counts := K.coupleWinCnt (k.win / 64) (k.win % 64)
  if m.osnDup i.peer osn then (m.count (K.coupleDupCnt 0) 1).inboundDone i sfDup []
  else if m.targetFails i.addr n true then
    (((m.peerPut (peerId i.peer) (k.cls + 1) i.addr k.data (some i.cls)).osnMark i.peer osn)).inboundDone i sfAccessErr []
  else if m.logStalls n then m.logBlocked
  else
    let w := peerId i.peer
    let r := dataRec .peerWrite w 0 i.addr k.data (some ⟨k.cls + 1, some i.cls, i.notice⟩)
    let m1 :=
      if m.waitsTurn then m.deferRecord r .write
      else
        let m1 := (m.logRec r).peerPut w (k.cls + 1) i.addr k.data (some i.cls)
        match i.notice with
        | some n => m1.notifyWindow n
        | none => m1
    ((m1.osnMark i.peer osn).countFld counts F.coupleWinCntServed 1).inboundDone i sfOk []

/-- An inbound READ is served from memory, and what a post has deferred is in what it returns (R428); one of a granule that a restore is still to rewrite waits (R458). -/
def Chip.inboundRead (m : Chip) (i : Inbound) : Chip :=
  let k := i.pkt
  if (m.stg.rb == .begun || m.stg.rb == .stopped) && (granules i.addr k.bytes).any m.dirty then m
  else
    let r := m.devGet (peerId i.peer) (k.cls + 1) i.addr k.bytes
    match if m.targetFails i.addr k.bytes false then none else r.2 with
    | some l => (r.1.countFld (K.coupleWinCnt (k.win / 64) (k.win % 64)) F.coupleWinCntServed 1).inboundDone i sfOk
        (m.overDeferred i.addr l)
    | none => r.1.inboundDone i sfAccessErr []

/-- The end of an inbound job (FREIGHT_JOB_END, and NOTIFY_DELIVER for a WRITE with NOTIFY, which waits for its turn). -/
def Chip.inboundEnd (m : Chip) (id : Nat) (notify : Bool) : Chip :=
  match m.sf.inb.find? (·.id == id) with
  | none => m
  | some i =>
    let k := i.pkt
    if !m.hasJob (.inbound id) || k.notify != notify then m
    else if m.devHeld (k.cls + 1) (k.typ == .write) false i.addr k.bytes then m.crcNote (peerId i.peer) (k.typ == .write) false i.addr k.bytes
    else if k.typ != .write then m.inboundRead i
    else if notify && m.osnAhead i.peer k.tag.toNat != 1 && !m.osnDup i.peer k.tag.toNat then m
    else m.inboundWrite i

/-- NOTIFY_DELIVER: RX_OSN equals the write's OSN − 1. -/
def execNotifyDeliver (id : Nat) (s : State) : Host.Outcome State Fault Refusal := onHbm (fun m => m.inboundEnd id true) s

/-! ### Responses to the module's own requests (R424, R429) -/

/-- Data of a coupled read, or the zeros of a failed one, reaches what asked for it; it is logged first. -/
def Chip.coupleWhole (m : Chip) (o : CplOut) (l : List Byte) : Chip :=
  let c (c : Nat) : Fin 64 := ⟨c % 64, Nat.mod_lt _ (by decide)⟩
  match o.dest with
  | some (.vec k i j) => (m.logData .peerRead o.master o.task o.va l).vecDeliver (c k) i j l
  | some (.dray k s b g) => (m.logData .peerRead o.master o.task o.va l).drayDeliver (c k) ⟨s % 8, Nat.mod_lt _ (by decide)⟩ b g l
  | some (.reload g off) => m.reloadDeliver g off l false
  | _ => m

/-- The parts of a read that have ended, the given one with them. -/
def CplGather.add (g : CplGather) (i : Nat) (l : List Byte) : CplGather := { g with got := (i, l) :: g.got }

/-- All data of a read in several requests, in order. -/
def CplGather.whole (g : CplGather) : List Byte :=
  (List.range g.parts).flatMap fun i => ((g.got.find? (·.1 == i)).map (·.2)).getD []

/-- A request of a coupled read ends: the whole read once its last request has. -/
def Chip.coupleDeliver (m : Chip) (o : CplOut) (l : List Byte) : Chip :=
  match o.part with
  | none => m.coupleWhole o l
  | some (id, i) => match m.sf.gather.find? (·.id == id) with
    | none => m
    | some g =>
      let g1 := g.add i l
      let rest := m.sf.gather.filter (·.id != id)
      if g1.got.length < g1.parts then { m with sf := { m.sf with gather := rest ++ [g1] } }
      else ({ m with sf := { m.sf with gather := rest } } : Chip).coupleWhole o g1.whole

/-- The outstanding request that a response or a timeout names. -/
def Chip.outOf (m : Chip) (n : Nat) (wr : Bool) (tag : W32) : Option CplOut :=
  m.sf.out.find? fun o => o.peer == n && o.wr == wr && o.tag == tag

def Chip.dropOut (m : Chip) (o : CplOut) : Chip := { m with sf := { m.sf with out := m.sf.out.erase o } }

/-- A request ends: with data, or with a status that is an error (R429). -/
def Chip.endOut (m : Chip) (o : CplOut) (status : Nat) (data : List Byte) : Chip :=
  let bad := decide (status ≠ sfOk ∧ status ≠ sfDup) || (!o.wr && decide (data.length ≠ o.len))
  let m1 := (m.dropOut o).pumpPort o.port
  let m2 := if bad then m1.peerErr o.peer o.win o.off o.master status else m1
  if o.wr then m2.pumpPeer o.peer
  else match o.dest, bad with
    | some (.reload g off), true => m2.reloadDeliver g off [] true
    | _, _ => m2.coupleDeliver o (if bad then List.replicate o.len 0 else data)

/-- The record of a coupled read has no room: its response waits (R449). -/
def Chip.outStalls (m : Chip) (o : CplOut) : Bool :=
  let before := match o.part with
    | some (id, _) => ((m.sf.gather.find? (·.id == id)).map fun g => g.whole.length).getD 0
    | none => 0
  !o.wr && m.logStalls (before + o.len)

/-- The request that a response from Selfan address `a` answers: it was sent there (R424). -/
def Chip.outFrom (m : Chip) (a : BitVec 16) (wr : Bool) (tag : W32) : Option CplOut :=
  m.sf.out.find? fun o => o.dst == a && o.port != noPort && o.wr == wr && o.tag == tag

/-- A response arrives. -/
def Chip.inResponse (m : Chip) (p : Nat) (k : Packet) : Chip :=
  let m1 := m.slotDone p k
  match m1.outFrom k.src (k.typ == .writeRsp) k.tag with
  | some o => m1.endOut o k.status.toNat k.data
  | none => m1

/-- A read of a peer that has not been sent goes, or ends in zeros at once. -/
def Chip.issueRead (m : Chip) (o : CplOut) : Chip :=
  match o.dest with
  | some d =>
    let r := (m.dropOut o).coupleRead o.peer o.win o.off o.len o.master o.task o.va d o.cls o.ser
    if r.2 then r.1 else r.1.coupleWhole o (List.replicate o.len 0)
  | none => m.dropOut o

/-- Reads of peers that waited, for a record or for CPL_CFG.EN, go once nothing keeps them (R431, R454). -/
def Chip.pumpOut (m : Chip) : Chip :=
  (m.sf.out.filter fun o => o.port == noPort && !o.wr).foldl (fun m o => if m.readWaits o.master then m else m.issueRead o) m

/-- Coupled accesses that wait go on. -/
def Chip.pumpPeers (m : Chip) : Chip := (((m.sf.wait.map (·.peer)).eraseDups).foldl Chip.pumpPeer m).pumpOut

/-- A packet for this module, once the link has accepted it. -/
def Chip.arrive (m : Chip) (p : Nat) (k : Packet) : Chip :=
  match k.typ with
  | .write | .read => m.inRequest p k
  | _ => m.inResponse p k

/-- A response whose record has no room stays with the port, unaccepted (R449). -/
def Chip.arrivalStalls (m : Chip) (k : Packet) : Bool :=
  k.typ == .readRsp && decide (k.dst = m.ownAddr) && (m.outFrom k.src false k.tag).any m.outStalls

/-- A packet arrives at a flit port. -/
def Chip.selfanIn (m : Chip) (p : Nat) (typ : PktType) (lseq : BitVec 12) (good : Bool) (k : Packet) : Chip :=
  if k.typ ≠ typ ∨ !m.portUp p ∨ m.portEth p then m
  else if good && m.arrivalStalls k then m.logBlocked
  else
    let r := m.flitRecv p lseq good k
    if !r.2 then r.1
    else if k.dst = r.1.ownAddr then r.1.arrive p k
    else r.1.forward p k

/-- What arrives at a flit port as header words and payload. A bad LCRC is answered whatever the words say; good words that spell
no packet (R417) are no command of this table. -/
def Chip.flitsIn (m : Chip) (p : Nat) (typ : PktType) (f : Flits) : Chip :=
  match f.packet with
  | some k => m.selfanIn p (if f.good then typ else k.typ) f.lseq f.good k
  | none => if f.good || !m.portUp p || m.portEth p then m
    else (m.flitRecv p f.lseq false ⟨typ, false, 0, 0, 0, 0, 0, 0, 0, 0, 0, 0, []⟩).1

def execSelfanWrite (p : Fin 10) (f : Flits) (s : State) : Host.Outcome State Fault Refusal := onChip (fun m => m.flitsIn p .write f) s
def execSelfanRead (p : Fin 10) (f : Flits) (s : State) : Host.Outcome State Fault Refusal := onChip (fun m => m.flitsIn p .read f) s
def execSelfanWriteRsp (p : Fin 10) (f : Flits) (s : State) : Host.Outcome State Fault Refusal := onChip (fun m => m.flitsIn p .writeRsp f) s
def execSelfanReadRsp (p : Fin 10) (f : Flits) (s : State) : Host.Outcome State Fault Refusal := onChip (fun m => m.flitsIn p .readRsp f) s

/-- COUPLING_TIMEOUT: a job's response has not arrived CPL_CFG.TMO after its request. -/
def Chip.couplingTimeout (m : Chip) (n : Nat) (wr : Bool) (tag : W32) : Chip :=
  match m.outOf n wr tag with
  | none => m
  | some o => if o.port == noPort then m else if m.outStalls o then m.logBlocked else m.endOut o cplTimeout []

def execCouplingTimeout (n : Fin 1024) (wr : Bool) (tag : BitVec 32) (s : State) : Host.Outcome State Fault Refusal :=
  onChip (fun m => m.couplingTimeout n wr tag) s

/-! ### Acknowledgement and replay (R419, R422) -/

/-- Packets up to number `n` are acknowledged; a number that names none of them acknowledges nothing. -/
def LinkEnd.acked (e : LinkEnd) (n : BitVec 12) : LinkEnd :=
  let d := (n - e.tx + BitVec.ofNat 12 e.replay.length).toNat
  if d < e.replay.length then { e with replay := e.replay.drop (d + 1), tries := 0 } else e

/-- A packet of this module moves to another port of its peer. -/
def Chip.movePort (m : Chip) (q : Nat) (w : TxWait) : Chip :=
  let move (o : CplOut) : CplOut := if o.isPacket w then { o with port := q, sent := false } else o
  ({ m with sf := { m.sf with out := m.sf.out.map move } } : Chip).portPut q w

/-- A packet in a replay buffer, as one that waits for a port. -/
def TxPkt.again (t : TxPkt) : TxWait := ⟨t.pkt, t.ser, none, t.peer, t.mac, 0⟩

/-- A link is down: what it held goes to another port of its peer, or ends (R423). -/
def Chip.resend (m : Chip) (w : TxWait) : Chip :=
  match w.peer with
  | none => m
  | some n => match if F.couplePeerCtlHops.get (m.peerCtl n) = 0 then m.peerPorts n else [] with
    | q :: _ => m.movePort q w
    | [] => match m.sf.out.find? (·.isPacket w) with
      | some o => m.endOut o cplLinkDown []
      | none => m

/-- Packets in the port's receive slots that are not performed are discarded. -/
def Chip.dropSlots (m : Chip) (p : Nat) : Chip :=
  let gone := m.sf.inb.filter (·.port == p)
  let m1 := gone.foldl (fun m i => m.endJob (.inbound i.id)) m
  let m2 : Chip := { m1 with sf := { m1.sf with inb := m1.sf.inb.filter (·.port != p) } }
  (List.range 10).foldl (fun m q => m.modPort q fun s => { s with wait := s.wait.filter fun w => w.came != some p }) m2

/-- Peers in Ethernet mode that no port reaches any more: what they have not acknowledged ends. -/
def Chip.ethLost (m : Chip) : Chip :=
  (m.sf.eth.filter fun e => !e.2.replay.isEmpty && (m.peerPorts e.1).isEmpty).foldl (fun (m : Chip) e =>
    e.2.replay.foldl (fun (m : Chip) t => m.resend t.again) (m.setEth e.1 { e.2 with replay := [] })) m

/-- A port goes down (R423, R432). -/
def Chip.portDown (m : Chip) (p cause : Nat) : Chip :=
  let k := m.sfPort p
  let st := m.reg (K.linkPortStat p)
  let st1 := F.linkPortStatCause.put (F.linkPortStatLock.put (F.linkPortStatTraining.put (F.linkPortStatUp.put st 0) 0) 0) cause
  let m1 := (m.setReg (K.linkPortStat p) st1).modPort p fun _ => SfPort.reset
  let m2 := m1.dropSlots p
  let m3 := k.wait.foldl (fun m w => match w.came with
    | some q => (m.count (K.linkFwdDrop q) 1).freeSlot q w.pkt.cameBy
    | none => m) m2
  let m4 := (k.flit.replay.map TxPkt.again ++ k.wait.filter (·.came.isNone)).foldl Chip.resend m3
  (m4.ethLost.event (linkPage p) 17).syncRun (linkPage p)

/-- The packets that are unacknowledged are sent again. -/
def Chip.flitReplay (m : Chip) (p : Nat) : Chip :=
  let e := (m.sfPort p).flit
  if e.replay.isEmpty then m
  else if 16 ≤ e.tries then (m.portDown p 2).event (linkPage p) 18
  else
    let m1 := (m.modPort p fun s => { s with flit := { e with tries := e.tries + 1 } }).count (K.linkRetries p) 1
    e.replay.foldl (fun m t => m.emit (.packet p (t.pkt.flits t.lseq))) m1

/-- LINK_CONTROL_FLIT: an acknowledgement or a NAK with the last good number, and the credits of each channel; a bad one
is discarded. -/
def Chip.linkControl (m : Chip) (p : Nat) (nak : Bool) (lseq : BitVec 12) (credits : Vector Nat 10) (good : Bool) : Chip :=
  if !m.portUp p || m.portEth p || !good then m
  else
    let m1 := m.modPort p fun s =>
      { s with flit := s.flit.acked lseq, limit := Vector.ofFn fun i => max s.limit[i] credits[i] }
    let m2 := if nak then m1.flitReplay p else m1
    m2.pumpPort p

def execLinkControlFlit (p : Fin 10) (nak : Bool) (lseq : BitVec 12) (credits : Vector Nat 10) (good : Bool) (s : State) :
    Host.Outcome State Fault Refusal := onChip (fun m => m.linkControl p nak lseq credits good) s

/-- REPLAY_TIMEOUT: no acknowledgement for 2 µs. -/
def execReplayTimeout (p : Fin 10) (s : State) : Host.Outcome State Fault Refusal :=
  onChip (fun m => m.when (m.portUp p && !m.portEth p) fun m => m.flitReplay p) s

/-- The packets of a peer in Ethernet mode are sent again; no limit applies (R422). -/
def Chip.ethReplay (m : Chip) (n : Nat) : Chip :=
  let e := m.ethEnd n
  match e.replay, m.choosePort n (m.peerCtl n) with
  | [], _ => m
  | _, none => m
  | l, some (p, m1) => l.foldl (fun m t => m.emit (.frame p (m.ethHead t.mac) (t.pkt.flits t.lseq))) (m1.count (K.linkRetries p) 1)

def execEthReplayTimeout (n : Fin 1024) (s : State) : Host.Outcome State Fault Refusal :=
  onChip (fun m => m.when (F.couplePeerCtlEth.bit (m.peerCtl n)) fun m => m.ethReplay n) s

/-- The peer of a frame from a Selfan address: that of its entry, or of the request that was sent there. -/
def Chip.ethPeer (m : Chip) (a : BitVec 16) : Option Nat :=
  match m.peerOf a with
  | some n => some n
  | none => (m.sf.out.find? fun o => o.dst == a && o.port != noPort).map (·.peer)

/-- ETHERNET_FRAME: filtered by EtherType, destination address and FCS; its packet is handled end to end (R422). An
acknowledgement makes room for what waits for its peer on any port (R419). -/
def Chip.ethFrame (m : Chip) (p : Nat) (etype : BitVec 16) (dst : BitVec 48) (fcs : Bool) (b : EthBody) : Chip :=
  if !m.portUp p || !m.portEth p then m
  else if let .pause pr := b then
    if fcs && m.flag (K.linkPortCfg p) F.linkPortCfgPfc then (m.modPort p fun s => { s with paused := pr }).pumpPort p
    else m.count (K.linkEthDrop p) 1
  else if !fcs ∨ etype.toNat ≠ m.fld (K.coupleCplCfg 0) F.coupleCplCfgEtype ∨ dst.toNat ≠ m.fld (K.coupleCplMac 0) F.coupleCplMacMac then
    m.count (K.linkEthDrop p) 1
  else match b with
    | .ack src good lseq => match m.ethPeer src with
      | none => m
      | some n =>
        let m1 := (List.range 10).foldl Chip.pumpPort (m.setEth n ((m.ethEnd n).acked lseq))
        if good then m1 else m1.ethReplay n
    | .pause _ => m
    | .packet f => match f.packet with
      | none => m
      | some k => match m.ethPeer k.src with
        | none => if f.good && decide (k.dst = m.ownAddr) && (k.typ == .write || k.typ == .read) then m.inRequest p k else m
        | some n =>
          if f.good && m.arrivalStalls k then m.logBlocked
          else
            let r := m.ethRecv p n f.lseq f.good k
            if r.2 && decide (k.dst = m.ownAddr) then r.1.arrive p k else r.1

def execEthernetFrame (p : Fin 10) (etype : BitVec 16) (dst : BitVec 48) (fcs : Bool) (b : EthBody) (s : State) :
    Host.Outcome State Fault Refusal := onChip (fun m => m.ethFrame p etype dst fcs b) s

/-! ### Training (R19, R423, R433) -/

/-- The clock of a port's domain: 1,328.125 MHz, or half of it at lanes of 53.125 Gb/s (R18). -/
def Chip.portClock (m : Chip) (p : Nat) : Chip :=
  m.setDom (22 + p) fun d => { d with period := if m.flag (K.linkPortCfg p) F.linkPortCfgRate then 1506 else 753 }

/-- TRAIN: LINK_TRAIN_DONE ends it. Credits and LSEQ restart, and the port runs at the rate that PORT_CFG gives. -/
def Chip.train' (m : Chip) (p : Nat) (l : Launch) : Chip :=
  if l.arg ≠ 0 then m.endCmd (linkPage p) cmdBadArg
  else if m.portUp p then m.endCmd (linkPage p) cmdNotIdle
  else (((m.setFld (K.linkPortStat p) F.linkPortStatTraining 1).modPort p fun _ => SfPort.reset).portClock p).syncRun (linkPage p)

def execTrain (p : Fin 10) (l : Launch) (s : State) : Host.Outcome State Fault Refusal :=
  onChip (fun m => m.issue (linkPage p) 1 l fun l m => m.train' p l) s

/-- DOWN. -/
def Chip.linkDown (m : Chip) (p : Nat) (l : Launch) : Chip :=
  if l.arg ≠ 0 then m.endCmd (linkPage p) cmdBadArg
  else if !m.portUp p then m.endCmd (linkPage p) cmdNotIdle
  else (m.portDown p 1).endCmd (linkPage p) cmdOk

def execDown (p : Fin 10) (l : Launch) (s : State) : Host.Outcome State Fault Refusal :=
  onChip (fun m => m.issue (linkPage p) 2 l fun l m => m.linkDown p l) s

/-- Peers that only this port reaches begin again with it (R423). -/
def Chip.ethRestart (m : Chip) (p : Nat) : Chip :=
  { m with sf := { m.sf with eth := m.sf.eth.filter fun e =>
    !((F.couplePeerCtlPorts.get (m.peerCtl e.1)).testBit p && (m.peerPorts e.1).isEmpty) } }

/-- LINK_TRAIN_DONE: the port is up, with the address that its far end reports, or training has failed. -/
def Chip.trainDone (m : Chip) (p : Nat) (ok : Bool) (seen : BitVec 16) : Chip :=
  if !m.flag (K.linkPortStat p) F.linkPortStatTraining then m
  else
    let st := F.linkPortStatTraining.put (m.reg (K.linkPortStat p)) 0
    if ok then
      let st1 := F.linkPortStatSeen.put (F.linkPortStatLock.put (F.linkPortStatUp.put st 1) 15) (if m.portEth p then 0 else seen.toNat)
      let m1 := ((m.ethRestart p).setReg (K.linkPortStat p) st1).modPort p fun s => { s with locked := true }
      let m2 := if m.portEth p then m1 else m1.linkFlit p true ((m1.sfPort p).flit.rx - 1)
      ((m2.event (linkPage p) 16).endCmd (linkPage p) cmdOk).syncRun (linkPage p)
    else
      (((m.setReg (K.linkPortStat p) (F.linkPortStatCause.put st 4)).record (linkPage p) 0x80 0 none none (22 + p)).endCmd (linkPage p)
        cmdFailed).syncRun (linkPage p)

def execLinkTrainDone (p : Fin 10) (ok : Bool) (seen : BitVec 16) (s : State) : Host.Outcome State Fault Refusal :=
  onChip (fun m => m.trainDone p ok seen) s

/-- PORT_LOCK_LOSS: the receiver loses its lock; the port goes down, and its domain runs from sf_refclk (R19). -/
def execPortLockLoss (p : Fin 10) (s : State) : Host.Outcome State Fault Refusal :=
  onChip (fun m => m.when (m.portUp p) fun m => m.portDown p 3) s

end Sys2Proof.Machine
end

