-- ==== Sys2Proof/Machine/Stage.lean ====
section
/-! DEFINITION. The stage controller (chapter 14): posts, the levels of response, rollback and re-execution, level C, and
the commands of the STAGE page; the ends of freight-dray jobs. -/
namespace Sys2Proof.Machine

def Chip.modStg (m : Chip) (f : StageCtl → StageCtl) : Chip := { m with stg := f m.stg }

def Chip.setStage (m : Chip) (v : Nat) : Chip := m.setFld K.stageStageStat F.stageStageStatState v

/-- Microseconds of the hub's clock since a count of it (R32). -/
def Chip.usSince (m : Chip) (t : W64) : Nat := (m.counter 32 - t).toNat / 400

/-! ### BUSY of the page (R441, R452) -/

/-- The page is BUSY with ISSUER 0x8005. -/
def Chip.holdStage (m : Chip) : Chip :=
  let a := K.pageCmdStat stagePage.base
  (m.setReg a (F.pageCmdStatIssuer.put (F.pageCmdStatBusy.put (m.reg a) 1) stageId.toNat)).bumpGen stagePage

/-- The page is BUSY no longer; the command that waits for this ends. -/
def Chip.freeStage (m : Chip) (err : Nat) : Chip :=
  if m.stg.postCmd ≠ 0 then (m.modStg fun s => { s with postCmd := 0 }).endCmd stagePage err
  else (m.setFld (K.pageCmdStat stagePage.base) F.pageCmdStatBusy 0).bumpGen stagePage

/-! ### Quiesced contexts -/

/-- A running depot command that moves lines is waited for (R302). -/
def Chip.depotWorks (m : Chip) : Bool :=
  (List.range 16).any fun s => m.busy (depotPage s) && ([1, 2, 3] : List Nat).elem (m.cmdCode (depotPage s))

/-- Every context asked to quiesce goes on (R442). -/
def Chip.resumeCtxs (m : Chip) : Chip :=
  allCtxs.foldl (fun m x =>
    let k := m.ctx x
    if k.stopReq.elem .quiesce then
      let r := k.stopReq.filter (· != .quiesce)
      (m.setCtx x { k with stopReq := r, st := if k.st == .stopped && r.isEmpty then .running else k.st }).syncCoach x.coach.val
    else m) m

/-- A context is asked to quiesce; a switch or siding that has not reached its boundary is cancelled (R400). -/
def Chip.quiesceCtx (m : Chip) (x : Ctx) : Chip :=
  let k := m.ctx x
  if k.st.going then
    let side := k.stopReq.elem .side
    let keep := k.stopReq.filter fun h => h != .switch && h != .side && h != .yield && h != .quiesce
    let m1 := m.setCtx x { k with stopReq := keep ++ [.quiesce] }
    let m2 := m1.modTask k.task fun t => if t.st == .leaving then { t with st := .running, forTask := none } else t
    if side then
      let back := ((m2.xlat.faults.flatMap (·.reqs) ++ m2.xlat.full).filter (·.2 == k.task)).take 1
      { m2 with xlat := { m2.xlat with toSide := back ++ m2.xlat.toSide } }
    else m2
  else m.stopEngines x 0

/-- The engines of a coach have reached their points. -/
def Chip.coachQuiet (m : Chip) (c : Fin 64) : Bool :=
  m.sideQuiet ⟨c, false⟩ && m.sideQuiet ⟨c, true⟩ && (m.mtx c).arr.isEmpty

/-- Every context is quiesced (R442): stopped, chocked, idle or sided, its engines at their points, no switch half done;
no event is on its way, and no depot command runs. -/
def Chip.quiesced (m : Chip) : Bool :=
  (allCtxs.all fun x =>
    let k := m.ctx x
    !k.st.going && !(k.st == .stopped && k.stopReq.any fun h => h == .switch || h == .side || h == .yield))
    && (List.finRange 64).all m.coachQuiet && m.sends.isEmpty && !m.depotWorks

/-! ### Requests and the Hold phase (R441, R442) -/

/-- STAGE_TIMER_EXPIRE: TIMER reaches STAGE_LEN, 250 to 60,000 ms. -/
def Chip.stageTimer (m : Chip) : Chip :=
  let n := clamp 250 60000 (m.fld K.stageStageLen F.stageStageLenMs)
  if m.stg.armed && m.stageState == 1 && m.stg.post == .none then
    (m.setFld K.stageTimer F.stageTimerMs (max n (m.fld K.stageTimer F.stageTimerMs))).requestPost
  else m

def execStageTimerExpire (s : State) : Host.Outcome State Fault Refusal := onChip Chip.stageTimer s

/-- A held request can be taken. -/
def Chip.postDue (m : Chip) : Bool :=
  m.flag K.stageStageStat F.stageStageStatPostPend && m.stg.post == .none && m.stg.rb == .none && m.stageState != 4
    && (m.stageState != 5 || m.stg.postCmd == 5) && m.stg.postCmd != 4

/-- The Hold and Quiesce phases begin. -/
def Chip.takePost (m : Chip) : Chip :=
  let m1 := (m.modStg fun s => { s with post := .quiesce, postAt := m.counter 32, postFrom := m.stageState }).setStage 2
  let m2 := (m1.setFld K.stageStageStat F.stageStageStatPostPend 0).holdStage
  (allCtxs.foldl (fun m x => m.quiesceCtx x) m2).when (m.stageState == 5) Chip.tellState

def execStagingPost (s : State) : Host.Outcome State Fault Refusal := onChip (fun m => m.when m.postDue Chip.takePost) s

/-! ### The areas (R444, R445) -/

/-- The 1 GiB from `a` on lies in the lower halves of enabled pairs: its first and last granules on every stack that it
meets do. -/
def Chip.gibOk (m : Chip) (a : Nat) : Bool :=
  (List.range 16).all fun i => (m.mirrorOf (a + i * 65536)).isSome && (m.mirrorOf (a + 2 ^ 30 - (i + 1) * 65536)).isSome

def Chip.imgBase (m : Chip) : Nat := m.fld K.stageImgBase F.stageImgBaseBase * 2 ^ 30

def Chip.imgOk (m : Chip) : Bool := decide (m.imgBase + 2 ^ 30 ≤ depotBase) && m.gibOk m.imgBase

/-- R445. -/
def Chip.areasOk (m : Chip) : Bool :=
  m.imgOk && decide (m.logBase + m.logSize ≤ depotBase)
    && (List.range m.logGib).all (fun i => m.gibOk (m.logBase + i * 2 ^ 30))
    && !decide (m.logBase < m.imgBase + 2 ^ 30 ∧ m.imgBase < m.logBase + m.logSize)

/-- An image passes to or from the stacks: how many bytes of it each stack holds is open, with its layout (R335, R444; log
entry 104). -/
def Chip.imageCount (m : Chip) (key : Nat → Nat) : Chip :=
  (List.range 16).foldl (fun m s => m.count (key s) (Config.imageBytes s m.tick % (336 * 2 ^ 20 + 1))) m.next

/-- An image of at most 336 MiB is written to the half that is not current, and to its mirror; its layout is open. -/
def Chip.writeImage (m : Chip) : Chip :=
  let lo := m.imgBase + (if m.stg.half then 0 else 2 ^ 29)
  let n := 336 * 2 ^ 20
  let mir := ((List.range 16).filterMap fun i => m.mirrorOf (lo + i * 65536)).foldl min (lo + depotBase)
  ((m.veilMem lo n).veilMem mir n).imageCount fun s => K.hbmWrBytes s

/-! ### The image (R444) -/

/-- A register of the image: MTX_CTL, DRAY_SIDE, PART and QPWR, and the task state that stands in the TALLY pages and in the
outrider declarations. -/
def imageReg (a : Nat) : Bool :=
  match pageAt a with
  | some p =>
    let o := a - p.base
    match p.kind with
    | .mtx => decide (a = K.mtxMtxCtl p.inst)
    | .coach => decide (a = K.coachDraySide p.inst)
    | .cmem => decide (a = K.cmemQpwr p.inst) || (List.range 8).any fun i => decide (a = K.cmemPart p.inst i)
    | .tally => decide (0x100 ≤ o)
    | .tlb => decide (0x180 ≤ o ∧ o < 0x200)
    | _ => false
  | none => false

/-- The bytes of the valid partitions of a coach: first address and length. -/
def partRanges (reg : Nat → W64) (c : Nat) : List (Nat × Nat) :=
  (List.range 8).filterMap fun i =>
    let w := reg (K.cmemPart c i)
    if F.cmemPartValid.bit w then some (rowAddr c (F.cmemPartBase.get w), (F.cmemPartLim.get w + 1) * 512) else none

def inRanges (l : List (Nat × Nat)) (a : Nat) : Bool := l.any fun r => decide (r.1 ≤ a ∧ a < r.1 + r.2)

def allRanges (reg : Nat → W64) : List (Nat × Nat) := (List.range 64).flatMap (partRanges reg)

/-- The count of instructions since the post starts again (R131). -/
def Context.fresh (k : Context) : Context := { k with retired := 0 }

def Coach.fresh (k : Coach) : Coach := { k with fore := k.fore.fresh, aft := k.aft.fresh }

def Task.fresh (t : Task) : Task := { t with saved := t.saved.map fun v => { v with ctx := v.ctx.fresh } }

/-- Every count of the stage starts again. -/
def Chip.freshCounts (m : Chip) : Chip :=
  { m with
    coaches := m.coaches.map Coach.fresh
    sh := { m.sh with tasks := m.sh.tasks.map Task.fresh, queues := m.sh.queues.map fun q => { q with ended := 0, wrote := 0 } } }

/-- A read of a transfer or of code. -/
def HostRead.isTransfer (r : HostRead) : Bool :=
  match r.dest with
  | .xfer _ _ | .code _ _ => true
  | _ => false

def JobWork.isXfer : JobWork → Bool
  | .xfer _ => true
  | _ => false

/-- What the image holds now. -/
def Chip.imageOf (m : Chip) : Image where
  coaches := m.coaches
  cm := m.cm
  obuf := m.obuf
  rows := let r := allRanges m.reg; m.mem.filter fun e => inRanges r e.1
  regs := m.regs.filter fun e => imageReg e.1
  osn := (List.range 1024).filterMap fun n => if m.txOsn n = 0 then none else some (n, BitVec.ofNat 64 (m.txOsn n))
  sh := m.sh
  regist := m.stg.regist
  timer := m.fld K.stageTimer F.stageTimerMs
  reads := (m.host.reads.filter HostRead.isTransfer) ++ m.stg.deferred.filterMap fun (d : Deferred) => match d.target with
    | .read r => some r
    | _ => none
  jobs := m.host.jobs.filter (·.work.isXfer)

/-- Dirty granules (R435). -/
def Chip.dirtyList (m : Chip) : List Nat := (m.stg.written.map (·.1)).filter m.dirty

/-- Vector state goes to the save area of VOWN.TAG's task; TAG and DIRTY are kept. -/
def Chip.saveAllVec (m : Chip) : Chip :=
  (List.finRange 64).foldl (fun (m : Chip) c =>
    let d := (m.coach c).vown.dirty
    (m.saveVec c).modVown c fun v => { v with dirty := d }) m

/-- Images are written: the page is armed, or the post arms it, or a valid area is named while it is disarmed (R463). -/
def Chip.postImages (m : Chip) : Bool := ((m.stg.armed || m.stg.postCmd == 1) && m.stg.postCmd != 2) || m.imgOk

/-- The post mirrors: the page is armed and stays so, or is being armed. -/
def Chip.postMirrors (m : Chip) : Bool := (m.stg.armed || m.stg.postCmd == 1) && m.stg.postCmd != 2

/-- POST_QUIESCED: the Save phase, and the Mirror phase begins. -/
def Chip.postSave (m : Chip) : Chip :=
  let m1 := m.saveAllVec
  let img := m1.freshCounts.imageOf
  let m2 := if m1.postImages then (m1.modStg fun s => { s with nextImage := some img }).writeImage
    else m1.modStg fun s => { s with nextImage := none }
  m2.modStg fun s => { s with post := .mirror, dirtyBytes := if m1.postMirrors then m2.dirtyList.length * 65536 else 0 }

def execPostQuiesced (s : State) : Host.Outcome State Fault Refusal :=
  onHbm (fun m => m.when (m.stg.post == .quiesce && m.quiesced) Chip.postSave) s

/-- Bytes of a granule that a copy reads from its stack: none of a line that the depot holds, none of addressable depot memory. -/
def Chip.granuleRead (m : Chip) (a : Nat) : Nat :=
  if depotBase ≤ a then 0
  else
    let sl := m.stackOf a
    65536 - 256 * ((List.range 256).filter fun i => m.resident sl.1 (sl.2 / 256 + i)).length

/-- A copy of a granule moves bytes from and to the stacks (R335). -/
def Chip.copyCount (m : Chip) (src dst : Nat) : Chip :=
  let m1 := m.count (K.hbmRdBytes (m.stackOf src).1) (m.granuleRead src)
  if depotBase ≤ dst then m1 else m1.count (K.hbmWrBytes (m.stackOf dst).1) 65536

/-- A granule is copied to its mirror; the copy of a block whose CRC fails twice fails too, and the block is reported (R317). -/
def Chip.mirrorGranule (m : Chip) (g : Nat) : Chip :=
  let a := g * 65536
  match m.mirrorOf a with
  | some b =>
    let bad := m.badRead false true a 65536
    let m1 := ((m.copyMem a b 65536).copyCount a b).crcNote stageId false true a 65536
    { m1 with badCrc := (m1.badCrc.filter fun k => !decide (b ≤ k * 64 ∧ k * 64 < b + 65536)) ++ bad.map fun k => k - a / 64 + b / 64 }
  | none => m

/-- A dirty granule cannot be mirrored: a block of it fails. -/
def Chip.mirrorFails (m : Chip) : Bool :=
  m.postMirrors && m.dirtyList.any fun g => !(m.badRead false true (g * 65536) 65536).isEmpty

/-! ### Deferred inputs (R443) -/

/-- The write of a record, as it lands: in the class of its request, with the class and the notice of its window (R319, R428). -/
def LogRec.landing (r : LogRec) : HeldReq :=
  let t : Landing := r.land.getD ⟨3, none, none⟩
  { heldReq r.master t.cls r.value.toNat (some r.payload) r.payload.length false with target := true, rc := t.rc, notify := t.notify }

/-- A deferred input takes effect. -/
def Chip.applyDeferred (m : Chip) (d : Deferred) : Chip :=
  let r := d.entry
  match d.target with
  | .write => m.targetPut r.landing
  | .read q => match q.dest with
    | .xfer id off => m.xferDeliver id off r.payload false
    | .code h off => m.codeDeliver (BitVec.ofNat 16 h) off r.payload false
    | _ => m

def Chip.applyAll (m : Chip) : Chip :=
  (m.stg.deferred.foldl (fun (m : Chip) (d : Deferred) => m.applyDeferred d) (m.modStg fun s => { s with deferred := [] })).pumpReads

/-- POST_COMMIT: the mirrors are complete; in one step the new image is current, WRITTEN clears, the log is truncated to the
records that are still to be applied, and the next stage opens; then Release. -/
def Chip.postCommit (m : Chip) : Chip :=
  let armed := m.postMirrors
  let m1 := if armed then m.dirtyList.foldl Chip.mirrorGranule m else m
  let m2 := m1.freshCounts.modStg fun s =>
    { s with
      armed := armed, image := s.nextImage, nextImage := none, half := if s.nextImage.isSome then !s.half else s.half,
      written := [], log := [], stale := [], third := [], given := [], aborted := [], counted := [], diverged := [], bDuring := 0,
      mirrorBad := false, post := .none }
  let st := F.stageStageStatState.put (F.stageStageStatFilling.put (F.stageStageStatFull.put (F.stageStageStatBcount.put
    (m2.reg K.stageStageStat) 0) 0) 0) (b2n armed)
  let m3 := (((m2.setReg K.stageStageStat st).setReg K.stageLogUsed 0).setReg K.stageTimer 0).count K.stageStageNo 1
  let m4 := if armed then m3.stg.deferred.foldl (fun (m : Chip) (d : Deferred) => m.logAppend d.entry) m3 else m3
  let last := BitVec.ofNat 64 (m.usSince m.stg.postAt % 2 ^ 32 + m.stg.dirtyBytes / 2 ^ 20 % 2 ^ 32 * 2 ^ 32)
  let m5 := ((m4.setReg K.stageLastPost last).applyStaged stagePage).event stagePage 16
  ((m5.applyAll.resumeCtxs).freeStage cmdOk).syncRun stagePage

/-- POST_COMMIT; while a block of a dirty granule fails its copy the mirrors are not complete, and the failure is reported. -/
def execPostCommit (s : State) : Host.Outcome State Fault Refusal :=
  onHbm (fun m => m.when (m.stg.post == .mirror) fun m =>
    if m.mirrorFails then m.dirtyList.foldl (fun (m : Chip) g => m.crcNote stageId false true (g * 65536) 65536) m else m.postCommit) s

/-- POST_QUIESCE_TIMEOUT: the post is abandoned; its request is taken again 100 ms later. -/
def Chip.postLate (m : Chip) : Chip :=
  let m1 := ((m.modStg fun s => { s with post := .retry }).setStage m.stg.postFrom).setFld K.stageStageStat F.stageStageStatPostPend 1
  let m2 := ((m1.stageRecord 0x85 stageId none none).applyAll.resumeCtxs).when (m.stg.postFrom == 5) Chip.tellState
  if m2.stg.postCmd = 0 then m2.freeStage cmdOk else m2

def execPostQuiesceTimeout (s : State) : Host.Outcome State Fault Refusal :=
  onChip (fun m => m.when (m.stg.post == .quiesce && !m.quiesced) Chip.postLate) s

/-- POST_RETRY: 100 ms have passed. -/
def execPostRetry (s : State) : Host.Outcome State Fault Refusal :=
  onChip (fun m => m.when (m.stg.post == .retry) fun m =>
    let m1 := m.modStg fun s => { s with post := .none }
    if m1.postDue then m1.takePost else m1) s

/-! ### Levels of response (R450, R451) -/

inductive Level where
  | none | a | b | c
  deriving DecidableEq, Repr

def Chip.bcount (m : Chip) : Nat := m.fld K.stageStageStat F.stageStageStatBcount

/-- A level-B event: while the page is disarmed, or a mirror of a dirty granule is bad, it is taken at level C; so is the
third of the stage (REPEAT). -/
def Chip.levelB (m : Chip) (e : RecEvent) : RecEvent × Level :=
  if !m.stg.armed || m.stg.mirrorBad then (e, .c)
  else if 2 ≤ m.bcount then ({ e with cause := causeRepeat }, .c)
  else (e, .b)

def Chip.registered (m : Chip) (g : Nat) : Bool := m.stg.regist.any (·.covers g)

/-- An event in memory, by the granule's tag and WRITTEN. -/
def Chip.levelMem (m : Chip) (e : RecEvent) : RecEvent × Level :=
  let g := granuleOf e.addr.toNat
  if m.tag g = clsGuarded then (if m.written g then m.levelB e else (e, .a))
  else if m.tag g = clsReloadable && m.registered g then (e, .a)
  else if m.tag g = clsScratch && m.written g then m.levelB e
  else (e, if e.demand then .c else .none)

/-- The address whose mirror is at `a`. -/
def Chip.primaryOf (m : Chip) (a : Nat) : Nat :=
  let sl := m.stackOf a
  let s := Nat.xor sl.1 8
  if 0xFFE000000 ≤ sl.2 then depotBase + s * 0x2000000 + (sl.2 - 0xFFE000000) else m.hbmAddr s (sl.2 - mirrorSplit)

/-- The first row of R450 that matches, and the event with the cause it is recorded under. -/
def Chip.levelOf (m : Chip) (e : RecEvent) : RecEvent × Level :=
  let mirror (e : RecEvent) : RecEvent × Level :=
    if e.restore then (e, .c) else if m.dirty (granuleOf (m.primaryOf e.addr.toNat)) then (e, .none) else (e, .a)
  match e.cause with
  | 0x01 => if e.nth < 3 then (e, .a) else m.levelB e
  | 0x02 => if m.inMirror e.addr.toNat then mirror { e with cause := causeMirror } else m.levelMem e
  | 0x03 => mirror e
  | 0x04 => m.levelMem e
  | 0x05 => m.levelB e
  | 0x06 => if m.reexec && m.stg.third.elem (e.task, e.retired) then (e, .none) else m.levelB e
  | 0x07 => (e, if e.both then .c else .a)
  | 0x0B => m.levelB e
  | _ => (e, .c)

/-- The event's EVENT record, stamped in the domain of the unit that detected it (R510), and the EVT registers (R462, R463). -/
def Chip.noteEvent (m : Chip) (e : RecEvent) (lev : Nat) : Chip :=
  let info := e.cause + lev * 2 ^ 8 + e.unit.toNat * 2 ^ 16
  let m1 := ((m.setReg K.stageEvtInfo (BitVec.ofNat 64 info)).setReg K.stageEvtAddr e.addr).setReg K.stageEvtStamp e.stamp
  m1.record stagePage 0x86 e.unit (some info) (some e.addr.toNat) (e.stamp.toNat / 2 ^ 58)

/-! ### What every stop of execution does (R452, R460) -/

/-- Data that the module itself asked for and that has not come. -/
def ReadDest.isWalk : ReadDest → Bool
  | .walk _ _ => true
  | _ => false

/-- Every context stops at its next instruction boundary; started matrix entries are abandoned, vector and dray work is
discarded, and what was not yet sent is dropped. Inbound jobs and walks go on; transfers do (`xfers`) where no image takes
their place. -/
def Chip.stopAll (m : Chip) (xfers : Bool) : Chip :=
  let halt (k : Context) : Context :=
    if k.st.going then { k with st := .stopped, wait := .none, entering := none, stopReq := k.stopReq.filter (· != .quiesce) ++ [.quiesce] } else k
  let m1 : Chip := { m with
    coaches := m.coaches.map fun k =>
      { k with
        fore := halt k.fore, aft := halt k.aft, vec := { k.vec with q := [] },
        mtx := { k.mtx with queue := [], arr := [] }, dray := Vector.replicate 8 DStream.reset,
        vown := { k.vown with claimF := false, claimA := false, evict := false } }
    sends := []
    xlat := { m.xlat with miss := [], toSide := [], limited := [] }
    host := { m.host with
      held := m.host.held.filter fun (w : HeldWrite) => w.kind == .record || w.kind == .inval || (xfers && w.kind == .transfer)
      jobs := m.host.jobs.filter fun j => j.work.isInbound || (xfers && j.work.isXfer)
      reads := m.host.reads.filter fun r => r.dest.isWalk || (xfers && r.isTransfer) }
    sf := { m.sf with
      out := [], gather := [], wait := []
      port := m.sf.port.map fun p => { p with wait := p.wait.filter fun w => w.ser.isNone } } }
  (List.range 64).foldl Chip.syncCoach m1.syncHeld

/-- A level-C event (R460): STATE 5, everything stops, the ostler is notified. -/
def Chip.escalate (m : Chip) (e : RecEvent) : Chip :=
  let m1 := ((m.noteEvent e 3).count K.stageCntC 1).modStg fun s =>
    { s with current := none, post := .none, rb := .none, rbFence := none, nextImage := none }
  let m2 := (m1.setStage 5).stopAll true
  let m3 := if m2.busy stagePage then m2.freeStage cmdFailed else m2
  let m4 := m3.event stagePage 19
  ((m4.emit (.notify stagePage)).logEvent (.levelC e.cause)).tellState

/-- A rollback is decided (R452); a post that runs is abandoned, its request held (R451). -/
def Chip.beginRollback (m : Chip) (e : RecEvent) : Chip :=
  let m1 := m.noteEvent e 2
  let m2 := m1.setFld K.stageStageStat F.stageStageStatBcount (m1.bcount + 1)
  let m3 := if m2.stg.post != .none then m2.setFld K.stageStageStat F.stageStageStatPostPend 1 else m2
  let m4 := m3.modStg fun s =>
    { s with
      current := none, post := .none, nextImage := none, rb := .begun, rbAt := m.counter 32,
      rbFence := if e.cause = causeResidue then e.coach else none,
      third := if e.cause = causeFault3 then (e.task, e.retired) :: s.third else s.third }
  ((m4.setStage 3).event stagePage 17).holdStage

/-- A third fault that the same task takes again at the same point: the task ends; its context's other state is that of the
image (R451). -/
def Chip.repeatFault (m : Chip) (e : RecEvent) : Chip :=
  let x : Ctx := ⟨⟨idIndex e.unit / 2 % 64, Nat.mod_lt _ (by decide)⟩, idIndex e.unit % 2 == 1⟩
  let m1 := match m.stg.image with
    | some i =>
      let k := (i.coaches[x.coach.val]).side x.aft
      (m.setCtx x { k with st := .idle, task := 0, asid := 0, stopReq := [] }).syncCoach x.coach.val
    | none => m
  m1.markEnding e.task stTaskFail 0

/-- An event takes its course; `lev` is its level. -/
def Chip.handleEvent (m : Chip) (e : RecEvent) (lev : Level) : Chip :=
  match lev with
  | .none =>
    if e.cause = causeFault3 then m.repeatFault e
    else if e.cause = causeMirror then (m.modStg fun s => { s with mirrorBad := true }).requestPost
    else m
  | .a =>
    let m1 := (m.noteEvent e 1).modStg fun s => { s with current := some e }
    let g := granuleOf e.addr.toNat
    if (e.cause = causeHbmCrc || e.cause = causeDepot) && decide (m.tag g = clsReloadable) then m1.askJob (.reload g) stageId 1 else m1
  | .b => m.beginRollback e
  | .c => m.escalate e

/-- Level-B events that are queued, oldest first. -/
def Chip.queuedB (m : Chip) : List RecEvent := m.stg.events.filter fun e => (m.levelOf e).2 == .b

/-- The level at which an event can be handled now, if it can (R451): a rollback holds what is not at level C, and takes the
second level-B event that arrives during it at level C; a repair holds other repairs. -/
def Chip.handleNow (m : Chip) (e : RecEvent) : Option (RecEvent × Level) :=
  let r := m.levelOf e
  if m.stageState == 5 then none
  else if m.stg.rb != .none then
    match r.2 with
    | .c => some r
    | .b => if 1 ≤ m.stg.bDuring || m.queuedB.head? != some e then some ({ e with cause := causeRepeat }, .c) else none
    | _ => none
  else match r.2 with
    | .a => if m.stg.current.isSome then none else some r
    | _ => some r

/-- The domain in which a unit stamps its events (R510): the PCIe core for a function, the hub for every block of it. -/
def unitDomain (u : BitVec 16) : Nat :=
  match idKind u with
  | 1 => 21
  | 2 => coachDomain (idIndex u / 2)
  | 3 => coachDomain (idIndex u / 8)
  | 9 => 5 + idIndex u % 16
  | 10 => 4
  | _ => 32

/-- An error that no other command of the table tells: PARITY, MIRROR, LOG and STAGECTL. -/
def Chip.detect (m : Chip) (d : Option Detected) : Chip :=
  match d with
  | some d =>
    if ([causeMirror, causeParity, causeLog, causeStageCtl] : List Nat).elem d.cause then
      m.report { m.recEvent d.cause d.unit d.addr (unitDomain d.unit) with both := d.both, restore := d.restore }
    else m
  | none => m

/-- RECOVERY_EVENT: an error may be reported; the first that can be handled now is. -/
def Chip.recovery (m : Chip) (d : Option Detected) : Chip :=
  let m1 := m.detect d
  match m1.stg.events.findSome? fun e => (m1.handleNow e).map fun r => (e, r) with
  | some r => (m1.modStg fun s => { s with events := s.events.erase r.1 }).handleEvent r.2.1 r.2.2
  | none => m1

def execRecoveryEvent (d : Option Detected) (s : State) : Host.Outcome State Fault Refusal := onLog (fun m => m.recovery d) s

/-- LOG_OVERFLOW: the log has stayed full for LOG_CTL.FULL_MS (R449). -/
def execLogOverflow (s : State) : Host.Outcome State Fault Refusal :=
  onLog (fun m => m.when (m.logging && m.flag K.stageStageStat F.stageStageStatFull) fun m =>
    m.escalate (m.recEvent causeOverflow stageId 0 32)) s

/-! ### Repairs (R450) -/

/-- A 64 B block is rewritten from another; the copy of a bad block is bad. -/
def Chip.copyBlock (m : Chip) (src dst : Nat) : Chip :=
  let m1 := m.copyMem (src / 64 * 64) (dst / 64 * 64) 64
  if m.badCrc.elem (src / 64) then m1.markBad (dst / 64) else { m1 with badCrc := m1.badCrc.filter (· != dst / 64) }

/-- A granule's reload is under way. -/
def Chip.reloading (m : Chip) (g : Nat) : Bool := m.host.jobs.any (·.work == .reload g)

/-- LEVEL_A_REPAIR_DONE. The bad copy of a log record or of an image block is rewritten from the other copy. A mirror block that is bad itself is reported, and the repair waits for it. -/
def Chip.repairDone (m : Chip) : Chip :=
  match m.stg.current with
  | none => m
  | some e =>
    let a := e.addr.toNat
    let g := granuleOf a
    let done (m : Chip) : Chip := ((m.modStg fun s => { s with current := none }).count K.stageCntA 1).event stagePage 21
    if e.cause = causeMirror then done (m.copyBlock (m.primaryOf a) a)
    else if e.cause = causeHbmCrc ∨ e.cause = causeDepot then
      if m.tag g = clsReloadable then (if m.reloading g then m else done m)
      else match m.mirrorOf a with
        | some b =>
          if m.badCrc.elem (b / 64) then
            let s := (m.stackOf b).1
            (m.modStg fun s => { s with current := none, events := s.events ++ [e] }).report
              (m.recEvent causeMirror (BitVec.ofNat 16 (0x9000 + s)) b (5 + s))
          else done (m.copyBlock b a)
        | none => done m
    else if e.cause = causeLog then
      if m.inMirror a then done (m.copyBlock (m.primaryOf a) a)
      else done (match m.mirrorOf a with
        | some b => m.copyBlock b a
        | none => m)
    else done m

def execLevelARepairDone (s : State) : Host.Outcome State Fault Refusal :=
  onHbm (fun m => match m.stg.current with
    | some e => m.repairDone.releaseCrc (granuleOf e.addr.toNat)
    | none => m) s

/-- A reload reads its granule from the registered source (R439). -/
def Chip.reloadStart (m : Chip) (g : Nat) : Chip :=
  match m.stg.regist.find? (·.covers g) with
  | none => m.reloadDeliver g 0 [] true
  | some r =>
    let at' := (g - r.first) * 65536
    let src := r.src.toNat
    if r.peer then
      (List.range 128).foldl (fun (m : Chip) i =>
        let s := m.takeSer
        let off := src / 2 ^ 20 + at' + i * 512
        let c := s.1.coupleRead (src % 1024) (src / 1024 % 1024) off 512 stageId 0 off (.reload g (i * 512)) 1 s.2
        if c.2 then c.1 else c.1.reloadDeliver g (i * 512) [] true) m
    else
      (List.range 16).foldl (fun (m : Chip) i =>
        let s := m.takeSer
        let a := src + at' + i * 4096
        s.1.hostRead none a 4096 stageId 0 a (.reload g (i * 4096)) s.2) m

/-- FREIGHT_DRAY_GRANT: the next job gets a freight dray (R331); a transfer or a reload goes on with it. -/
def Chip.freightGrant (m : Chip) : Chip :=
  match m.nextJob with
  | none => m
  | some j =>
    let m1 := m.grantJob
    match j.work with
    | .xfer id => m1.xferStep id 4
    | .reload g => m1.reloadStart g
    | _ => m1

def execFreightDrayGrant (s : State) : Host.Outcome State Fault Refusal := onHbm Chip.freightGrant s

/-- Reads of a reload are under way. -/
def Chip.reloadReads (m : Chip) (g : Nat) : Bool :=
  let is (d : ReadDest) : Bool := match d with
    | .reload h _ => h == g
    | _ => false
  m.host.reads.any (fun r => is r.dest) || m.sf.out.any fun o => o.dest.any is

/-- Writes of a reload wait at their memory. -/
def Chip.reloadHeld (m : Chip) (g : Nat) : Bool :=
  (m.crcHeld ++ m.slices.toList.flatMap (·.held)).any fun h => h.master == stageId && decide (granuleOf h.addr = g)

/-- FREIGHT_JOB_END: the work of a granted freight dray: an inbound request (R332), a transfer's next piece or its end, the
end of a reload. Jobs of streams and of vector entries end with their accesses. -/
def Chip.freightEnd (m : Chip) (id : Nat) : Chip :=
  match m.host.jobs.find? fun j => j.id == id && j.granted with
  | none => m
  | some j => match j.work with
    | .xfer x => m.xferWork x
    | .inbound i => m.inboundEnd i false
    | .reload g => if m.reloadReads g || m.reloadHeld g then m else m.endJob (.reload g)
    | _ => m

def execFreightJobEnd (id : Nat) (s : State) : Host.Outcome State Fault Refusal := onHbm (fun m => m.freightEnd id) s

/-! ### Rollback (R452) -/

/-- ROLLBACK_STOP. -/
def execRollbackStop (s : State) : Host.Outcome State Fault Refusal :=
  onChip (fun m => m.when (m.stg.rb == .begun) fun m => (m.stopAll false).modStg fun s => { s with rb := .stopped }) s

/-- Open fault entries close without resuming anyone (R357). -/
def Chip.closeFaults (m : Chip) : Chip :=
  (Chip.syncOpen { m with xlat := { m.xlat with faults := [], toSide := [], full := [], limited := [] } }).event ⟨.fault, 0⟩ 19

/-- Depot lines of a granule are invalidated, in the cache and in the boot, without write-back (R308). -/
def Chip.dropLines (m : Chip) (g : Nat) : Chip :=
  let sl := m.stackOf (g * 65536)
  let of (l : Nat) : Bool := decide (l / 256 = sl.2 / 65536)
  if g * 65536 < depotBase then m.modSlice sl.1 fun k =>
    { k with
      lines := k.lines.filter (!of ·.line), boot := k.boot.filter (!of ·.line)
      fetch := k.fetch.map fun f => if of f.line then { f with drop := true } else f
      miss := k.miss.filter (!of ·.line) }
  else m

/-- A dirty granule is copied from its mirror; the copy of a bad block of the mirror is bad, and the block is recorded and reported
(R317, R450). -/
def Chip.restoreGranule (m : Chip) (g : Nat) : Chip :=
  match m.mirrorOf (g * 65536) with
  | none => m
  | some b =>
    let bad := m.badBlocks b 65536
    let m1 := (m.copyMem b (g * 65536) 65536).copyCount b (g * 65536)
    let own (k : Nat) : Bool := decide (g * 1024 ≤ k ∧ k < g * 1024 + 1024)
    let m2 : Chip := { m1 with badCrc := m1.badCrc.filter (!own ·) ++
      (if g * 65536 < depotBase then bad.map fun k => k - b / 64 + g * 1024 else []) }
    bad.foldl (fun m k =>
      let s := (m.stackOf (k * 64)).1
      (m.crcRecord (k * 64) 0 stageId).report { m.recEvent causeMirror (BitVec.ofNat 16 (0x9000 + s)) (k * 64) (5 + s) with restore := true }) m2

/-- A context as the image holds it. It goes on at the Restart. A chock is neither set nor released (R70): a chocked context
keeps its state while it runs the same task. -/
def restoreCtx (cur img : Context) : Context :=
  let go (k : Context) : Context :=
    if k.stopReq.elem .quiesce then k else { k with stopReq := k.stopReq ++ [.quiesce] }
  if cur.st == .chocked then (if cur.task = img.task then cur else { img with st := .chocked })
  else if img.st == .chocked then go { img with st := .stopped }
  else img

/-- A context of a coach that was fenced at the post and is no more is idle (R398). -/
def Chip.unfenceCtxs (m : Chip) : Chip :=
  allCtxs.foldl (fun m x =>
    if (m.ctx x).st == .fenced && !m.flag (K.shuntCoachCfg x.coach.val) F.shuntCoachCfgFenced then
      m.modCtx x fun k => { k with st := .idle } else m) m

def restoreCoach (cur img : Coach) : Coach :=
  { img with
    fore := restoreCtx cur.fore img.fore
    aft := restoreCtx cur.aft img.aft
    vown := { img.vown with limitHits := cur.vown.limitHits } }

/-- Quarters whose power the image changes lose their contents. -/
def Chip.restorePower (m : Chip) (i : Image) : Chip :=
  (List.range 64).foldl (fun (m : Chip) c =>
    let r := F.cmemQpwrReady.get (smapGet regReset i.regs (K.cmemQpwr c))
    (List.range 4).foldl (fun (m : Chip) q =>
      if r.testBit q != m.rowReady c (2048 * q) then m.zeroMem (rowAddr c (2048 * q)) (2048 * 512) else m) m) m

/-- The registers of the image take the place of those that stand. -/
def Chip.restoreRegs (m : Chip) (i : Image) : Chip := { m with regs := smapSetAll regReset (smapErase imageReg m.regs) i.regs }

/-- The rows of the image's partitions. -/
def Chip.restoreRows (m : Chip) (i : Image) : Chip :=
  let r := allRanges fun a => smapGet regReset i.regs a
  { m with mem := smapSetAll (memDef m.veils) (smapErase (inRanges r) m.mem) i.rows }

/-- TX_OSN of every peer (R427). -/
def Chip.restoreOsn (m : Chip) (i : Image) : Chip :=
  (List.range 1024).foldl (fun (m : Chip) n =>
    let v := (smapGet (fun _ => (0 : W64)) i.osn n).toNat
    if m.txOsn n = v then m else m.setFld (K.couplePeerOsn (n / 64) (n % 64)) F.couplePeerOsnTxOsn v) m

/-- The shunter's state (R401): rings and completion counts go on from where they stand, and no queue is passed over for what its head
once was (R377). -/
def restoreShunter (cur img : Shunter) : Shunter :=
  { img with
    queues := cur.queues.map fun q => { q with ended := 0, wrote := max q.wrote q.ended }
    last := cur.last, order := max cur.order img.order, nextXfer := max cur.nextXfer img.nextXfer, skip := [] }

/-- The image is written back. -/
def Chip.restoreImage (m : Chip) (i : Image) : Chip :=
  let m1 := (((m.restorePower i).restoreRegs i).restoreRows i).restoreOsn i
  let m2 : Chip := { m1 with
    coaches := Vector.zipWith restoreCoach m1.coaches i.coaches
    cm := i.cm, obuf := i.obuf, sh := restoreShunter m1.sh i.sh
    host := { m1.host with
      jobs := m1.host.jobs ++ i.jobs
      reads := m1.host.reads ++ i.reads.map fun r => { r with sent := false } } }
  (m2.modStg fun s => { s with regist := i.regist, log := s.log.map fun r => { r with reached := false } }).regUsed

/-- A task ends with RB_ABORT at a rollback: its completion is written now and is none that the re-execution repeats. -/
def Chip.abortRecord (m : Chip) (t : Task) : Chip :=
  let m1 := m.writeCompletion t.queue t.words[0] stRbAbort 0 t.handle.toNat
  if entryIrq t.words[0] then m1.sendMsix (m1.fld (K.doorbellQctl t.queue) F.doorbellQctlFunc) (m1.fld (K.doorbellQctl t.queue) F.doorbellQctlVec)
  else m1

/-- Records that a task made are skipped (R455). -/
def Chip.skipTask (m : Chip) (h : W16) : Chip :=
  m.modStg fun s => { s with log := s.log.map fun r => if r.task = h then { r with reached := true } else r }

/-- The tasks that a rollback ends (R386, R440). -/
def Chip.doomed (m : Chip) : List Task := m.sh.tasks.filter fun t => t.abortMode || m.stg.stale.elem t.handle

/-- A task of the Discard phase: its completion, and all that it holds now, its chocks among them (R394). -/
def Chip.discardTask (m : Chip) (t : Task) : Chip :=
  (((m.abortRecord t).freeTask t).skipTask t.handle).modStg fun s => { s with aborted := t.ord :: s.aborted }

/-- A task that the image brings back and that the rollback ends: it is freed once more. One whose mode is ABORT and that had
completed within the stage has had its completion; the re-execution does not repeat it (R386, R401; log entry 48). -/
def Chip.dropRestored (m : Chip) (t : Task) : Chip :=
  let m1 := (m.freeTask t).skipTask t.handle
  let e := t.ord
  if m.stg.aborted.elem e && !m.stg.counted.elem e then m1
  else
    let k := m1.qstate t.queue
    (m1.setQstate { k with ended := k.ended + 1 }).modStg fun s => { s with aborted := e :: s.aborted, counted := e :: s.counted }

/-- Tasks of the image that the rollback has ended or that their mode ends. -/
def Chip.restoredDoomed (m : Chip) : List Task :=
  m.sh.tasks.filter fun t => t.abortMode || m.stg.aborted.elem t.ord

/-- ROLLBACK_RESTORE: the Discard and Restore phases, once no depot command runs. -/
def Chip.restore (m : Chip) : Chip :=
  let dirty := m.dirtyList
  let m1 := dirty.foldl Chip.dropLines m.closeFaults
  let m2 := dirty.foldl Chip.restoreGranule (m.doomed.foldl Chip.discardTask m1)
  let rewritten (e : RecEvent) : Bool :=
    (e.cause == causeHbmCrc || e.cause == causeDepot) && dirty.elem (granuleOf e.addr.toNat)
  let m3 := m2.modStg fun s => { s with events := s.events.filter (!rewritten ·), diverged := [] }
  let m4 := match m3.stg.image with
    | some i => (m3.restoreImage i).imageCount fun s => K.hbmRdBytes s
    | none => m3
  let m5 := (m4.restoredDoomed.foldl Chip.dropRestored m4).unfenceCtxs
  let m6 := (m5.wakeSided).modStg fun s => { s with rb := .restored, stale := [] }
  let m6 : Chip := { m6 with slices := m6.slices.map fun k => { k with held := k.held.filter fun (h : HeldReq) => !h.target } }
  let m7 := allCtxs.foldl Chip.holdSources ((List.range 64).foldl Chip.syncCoach m6.syncHeld)
  Chip.releaseCrc { m7 with crcHeld := (m7.crcHeld.filter fun h => idKind h.master == 1 && !h.target).map fun h =>
    { h with parity := false } } 0

def execRollbackRestore (s : State) : Host.Outcome State Fault Refusal :=
  onHbm (fun m => m.when (m.stg.rb == .stopped && !m.depotWorks) Chip.restore) s

/-- The coach that the event fences, and every coach that stands fenced, loses the tasks that the image gave it to others (R398,
R399). -/
def Chip.relocateFenced (m : Chip) (c : Fin 64) : Chip :=
  let m1 := m.fenceCoach c
  let m2 := (m1.hubLeave ⟨c, false⟩).hubLeave ⟨c, true⟩
  m2.relocateGo c

/-- ROLLBACK_RESTART: relocation is done and the re-execution begins. -/
def Chip.restart (m : Chip) : Chip :=
  let m1 := ((List.finRange 64).filter fun c => m.stg.rbFence == some c.val ||
    m.flag (K.shuntCoachCfg c.val) F.shuntCoachCfgFenced).foldl Chip.relocateFenced m
  let m2 := m1.modStg fun s =>
    { s with rb := .none, rbFence := none, rbRun := m.counter 32, bDuring := s.bDuring + m1.queuedB.length }
  let m3 := (m2.setStage 4).resumeCtxs
  let m4 := if m3.stg.postCmd = 4 || m3.stg.postCmd = 0 then m3.freeStage cmdOk else m3
  m4.pumpReads

def execRollbackRestart (s : State) : Host.Outcome State Fault Refusal :=
  onChip (fun m => m.when (m.stg.rb == .restored) Chip.restart) s

/-! ### Re-execution (R454 to R456) -/

/-- A read record fits a read: of its master, and of the shunter's also of its place. -/
def fits (r : LogRec) (master : BitVec 16) (va : Nat) : Bool :=
  r.master == master && (r.master != shuntId || r.value.toNat == va)

/-- A recorded read is delivered to the next read of its master; another address makes its task diverge (R455). -/
def Chip.applyRead (m : Chip) (r : LogRec) : Chip :=
  match m.host.reads.find? fun q => !q.sent && fits r q.master q.va with
  | some q =>
    if q.va % 2 ^ 64 ≠ r.value.toNat then m.markDiverged r.task
    else
      let m1 := m.logReach.dropRead q.id
      let c (c : Nat) : Fin 64 := ⟨c % 64, Nat.mod_lt _ (by decide)⟩
      match q.dest with
      | .vec k i j => m1.vecDeliver (c k) i j r.payload
      | .dray k s b g => m1.drayDeliver (c k) ⟨s % 8, Nat.mod_lt _ (by decide)⟩ b g r.payload
      | .xfer id off => m1.xferDeliver id off r.payload false
      | .code h off => m1.codeDeliver (BitVec.ofNat 16 h) off r.payload false
      | _ => m1
  | none => match m.sf.out.find? fun o => !o.wr && fits r o.master o.va with
    | some o =>
      if o.va % 2 ^ 64 ≠ r.value.toNat then m.markDiverged r.task
      else
        let m1 := m.logReach.dropOut o
        let c (c : Nat) : Fin 64 := ⟨c % 64, Nat.mod_lt _ (by decide)⟩
        match o.dest with
        | some (.vec k i j) => m1.vecDeliver (c k) i j r.payload
        | some (.dray k s b g) => m1.drayDeliver (c k) ⟨s % 8, Nat.mod_lt _ (by decide)⟩ b g r.payload
        | _ => m1
    | none => m

/-- A recorded write is performed once more, and notifies once more: the rollback took its notification back (R459). -/
def Chip.applyWrite (m : Chip) (r : LogRec) : Chip :=
  let m1 := m.logReach.modStg fun s => { s with deferred := s.deferred.filter fun (d : Deferred) => d.entry != r }
  m1.targetPut r.landing

/-- REEXEC_DATA_APPLY: the DATA record that is next is applied or delivered. -/
def Chip.dataApply (m : Chip) : Chip :=
  match m.logHead with
  | none => m
  | some r =>
    let m1 := match r.kind with
      | .peerWrite | .bar2Write => m.applyWrite r
      | .hostRead | .peerRead => m.applyRead r
      | .transfer => match m.stg.deferred.find? fun (d : Deferred) => d.entry == r with
        | some d => (m.modStg fun s => { s with deferred := s.deferred.erase d }).applyRead r
        | none => m.applyRead r
      | _ => m
    m1.pumpPeers.pumpReads

def execReexecDataApply (s : State) : Host.Outcome State Fault Refusal := onHbm (fun m => m.when m.reexec Chip.dataApply) s

/-- The record that holds the log is one that task `h` must reach. -/
def Chip.heldBy (m : Chip) (h : W16) : Bool :=
  m.logHead.any fun r => r.task == h && (h != 0 && r.kind != .entry || idKind r.master == 2)

/-- The records that code without a task made; the first that is left names its context. -/
def Chip.skipMaker (m : Chip) : Chip :=
  let own (r : LogRec) : Bool := r.task == 0 && idKind r.master == 2
  match m.stg.log.find? fun r => !r.reached && own r with
  | some f =>
    let skip (r : LogRec) : LogRec := if own r && r.master == f.master then { r with reached := true } else r
    m.modStg fun s => { s with log := s.log.map skip }
  | none => m

/-- DIVERGE: a task met a record that does not fit it, or has left its record unreached for 1 s. Host-started supervisor code
that diverges has no task to end: its records are skipped (log entry 49). -/
def Chip.diverge (m : Chip) (h : W16) : Chip :=
  if !m.reexec || !(m.stg.diverged.elem h || m.heldBy h) then m
  else
    let m0 := m.stageRecord 0x84 stageId none none
    let m1 := if h = 0 then m0.skipMaker else m0.skipTask h
    ((m1.modStg fun s => { s with diverged := s.diverged.filter (· != h) }).markEnding h stRbAbort 0).pumpPeers.pumpReads

def execDiverge (h : BitVec 16) (s : State) : Host.Outcome State Fault Refusal := onChip (fun m => m.diverge h) s

/-- REEXEC_END: every record is reached, applied or skipped; the module is live. -/
def Chip.reexecEnd (m : Chip) : Chip :=
  let last := BitVec.ofNat 64 (((m.stg.rbRun - m.stg.rbAt).toNat / 400) % 2 ^ 32 + m.usSince m.stg.rbRun / 1000 % 2 ^ 32 * 2 ^ 32)
  let m1 := (((m.setStage 1).count K.stageCntB 1).setReg K.stageLastRb last).event stagePage 18
  let m2 := if m.flag K.stageLogCtl F.stageLogCtlNotice then
      (allCtxs.filter fun x => (m.ctx x).intEn.getLsbD 2).foldl (fun m x => m.postInt x 2) m1
    else m1
  (m2.modStg fun s => { s with diverged := [] }).pumpPeers.pumpReads

def execReexecEnd (s : State) : Host.Outcome State Fault Refusal :=
  onChip (fun m => m.when (m.reexec && m.stg.rb == .none && m.logHead.isNone) Chip.reexecEnd) s

/-! ### The commands (R463) -/

/-- A command takes the page until the post that it asks for has committed. -/
def Chip.askPost (m : Chip) (code : Nat) : Chip := (m.modStg fun s => { s with postCmd := code }).requestPost

/-- Every granule tagged guarded can be guarded. -/
def Chip.guardsOk (m : Chip) : Bool := m.stg.tags.all fun e => e.2 != clsGuarded || (m.mirrorOf (e.1 * 65536)).isSome

def Chip.arm (m : Chip) (l : Launch) : Chip :=
  if l.arg ≠ 0 || !m.areasOk || !m.guardsOk then m.endCmd stagePage cmdBadArg
  else if m.stg.armed then m.endCmd stagePage cmdNotIdle
  else (((m.stg.tags.filter (·.2 == clsGuarded)).map (·.1)).foldl Chip.mirrorGranule m).askPost 1

def Chip.disarm (m : Chip) (l : Launch) : Chip :=
  if l.arg ≠ 0 then m.endCmd stagePage cmdBadArg
  else if !m.stg.armed then m.endCmd stagePage cmdNotIdle
  else m.askPost 2

def Chip.postCommand (m : Chip) (l : Launch) : Chip :=
  if l.arg ≠ 0 then m.endCmd stagePage cmdBadArg
  else if m.stageState == 5 then m.endCmd stagePage cmdNotIdle
  else m.askPost 3

def Chip.rollbackCommand (m : Chip) (l : Launch) : Chip :=
  if l.arg ≠ 0 then m.endCmd stagePage cmdBadArg
  else if m.stageState != 1 then m.endCmd stagePage cmdNotIdle
  else (m.modStg fun s => { s with postCmd := 4 }).report (m.recEvent causeCommand l.m 0 32)

/-- ABANDON: every task ends, and a post opens a new stage. -/
def Chip.abandon (m : Chip) (l : Launch) : Chip :=
  if l.arg ≠ 0 then m.endCmd stagePage cmdBadArg
  else if m.stageState != 5 then m.endCmd stagePage cmdNotIdle
  else
    let m1 := m.sh.tasks.foldl (fun (m : Chip) t => (m.endTask t stEnded 0).getD m) m
    (({ m1 with crcSeen := [] } : Chip).modStg fun s => { s with events := [], current := none }).askPost 5

/-- Whole granules from `g` on lie in HBM or in the addressable depot. -/
def granulesOk (g n : Nat) : Bool :=
  let lo := g * 65536
  let hi := (g + n) * 65536
  decide (hi ≤ depotBase) || (decide (depotBase ≤ lo ∧ hi ≤ depotBase + 0x20000000))

/-- The source of a registration is aligned to 64 KiB. -/
def sourceOk (src : W64) (peer : Bool) : Bool := if peer then decide (src.toNat / 2 ^ 20 % 65536 = 0) else decide (src.toNat % 65536 = 0)

def Chip.registerCommand (m : Chip) (l : Launch) : Chip :=
  let g := m.fld K.stageRegDst F.stageRegDstAddr
  let n := m.fld K.stageRegCtl F.stageRegCtlPages
  let src := m.reg K.stageRegSrc
  let peer := m.flag K.stageRegCtl F.stageRegCtlPeer
  if l.arg ≠ 0 || n = 0 || !granulesOk g n || !sourceOk src peer then m.endCmd stagePage cmdBadArg
  else match m.registerRange ⟨g, n, src, peer⟩ with
    | some m1 => m1.endCmd stagePage cmdOk
    | none => m.endCmd stagePage 0x20

def Chip.releaseCommand (m : Chip) (l : Launch) : Chip :=
  if 2 ^ 26 ≤ l.arg.toNat then m.endCmd stagePage cmdBadArg
  else match m.stg.regist.find? fun r => r.first == l.arg.toNat with
    | some r => (m.endReg r).endCmd stagePage cmdOk
    | none => m.endCmd stagePage 0x21

def execArm (l : Launch) (s : State) : Host.Outcome State Fault Refusal := onChip (fun m => m.issue stagePage 1 l fun l m => m.arm l) s
def execDisarm (l : Launch) (s : State) : Host.Outcome State Fault Refusal := onChip (fun m => m.issue stagePage 2 l fun l m => m.disarm l) s
def execPost (l : Launch) (s : State) : Host.Outcome State Fault Refusal := onChip (fun m => m.issue stagePage 3 l fun l m => m.postCommand l) s
def execRollback (l : Launch) (s : State) : Host.Outcome State Fault Refusal :=
  onChip (fun m => m.issue stagePage 4 l fun l m => m.rollbackCommand l) s
def execAbandon (l : Launch) (s : State) : Host.Outcome State Fault Refusal := onChip (fun m => m.issue stagePage 5 l fun l m => m.abandon l) s
def execRegister (l : Launch) (s : State) : Host.Outcome State Fault Refusal :=
  onChip (fun m => m.issue stagePage 6 l fun l m => m.registerCommand l) s
def execRelease (l : Launch) (s : State) : Host.Outcome State Fault Refusal :=
  onChip (fun m => m.issue stagePage 7 l fun l m => m.releaseCommand l) s

end Sys2Proof.Machine
end

