-- ==== Sys2Proof/Machine/Startup.lean ====
section
/-! DEFINITION. Start-up from step 5 on, and the resets that a command, the ostler or a land causes (chapter 1: R19 to
R52, R110). -/
namespace Sys2Proof.Machine

abbrev rstPage : PageId := ⟨.rst, 0⟩
abbrev timePage : PageId := ⟨.time, 0⟩

/-! ### Rake clocks (R26, R466, R467) -/

/-- Frequency of operating point `p` in MHz. -/
def pointMhz (p : Nat) : Nat := 400 + 25 * p

/-- vdd_rake of operating point `p` in mV: 600 at 400 MHz and 800 at 850 MHz; the points between have their own, which no
rule states. -/
def pointMv (p : Nat) : Nat := if p = 0 then 600 else if p = 18 then 800 else Config.pointMv p

/-- The clock period of rake `r`: that of its operating point, twice as long while it is stretched (R472). -/
def Chip.rakePeriod (m : Chip) (r : Fin 4) : Chip :=
  m.setDom r.val fun d => { d with period := 1000000 / pointMhz m.pwr.point[r] * (if m.pwr.stretch then 2 else 1) }

/-- A change of rake `r`'s clock: its point in force, its voltage, its period and its EPOCH (R26, R467). -/
def Chip.rakeClock (m : Chip) (r : Fin 4) : Chip :=
  let a := K.pwrRakeStat r.val
  let m1 := (m.setFld a F.pwrRakeStatClkMhz (pointMhz m.pwr.point[r])).setFld a F.pwrRakeStatVddMv (pointMv m.pwr.point[r])
  (m1.rakePeriod r).count (K.timeEpoch r.val) 1

/-- The governor shows the point that each rake has, without a change of its clock. -/
def Chip.showPoints (m : Chip) : Chip :=
  (List.finRange 4).foldl (fun (m : Chip) r =>
    let a := K.pwrRakeStat r.val
    (m.setFld a F.pwrRakeStatClkMhz (pointMhz m.pwr.point[r])).setFld a F.pwrRakeStatVddMv (pointMv m.pwr.point[r])) m

/-! ### Steps 5 to 7 (R40, R42, R43, R315, R506) -/

/-- HBM_TRAINING_DONE (R40, R48, R315): the stacks are trained, all of HBM holds zeros with a valid CRC, the depot and the
operand buffers are clear, the interleave mode of the configuration is in force, and step 6 begins; or stack `s` has failed
its third attempt. -/
def execHbmTrainingDone (fail : Option (Fin 16)) (s : State) : Host.Outcome State Fault Refusal :=
  onChipWith (fun n m => m.when (m.atStep 5 && m.pwr.stops.isEmpty) fun m =>
    match fail with
    | some s => m.holdFailure F.rstBootStatHbmFail s.val
    | none =>
      let m1 : Chip := { m with mem := [], veils := [], obuf := [], badCrc := [], slices := Vector.replicate 16 Slice.reset }
      let m2 := (List.range 16).foldl (fun (m : Chip) s => m.setFld (K.hbmHbmCfg s) F.hbmHbmCfgIlv (n.ilv % 2)) (m1.setPhase 6)
      (List.range 16).foldl (fun (m : Chip) i => (m.syncRun ⟨.depot, i⟩).syncRun ⟨.hbm, i⟩) (m2.syncRun ⟨.pwr, 0⟩)) s

/-- RAKE_RELEASE (R40, R26, R506): the rake clocks start, unstretched also while a sag warning is in force (R51 speaks of rakes
that run at its beginning; DESIGN CHOICE, log entry 15), every coach is held at its reset vector with the sources that a
warning in force holds, the shunter and the governor start with the configured cap, and step 7 begins. -/
def execRakeRelease (s : State) : Host.Outcome State Fault Refusal :=
  onChipWith (fun n m => m.when (m.atStep 6 && m.pwr.stops.isEmpty) fun m =>
    let m1 := (m.clocks (fun d => decide (d < 4)) true).setPhase 7
    let m2 := (m1.setFld K.pwrCap F.pwrCapCapMgmt n.capBoot).showPoints
    (allCtxs.foldl Chip.holdSources m2).syncRun ⟨.xlat, 0⟩ |>.syncRun ⟨.inval, 0⟩) s

/-- MODULE_READY (R40, R42): stage 0 is open and READY is set, with the time since main power good. -/
def execModuleReady (s : State) : Host.Outcome State Fault Refusal :=
  onChip (fun m => m.when (m.atStep 7) fun m =>
    let ms := (m.counter 33 - m.board.t0).toNat / 25000
    let st := F.rstBootStatReadyMs.put (F.rstBootStatReady.put (F.rstBootStatPhase.put (m.reg K.rstBootStat) 8) 1) ms
    (m.setReg K.rstBootStat st).tellState) s

/-! ### MODULE resets (R33 to R35, R50) -/

/-- PERST0_ASSERT (R33): perst0_n falls, a MODULE cause. -/
def execPerst0Assert (s : State) : Host.Outcome State Fault Refusal :=
  onChip (fun m => m.when m.board.perst0N fun m => (m.modBoard fun b => { b with perst0N := false }).moduleEnter .perst) s

/-- MODULE_RESET_RELEASE (R33, R482): 20 ms after the last cause has cleared, and not while cool_leak_n is low, start-up goes on
from step 2. -/
def execModuleResetRelease (s : State) : Host.Outcome State Fault Refusal :=
  onChip (fun m => m.when (m.board.inReset && m.board.causes.isEmpty && m.board.mainGood && m.board.coolLeakN) fun m =>
    (m.modBoard fun b => { b with inReset := false, stepTwo := true }).setPhase 2) s

/-- LEAK_CLEAR (R482): cool_leak_n is high again, and the leak no longer holds the reset; a stop that has begun still resets
the module, and the cause is then over at once. -/
def execLeakClear (s : State) : Host.Outcome State Fault Refusal :=
  onChip (fun m => m.when (!m.board.coolLeakN) fun m =>
    (m.modBoard fun b => { b with coolLeakN := true }).causeClears (· == .leak)) s

/-- A command with no argument: a set ARG bit is BAD_ARG (R61). -/
def Chip.noArg (m : Chip) (p : PageId) (l : Launch) (f : Chip → Chip) : Chip :=
  if l.arg = 0 then f m else m.endCmd p cmdBadArg

/-- MODULE_RESET (R33, R39). -/
def execModuleReset (l : Launch) (s : State) : Host.Outcome State Fault Refusal :=
  onChip (fun m => m.issue rstPage 1 l fun l m => m.noArg rstPage l fun m => m.moduleEnter .cmd) s

/-! ### The ostler (R33, R45, R50) -/

/-- An OSTLER reset (R33, R39): the ostler and its mailbox; the data path stays as it is. -/
def Chip.ostlerReset (m : Chip) : Chip :=
  let m0 := m.setFld K.rstResetCause F.rstResetCauseOstler 1
  let m1 := (m0.resetPages (pageBase .mbox 0) (pageBase .mbox 0 + 0x1000)).modBoard fun b =>
    { b with ostlerUp := false, ostlerBoot := true, romLoader := false, unlogged := F.rstResetCauseOstler.put b.unlogged 1 }
  { m1 with mg := Ostler.reset }

/-- OSTLER_RESET (R33, R39). -/
def execOstlerReset (l : Launch) (s : State) : Host.Outcome State Fault Refusal :=
  onChip (fun m => m.issue rstPage 3 l fun l m => m.noArg rstPage l fun m =>
    (m.ostlerReset).endCmd rstPage cmdOk) s

/-- OSTLER_WATCHDOG (R33, R50): 2 s without a sign of the ostler, while it runs or is being started (step 3, and after an
OSTLER reset): an OSTLER reset, before step 6 a MODULE cause. -/
def execOstlerWatchdog (s : State) : Host.Outcome State Fault Refusal :=
  onChip (fun m => m.when (m.board.ostlerUp || m.board.ostlerBoot || m.atStep 3) fun m =>
    if m.phase < 6 then m.moduleEnter .watchdog
    else m.ostlerReset) s

/-- OSTLER_BOOT (R33, R45): after an OSTLER reset the ostler verifies its image again, as in step 3. -/
def execOstlerBoot (a b : Verdict) (s : State) : Host.Outcome State Fault Refusal :=
  onChipWith (fun n m => m.when (m.board.ostlerBoot && !m.board.inReset && !m.board.por) fun m => (m.ostlerStart n a b).1) s

/-! ### RAKE reset (R33, R36, R110) -/

/-- The coaches of rake `r`. -/
def rakeCoaches (r : Nat) : List (Fin 64) := (List.finRange 64).filter fun c => c.val / 16 == r

/-- A coach of the rake holds a resident task partition and is not fenced (R36): an entry of PART that is VALID, whatever its
TASK (DESIGN CHOICE, log entry 11). -/
def Chip.rakeInUse (m : Chip) (r : Nat) : Bool :=
  (rakeCoaches r).any fun c =>
    !m.flag (K.shuntCoachCfg c.val) F.shuntCoachCfgFenced
      && (List.range 8).any fun i => m.flag (K.cmemPart c.val i) F.cmemPartValid

/-- The chip without what coach `c` holds: its contexts, engines, streams, pages, translations, memories and chocks. -/
def Chip.dropCoach (m : Chip) (c : Fin 64) : Chip :=
  let lo := pageBase .coach c.val
  let mine (w : BitVec 16) : Bool :=
    (idKind w == 2 && idIndex w / 2 == c.val) || (idKind w == 3 && idIndex w / 8 == c.val)
  let m1 := (m.modCoach c fun _ => Coach.reset).resetPages lo (lo + 0x10000)
  let m2 := (m1.zeroMem (coreBase + c.val * 0x400000) 0x400000)
  let m3 := (List.range 9).foldl (fun (m : Chip) e => m.dropMisses ⟨c, e⟩) m2
  let m4 : Chip := { m3 with
    cm := smapErase (fun k => k / 65536 == c.val) m3.cm
    obuf := smapErase (fun k => k / 2 ^ 20 == c.val) m3.obuf
    chocks := m3.chocks.filter fun h => !mine h.master
    sends := m3.sends.filter fun e => e.target.coach != c
    posts := m3.posts.filter fun e => e.1.coach != c
    crcSeen := m3.crcSeen.filter fun e => !mine e.1
    xlat := { m3.xlat with tlb := m3.xlat.tlb.set c.val [] } }
  (m4.holdSources ⟨c, false⟩).holdSources ⟨c, true⟩

/-- RAKE_RESET (R33, R36, R39): the rake's clock stops and its counter returns to 0, and its coaches and memories are
reset; the command ends once the clock runs again. -/
def Chip.rakeReset (m : Chip) (l : Launch) : Chip :=
  if h : l.arg.toNat < 4 then
    let r : Fin 4 := ⟨l.arg.toNat, h⟩
    if m.rakeInUse r.val then m.endCmd rstPage cmdNotIdle
    else
      let m1 := (rakeCoaches r.val).foldl Chip.dropCoach m
      let m2 := ((m1.clearDoms (· == r.val)).rakePeriod r).count (K.timeEpoch r.val) 1
      let a := K.rstResetCause
      let cause (w : W64) : W64 := F.rstResetCauseRakeId.put (F.rstResetCauseRake.put w 1) r.val
      (m2.setReg a (cause (m2.reg a))).logEvent (.reset (cause 0))
  else m.endCmd rstPage cmdBadArg

def execRakeReset (l : Launch) (s : State) : Host.Outcome State Fault Refusal :=
  onLog (fun m => m.issue rstPage 2 l fun l m => m.rakeReset l) s

/-- The end of RAKE_RESET: the rake's clock starts from 0. -/
def Chip.rakeResetEnd (m : Chip) : Chip :=
  (m.clocks (fun d => decide (d = m.cmdArg rstPage % 4)) (decide (7 ≤ m.phase) && m.board.coreRails && m.pwr.stops.isEmpty)).endCmd rstPage cmdOk

/-! ### Snapshots (R29 to R32) -/

/-- SNAP (R29 to R31): every domain captures its counter on its own copy of one strobe, within a period of the common
instant; a domain whose clock stands gives its last count. -/
def Chip.snapStart (m : Chip) (l : Launch) : Chip :=
  m.noArg timePage l fun m =>
    let n := m.tick
    let s : Snap :=
      { cnt := m.dom.mapIdx fun d x =>
          if x.run then x.count + BitVec.ofNat 64 (latCyc d + (Config.snapSkew d n).val) - 1 else x.count
        run := BitVec.ofNat 34 ((List.finRange 34).foldl (fun (w : Nat) d => w + b2n m.dom[d].run * 2 ^ d.val) 0)
        epoch := Vector.ofFn fun (r : Fin 4) => m.reg (K.timeEpoch r.val)
        period := m.dom.map (·.period) }
    m.next.modBoard fun b => { b with snap := some s }

def execSnap (l : Launch) (s : State) : Host.Outcome State Fault Refusal :=
  onChip (fun m => m.issue timePage 1 l fun l m => m.snapStart l) s

/-- The end of SNAP: the hub fills the snapshot registers and counts it (R29, R32). -/
def Chip.snapEnd (m : Chip) : Chip :=
  match m.board.snap with
  | none => m.endCmd timePage cmdOk
  | some s =>
    let m1 := (List.finRange 34).foldl (fun (m : Chip) d =>
      (m.setFld (K.timeSnapCnt d.val) F.timeSnapCntCount s.cnt[d].toNat).setFld (K.timeSnapLat d.val)
        F.timeSnapLatPeriodPs s.period[d]) m
    let m2 := (List.finRange 4).foldl (fun (m : Chip) r => m.setReg (K.timeSnapEpoch r.val) s.epoch[r]) m1
    let m3 := ((m2.setReg K.timeSnapRun (s.run.zeroExtend 64)).count K.timeSnapSeq 1).modBoard fun b => { b with snap := none }
    m3.endCmd timePage cmdOk

/-! ### Reference clocks and the TAP reset (R21, R38, R39) -/

/-- Domain 21 locks to pcie_refclk1 only on a bifurcated module and only while pcie_refclk0 is absent (R21). -/
def refSel (bifur : Bool) (w : BitVec 4) : Bool := bifur && !w.getLsbD 0 && w.getLsbD 1

/-- Reference clock `i` (bits of REFCLK_STAT) is present or absent: a loss, or a switch of domain 21, counts once (R21,
R39). A first lock to pcie_refclk1 with no reference before it is counted as a switch (DESIGN CHOICE, log entry 10). Domains 21 and 22 to
31 run on while their references are absent (DESIGN CHOICE, log entry 10), but CLK_VALID does not show them locked. -/
def Chip.refclkSet (m : Chip) (i : Nat) (present : Bool) : Chip :=
  let w := m.board.refclk
  if w.getLsbD i = present then m
  else
    let w1 := if present then w ||| BitVec.ofNat 4 (2 ^ i) else w &&& ~~~ (BitVec.ofNat 4 (2 ^ i))
    let sel := if w1.getLsbD 0 || w1.getLsbD 1 then refSel m.bifur w1 else m.board.refSel1
    let m1 := m.modBoard fun b => { b with refclk := w1, refSel1 := sel }
    if !present || sel != m.board.refSel1 then m1.count K.clkRefclkLoss 1 else m1

/-- REFCLK_SWITCH (R21): pcie_refclk0 comes or goes. -/
def execRefclkSwitch (present : Bool) (s : State) : Host.Outcome State Fault Refusal :=
  onChip (fun m => m.when (!m.board.por) fun m => m.refclkSet 0 present) s

/-- REFCLK_LOSS (R39): pcie_refclk1, sf_refclk or the always-on oscillator comes or goes; the always-on counter stands
without its oscillator (R26). -/
def execRefclkLoss (which : Fin 3) (present : Bool) (s : State) : Host.Outcome State Fault Refusal :=
  onChip (fun m => m.when (!m.board.por) fun m =>
    let m1 := m.refclkSet (which.val + 1) present
    if which = 2 then ((m1.clocks (· == 33) present).syncRun ⟨.rst, 0⟩).syncRun ⟨.clk, 0⟩ else m1) s

/-- JTAG_TRST (R13, R38): the land moves; while it is low the TAP controller is in reset, and nothing else is touched. -/
def execJtagTrst (high : Bool) (s : State) : Host.Outcome State Fault Refusal :=
  onChip (fun m => m.modBoard fun b => { b with jtagTrstN := high, tap := if high then b.tap else TapInstr.idcode.code }) s

end Sys2Proof.Machine
end

