-- ==== Sys2Proof/Machine/Power.lean ====
section
/-! DEFINITION. The power governor, supply sags, temperatures and the coolant loop (chapter 15: R464 to R484). Powers are
held in mW, temperatures in tenths of a degree C, the flow in hundredths of a litre per minute. -/
namespace Sys2Proof.Machine

abbrev pwrPage : PageId := ⟨.pwr, 0⟩
abbrev coolPage : PageId := ⟨.cool, 0⟩

def Chip.modPwr (m : Chip) (f : Power → Power) : Chip := { m with pwr := f m.pwr }

/-- The governor runs (R466). -/
def Chip.governed (m : Chip) : Bool :=
  !m.board.por && !m.board.inReset && !m.board.heldFail && decide (7 ≤ m.phase) && m.pwr.stops.isEmpty

/-- The rake and HBM rails are up, or are ramping up. -/
def Chip.railsUp (m : Chip) : Bool := m.board.coreRails || m.board.ramping

/-! ### Limits (R468, R469, R477) -/

def Chip.capHost (m : Chip) : Nat := clamp 600 2600 (m.fld K.pwrCap F.pwrCapCapHost)
def Chip.capMgmt (m : Chip) : Nat := clamp 600 2600 (m.fld K.pwrCap F.pwrCapCapMgmt)

/-- CAP_W of rake `r` in mW. -/
def Chip.rakeCap (m : Chip) (r : Nat) : Nat := clamp 100 440 (m.fld (K.pwrRakeLim r) F.pwrRakeLimCapW) * 1000

/-- The inlet temperature in tenths. -/
def Chip.tIn (m : Chip) : Int := (BitVec.ofNat 16 (m.fld K.coolCoolStat F.coolCoolStatTIn)).toInt

def Chip.flow (m : Chip) : Nat := m.fld K.coolCoolStat F.coolCoolStatFlow

/-- P_cool in W (R477). -/
def Chip.pCool (m : Chip) : Nat :=
  let hot := (m.tIn - 400).toNat
  min (min 2600 (871 * m.flow / 100)) (2600 - 16 * hot)

/-- The power limit in force, in W (R469). -/
def Chip.pLim (m : Chip) : Nat := min (min 2600 m.pCool) (min m.capHost m.capMgmt)

/-- The 1 ms average of the input power, in W. -/
def Chip.pIn (m : Chip) : Nat := m.fld K.pwrPModule F.pwrPModulePIn

/-- The coolant limit is in force. -/
def Chip.coolLimits (m : Chip) : Bool := decide (m.pCool < 2600) && decide (m.pCool ≤ m.pLim)

/-- Rake `r`'s share after the cuts of R474, in mW. -/
def Power.cutShare (p : Power) (r : Fin 4) : Nat := p.share[r] * 19 ^ p.cuts[r] / 20 ^ p.cuts[r]

/-! ### LIMITER, HBM_THROT (R466, R469) -/

/-- Rake `r` runs below 850 MHz, and its share before the cuts of R474 does not let its loop raise it (log entry 64). -/
def Chip.heldDown (m : Chip) (r : Fin 4) : Bool := decide (m.pwr.point[r] < 18) && m.pwr.tight.getLsbD r.val

/-- The share of rake `r` is its own cap: CAP_W, or the rail current where CAP_W is not lower. -/
def Chip.ownCap (m : Chip) (r : Fin 4) : Bool := decide (m.rakeCap r.val ≤ m.pwr.share[r])

/-- The power limit of the module binds: the module is above it, or a rake's part of it holds the rake down. -/
def Chip.limitBinds (m : Chip) : Bool :=
  decide (m.pLim < m.pIn) || (List.finRange 4).any fun r => m.heldDown r && !m.ownCap r

/-- The binding constraint with the lowest code; 0 while none binds. -/
def Chip.limiter (m : Chip) : Nat :=
  let own (p : Fin 4 → Bool) : Bool := (List.finRange 4).any fun r => m.heldDown r && m.ownCap r && p r
  if m.limitBinds && decide (m.pLim = 2600) then 1
  else if m.limitBinds && m.coolLimits then 2
  else if m.pwr.hot != 0 then 3
  else if m.limitBinds || own (fun r => decide (m.rakeCap r.val < 440000)) then 4
  else if m.pwr.stretch then 5
  else if own (fun _ => true) then 6
  else if m.fld K.pwrPwrStat F.pwrPwrStatFloorUnmet != 0 then 7
  else 0

/-- PWR_STAT follows the governor; a change of LIMITER is a platform event (R490). -/
def Chip.govern (m : Chip) : Chip :=
  let v := m.limiter
  let old := m.fld K.pwrPwrStat F.pwrPwrStatLimiter
  let m1 := (m.setFld K.pwrPwrStat F.pwrPwrStatHbmThrot (b2n (m.pwr.throt || m.pwr.hbmHot != 0))).setFld K.pwrPwrStat
    F.pwrPwrStatLimiter v
  if v = old then m1 else m1.platform (.limiter v)

/-! ### Thermal warning (R474, R475, R479) -/

/-- A condition that begins at `on` and clears 3 K below it (R475). -/
def hyst (was : Bool) (t on : Int) : Bool := decide (on ≤ t) || (was && decide (on - 30 < t))

/-- The conditions of the warning: its begin posts THERMAL to every context. -/
def Chip.setConds (m : Chip) (c : BitVec 5) : Chip :=
  let m1 := (m.modPwr fun q => { q with conds := c }).setFld K.pwrPwrStat F.pwrPwrStatThermWarn (b2n (c != 0))
  if m.pwr.conds = 0 ∧ c ≠ 0 then ((m1.event pwrPage 19).postAll srcThermal).platform .thermal else m1

/-- The conditions of the coolant (R479): P_cool below the 1 ms power, T_in above 40 °C, and no coolant distribution unit
while the rake rails are up. -/
def Chip.coolConds (m : Chip) : Chip :=
  let low := decide (m.pCool < m.pIn)
  let inlet := decide (400 < m.tIn) || (m.pwr.conds.getLsbD 3 && decide (370 < m.tIn))
  let cdu := !m.flag K.coolCoolStat F.coolCoolStatCduOk && m.railsUp
  let m1 := if low && !m.pwr.conds.getLsbD 2 then m.event coolPage 16 else m
  let m2 := if inlet && !m.pwr.conds.getLsbD 3 then m1.event coolPage 17 else m1
  let m3 := m2.setFld K.coolDemand F.coolDemandPCool m2.pCool
  (m3.setConds (BitVec.ofNat 5
    (m.pwr.conds.toNat % 4 + 4 * b2n low + 8 * b2n inlet + 16 * b2n cdu))).govern

/-- COOLANT_CHECK (R47, R479, R482): step 4 begins when the conditions hold, and therm_trip_n rises; otherwise COOL_HOLD reads 1
and it waits. -/
def execCoolantCheck (s : State) : Host.Outcome State Fault Refusal :=
  onChip (fun m => m.when (m.atStep 4 && !m.board.ramping) fun m =>
    if m.coolantOk then
      ((m.setFld K.rstBootStat F.rstBootStatCoolHold 0).modBoard fun b => { b with ramping := true, thermTripN := true }).coolConds
    else m.setFld K.rstBootStat F.rstBootStatCoolHold 1) s

/-! ### Allocator and rake loops (R466, R467, R469) -/

/-- What the allocator gives rake `r` of `tot` mW. -/
def Chip.allot (m : Chip) (p : Powers) (tot : Nat) (r : Fin 4) : Nat :=
  let sum := p.top.toList.sum
  min (m.rakeCap r.val) (if sum = 0 then tot / 4 else tot * p.top[r] / sum)

/-- GOVERNOR_ALLOCATE: every 100 µs the measured averages and the energy are shown, the rakes' budget is shared, and the power is
held against P_cool (R479). -/
def Chip.govAllocate (m : Chip) (p : Powers) : Chip :=
  let w := BitVec.ofNat 64 (p.input / 1000 % 65536 + p.hbm / 1000 % 65536 * 2 ^ 16 + p.hub / 1000 % 65536 * 2 ^ 32
    + p.conv / 1000 % 65536 * 2 ^ 48)
  let m1 := (m.setReg K.pwrPModule w).count K.pwrEnergy p.mj
  let tot := m1.pLim * 1000 - p.hbm - p.hub - p.conv
  (m1.modPwr fun q =>
    { q with share := Vector.ofFn fun r => m1.allot p tot r, throt := decide (tot < p.low.toList.sum) }).coolConds

def execGovernorAllocate (p : Powers) (s : State) : Host.Outcome State Fault Refusal :=
  onChip (fun m => m.when m.governed fun m => m.govAllocate p) s

/-- By how many points a loop lowers a rake of `w` mW with share `c`. -/
def lowerBy (w c : Nat) : Nat :=
  if w * 100 ≤ c * 100 then 0 else if c * 125 < w * 100 then 4 else if c * 110 < w * 100 then 2 else 1

/-- The point that a loop moves a rake to. -/
def nextPoint (p w c : Nat) : Nat :=
  if c < w then p - lowerBy w c else if w * 100 < c * 95 ∧ p < 18 then p + 1 else p

/-- FLOOR_UNMET of rake `r` (R469): more than 1 ms below its floor sets it, reaching the floor clears it. -/
def Chip.floorCheck (m : Chip) (r : Fin 4) : Chip :=
  let a := K.pwrPwrStat
  let bits := m.fld a F.pwrPwrStatFloorUnmet
  if m.fld (K.pwrRakeLim r.val) F.pwrRakeLimFloorMhz ≤ pointMhz m.pwr.point[r] then
    (m.modPwr fun q => { q with below := q.below.set r 0 }).setFld a F.pwrPwrStatFloorUnmet
      (if bits / 2 ^ r.val % 2 = 1 then bits - 2 ^ r.val else bits)
  else
    let m1 := m.modPwr fun q => { q with below := q.below.set r (q.below[r] + 1) }
    if 100 < m1.pwr.below[r] ∧ bits / 2 ^ r.val % 2 = 0 then
      (m1.setFld a F.pwrPwrStatFloorUnmet (bits + 2 ^ r.val)).event pwrPage 18
    else m1

/-- Bit `r` of a word of four. -/
def setBit4 (w : BitVec 4) (r : Fin 4) (b : Bool) : BitVec 4 :=
  if b then w ||| BitVec.ofNat 4 (2 ^ r.val) else w &&& ~~~ (BitVec.ofNat 4 (2 ^ r.val))

/-- RAKE_LOOP: the loop of rake `r` with its 10 µs power of `mw`: it moves the point unless the clock is stretched. -/
def Chip.rakeLoop (m : Chip) (r : Fin 4) (mw : Nat) : Chip :=
  let m1 := m.setFld (K.pwrRakeStat r.val) F.pwrRakeStatPW (mw / 1000)
  if m1.pwr.stretch then (m1.floorCheck r).govern
  else
    let m2 := m1.modPwr fun q =>
      { q with
        cuts := q.cuts.set r (if q.hot.getLsbD r.val then q.cuts[r] + 1 else 0)
        tight := setBit4 q.tight r (decide (q.share[r] * 95 ≤ mw * 100)) }
    let p := m2.pwr.point[r]
    let p' := nextPoint p mw (m2.pwr.cutShare r)
    let m3 := if p' = p then m2 else (m2.modPwr fun q => { q with point := q.point.set r p' }).rakeClock r
    (m3.floorCheck r).govern

def execRakeLoop (r : Fin 4) (mw : Nat) (s : State) : Host.Outcome State Fault Refusal :=
  onChip (fun m => m.when m.governed fun m => m.rakeLoop r mw) s

/-! ### Supply sag (R470 to R473) -/

/-- Every rake's clock changes between stretched and not; EPOCH counts it while the clock runs. -/
def Chip.stretchAll (m : Chip) (on : Bool) : Chip :=
  (List.finRange 4).foldl (fun (m : Chip) r => if m.domRuns r.val then m.rakeClock r else m)
    (m.modPwr fun q => { q with stretch := on })

/-- The module enters sag warning. -/
def Chip.sagBegin (m : Chip) : Chip :=
  let m1 := ((m.setFld K.pwrPwrStat F.pwrPwrStatSag 1).countFld K.pwrSagCnt F.pwrSagCntCount 1).event pwrPage 16
  let m2 := if m1.domRuns 0 || m1.domRuns 1 || m1.domRuns 2 || m1.domRuns 3 then (m1.stretchAll true).postAll srcSag else m1
  let m3 := if m2.ready && m2.stg.armed then m2.requestPost else m2
  m3.platform .sag |>.govern

/-- The set point of rail `n` in mV (R465): that of the point in force for vdd_rake. -/
def Chip.setPoint (m : Chip) (n : Nat) : Nat :=
  if h : n < 4 then pointMv (m.pwr.point[n]'h)
  else if n < 8 then 800 else if n = 8 then 750 else if n < 13 then 1050 else if n < 17 then 750 else if n = 20 then 1800 else 800

/-- The comparator of supply `n` watches: rails 0 to 17 are up from step 4 on, 18 to 20 from step 2 on; 21 is vin48. -/
def Chip.watched (m : Chip) (n : Nat) : Bool :=
  !m.board.por && (if n < 18 then m.board.coreRails else if n < 21 then m.board.hubRails else m.board.vin48)

/-- Supply `n` at `mv` is below its warning threshold (R470). -/
def Chip.warns (m : Chip) (n mv : Nat) : Bool :=
  if n = 21 then decide (mv < 100 * clamp 420 460 (m.fld K.pwrSagCfg F.pwrSagCfgWarn48))
  else decide (100 * mv < 94 * m.setPoint n)

/-- Supply `n` at `mv` is above the threshold at which its warning clears (R470). -/
def Chip.warnClears (m : Chip) (n mv : Nat) : Bool :=
  if n = 21 then decide (100 * clamp 420 460 (m.fld K.pwrSagCfg F.pwrSagCfgWarn48) + 500 < mv)
  else decide (96 * m.setPoint n < 100 * mv)

/-- Supply `n` at `mv` is below its reset threshold (R470). -/
def Chip.resets (m : Chip) (n mv : Nat) : Bool :=
  if n = 21 then decide (mv < 40000) else decide (100 * mv < 88 * m.setPoint n)

/-- SAG_WARNING (R470, R471): supply `n` (a RAIL_ID, 21 vin48) has fallen to `mv`, below its warning threshold; the first
one begins the sag warning. -/
def Chip.sagWarning (m : Chip) (n : Fin 22) : Chip :=
  let m1 := m.setReg K.pwrRailWarn (m.reg K.pwrRailWarn ||| BitVec.ofNat 64 (2 ^ n.val))
  if m1.flag K.pwrPwrStat F.pwrPwrStatSag then m1 else m1.sagBegin

/-- SAG_WARNING. One that comes during a MODULE reset is not recorded: the PWR page is in reset, and start-up has not begun again
(DESIGN CHOICE, log entry 88). -/
def execSagWarning (n : Fin 22) (mv : Nat) (s : State) : Host.Outcome State Fault Refusal :=
  onChip (fun m => m.when (!m.board.inReset && m.watched n.val && m.warns n.val mv) fun m => m.sagWarning n) s

/-- SUPPLY_WARNING_CLEARS (R470): supply `n` has been at `mv`, above the threshold at which its warning clears, for 1 ms. -/
def execSupplyWarningClears (n : Fin 22) (mv : Nat) (s : State) : Host.Outcome State Fault Refusal :=
  onChip (fun m => m.when (m.warnClears n.val mv) fun m =>
    m.setReg K.pwrRailWarn (m.reg K.pwrRailWarn &&& ~~~ (BitVec.ofNat 64 (2 ^ n.val)))) s

/-- SAG_CLEAR: 1 ms after every supply has cleared. -/
def Chip.sagEnd (m : Chip) : Chip :=
  let m1 := m.setFld K.pwrPwrStat F.pwrPwrStatSag 0
  ((if m1.pwr.stretch then m1.stretchAll false else m1).event pwrPage 17).govern

def execSagClear (s : State) : Host.Outcome State Fault Refusal :=
  onChip (fun m => m.when (m.flag K.pwrPwrStat F.pwrPwrStatSag && decide (m.reg K.pwrRailWarn = 0)) Chip.sagEnd) s

/-- SUPPLY_RESET (R473): supply `n` (a RAIL_ID, 21 vin48) has fallen to `mv`, below its reset threshold: a MODULE reset. -/
def execSupplyReset (n : Fin 22) (mv : Nat) (s : State) : Host.Outcome State Fault Refusal :=
  onChip (fun m => m.when (m.watched n.val && m.resets n.val mv) fun m =>
    if n.val = 21 then (m.modBoard fun b => { b with vin48 := false, mainGood := false }).moduleEnter .sag48
    else m.moduleEnter (.sagRail n.val)) s

/-! ### Stops (R481, R482) -/

/-- LEAK_STOP: cool_leak_n has been low for 1 ms; in a MODULE reset it is one more cause. -/
def execLeakStop (s : State) : Host.Outcome State Fault Refusal :=
  onLog (fun m => m.when m.board.coolLeakN fun m =>
    let m1 := m.modBoard fun b => { b with coolLeakN := false }
    if m1.board.por || m1.board.inReset then m1.moduleEnter .leak
    else (m1.event coolPage 20).beginStop .leak 6) s

/-- STOP_RESET: 5 ms after the first stop began: a MODULE reset with the causes of every stop that runs. -/
def execStopReset (s : State) : Host.Outcome State Fault Refusal :=
  onLog (fun m => match m.pwr.stops with
    | [] => m
    | c :: _ => m.moduleEnter c) s

/-! ### Temperatures (R474) -/

/-- A temperature as a register of 8 bits shows it. -/
def celsius (t : Int) : Nat := min 255 (t / 10).toNat

/-- THERMAL_SAMPLE: every 10 µs. In a MODULE reset a trip's temperature is a further cause (R37) and drives therm_trip_n low; once
none is met the cause is over. -/
def Chip.thermal (m : Chip) (t : Temps) : Chip :=
  let die := (t.die.toList).foldl max t.hub
  let stack := (t.stack.toList).foldl max t.stack[0]
  let plate := max (max t.inlet t.outlet) t.body
  let trip := if 1100 ≤ die then 1 else if 1050 ≤ stack then 2 else if 700 ≤ t.outlet then 3 else 0
  if m.board.por then m
  else if m.board.inReset then
    if trip = 0 then m.causeClears (· == .therm)
    else (m.modBoard fun b => { b with thermTripN := false }).addCause .therm
  else
    let m1 := (List.finRange 4).foldl (fun (m : Chip) r =>
      m.setFld (K.pwrRakeStat r.val) F.pwrRakeStatTj (celsius t.die[r])) m
    let w := F.coolTempsTplate.put (F.coolTempsThbm.put (F.coolTempsTj.put (m1.reg K.coolTemps) (celsius die))
      (celsius stack)) (celsius plate)
    let m2 := (m1.setReg K.coolTemps w).setFld K.coolCoolStat F.coolCoolStatTOut (BitVec.ofInt 16 t.outlet).toNat
    let hot := (List.finRange 4).foldl (fun (w : Nat) (r : Fin 4) => w + b2n (decide (950 ≤ t.die[r])) * 2 ^ r.val) 0
    let group := (List.finRange 16).foldl (fun (w : Nat) (s : Fin 16) =>
      w ||| b2n (decide (900 ≤ t.stack[s])) * 2 ^ (s.val / 4)) 0
    let m3 := m2.modPwr fun q =>
      { q with hot := BitVec.ofNat 4 hot, hbmHot := BitVec.ofNat 4 group, plateIn := t.inlet }
    let c := m3.pwr.conds
    let m4 := m3.setConds (BitVec.ofNat 5
      (b2n (hyst (c.getLsbD 0) die 1000) + 2 * b2n (hyst (c.getLsbD 1) stack 950) + c.toNat / 4 * 4))
    (if trip = 0 then m4 else m4.beginStop .therm trip).govern

def execThermalSample (t : Temps) (s : State) : Host.Outcome State Fault Refusal := onLog (fun m => m.thermal t) s

/-! ### Flow and demand (R476 to R478) -/

/-- The coolant loop runs: from the end of step 3 (R484). -/
def Chip.cooled (m : Chip) : Bool := !m.board.por && !m.board.inReset && decide (4 ≤ m.phase)

/-- The 10 ms update takes COOL_CFG (R484). -/
def Chip.takeCoolCfg (m : Chip) : Chip := m.modPwr fun q => { q with coolCfg := m.reg K.coolCoolCfg }

/-- A field of COOL_CFG in force. -/
def Chip.coolCfg (m : Chip) (f : Fld) : Nat := f.get m.pwr.coolCfg

/-- FLOW_UPDATE: `pulses` of the flow meter in the last 250 ms. Below 0.3 L/min for 1 s with the rails up is a trip. -/
def Chip.flowUpdate (m0 : Chip) (pulses : Nat) : Chip :=
  let m := m0.takeCoolCfg
  let k := max 1 (m.coolCfg F.coolCoolCfgKPpl)
  let f := min 65535 (pulses * 24000 / k)
  let m1 := (m.setFld K.coolCoolStat F.coolCoolStatFlow f).modPwr fun q =>
    { q with lowFlow := if f < 30 ∧ m.railsUp then q.lowFlow + 1 else 0 }
  let m2 := m1.coolConds
  if 100 ≤ m2.pwr.lowFlow then m2.beginStop .therm 4 else m2

def execFlowUpdate (pulses : Nat) (s : State) : Host.Outcome State Fault Refusal :=
  onLog (fun m => m.when m.cooled fun m => m.flowUpdate pulses) s

/-- Tasks that the shunter holds ready or awaiting placement, with no context running them. -/
def Chip.nWait (m : Chip) : Nat :=
  (m.sh.tasks.filter fun t => t.st == .waiting || t.st == .stranded || t.st == .ready).length

def Chip.flowMax (m : Chip) : Nat := max 300 (m.coolCfg F.coolCoolCfgFlowMax)

/-- A quotient rounded to the nearest whole number. -/
def roundDiv (a b : Nat) : Nat := (2 * a + b) / (2 * b)

/-- DEMAND_UPDATE: the demand from the highest 100 ms average of the last 2 s and the 1 ms power, in W. Before step 6 full
demand stands. -/
def Chip.demandUpdate (m0 : Chip) (max100 p1ms : Nat) : Chip :=
  let m := m0.takeCoolCfg
  let hw := min 2600 (min m.capHost m.capMgmt)
  let pred := min hw (max max100 (p1ms + m.coolCfg F.coolCoolCfgFfW * m.nWait))
  let d := 697 * clamp 50 125 (m.coolCfg F.coolCoolCfgRiseTgt)
  let fmax := m.flowMax
  let r : Nat × Nat :=
    if m.phase < 7 ∨ fmax * d ≤ pred * 10000 then (fmax, 1000)
    else if pred * 10000 ≤ 50 * d then (50, roundDiv 50000 fmax)
    else (roundDiv (pred * 10000) d, roundDiv (pred * 10000000) (d * fmax))
  let w := F.coolDemandPPred.put (F.coolDemandFDem.put (F.coolDemandDuty.put (m.reg K.coolDemand) r.2) r.1) pred
  (m.setReg K.coolDemand w).setFld K.coolDemand F.coolDemandPCool m.pCool

def execDemandUpdate (max100 p1ms : Nat) (s : State) : Host.Outcome State Fault Refusal :=
  onChip (fun m => m.when m.cooled fun m => m.demandUpdate max100 p1ms) s

/-! ### The coolant distribution unit (R480) -/

/-- The ostler can send on cool_i3c: from step 3 on. -/
def Chip.cduUp (m : Chip) : Bool := m.board.ostlerUp && !m.board.por && !m.board.inReset && decide (3 ≤ m.phase)

/-- The I3C static address of the unit (R480). -/
def Chip.cduAddr (m : Chip) : Nat := m.coolCfg F.coolCoolCfgCduAddr

/-- A transfer succeeded, or was the tenth in a row to fail. -/
def Chip.cduResult (m : Chip) (ok : Bool) : Chip :=
  if ok then
    (m.modPwr fun q => { q with cduFails := 0 }).setFld K.coolCoolStat F.coolCoolStatCduOk 1
  else
    let m1 := m.modPwr fun q => { q with cduFails := q.cduFails + 1 }
    if m1.pwr.cduFails = 10 then (m1.setFld K.coolCoolStat F.coolCoolStatCduOk 0).event coolPage 18 else m1

/-- T_in is taken, from the unit or from the plate inlet sensor: cold below 15 °C. -/
def Chip.takeInlet (m : Chip) (w : BitVec 16) (unit : Bool) : Chip :=
  let m1 := (m.modPwr fun q => { q with cduIn := unit }).setFld K.coolCoolStat F.coolCoolStatTIn w.toNat
  if w.toInt < 150 then m1.event coolPage 19 else m1

/-- The count of successive readings of T_in at or above 48 °C. -/
def Chip.countHot (m : Chip) : Chip :=
  let n := if 480 ≤ m.tIn then m.pwr.hotInlet + 1 else 0
  m.modPwr fun q => { q with hotInlet := n }

/-- CDU_INLET_READ: the read of INLET, and the inlet temperature, or a failed transfer; while the unit is lost the plate inlet
sensor stands for it. At or above 48 °C for 1 s is a trip. -/
def Chip.inletRead (m : Chip) (t : Option (BitVec 16)) : Chip :=
  let m1 := (m.emit (.cdu m.cduAddr 0x10 none)).cduResult t.isSome
  let m2 := match t with
    | some w => m1.takeInlet w true
    | none =>
      if m1.flag K.coolCoolStat F.coolCoolStatCduOk then m1 else m1.takeInlet (BitVec.ofInt 16 m1.pwr.plateIn) false
  let m3 := m2.countHot.coolConds
  if 10 ≤ m3.pwr.hotInlet then m3.beginStop .therm 5 else m3

def execCduInletRead (t : Option (BitVec 16)) (s : State) : Host.Outcome State Fault Refusal :=
  onLog (fun m => m.when m.cduUp fun m => m.inletRead t) s

/-- CDU_DEMAND_WRITE: F_dem; until step 6 FLOW_MAX. -/
def Chip.demandSent (m : Chip) : Nat := if m.phase < 7 then m.flowMax else m.fld K.coolDemand F.coolDemandFDem

def execCduDemandWrite (ok : Bool) (s : State) : Host.Outcome State Fault Refusal :=
  onChip (fun m => m.when m.cduUp fun m => ((m.emit (.cdu m.cduAddr 0x20 (some m.demandSent))).cduResult ok).coolConds) s

/-- CDU_STATUS_WRITE: rails up, leak, trip, coolant limit. -/
def Chip.cduStatus (m : Chip) : Nat :=
  b2n m.railsUp + 2 * b2n (!m.board.coolLeakN) + 4 * b2n (!m.board.thermTripN) + 8 * b2n m.coolLimits

def execCduStatusWrite (ok : Bool) (s : State) : Host.Outcome State Fault Refusal :=
  onChip (fun m => m.when m.cduUp fun m => ((m.emit (.cdu m.cduAddr 0x21 (some m.cduStatus))).cduResult ok).coolConds) s

end Sys2Proof.Machine
end

