-- ==== Sys2Proof/Machine/Mbox.lean ====
section
/-! DEFINITION. The ostler's flash, fuses, configuration and debug unlock, and the mailbox commands (chapter 16: R494 to
R497, R501, R502, R504 to R507). -/
namespace Sys2Proof.Machine

abbrev mboxPage : PageId := ⟨.mbox, 0⟩
abbrev secPage : PageId := ⟨.sec, 0⟩

def Chip.modMg (m : Chip) (f : Ostler → Ostler) : Chip := { m with mg := f m.mg }

/-- The mailbox buffer holds these words from its start, and MB_LEN their number of bytes. -/
def Chip.fillBuf (m : Chip) (l : List W64) (bytes : Nat) : Chip :=
  ((l.foldl (fun (a : Chip × Nat) w => (a.1.setReg (K.mboxMbBuf a.2) w, a.2 + 1)) (m, 0)).1).setReg K.mboxMbLen
    (BitVec.ofNat 64 bytes)

/-- The first `n` bytes of the mailbox buffer. -/
def Chip.bufBytes (m : Chip) (n : Nat) : List Byte :=
  (List.range n).map fun i => BitVec.ofNat 8 ((m.reg (K.mboxMbBuf (i / 8))).toNat / 256 ^ (i % 8))

/-! ### Images and updates (R494 to R496) -/

/-- Every block of the image has been written. -/
def Update.whole (u : Update) : Bool := (List.range ((u.len + 2047) / 2048)).all u.got.elem

/-- The update in progress, and MB_STAT.UPDATE. -/
def Chip.setUpd (m : Chip) (u : Option Update) : Chip :=
  (m.modMg fun g => { g with upd := u }).setFld K.mboxMbStat F.mboxMbStatUpdate (b2n u.isSome)

/-- Slot A, when it verifies, is copied to slot B; then slot A is erased (R495). -/
def Nvm.eraseA (n : Nvm) : Nvm :=
  let n1 : Nvm := if n.codeA = 0 then { n with slotB := n.slotA, checkB := n.checkA } else n
  { n1 with slotA := [], checkA := Config.imageCheck [], aCut := true }

/-- An update begins. -/
def fwBegin (pldm : Bool) (len : Nat) (p : Nvm × Chip) : Nvm × Chip :=
  (p.1.eraseA, (p.2.setUpd (some { pldm := pldm, fd := .ready, len := len, got := [], verdict := none })).logEvent (.update 2))

/-- The blocks of 2,048 bytes that `n` bytes from `off` on cover: the last block of an image may be short. -/
def Update.covers (u : Update) (off n : Nat) : Bool := decide (min 2048 (u.len - off) ≤ n)

/-- Bytes at `off` of the image are written into slot A; with the last of them slot A is whole. -/
def fwPut (u : Update) (off : Nat) (l : List Byte) (p : Nvm × Chip) : Nvm × Chip :=
  let b := off / 2048
  let u1 : Update := { u with
    got := if u.covers off l.length && !u.got.elem b then u.got ++ [b] else u.got, verdict := none }
  let a := smapSetAll (fun _ => (0 : Byte)) p.1.slotA (l.mapIdx fun i x => (off + i, x))
  ({ p.1 with slotA := a, checkA := Config.imageCheck a, aCut := !u1.whole }, p.2.setUpd (some u1))

/-! ### Debug tokens (R501, R502) -/

/-- The bytes of a field of a token's body. -/
def tokenField (l : List Byte) (i n : Nat) : Nat := leNat ((l.drop i).take n)

/-- The token passes every check. -/
def Chip.tokenGood (m : Chip) (t : List Byte) : Bool :=
  let l := Config.tokenBody t
  Config.tokenSigned t && decide (l.length = 64) && decide (tokenField l 0 4 = 1)
    && decide (tokenField l 4 8 = Config.deviceId.toNat) && decide (m.mg.nonce.map (·.toNat) = some (tokenField l 12 16))
    && decide (tokenField l 30 34 = 0)

/-- A token is checked: accepted it unlocks debug, refused it is recorded. The second part says which. -/
def Chip.token (m : Chip) (t : List Byte) : Chip × Bool :=
  if m.tokenGood t then
    let w := F.secSecStatDbgPerm.put (F.secSecStatDbgUnlocked.put (m.reg K.secSecStat) 1) (tokenField (Config.tokenBody t) 28 2 % 16)
    (((((m.setReg K.secSecStat w).modMg fun g => { g with nonce := none }).logEvent .dbgUnlock).event secPage 16), true)
  else ((m.logEvent .dbgRefused).event secPage 18, false)

/-- A new nonce; the one before it is invalid. -/
def Chip.newNonce (m : Chip) : Chip :=
  let n : BitVec 128 := Config.freeWord m.tick ++ Config.freeWord (m.tick + 1)
  m.next.next.modMg fun g => { g with nonce := some n }

/-- The unlock ends. -/
def Chip.dbgLock (m : Chip) : Chip :=
  let on := m.flag K.secSecStat F.secSecStatDbgUnlocked
  let m1 := m.setReg K.secSecStat (F.secSecStatDbgPerm.put (F.secSecStatDbgUnlocked.put (m.reg K.secSecStat) 0) 0)
  (if on then m1.event secPage 16 else m1).logEvent .dbgLock

/-! ### Mailbox commands (R505) -/

/-- The mailbox update that runs. -/
def Chip.mboxUpd (m : Chip) : Option Update := m.mg.upd.filter fun u => !u.pldm

/-- The value of a configuration item is one that it may take (R506). -/
def cfgGood (item v : Nat) : Bool :=
  if item = 0 then decide (v ≤ 1) else if item = 1 then decide (1 ≤ v ∧ v ≤ 254) else decide (600 ≤ v ∧ v ≤ 2600)

/-- The error that a command meets first (R61), or 0. -/
def Chip.mboxErr (m : Chip) (n : Nvm) (code : Nat) : Nat :=
  let arg := m.cmdArg mboxPage
  let len := m.fld K.mboxMbLen F.mboxMbLenBytes
  if code = 0 ∨ 12 < code ∨ (m.board.romLoader ∧ 5 < code) then cmdBadCode
  else match code with
    | 2 => if 2 ^ 24 < arg then cmdBadArg else if m.mg.upd.isSome then cmdNotIdle else 0
    | 3 =>
      if arg % 2048 ≠ 0 ∨ 2048 < len then cmdBadArg
      else match m.mboxUpd with
        | none => cmdNotIdle
        | some u => if u.len < arg + len then cmdBadArg else 0
    | 5 =>
      if 1 < arg then cmdBadArg
      else if m.mboxUpd.any (fun u => u.verdict == some 0) then 0 else cmdNotIdle
    | 6 =>
      let run := m.mg.runSvn.getD 0
      if 1 < arg then cmdBadArg
      else if n.codeB = 0 ∧ n.checkB.svn.val < run ∧ arg = 0 then cmdBadArg
      else if m.flag K.rstBootStat F.rstBootStatImage then cmdNotIdle
      else 0
    | 7 => if 2 < arg then cmdBadArg else 0
    | 8 => if 2 < arg ∨ cfgGood arg (m.reg K.mboxMbArg).toNat = false then cmdBadArg else 0
    | 9 => if n.log.length ≤ arg then cmdBadArg else 0
    | _ => if arg = 0 then 0 else cmdBadArg

/-- A command ends well. -/
def mboxOk (p : Nvm × Chip) : Nvm × Chip := (p.1, p.2.endCmd mboxPage cmdOk)

/-- A command that ran and failed: an error record gives the cause (R60), with a code that no rule states. -/
def Chip.mboxFailed (m : Chip) : Chip :=
  let m1 := m.next.record mboxPage (128 + (Config.freeWord m.tick).toNat % 128) (BitVec.ofNat 16 (m.fld (K.pageCmdStat mboxPage.base) F.pageCmdStatIssuer))
    none none 32
  m1.endCmd mboxPage cmdFailed

/-- GET_INFO: the versions of the slots lie in the buffer, in a layout that no rule states; the loader's version is open. -/
def mboxGetInfo (p : Nvm × Chip) : Nvm × Chip :=
  let m := p.2
  let m1 := m.next.fillBuf ((List.range 256).map (Config.infoWord p.1.checkA.svn.val p.1.checkB.svn.val)) Config.infoLen.val
  let svn := m.mg.runSvn.getD (Config.freeWord m.tick).toNat % 256
  let w := svn + m.fld K.rstBootStat F.rstBootStatImage * 2 ^ 8 + p.1.arb % 256 * 2 ^ 16
  mboxOk (p.1, m1.setReg K.mboxMbResp (BitVec.ofNat 64 w))

def mboxFwBegin (p : Nvm × Chip) : Nvm × Chip :=
  mboxOk (if p.2.mg.upd.isSome then p else fwBegin false (p.2.cmdArg mboxPage) p)

def mboxFwWrite (p : Nvm × Chip) : Nvm × Chip :=
  match p.2.mboxUpd with
  | none => mboxOk p
  | some u =>
    let r := fwPut u (p.2.cmdArg mboxPage) (p.2.bufBytes (p.2.fld K.mboxMbLen F.mboxMbLenBytes)) p
    mboxOk (r.1, r.2.logEvent (.update 3))

def mboxFwVerify (p : Nvm × Chip) : Nvm × Chip :=
  let r := p.1.codeA
  let m1 := (p.2.setReg K.mboxMbResp (BitVec.ofNat 64 r)).logEvent (.update 4)
  let m2 := match m1.mboxUpd with
    | some u => m1.setUpd (some { u with verdict := some r })
    | none => m1
  (p.1, if r = 0 then m2.endCmd mboxPage cmdOk else m2.mboxFailed)

def mboxFwActivate (p : Nvm × Chip) : Nvm × Chip :=
  let arg := p.2.cmdArg mboxPage
  let r := mboxOk (p.1, (p.2.setUpd none).logEvent (.update 5))
  if arg = 1 then (let d := drainLog r.1 r.2; (d.1, d.2.ostlerReset)) else r

/-- ARB_COMMIT (R497): the fuses rise to the SVN of the running image, and never fall. -/
def mboxArbCommit (p : Nvm × Chip) : Nvm × Chip :=
  let v := max p.1.arb (min 64 (p.2.mg.runSvn.getD 0))
  mboxOk ({ p.1 with arb := v }, p.2.logEvent (.arbCommit v))

def Nvm.cfg (n : Nvm) (item : Nat) : Nat := if item = 0 then n.ilv else if item = 1 then n.tid else n.capBoot

def Nvm.setCfg (n : Nvm) (item v : Nat) : Nvm :=
  if item = 0 then { n with ilv := v } else if item = 1 then { n with tid := v } else { n with capBoot := v }

def mboxCfgRead (p : Nvm × Chip) : Nvm × Chip :=
  mboxOk (p.1, p.2.setReg K.mboxMbResp (BitVec.ofNat 64 (p.1.cfg (p.2.cmdArg mboxPage))))

def mboxCfgWrite (p : Nvm × Chip) : Nvm × Chip :=
  mboxOk (p.1.setCfg (p.2.cmdArg mboxPage) (p.2.reg K.mboxMbArg).toNat, p.2)

/-- LOG_READ (R507): up to 64 entries of 32 B from the index on. -/
def mboxLogRead (p : Nvm × Chip) : Nvm × Chip :=
  let l := (p.1.log.drop (p.2.cmdArg mboxPage)).take 64
  mboxOk (p.1, p.2.fillBuf (l.flatMap fun e => (Config.logBytes e).toList) (32 * l.length))

/-- DBG_NONCE (R501): the identity number and a new nonce. -/
def mboxDbgNonce (p : Nvm × Chip) : Nvm × Chip :=
  let m1 := p.2.newNonce
  let v := (m1.mg.nonce.getD 0).toNat
  let m2 := ((m1.setReg (K.mboxMbBuf 0) Config.deviceId).setReg (K.mboxMbBuf 1) (BitVec.ofNat 64 v)).setReg
    (K.mboxMbBuf 2) (BitVec.ofNat 64 (v / 2 ^ 64))
  mboxOk (p.1, m2.setReg K.mboxMbLen 24)

def mboxDbgUnlock (p : Nvm × Chip) : Nvm × Chip :=
  let r := p.2.token (p.2.bufBytes (p.2.fld K.mboxMbLen F.mboxMbLenBytes))
  (p.1, if r.2 then r.1.endCmd mboxPage cmdOk else r.1.mboxFailed)

def mboxDbgLock (p : Nvm × Chip) : Nvm × Chip := mboxOk (p.1, p.2.dbgLock)

/-- What a command does by its end. -/
def mboxDo (code : Nat) (p : Nvm × Chip) : Nvm × Chip :=
  match code with
  | 1 => mboxGetInfo p
  | 2 => mboxFwBegin p
  | 3 => mboxFwWrite p
  | 4 => mboxFwVerify p
  | 5 => mboxFwActivate p
  | 6 => mboxArbCommit p
  | 7 => mboxCfgRead p
  | 8 => mboxCfgWrite p
  | 9 => mboxLogRead p
  | 10 => mboxDbgNonce p
  | 11 => mboxDbgUnlock p
  | _ => mboxDbgLock p

/-- A command at its acceptance: the ostler, when it is up, ends it at once with the error it meets; FW_BEGIN erases. -/
def mboxRun (code : Nat) (p : Nvm × Chip) : Nvm × Chip :=
  if !p.2.board.ostlerUp then p
  else
    let e := p.2.mboxErr p.1 code
    if e ≠ 0 then (p.1, p.2.endCmd mboxPage e)
    else if code = 2 then fwBegin false (p.2.cmdArg mboxPage) p
    else p

/-- The end of the running command. -/
def mboxEnd (p : Nvm × Chip) : Nvm × Chip :=
  let code := p.2.cmdCode mboxPage
  let e := if code = 2 ∧ p.2.mg.upd.isSome then 0 else p.2.mboxErr p.1 code
  if !p.2.board.ostlerUp then p
  else if e ≠ 0 then (p.1, p.2.endCmd mboxPage e)
  else mboxDo code p

/-- A command written to the mailbox. -/
def mboxIssue (code : Nat) (l : Launch) (p : Nvm × Chip) : Nvm × Chip :=
  let w := l.wr mboxPage code
  match p.2.judge w false with
  | .accepted =>
    let r := mboxRun code (p.1, p.2.beginCmd mboxPage code l)
    (r.1, r.2.answer l.m 0)
  | j => (p.1, p.2.rejectWrite mboxPage w j)

def execGetInfo (l : Launch) (s : State) : Host.Outcome State Fault Refusal := onBoth (mboxIssue 1 l) s
def execFwBegin (l : Launch) (s : State) : Host.Outcome State Fault Refusal := onBoth (mboxIssue 2 l) s
def execFwWrite (l : Launch) (s : State) : Host.Outcome State Fault Refusal := onBoth (mboxIssue 3 l) s
def execFwVerify (l : Launch) (s : State) : Host.Outcome State Fault Refusal := onBoth (mboxIssue 4 l) s
def execFwActivate (l : Launch) (s : State) : Host.Outcome State Fault Refusal := onBoth (mboxIssue 5 l) s
def execArbCommit (l : Launch) (s : State) : Host.Outcome State Fault Refusal := onBoth (mboxIssue 6 l) s
def execCfgRead (l : Launch) (s : State) : Host.Outcome State Fault Refusal := onBoth (mboxIssue 7 l) s
def execCfgWrite (l : Launch) (s : State) : Host.Outcome State Fault Refusal := onBoth (mboxIssue 8 l) s
def execLogRead (l : Launch) (s : State) : Host.Outcome State Fault Refusal := onBoth (mboxIssue 9 l) s
def execDbgNonce (l : Launch) (s : State) : Host.Outcome State Fault Refusal := onBoth (mboxIssue 10 l) s
def execDbgUnlock (l : Launch) (s : State) : Host.Outcome State Fault Refusal := onBoth (mboxIssue 11 l) s
def execDbgLock (l : Launch) (s : State) : Host.Outcome State Fault Refusal := onBoth (mboxIssue 12 l) s

end Sys2Proof.Machine
end

