-- ==== Sys2Proof/Machine/RegRead.lean ====
section
/-! DEFINITION. Reading the register space: the registers that show the state of their block (the register tables of every
chapter), reads that clear, and the data windows (R39, R56 to R59, R69, R74, R107, R108, R218, R219, R259, R309, R311, R334,
R371, R402, R414, R483, R508). -/
namespace Sys2Proof.Machine

/-- A word made of fields. -/
def packFlds (l : List (Fld × Nat)) : W64 := l.foldl (fun (w : W64) e => e.1.put w e.2) 0

/-! ### The common header (R57, R59, R69) -/

/-- The registers of the header. -/
def Chip.headerView (m : Chip) (p : PageId) (o : Nat) : W64 :=
  let a := p.base + o
  let q := m.errQ p
  let h := q.recs.head?
  if o = 0x00 then pageIdWord p
  else if o = 0x08 then pageCapWord p
  else if o = 0x18 then
    F.pageStatRun.put (F.pageStatPend.put (F.pageStatChocked.put (m.reg a) (b2n !(m.pageChocks p).isEmpty)) (b2n (m.pend p)))
      (b2n (m.running p))
  else if o = 0x40 then
    match h with
    | none => 0
    | some r => packFlds [(F.pageErrHeadValid, 1), (F.pageErrHeadOvf, b2n r.ovf), (F.pageErrHeadCode, r.code.toNat),
        (F.pageErrHeadMaster, r.master.toNat), (F.pageErrHeadDetail, r.detail.toNat)]
  else if o = 0x48 then
    packFlds [(F.pageErrCntDepth, q.recs.length), (F.pageErrCntTotal, q.total.toNat), (F.pageErrCntLost, q.lost.toNat)]
  else if o = 0x58 then
    match m.pageChocks p with
    | [] => 0
    | c :: t => packFlds [(F.pageChockChocked, 1), (F.pageChockCause, c.cause), (F.pageChockMaster, c.master.toNat),
        (F.pageChockPending, ((c :: t).map (·.master)).eraseDups.length)]
  else if o = 0x68 then (h.map (·.addr)).getD 0
  else if o = 0x70 then (h.map (·.stamp)).getD 0
  else m.shadow a

/-! ### Registers that show their block -/

/-- The bit of GLOB.EVT_SUM of a page kind (R74): FUNC and the following kinds have one bit each, the pages of a coach one,
CLK and RST one. -/
def evtSumBit : PageKind → Nat
  | .glob => 0 | .mbox => 1 | .pwr => 2 | .cool => 3 | .stage => 4 | .shunt => 5 | .xlat => 6 | .fault => 7 | .inval => 8
  | .time => 9 | .sec => 10 | .func => 16
  | .coach | .vec | .mtx | .cmem | .dray | .tlb | .tally => 17
  | .depot => 18 | .hbm => 19 | .link => 20 | .couple => 21 | .hostif => 22
  | .clk | .rst => 23
  | .doorbell => 24

/-- EVT_SUM: the kinds of which a page has an enabled event pending. -/
def Chip.evtSum (m : Chip) : W64 :=
  m.regs.foldl (fun (w : W64) e =>
    match pageAt e.1 with
    | some p => if e.1 = K.pageEvt p.base && m.reg e.1 &&& m.reg (K.pageEvtEn p.base) != 0 then
        w ||| BitVec.ofNat 64 (2 ^ evtSumBit p.kind) else w
    | none => w) 0

/-- GLOB.MOD_STATE (R74). -/
def Chip.modState (m : Chip) : W64 :=
  let rec' := m.flag K.rstBootStat F.rstBootStatRecovery
  packFlds [(F.globModStateReady, b2n m.ready), (F.globModStateHeldFail, b2n m.board.heldFail),
    (F.globModStateRecovery, b2n rec'), (F.globModStateBifur, b2n m.bifur),
    (F.globModStateStage, if m.board.heldFail || rec' then 0 else m.stageState),
    (F.globModStateLimiter, if m.phase < 6 then 0 else m.fld K.pwrPwrStat F.pwrPwrStatLimiter),
    (F.globModStateDbg, m.fld K.secSecStat F.secSecStatDbgUnlocked)]

def CtxState.code : CtxState → Nat
  | .held => 0 | .running => 1 | .waiting => 2 | .stopped => 3 | .chocked => 4 | .idle => 5 | .fenced => 6

def Wait.code : Wait → Nat
  | .none => 0 | .waitev => 1 | .waituntil => 2 | .claim => 3 | .queue => 4 | .engine => 5 | .port => 6

/-- CTX_STAT (R107). -/
def Context.statWord (k : Context) : W64 :=
  packFlds [(F.coachCtxStatPc, k.pc.toNat), (F.coachCtxStatState, k.st.code), (F.coachCtxStatWait, k.wait.code),
    (F.coachCtxStatLvl, b2n k.status.lvl), (F.coachCtxStatBrake, b2n k.status.brake),
    (F.coachCtxStatShadow, b2n k.status.shadow), (F.coachCtxStatEvents, k.events.toNat), (F.coachCtxStatTask, k.task.toNat)]

/-- VOWN (R107). -/
def Vown.word (v : Vown) : W64 :=
  packFlds [(F.coachVownOwner, v.owner.val), (F.coachVownDirty, b2n v.dirty), (F.coachVownClaimF, b2n v.claimF),
    (F.coachVownClaimA, b2n v.claimA), (F.coachVownTag, v.tag.toNat), (F.coachVownLimitHits, v.limitHits.toNat)]

/-- The words of CM_DATA (R108): `n` words from CM_ADDR on. -/
def Chip.cmRead (m : Chip) (c : Fin 64) (n : Nat) : Nat :=
  let a := m.fld (K.coachCmAddr c.val) F.coachCmAddrAddr
  (List.range n).foldl (fun (v : Nat) i => v + (m.cmWord c (a + i)).toNat * 65536 ^ i) 0

/-- The COACH page (R107). -/
def Chip.coachView (m : Chip) (c : Fin 64) (o : Nat) : W64 :=
  let k := m.coach c
  if o = 0x100 then k.fore.statWord
  else if o = 0x108 then k.aft.statWord
  else if o = 0x110 then k.vown.word
  else if o = 0x140 then BitVec.ofNat 64 (m.cmRead c 4)
  else if o = 0x148 then m.cycle c
  else m.shadow (pageBase .coach c.val + o)

/-- The word of VREG_DATA (R219). -/
def Chip.vregRead (m : Chip) (c : Fin 64) : W64 :=
  let w := m.reg (K.vecVregSel c.val)
  let r := F.vecVregSelReg.get w
  let i := F.vecVregSelWord.get w
  let e := (m.coach c).vec
  if F.vecVregSelMask.bit w then ((e.msk[r % 8]'(Nat.mod_lt _ (by decide))) >>> (64 * i)).setWidth 64
  else ((e.v[r % 32]'(Nat.mod_lt _ (by decide))) >>> (64 * i)).setWidth 64

/-- The VEC page (R218). -/
def Chip.vecView (m : Chip) (c : Fin 64) (o : Nat) : W64 :=
  let e := (m.coach c).vec
  let busy (mem : Bool) : Bool := e.q.any fun h => h.started && !h.done && h.op.1.memPipe == mem
  let shadow (h : VEntry) : Bool := !h.started && (m.ctx ⟨c, h.aft⟩).status.shadow
  if o = 0x100 then
    packFlds [(F.vecVqStatDepth, e.q.length), (F.vecVqStatArith, b2n (busy false)), (F.vecVqStatMem, b2n (busy true)),
      (F.vecVqStatHeldSh, b2n (e.q.any shadow)), (F.vecVqStatHeadWord, (e.q.head?.map (·.word.toNat)).getD 0)]
  else if o = 0x108 then
    packFlds [(F.vecVstateVl, e.vl.toNat), (F.vecVstateFmt, e.vtype.toNat % 64), (F.vecVstateLg, e.vtype.toNat / 64 % 4),
      (F.vecVstateVctl, e.vctl.toNat)]
  else if o = 0x110 then e.vresume.setWidth 64
  else if o = 0x150 then m.vregRead c
  else m.shadow (pageBase .vec c.val + o)

/-- The MTX page (R259). -/
def Chip.mtxView (m : Chip) (c : Fin 64) (o : Nat) : W64 :=
  let a := m.mtx c
  let n (aft : Bool) : Nat := ((a.queue ++ a.arr).filter fun e => e.aft == aft).length
  if o = 0x108 then
    packFlds [(F.mtxMtxStatSplit, b2n (m.mtxSplit c.val)), (F.mtxMtxStatInflF, n false), (F.mtxMtxStatInflA, n true),
      (F.mtxMtxStatHold, b2n (m.pend (mtxPage c.val))), (F.mtxMtxStatReplay, b2n (a.arr.any (·.replaying))),
      (F.mtxMtxStatStopped, b2n (a.stop0 || a.stop1)), (F.mtxMtxStatStopHalf, b2n (a.stop1 && !a.stop0))]
  else m.shadow (pageBase .mtx c.val + o)

/-- The byte of an operand buffer that OBUF_SEL selects. -/
def obufSel (w : W64) : Nat × Nat := (F.cmemObufSelBuf.get w, 8 * F.cmemObufSelWord.get w)

/-- The CMEM page (R309). -/
def Chip.cmemView (m : Chip) (c : Fin 64) (o : Nat) : W64 :=
  if o = 0x168 then
    let p := obufSel (m.reg (K.cmemObufSel c.val))
    BitVec.ofNat 64 (leNat (m.obufRead c.val p.1 p.2 8))
  else m.shadow (pageBase .cmem c.val + o)

/-- STREAM_STAT (R334). -/
def DStream.statWord (t : DStream) : W64 :=
  let g := match t.q with
    | d :: _ => !t.active && !t.begun && !t.err && d.gate && !(t.gate.getLsbD d.gev)
    | [] => false
  packFlds [(F.drayStreamStatQueued, t.queued), (F.drayStreamStatActive, b2n t.active), (F.drayStreamStatError, b2n t.err),
    (F.drayStreamStatGated, b2n g), (F.drayStreamStatGate, t.gate.toNat), (F.drayStreamStatRow, t.firstRow),
    (F.drayStreamStatDesc, if t.active then (t.q.head?.map (·.d.toNat)).getD 0 else 0)]

/-- The DRAY page. -/
def Chip.drayView (m : Chip) (c : Fin 64) (o : Nat) : W64 :=
  if 0x100 ≤ o ∧ o < 0x140 then ((m.coach c).dray[(o - 0x100) / 8 % 8]'(Nat.mod_lt _ (by decide))).statWord
  else m.shadow (pageBase .dray c.val + o)

/-- SHUNT_STAT (R402). -/
def Chip.shuntStat (m : Chip) : W64 :=
  let n (p : Task → Bool) : Nat := (m.sh.tasks.filter p).length
  packFlds [(F.shuntShuntStatHeld, n fun _ => true), (F.shuntShuntStatWaiting, n fun t => t.st == .waiting || t.st == .stranded),
    (F.shuntShuntStatResident, n fun t => t.placed && t.st != .placing), (F.shuntShuntStatSided, n fun t => t.st == .sided),
    (F.shuntShuntStatPostHold, b2n (m.stg.post == .quiesce || m.stg.post == .mirror))]

/-- FSTAT (R414). -/
def Chip.fstat (m : Chip) (f : Nat) : W64 :=
  packFlds [(F.funcFstatLink, m.linkOf f), (F.funcFstatVf, b2n (m.isVf f)), (F.funcFstatBme, m.fld (K.funcFstat f) F.funcFstatBme),
    (F.funcFstatPresent, b2n (m.present f)), (F.funcFstatMsixSize, m.msixSize f)]

/-- The clock that domain d follows is there: a PCIe reference for the PCIe core (R21); for a port domain the clock
recovered from its peer, or else sf_refclk (R19). -/
def Chip.clkLocked (m : Chip) (d : Nat) : Bool :=
  if d = 21 then m.board.refclk.getLsbD 0 || (m.bifur && m.board.refclk.getLsbD 1)
  else if 22 ≤ d ∧ d ≤ 31 then m.board.refclk.getLsbD 2 || m.flag (K.linkPortStat (d - 22)) F.linkPortStatUp
  else true

/-- Bit d: the clock of domain d is locked and runs (R39). -/
def Chip.clkValid (m : Chip) : W64 :=
  BitVec.ofNat 64 ((List.range 34).foldl (fun (w : Nat) d => w + b2n (m.domRuns d && m.clkLocked d) * 2 ^ d) 0)

/-- The SEC page (R508). -/
def Chip.secView (n : Nvm) (m : Chip) (o : Nat) : W64 :=
  if o = 0x100 then
    F.secSecStatIdReady.put (F.secSecStatArb.put (m.reg K.secSecStat) n.arb) (b2n (m.board.ostlerUp && !m.board.romLoader))
  else if o = 0x108 then Config.deviceId
  else if o = 0x110 then packFlds [(F.secSigUsedNext, n.sig), (F.secSigUsedExhausted, b2n (decide (2 ^ 30 ≤ n.sig)))]
  else m.shadow (pageBase .sec 0 + o)

/-- The register at page offset `o` as a read shows it, 8 bytes. -/
def Chip.view (n : Nvm) (m : Chip) (p : PageId) (o : Nat) : W64 :=
  let a := p.base + o
  let c : Fin 64 := ⟨p.inst % 64, Nat.mod_lt _ (by decide)⟩
  if o < 0x100 then m.headerView p o
  else if (rowAt p.kind o).isNone || (p.kind == .couple && decide (0xF00 ≤ o ∧ 0 < p.inst)) then 0
  else match p.kind with
    | .glob => if o = 0x110 then m.modState else if o = 0x118 then m.evtSum else m.shadow a
    | .coach => m.coachView c o
    | .vec => m.vecView c o
    | .mtx => m.mtxView c o
    | .cmem => m.cmemView c o
    | .dray => m.drayView c o
    | .depot =>
      if o = 0x158 then F.depotHeldReqCount.put 0 (m.heldCount p.inst)
      else if o = 0x148 then BitVec.ofNat 64 ((m.slice p.inst).trk.filter (·.reads == 3)).length else m.shadow a
    | .fault =>
      if o = 0x130 then
        match m.faultOf (m.fld K.faultOpen F.faultOpenViewSeq) with
        | some f => BitVec.ofNat 64 f.coaches
        | none => 0
      else m.shadow a
    | .inval => if 0x200 ≤ o then 0 else m.shadow a
    | .shunt => if o = 0x108 then m.shuntStat else if o = 0x110 then 0 else m.shadow a
    | .func => if o = 0x110 then m.fstat p.inst else m.shadow a
    | .cool => if o = 0x108 then F.coolCoolStatLeak.put (m.reg a) (b2n (!m.board.coolLeakN)) else m.shadow a
    | .sec => m.secView n o
    | .clk =>
      if o = 0x100 then m.board.straps.setWidth 64 else if o = 0x108 then m.clkValid
      else if o = 0x110 then m.board.refclk.setWidth 64 else m.shadow a
    | _ => m.shadow a

/-! ### Reads (R56) -/

/-- The bits of a register that an access covers. -/
def coverOf (off size : Nat) : W64 :=
  if size = 8 then 0xFFFFFFFFFFFFFFFF else if off % 8 = 0 then 0xFFFFFFFF else 0xFFFFFFFF00000000

/-- CM_ADDR after an access of `size` bytes (R108). -/
def Chip.cmAdvance (m : Chip) (c : Nat) (size : Nat) : Chip :=
  let a := K.coachCmAddr c
  m.setFld a F.coachCmAddrAddr ((m.fld a F.coachCmAddrAddr + size / 2) % 65536)

/-- VREG_SEL after an access (R219): its upper half has been moved. -/
def Chip.vregAdvance (m : Chip) (c : Nat) : Chip :=
  let a := K.vecVregSel c
  let n := if m.flag a F.vecVregSelMask then 128 else 512
  m.setFld a F.vecVregSelWord ((m.fld a F.vecVregSelWord + 1) % n)

/-- OBUF_SEL after an access (R309). -/
def Chip.obufAdvance (m : Chip) (c : Nat) : Chip :=
  let a := K.cmemObufSel c
  m.setFld a F.cmemObufSelWord ((m.fld a F.cmemObufSelWord + 1) % 32768)

/-- What a read changes: a register that clears on being read, the place of a data window. -/
def Chip.afterRead (m : Chip) (p : PageId) (off size : Nat) : Chip :=
  let a := off - off % 8
  let o := a - p.base
  let upper : Bool := size = 8 || off % 8 = 4
  if p.kind = .coach ∧ o = 0x140 then m.cmAdvance p.inst size
  else if p.kind = .vec ∧ o = 0x150 then if upper then m.vregAdvance p.inst else m
  else if p.kind = .cmem ∧ o = 0x168 then if upper then m.obufAdvance p.inst else m
  else match rowAt p.kind o with
    | some (r, _) =>
      let c := r.rc &&& coverOf off size
      if c = 0 then m else m.setReg a (m.reg a &&& ~~~ c)
    | none => m

/-- The value of an access of `size` bytes. -/
def Chip.viewPart (n : Nvm) (m : Chip) (p : PageId) (off size : Nat) : W64 :=
  let o := off - off % 8 - p.base
  let c : Fin 64 := ⟨p.inst % 64, Nat.mod_lt _ (by decide)⟩
  if p.kind = .coach ∧ o = 0x140 ∧ size = 4 then BitVec.ofNat 64 (m.cmRead c 2)
  else
    let v := m.view n p o
    if size = 8 then v else if off % 8 = 0 then v &&& 0xFFFFFFFF else v >>> 32

/-- A read of the register space by a master: the chip after it and the value, or none when the access is not supported.
Where no page stands, or the page is not served, it reads 0 (R46, R48, R55). -/
def regRead (n : Nvm) (m : Chip) (master : BitVec 16) (off size : Nat) : Chip × Option W64 :=
  if !((size = 4 ∨ size = 8) ∧ off % size = 0) then (m, none)
  else if idKind master == 1 && m.chocked master then (m, none)
  else match pageAt off with
    | none => (m, some 0)
    | some p =>
      if !m.served p master then (m, some 0)
      else (m.afterRead p off size, some (m.viewPart n p off size))

/-- A read of a register, with its answer. -/
def Chip.readReg (n : Nvm) (m : Chip) (master : BitVec 16) (off size : Nat) : Chip :=
  let r := regRead n m master off size
  match r.2 with
  | some v => r.1.emit (.value master off v)
  | none => r.1.emit (.unsupported master off)

end Sys2Proof.Machine
end

