-- ==== Sys2Proof/Machine/RegWrite.lean ====
section
/-! DEFINITION. Writing the register space: the values that fields take, HELD and STAGED fields, the effects of the registers
that have one, commands, and their ends (R55, R61, R66 to R73, R108, R219, R281, R309, R358, R371, R376, R395, R404, R430,
R509). -/
namespace Sys2Proof.Machine

/-! ### The values that fields take (R509) -/

/-- A field that the write covers takes the nearest value of a range. -/
def clampFld (cover : W64) (f : Fld) (lo hi : Nat) (v : W64) : W64 :=
  if f.mask &&& cover = 0 then v else f.put v (clamp lo hi (f.get v))

/-- The value that a register takes of the value written. -/
def takenValue (k : PageKind) (o : Nat) (cover v : W64) : W64 :=
  let clampFld := clampFld cover
  match k with
  | .pwr =>
    if o = 0x100 then clampFld F.pwrCapCapMgmt 600 2600 (clampFld F.pwrCapCapHost 600 2600 v)
    else if 0x108 ≤ o ∧ o < 0x128 then clampFld F.pwrRakeLimCapW 100 440 v
    else if o = 0x128 then clampFld F.pwrSagCfgWarn48 420 460 v
    else v
  | .cool => if o = 0x100 then clampFld F.coolCoolCfgRiseTgt 50 125 (clampFld F.coolCoolCfgKPpl 1 65535 v) else v
  | .stage =>
    if o = 0x110 then clampFld F.stageLogBaseSize 1 64 v
    else if o = 0x118 then clampFld F.stageStageLenMs 250 60000 v
    else v
  | .hbm => if o = 0x108 then clampFld F.hbmScrubCtlShare 1 1000 v else v
  | .fault => if o = 0x108 then clampFld F.faultQCtlLog2size 6 16 v else v
  | .doorbell => if o = 0x108 then clampFld F.doorbellQctlSqLog2 4 16 (clampFld F.doorbellQctlCqLog2 4 16 v) else v
  | .vec =>
    if o = 0x148 ∧ F.vecVregSelMask.bit v then F.vecVregSelWord.put v (F.vecVregSelWord.get v % 128) else v
  | _ => v

/-- The bits of PAGE_EVT and PAGE_EVT_EN that a page has: the common ones, and the block's own events as its chapter lists
them. The others are reserved (R7, R57). -/
def evtBits (p : PageId) : W64 :=
  BitVec.ofNat 64 (0x3F + 0x10000 * match p.kind with
    | .coach => 0x10FFF0FFF
    | .vec | .depot | .hbm | .shunt => 0x3
    | .mtx | .fault | .pwr => 0xF
    | .cmem | .inval | .link | .sec => 0x7
    | .couple => if p.inst = 0 then 0xF else 0x7
    | .dray | .hostif | .doorbell => 0x1
    | .stage => 0x3F
    | .cool => 0x1F
    | .glob | .mbox | .time | .xlat | .tlb | .tally | .func | .clk | .rst => 0)

/-- The register that a write names: its row, unless the page has none there. -/
def Wr.row (w : Wr) (p : PageId) : Option RegRow :=
  let o := w.reg - p.base
  if p.kind = .couple ∧ 0xF00 ≤ o ∧ 0 < p.inst then none
  else (rowAt p.kind o).map fun e =>
    if o = 0x30 ∨ o = 0x38 then { e.1 with rw := e.1.rw &&& evtBits p, w1c := e.1.w1c &&& evtBits p } else e.1

/-- The value that the register takes. A field that the write does not cover is not written. -/
def Chip.newValue (m : Chip) (w : Wr) (p : PageId) (r : RegRow) : W64 :=
  let cur := m.shadow w.reg
  let v := plainValue r cur w
  if r.rw &&& w.cover = 0 then v else takenValue p.kind (w.reg - p.base) w.cover v

/-- The write would change a HELD field (R67); one to a HELD data window always does (R219, R309). -/
def Chip.heldChange (m : Chip) (w : Wr) : Bool :=
  match pageAt w.off with
  | none => false
  | some p =>
    match w.row p with
    | none => false
    | some r =>
      if r.held = 0 then false
      else if (p.kind == .vec && w.reg == K.vecVregData p.inst) || (p.kind == .cmem && w.reg == K.cmemObufData p.inst) then true
      else (m.newValue w p r ^^^ m.shadow w.reg) &&& r.held != 0

/-! ### Accepted writes -/

/-- PAGE_GEN counts a write that changes a value (R72). -/
def Chip.bumpIf (m : Chip) (c : Bool) (p : PageId) : Chip := if c then m.bumpGen p else m

/-- A register takes a value. -/
def Chip.putReg (m : Chip) (p : PageId) (a : Nat) (v : W64) : Chip := (m.setReg a v).bumpIf (v != m.reg a) p

/-- A register with the STAGED fields `fs` (R66): its other fields take the value at once; the shadow takes it where the write
covers a STAGED field, and follows while a value waits there. -/
def Chip.putStaged (m : Chip) (p : PageId) (a : Nat) (fs cover v : W64) : Chip :=
  let m1 := m.setReg a ((m.reg a &&& fs) ||| (v &&& ~~~ fs))
  let waits := fs &&& cover != 0 || m.staged.any (·.1 == a)
  let m2 := if waits then { m1 with staged := smapInsert a v (smapErase (· == a) m.staged) } else m1
  m2.bumpIf (v != m.shadow a) p

/-- A released context executes the violating instruction again, after a post or a rollback that runs (R70). -/
def Chip.resumeMaster (m : Chip) (w : BitVec 16) : Chip :=
  if idKind w = 2 then
    let x : Ctx := ⟨⟨idIndex w / 2 % 64, Nat.mod_lt _ (by decide)⟩, idIndex w % 2 == 1⟩
    if (m.ctx x).st = .chocked then
      let held := m.stg.post == .quiesce || m.stg.post == .mirror || m.stg.rb != .none
      (m.modCtx x fun k =>
        if held then { k with st := .stopped, stopReq := if k.stopReq.elem .quiesce then k.stopReq else .quiesce :: k.stopReq }
        else { k with st := .running, wait := .none }).syncCoach x.coach.val
    else m
  else m

/-- RELEASE (R70): nothing happens for a master that is not chocked on the page. -/
def Chip.releaseWrite (m : Chip) (p : PageId) (w : Wr) : Chip :=
  let v := w.data &&& w.cover
  let id := BitVec.ofNat 16 (F.pageChockReleaseId.get v)
  if F.pageChockRelease.bit v && m.chocks.any (fun k => k.master == id && k.page == p) then
    (m.release p id).resumeMaster id
  else m

/-- A write to a header register (R57 to R59, R66, R70). -/
def Chip.writeHeader (m : Chip) (p : PageId) (o : Nat) (w : Wr) (v : W64) : Chip :=
  let d := w.data &&& w.cover
  if o = 0x10 then
    let drop := F.pageCtlDiscard.bit d && m.pend p
    let m1 := m.setReg w.reg v
    (if drop then m1.dropStaged p else m1).bumpIf (drop || v != m.reg w.reg) p
  else if o = 0x38 then (m.setEvtEn p v).bumpIf (v != m.reg w.reg) p
  else if o = 0x40 then if F.pageErrHeadPop.bit d then m.popErr p else m
  else if o = 0x58 then m.releaseWrite p w
  else m.putReg p w.reg v

/-- The words that a write of CM_DATA carries (R108). -/
def Wr.cmWords (w : Wr) : List W16 :=
  (List.range (w.size / 2)).map fun i => BitVec.ofNat 16 (w.val.toNat / 65536 ^ i)

/-- The COACH page: EV_SET and CM_DATA have effects of their own. -/
def Chip.writeCoach (m : Chip) (c : Fin 64) (w : Wr) (v : W64) : Chip :=
  let p := coachPage c
  if w.reg = K.coachEvSet c.val then
    let d := w.data &&& w.cover
    let x : Ctx := ⟨c, F.coachEvSetSide.bit d⟩
    let bits := BitVec.ofNat 16 (F.coachEvSetEv.get d)
    (m.setEvents x bits).bumpIf (bits &&& ~~~ (m.ctx x).events != 0) p
  else if w.reg = K.coachCmData c.val then
    let a := m.fld (K.coachCmAddr c.val) F.coachCmAddrAddr
    ((m.setCms c a w.cmWords).cmAdvance c.val w.size).bumpGen p
  else m.putReg p w.reg v

/-- A word with the written bytes. -/
def Wr.merge (w : Wr) (old : W64) : W64 := (old &&& ~~~ w.cover) ||| (w.data &&& w.cover)

/-- The upper half of the register is written, which moves a data window on. -/
def Wr.upper (w : Wr) : Bool := w.size == 8 || w.off % 8 == 4

/-- VREG_DATA (R219). -/
def Chip.vregWrite (m : Chip) (c : Fin 64) (w : Wr) : Chip :=
  let s := m.reg (K.vecVregSel c.val)
  let r := F.vecVregSelReg.get s
  let i := F.vecVregSelWord.get s
  let new := w.merge (m.vregRead c)
  let put {n : Nat} (x : BitVec n) : BitVec n :=
    (x &&& ~~~ ((BitVec.ofNat n (2 ^ 64 - 1)) <<< (64 * i))) ||| ((new.setWidth n) <<< (64 * i))
  let m1 := m.modVec c fun e =>
    if F.vecVregSelMask.bit s then
      { e with msk := e.msk.set (r % 8) (put (e.msk[r % 8]'(Nat.mod_lt _ (by decide)))) (Nat.mod_lt _ (by decide)) }
    else { e with v := e.v.set (r % 32) (put (e.v[r % 32]'(Nat.mod_lt _ (by decide)))) (Nat.mod_lt _ (by decide)) }
  (if w.upper then m1.vregAdvance c.val else m1).bumpIf (w.upper || new != m.vregRead c) ⟨.vec, c.val⟩

/-- OBUF_DATA (R309). -/
def Chip.obufWriteWord (m : Chip) (c : Fin 64) (w : Wr) : Chip :=
  let s := obufSel (m.reg (K.cmemObufSel c.val))
  let old := BitVec.ofNat 64 (leNat (m.obufRead c.val s.1 s.2 8))
  let new := w.merge old
  let m1 := m.obufWrite c.val s.1 s.2 (leBytes 8 new.toNat)
  (if w.upper then m1.obufAdvance c.val else m1).bumpIf (w.upper || new != old) (cmemPage c.val)

/-! ### PART (R281) -/

/-- The task is running or waiting in a context of the coach, or has an entry or a descriptor there. -/
def Chip.taskAtWork (m : Chip) (c : Fin 64) (t : Nat) : Bool :=
  let k := m.coach c
  let vec := decide (k.vown.tag.toNat = t) && !k.vec.q.isEmpty
  vec || ([false, true] : List Bool).any fun a =>
    let x : Ctx := ⟨c, a⟩
    decide ((m.ctx x).task.toNat = t)
      && ((m.ctx x).st.going || (k.mtx.queue ++ k.mtx.arr).any (fun e => e.aft == a) || k.vec.q.any (fun e => e.aft == a)
        || (m.sideStreams x).any fun s => !(k.dray[s]).q.isEmpty)

/-- The record code of a refused write of PART[i], or 0: of several conditions the first in the order of R281's table (DESIGN CHOICE,
log entry 97). -/
def Chip.partCheck (m : Chip) (c : Fin 64) (i : Nat) (old v : W64) : Nat :=
  let b := F.cmemPartBase.get v
  let l := F.cmemPartLim.get v
  let on := F.cmemPartValid.bit v
  let meets (j : Nat) : Bool :=
    let w := m.reg (K.cmemPart c.val j)
    let b' := F.cmemPartBase.get w
    decide (j ≠ i) && F.cmemPartValid.bit w && decide (b' ≤ b + l ∧ b ≤ b' + F.cmemPartLim.get w)
  if on && (List.range 8).any meets then 0x80
  else if on && decide (8191 < b + l) then 0x81
  else if on && (List.range 4).any (fun q => decide (b / 2048 ≤ q ∧ q ≤ (b + l) / 2048) && !m.rowReady c.val (2048 * q)) then 0x82
  else if v ≠ old ∧ F.cmemPartTask.get old ≠ 0 ∧ m.taskAtWork c (F.cmemPartTask.get old) then 0x83
  else 0

/-- A write that the block itself refuses, with its record and its event; the code that the ostler or the debugger is
answered, in place of OK, is one that no rule states. -/
def Chip.refuseWith (m : Chip) (p : PageId) (w : Wr) (code d ev : Nat) : Chip :=
  let m1 := ((m.refuse p w.m).record p code w.m none (some w.off) d).event p ev
  (m1.answer w.m (Config.freeWord m1.tick).toNat).next

def Chip.writeCmem (m : Chip) (c : Fin 64) (w : Wr) (v : W64) : Chip :=
  let p := cmemPage c.val
  if K.cmemPart c.val 0 ≤ w.reg ∧ w.reg ≤ K.cmemPart c.val 7 then
    let e := m.partCheck c ((w.reg - K.cmemPart c.val 0) / 8) (m.reg w.reg) v
    if e = 0 then (m.putReg p w.reg v).followPart c else m.refuseWith p w e 32 18
  else if w.reg = K.cmemObufData c.val then m.obufWriteWord c w
  else m.putReg p w.reg v

/-! ### Windows and peers (R430) -/

/-- A range of `n` bytes from `a` lies in one of HBM, the depot's addressable space and the core memories; the second part
says in the core memories. -/
def windowRange (a n : Nat) : Bool × Bool :=
  let core := decide (coreBase ≤ a ∧ a + n ≤ coreBase + 64 * 0x400000)
  (decide (a + n ≤ depotBase) || decide (depotBase ≤ a ∧ a + n ≤ depotBase + 0x20000000) || core, core)

/-- A window entry is malformed. -/
def badWindow (ctl base size : W64) : Bool :=
  let n := F.coupleWinSizePages.get size
  let r := windowRange (F.coupleWinBaseBase.get base * 65536) (n * 65536)
  F.coupleWinCtlV.bit ctl && (decide (n = 0) || !r.1 || (r.2 && decide (F.coupleWinCtlRclass.get ctl ≠ 0)))

/-- A peer entry is malformed. -/
def badPeer (ctl : W64) : Bool :=
  let h := F.couplePeerCtlHops.get ctl
  let ports := F.couplePeerCtlPorts.get ctl
  let one := decide (((List.range 10).filter ports.testBit).length = 1)
  F.couplePeerCtlV.bit ctl && (decide (4 < h) || (decide (0 < h) && !one)
    || (List.range h).any fun i => decide (9 < F.couplePeerCtlRoute.get ctl / 16 ^ i % 16))

/-- The write would leave an entry malformed. -/
def Chip.badEntry (m : Chip) (p : PageId) (w : Wr) (v : W64) : Bool :=
  let o := w.reg - p.base
  let get (a : Nat) : W64 := if a = w.reg then v else m.reg a
  if 0x100 ≤ o ∧ o < 0x900 then
    let i := (o - 0x100) / 32
    badWindow (get (K.coupleWinCtl p.inst i)) (get (K.coupleWinBase p.inst i)) (get (K.coupleWinSize p.inst i))
  else if 0x900 ≤ o ∧ o < 0xF00 then badPeer (get (K.couplePeerCtl p.inst ((o - 0x900) / 24)))
  else false

def Chip.writeCouple (m : Chip) (p : PageId) (w : Wr) (v : W64) : Chip :=
  if m.badEntry p w v then m.refuseWith p w 0x80 32 17
  else
    let m1 := m.putReg p w.reg v
    if w.reg = K.coupleCplCfg 0 then ((List.range 16).foldl (fun (m : Chip) k => m.syncRun ⟨.couple, k⟩) m1).pumpPeers else m1

/-! ### Rings, descriptors, CTX_DONE (R358, R371, R376, R395, R404) -/

/-- DESC_IN: the words are kept; an 8-byte write of word 3 enqueues the descriptor. -/
def Chip.writeInval (m : Chip) (w : Wr) (v : W64) : Chip :=
  let p : PageId := ⟨.inval, 0⟩
  if w.reg < K.invalDescIn 0 then m.putReg p w.reg v
  else
    let m1 := m.putReg p w.reg (w.merge (m.reg w.reg))
    if w.reg = K.invalDescIn 3 ∧ w.size = 8 then
      let l : Nat := if idKind w.m = 1 then m1.linkOf (idIndex w.m % 16) else 0
      m1.invalPut { words := Vector.ofFn fun i => m1.reg (K.invalDescIn i.val), link := ⟨l % 2, Nat.mod_lt _ (by decide)⟩ }
    else m1

/-- OR_BASE written while a descriptor of its stream runs takes effect at the next start, as written (R349). -/
def Chip.writeTlb (m : Chip) (c : Fin 64) (w : Wr) (v : W64) : Chip :=
  let m1 := m.putReg ⟨.tlb, c.val⟩ w.reg v
  (List.finRange 8).foldl (fun (m : Chip) s =>
    if w.reg = K.tlbOrBase c.val s.val then m.modStream c s fun t => { t with orSet := t.begun } else m) m1

def Chip.writeFault (m : Chip) (w : Wr) (v : W64) : Chip :=
  let p : PageId := ⟨.fault, 0⟩
  let m1 := m.putReg p w.reg v
  if w.reg = K.faultQCtl ∧ F.faultQCtlEn.bit v ∧ ¬ m.flag K.faultQCtl F.faultQCtlEn then m1.faultRestart else m1

def Chip.writeDoorbell (m : Chip) (p : PageId) (w : Wr) (v : W64) : Chip :=
  if w.reg = K.doorbellSqTail p.inst then
    if w.cover &&& 0xFFFF = 0 then m
    else (m.doorbell p.inst (F.doorbellSqTailIndex.get v)).bumpIf
      (v != m.reg w.reg && decide (F.doorbellSqTailIndex.get v < m.sqSize p.inst)) p
  else
    let m1 := m.putReg p w.reg v
    if w.reg = K.doorbellQctl p.inst ∧ F.doorbellQctlEn.bit v ∧ ¬ m.flag (K.doorbellQctl p.inst) F.doorbellQctlEn then
      m1.restartQueue p.inst
    else m1

/-- CTX_DONE: by a stream it is attributed to the context whose side owns the stream; by others it has no effect. -/
def Chip.writeShunt (m : Chip) (w : Wr) (v : W64) : Chip :=
  if w.reg = K.shuntCtxDone then
    if w.ctxDone then
      let c : Fin 64 := ⟨idIndex w.m / 8 % 64, Nat.mod_lt _ (by decide)⟩
      (m.ctxDone ⟨c, m.streamSide c (idIndex w.m % 8)⟩ (w.data &&& w.cover)).syncCoach c.val
    else m
  else m.putReg ⟨.shunt, 0⟩ w.reg v

/-- An accepted write to a register other than PAGE_CMD. -/
def Chip.acceptWrite (m : Chip) (p : PageId) (w : Wr) : Chip :=
  match w.row p with
  | none => m
  | some r =>
    let v := m.newValue w p r
    let c : Fin 64 := ⟨p.inst % 64, Nat.mod_lt _ (by decide)⟩
    if w.reg - p.base < 0x100 then m.writeHeader p (w.reg - p.base) w v
    else if r.staged ≠ 0 then m.putStaged p w.reg r.staged w.cover v
    else match p.kind with
      | .coach => m.writeCoach c w v
      | .vec => if w.reg = K.vecVregData c.val then m.vregWrite c w else m.putReg p w.reg v
      | .cmem => m.writeCmem c w v
      | .couple => m.writeCouple p w v
      | .inval => m.writeInval w v
      | .tlb => m.writeTlb c w v
      | .fault => m.writeFault w v
      | .doorbell => m.writeDoorbell p w v
      | .shunt => m.writeShunt w v
      | _ => m.putReg p w.reg v

/-! ### Commands -/

/-- VZERO at its acceptance (R220). -/
def Chip.vzeroCheck (m : Chip) (c : Nat) (l : Launch) : Chip :=
  if l.arg ≠ 0 then m.endCmd ⟨.vec, c⟩ cmdBadArg
  else if m.running ⟨.vec, c⟩ then m.endCmd ⟨.vec, c⟩ cmdNotIdle
  else m

/-- VZERO at its end. -/
def Chip.vzeroEnd (m : Chip) (c : Fin 64) : Chip :=
  let m1 := m.modVec c fun e => { VecEngine.reset with q := e.q }
  (m1.modVown c fun v => { v with tag := 0, dirty := false }).endCmd ⟨.vec, c.val⟩ cmdOk

/-- CLEAR at its end (R180): the counts and the bins of a TALLY page. -/
def Chip.tallyClear (m : Chip) (p : PageId) : Chip :=
  let lo := p.base + 0x180
  Chip.endCmd { m with regs := smapErase (fun k => decide (lo ≤ k ∧ k < p.base + 0x400)) m.regs } p cmdOk

/-- What a command does at its acceptance: the commands of every page by their codes; another code is BAD_CODE (R61). -/
def Chip.runCmd (m : Chip) (p : PageId) (code : Nat) (l : Launch) : Chip :=
  let c : Fin 64 := ⟨p.inst % 64, Nat.mod_lt _ (by decide)⟩
  match p.kind, code with
  | .time, 1 => m.snapStart l
  | .rst, 1 => m.noArg p l fun m => m.moduleEnter .cmd
  | .rst, 2 => m.rakeReset l
  | .rst, 3 => m.noArg p l fun m => m.ostlerReset.endCmd p cmdOk
  | .coach, 1 => m.ctxStart c l
  | .coach, 2 => m.ctxStop c l
  | .coach, 3 => m.vflush c l
  | .vec, 1 => m.vzeroCheck p.inst l
  | .tally, 1 => m.noArg p l id
  | .cmem, 1 => m.qpower p.inst l
  | .cmem, 2 => m.zeroCheck p.inst l
  | .cmem, 3 => m.bufzeroCheck c l
  | .depot, 1 => m.splitStart p.inst l
  | .depot, 2 => m.flushStart p.inst l
  | .depot, 3 => m.flushStart p.inst l
  | .hbm, 1 => m.scrubStart p.inst l
  | .fault, 1 => m.resolve l
  | .shunt, 1 => m.endStart l
  | .shunt, 2 => m.fenceStart l
  | .shunt, 3 => m.unfence l
  | .link, 1 => m.train' p.inst l
  | .link, 2 => m.linkDown p.inst l
  | .stage, 1 => m.arm l
  | .stage, 2 => m.disarm l
  | .stage, 3 => m.postCommand l
  | .stage, 4 => m.rollbackCommand l
  | .stage, 5 => m.abandon l
  | .stage, 6 => m.registerCommand l
  | .stage, 7 => m.releaseCommand l
  | _, _ => m.endCmd p cmdBadCode

/-- A command of any page. -/
def launchCmd (p : PageId) (code : Nat) (l : Launch) (s : Nvm × Chip) : Nvm × Chip :=
  let m := s.2.beginCmd p code l
  if p.kind = .mbox then mboxRun code (s.1, m) else (s.1, m.runCmd p code l)

/-! ### A write (R71) -/

/-- The block itself refuses the write that its page accepts: an entry of PART (R281), or one of COUPLE (R430). -/
def Chip.blockRefuses (m : Chip) (p : PageId) (w : Wr) : Bool :=
  match w.row p with
  | none => false
  | some r =>
    let v := m.newValue w p r
    let c : Fin 64 := ⟨p.inst % 64, Nat.mod_lt _ (by decide)⟩
    (p.kind == .cmem && decide (K.cmemPart c.val 0 ≤ w.reg ∧ w.reg ≤ K.cmemPart c.val 7)
      && m.partCheck c ((w.reg - K.cmemPart c.val 0) / 8) (m.reg w.reg) v != 0)
    || (p.kind == .couple && decide (0x100 ≤ w.reg - p.base) && m.badEntry p w v)

/-- A write to the register space as its page has decided it. -/
def regWriteAs (j : Judged) (w : Wr) (s : Nvm × Chip) : Nvm × Chip :=
  match j, pageAt w.off with
  | .accepted, some p =>
    if w.reg = K.pageCmd p.base then
      let l := launchOf w
      let r := launchCmd p (F.pageCmdCode.get w.val) l s
      (r.1, (r.2.syncRun p).answer w.m 0)
    else
      let m1 := (s.2.acceptWrite p w).syncRun p
      (s.1, if s.2.blockRefuses p w then m1 else m1.answer w.m 0)
  | _, some p => (s.1, s.2.rejectWrite p w j)
  | _, none =>
    (s.1, if j = .notIssued ∨ ((w.size = 4 ∨ w.size = 8) ∧ w.off % w.size = 0) then s.2 else s.2.emit (.unsupported w.m w.off))

/-- A write to the register space, and how its page decided it. -/
def regWrite (w : Wr) (s : Nvm × Chip) : (Nvm × Chip) × Judged :=
  let j := s.2.judge w (s.2.heldChange w)
  (regWriteAs j w s, j)

/-- A write that a master makes: one of the host waits behind a descriptor that its link holds (R358). -/
def postedWrite (w : Wr) (s : Nvm × Chip) : Nvm × Chip :=
  match s.2.stalledLink w.m with
  | some l => (s.1, s.2.waitBehind l (.reg w))
  | none => (regWrite w s).1

/-- The rows of single registers are that register's write; another write is not theirs. -/
def writeIf (c : Bool) (w : Wr) (s : State) : Host.Outcome State Fault Refusal :=
  onBoth (fun p => if c then postedWrite w p else p) s

/-- A write that lies at page offset `o` of a page of kind `k`. -/
def Wr.at (w : Wr) (k : PageKind) (lo hi : Nat) : Bool :=
  match pageAt w.off with
  | some p => p.kind == k && decide (lo ≤ w.reg - p.base ∧ w.reg - p.base ≤ hi)
  | none => false

/-- A write that lies at header offset `o` of any page. -/
def Wr.header (w : Wr) (o : Nat) : Bool :=
  match pageAt w.off with
  | some p => decide (w.reg - p.base = o)
  | none => false

def execRegisterWrite (w : Wr) (s : State) : Host.Outcome State Fault Refusal := writeIf true w s
def execEvtEnableWrite (w : Wr) (s : State) : Host.Outcome State Fault Refusal := writeIf (w.header 0x38) w s
def execErrPop (w : Wr) (s : State) : Host.Outcome State Fault Refusal := writeIf (w.header 0x40) w s
def execDiscard (w : Wr) (s : State) : Host.Outcome State Fault Refusal := writeIf (w.header 0x10) w s
def execChockRelease (w : Wr) (s : State) : Host.Outcome State Fault Refusal := writeIf (w.header 0x58) w s
def execEvSet (w : Wr) (s : State) : Host.Outcome State Fault Refusal := writeIf (w.at .coach 0x128 0x128) w s
def execPartWrite (w : Wr) (s : State) : Host.Outcome State Fault Refusal := writeIf (w.at .cmem 0x108 0x140) w s
def execFaultQEnable (w : Wr) (s : State) : Host.Outcome State Fault Refusal := writeIf (w.at .fault 0x108 0x108) w s
def execDescIn (w : Wr) (s : State) : Host.Outcome State Fault Refusal := writeIf (w.at .inval 0x200 0x218) w s
def execDoorbell (w : Wr) (s : State) : Host.Outcome State Fault Refusal := writeIf (w.at .doorbell 0x110 0x110) w s
def execQctlEnable (w : Wr) (s : State) : Host.Outcome State Fault Refusal := writeIf (w.at .doorbell 0x108 0x108) w s
def execCtxDone (w : Wr) (s : State) : Host.Outcome State Fault Refusal := writeIf (w.at .shunt 0x110 0x110) w s
def execCoupleEntryWrite (w : Wr) (s : State) : Host.Outcome State Fault Refusal := writeIf (w.at .couple 0x100 0xEFF) w s

/-- READ_TO_CLEAR (R39, R56): a read of a register; an RC register returns its count and clears. -/
def execReadToClear (m : BitVec 16) (off size : Nat) (s : State) : Host.Outcome State Fault Refusal :=
  onChipWith (fun n c => c.readReg n m off size) s

/-- An access to a data window. -/
def window (k : PageKind) (o : Nat) (a : RegAcc) (s : State) : Host.Outcome State Fault Refusal :=
  match a with
  | .read m off size =>
    let w : Wr := { m := m, off := off, size := size, val := 0, gen := none }
    onChipWith (fun n c => c.when (w.at k o o) fun c => c.readReg n m off size) s
  | .write w => writeIf (w.at k o o) w s

def execCmData (a : RegAcc) (s : State) : Host.Outcome State Fault Refusal := window .coach 0x140 a s
def execVregData (a : RegAcc) (s : State) : Host.Outcome State Fault Refusal := window .vec 0x150 a s
def execObufData (a : RegAcc) (s : State) : Host.Outcome State Fault Refusal := window .cmem 0x168 a s

def execVzero (c : Fin 64) (l : Launch) (s : State) : Host.Outcome State Fault Refusal :=
  onChip (fun m => m.issue ⟨.vec, c.val⟩ 1 l fun l m => m.vzeroCheck c.val l) s
def execClear (i : Fin 128) (l : Launch) (s : State) : Host.Outcome State Fault Refusal :=
  onChip (fun m => m.issue ⟨.tally, i.val⟩ 1 l fun l m => m.noArg ⟨.tally, i.val⟩ l id) s

/-! ### The end of a command (R61) -/

/-- What the running command of a page does at its end; a command that a row of its own ends is not ended here. -/
def Chip.cmdEnd (m : Chip) (p : PageId) : Chip :=
  let c : Fin 64 := ⟨p.inst % 64, Nat.mod_lt _ (by decide)⟩
  match p.kind, m.cmdCode p with
  | .time, 1 => m.snapEnd
  | .rst, 2 => m.rakeResetEnd
  | .vec, 1 => m.vzeroEnd c
  | .tally, 1 => m.tallyClear p
  | .cmem, 2 => m.zeroEnd p.inst
  | .cmem, 3 => m.bufzeroEnd p.inst
  | .depot, 1 => (m.splitEnd p.inst).releaseHeld p.inst
  | .depot, 2 => m.flushEnd p.inst false
  | .depot, 3 => m.flushEnd p.inst true
  | .hbm, 1 => m.scrubEnd p.inst
  | .shunt, 2 => m.fenceEnd
  | _, _ => m

/-- COMMAND_END. A command that works in memory does not end before memory is up again (R48, R481). -/
def commandEnd (p : PageId) (s : Nvm × Chip) : Nvm × Chip :=
  if !s.2.busy p || decide (pageCount p.kind ≤ p.inst) || ((p.kind == .depot || p.kind == .hbm) && !s.2.memUp) then s
  else if p.kind = .mbox then mboxEnd s
  else (s.1, (s.2.cmdEnd p).syncRun p)

def execCommandEnd (p : PageId) (s : State) : Host.Outcome State Fault Refusal := onBoth (commandEnd p) s

end Sys2Proof.Machine
end

