-- ==== Sys2Proof/Machine/DrayBurst.lean ====
section
/-! DEFINITION. What a dray burst does at its target (R326, R329): its read brings its data, its write is performed. -/
namespace Sys2Proof.Machine

/-- The chip and what survives every reset, the chip changed. -/
def onSnd (f : Chip → Chip) (s : Nvm × Chip) : Nvm × Chip := (s.1, f s.2)

/-- A read burst of device memory: register space in an 8-byte access, other memory through the fabric; an access error
brings zeros (R326). -/
def drayReadAt (c : Fin 64) (k : Fin 8) (e : DDesc) (g : XSeg) (a : Nat) (s : Nvm × Chip) : (Nvm × Chip) × List Byte :=
  let who := streamId c.val k.val
  match regionOf a with
  | .regs off =>
    let r := regRead s.1 s.2 who off g.len
    ((s.1, r.1), leBytes g.len ((r.2.getD 0).toNat))
  | _ =>
    let m := s.2.scratchRead (s.2.ctx ⟨c, e.aft⟩).task a g.len
    let r := m.segsRead who e.cls e.noalloc [g]
    ((s.1, r.1), r.2.getD (List.replicate g.len 0))

/-- The read of a burst from device memory is answered. -/
def drayReadDone (c : Fin 64) (k : Fin 8) (e : DDesc) (id i : Nat) (g : XSeg) (s : Nvm × Chip) : Nvm × Chip :=
  match g.place with
  | .dev a =>
    if s.2.segsHeld e.cls false e.noalloc [g] then onSnd (fun m => m.segsNote (streamId c.val k.val) false e.noalloc [g]) s
    else
      let r := drayReadAt c k e g a s
      onSnd (fun m => m.drayReadIn c k id i r.2) r.1
  | _ => s

/-- A write burst of device memory is performed; `false` where it is not: the right is missing, and the stream is chocked. A burst that
was sent before its stream froze is performed like any other (R69). -/
def drayWriteAt (c : Fin 64) (k : Fin 8) (e : DDesc) (g : XSeg) (a : Nat) (l : List Byte) (s : Nvm × Chip) : (Nvm × Chip) × Bool :=
  let who := streamId c.val k.val
  match regionOf a with
  | .regs off =>
    let w : Wr := { m := who, off := off, size := g.len, val := BitVec.ofNat 64 (leNat l), gen := none }
    let j := s.2.judgeSent w (s.2.heldChange w)
    ((regWriteAs j w s), j != .noRight)
  | _ => (onSnd (fun m => m.segsWrite who e.cls e.noalloc l [g]) s, true)

/-- A write burst to a peer has been answered, or one to the host has been sent. -/
def Chip.drayRemoteDone (m : Chip) (c : Fin 64) (k : Fin 8) (id i : Nat) (g : XSeg) : Bool :=
  let d : ReadDest := .dray c.val k.val id i
  !(m.sf.out.any (·.dest == some d)) && !(m.sf.wait.any (·.dest == some d)) && !(m.host.held.any (·.ser == g.ser))

/-- A write burst has been performed; a unit whose bursts all are leaves the stream, which may have been made to stop. -/
def Chip.drayLanded (m : Chip) (c : Fin 64) (k : Fin 8) (id i n : Nat) : Chip :=
  let m1 := (m.count (K.drayBytesWr c.val) n).modUnit c k id fun u => u.setPiece true i fun p => { p with st := .done }
  (m1.modStream c k fun t => { t with units := t.units.filter fun u => !(u.id == id && u.wr.all (·.st == .done)) }).draySettle c k

/-- The write of a burst is performed at its target. -/
def drayWriteDone (c : Fin 64) (k : Fin 8) (e : DDesc) (u : DUnit) (i : Nat) (p : DPiece) (s : Nvm × Chip) : Nvm × Chip :=
  match p.seg with
  | none => onSnd (fun m => (m.drayObuf c e u i p).drayLanded c k u.id i p.len) s
  | some g => match g.place with
    | .dev a =>
      if s.2.segsHeld e.cls true e.noalloc [g] then onSnd (fun m => m.segsNote (streamId c.val k.val) true e.noalloc [g]) s
      else
        let r := drayWriteAt c k e g a (u.slice i) s
        if r.2 then onSnd (fun m => m.drayLanded c k u.id i g.len) r.1 else onSnd (fun m => m.freezeStream c k u.id i) r.1
    | _ => if s.2.drayRemoteDone c k u.id i g then onSnd (fun m => m.drayLanded c k u.id i g.len) s else s

/-- DRAY_BURST_RESPONSE: burst `i` of unit `id` of stream `k` is performed, or its read is answered. -/
def drayResponse (c : Fin 64) (k : Fin 8) (id i : Nat) (s : Nvm × Chip) : Nvm × Chip :=
  let t := s.2.stream c k
  match t.q, t.units.find? (·.id == id) with
  | e :: _, some u =>
    match (if u.writing then u.wr else u.rd)[i]? with
    | some p =>
      if !t.active || p.st != .sent then s
      else if u.writing then drayWriteDone c k e u i p s
      else match p.seg with
        | some g => drayReadDone c k e id i g s
        | none => s
    | none => s
  | _, _ => s

def execDrayBurstResponse (c : Fin 64) (k : Fin 8) (id i : Nat) (st : State) : Host.Outcome State Fault Refusal :=
  onBoth (fun s => if s.2.domRuns (coachDomain c.val) then onSnd (fun m => m.syncCoach c) (drayResponse c k id i s) else s) st

end Sys2Proof.Machine
end

