-- ==== Sys2Proof/Machine/Mgmt.lean ====
section
/-! DEFINITION. The ostler's management protocols, attestation and the TAP (chapter 16: R485 to R493, R498 to R503). -/
namespace Sys2Proof.Machine

/-! ### Messages (R485, R486) -/

/-- A message is sent to this module on its transport (R485): to its address on SMBus, to its dynamic address on I3C and until it
has one to the static one, to the physical function of its link on PCIe. -/
def Chip.addressed (m : Chip) (k : Mctp) : Bool :=
  match k.t.val with
  | 0 => decide (k.addr = m.mgmtAddr)
  | 1 => decide (k.addr = (m.mg.i3cDyn.map (·.toNat)).getD m.mgmtAddr)
  | t => decide (k.addr = 8 * (t - 2))

/-- The ostler takes messages of a transport: on the buses from the end of step 3, on PCIe while its link is up. The recovery
loader serves some messages only (R491), and with no image at all nothing serves them. -/
def Chip.hears (m : Chip) (k : Mctp) (loader : Bool) : Bool :=
  m.board.ostlerUp && !m.flag K.rstBootStat F.rstBootStatBootFail && (!m.board.romLoader || loader)
    && (decide (k.t.val < 2) || m.linkUp (k.t.val - 2)) && m.addressed k

/-- The packets are such as the binding of the transport carries (R485): up to 64 B of payload on the buses, 64 to 512 B on PCIe,
with a good PEC on SMBus. Packets of another kind are not taken (log entry 89). -/
def Mctp.framed (k : Mctp) : Bool :=
  if k.t.val < 2 then decide (0 < k.pkt ∧ k.pkt ≤ 64) && (k.pecOk || k.t.val != 0) else decide (64 ≤ k.pkt ∧ k.pkt ≤ 512)

/-- A request on a management bus that is not acknowledged because main power is absent: wake_n asks for it until main power
is good (R13, R486; DEDUCED, log entry 51: every request needs it, since the ostler serves none before start-up step 3). -/
def Chip.wakeFor (m : Chip) (k : Mctp) : Chip :=
  if m.board.vstby33 && !m.board.por && !m.board.vin48 && decide (k.t.val < 2) && m.addressed k then m.modBoard fun b => { b with wake := true } else m

/-- A message that the ostler takes; an over-long one, or one out of sequence, is discarded and counted. -/
def takeMsg (k : Mctp) (loader : Bool) (f : Nvm × Chip → Nvm × Chip) (p : Nvm × Chip) : Nvm × Chip :=
  if !p.2.hears k loader then (p.1, p.2.wakeFor k)
  else if !k.framed then p
  else if decide (4096 < k.len) || !k.inSeq then (p.1, p.2.countFld K.mboxMbStat F.mboxMbStatMctpDrop 1)
  else f p

def Chip.reply (m : Chip) (k : Mctp) (c : MgmtCode) (data : List Nat) : Chip := m.emit (.mgmt k.t.val c data)

/-- A message that only asks. -/
def askMsg (k : Mctp) (loader : Bool) (f : Nvm → Chip → MgmtCode × List Nat) (s : State) : Host.Outcome State Fault Refusal :=
  onBoth (takeMsg k loader fun p => (p.1, p.2.reply k (f p.1 p.2).1 (f p.1 p.2).2)) s

/-! ### MCTP control (R488) -/

/-- SET_ENDPOINT_ID: 0 and 0xFF are no endpoint's. -/
def execSetEndpointId (k : Mctp) (eid : Byte) (s : State) : Host.Outcome State Fault Refusal :=
  onBoth (takeMsg k true fun p =>
    (p.1, if eid = 0 ∨ eid = 0xFF then p.2.reply k .invalidData []
      else (p.2.modMg fun g => { g with eid := g.eid.set k.t eid }).reply k .success [eid.toNat])) s

/-- What a control command that only asks is answered, by its code (DSP0236): the endpoint ID, the UUID, version 1.3, the types
control, PLDM and SPDM; any other command ERROR_UNSUPPORTED_CMD. -/
def controlAnswer (k : Mctp) (code : Nat) (m : Chip) : MgmtCode × List Nat :=
  match code with
  | 0x02 => (.success, [m.mg.eid[k.t].toNat])
  | 0x03 => (.success, [Config.uuid.toNat])
  | 0x04 => (.success, [1, 3])
  | 0x05 => (.success, [0x00, 0x01, 0x05])
  | _ => (.unsupportedCmd, [])

def askControl (k : Mctp) (code : Nat) (s : State) : Host.Outcome State Fault Refusal :=
  askMsg k true (fun _ m => controlAnswer k code m) s

def execGetEndpointId (k : Mctp) (s : State) : Host.Outcome State Fault Refusal := askControl k 0x02 s
def execGetEndpointUuid (k : Mctp) (s : State) : Host.Outcome State Fault Refusal := askControl k 0x03 s
def execGetMctpVersionSupport (k : Mctp) (s : State) : Host.Outcome State Fault Refusal := askControl k 0x04 s
def execGetMessageTypeSupport (k : Mctp) (s : State) : Host.Outcome State Fault Refusal := askControl k 0x05 s

/-- The I3C controller assigns a dynamic address, while the module has none (R485). -/
def Chip.i3cAssign (m : Chip) (a : BitVec 7) : Chip :=
  if m.board.ostlerUp && m.mg.i3cDyn.isNone then m.modMg fun g => { g with i3cDyn := some a } else m

def execSetdasa (a : BitVec 7) (s : State) : Host.Outcome State Fault Refusal := onChip (fun m => m.i3cAssign a) s
def execEntdaa (a : BitVec 7) (s : State) : Host.Outcome State Fault Refusal := onChip (fun m => m.i3cAssign a) s

/-! ### PLDM base (R489) -/

/-- Versions: 0 Base 1.1, 2 Platform 1.2, 5 Firmware update 1.1. -/
def pldmVersion : Nat → Option (List Nat)
  | 0 => some [1, 1]
  | 2 => some [1, 2]
  | 5 => some [1, 1]
  | _ => none

/-- The commands of a type, by their DMTF codes. -/
def pldmCommands : Nat → Option (List Nat)
  | 0 => some [0x01, 0x02, 0x03, 0x04, 0x05]
  | 2 => some [0x04, 0x11, 0x21, 0x31, 0x32, 0x50, 0x51]
  | 5 => some [0x01, 0x02, 0x10, 0x13, 0x14, 0x1A, 0x1B, 0x1C, 0x1D]
  | _ => none

/-- A PLDM request: a command that the table of its type has not is answered ERROR_UNSUPPORTED_PLDM_CMD. The recovery loader serves
types 0 and 5 (R491). -/
def takePldm (k : Mctp) (type code : Nat) (f : Nvm × Chip → Nvm × Chip) : Nvm × Chip → Nvm × Chip :=
  takeMsg k (type != 2) fun p =>
    if ((pldmCommands type).getD []).elem code then f p else (p.1, p.2.reply k .unsupportedPldmCmd [])

/-- A PLDM request that only asks. -/
def askPldm (k : Mctp) (type code : Nat) (f : Nvm → Chip → MgmtCode × List Nat) (s : State) : Host.Outcome State Fault Refusal :=
  onBoth (takePldm k type code fun p => (p.1, p.2.reply k (f p.1 p.2).1 (f p.1 p.2).2)) s

def execGetTid (k : Mctp) (s : State) : Host.Outcome State Fault Refusal := askPldm k 0 0x02 (fun n _ => (.success, [n.tid])) s

/-- SET_TID: 1 to 254, the item TID of the configuration (R506). -/
def execSetTid (k : Mctp) (tid : Byte) (s : State) : Host.Outcome State Fault Refusal :=
  onBoth (takePldm k 0 0x01 fun p =>
    if cfgGood 1 tid.toNat then ({ p.1 with tid := tid.toNat }, p.2.reply k .success []) else (p.1, p.2.reply k .invalidData [])) s

/-- What is known of a type is answered, another type is refused. -/
def knownOr (o : Option (List Nat)) : MgmtCode × List Nat :=
  match o with
  | some l => (.success, l)
  | none => (.invalidData, [])

def execGetPldmVersion (k : Mctp) (type : Nat) (s : State) : Host.Outcome State Fault Refusal :=
  askPldm k 0 0x03 (fun _ _ => knownOr (pldmVersion type)) s
def execGetPldmTypes (k : Mctp) (s : State) : Host.Outcome State Fault Refusal := askPldm k 0 0x04 (fun _ _ => (.success, [0, 2, 5])) s
def execGetPldmCommands (k : Mctp) (type : Nat) (s : State) : Host.Outcome State Fault Refusal :=
  askPldm k 0 0x05 (fun _ _ => knownOr (pldmCommands type)) s

/-! ### PLDM platform monitoring and control (R487, R489, R490) -/

/-- SET_EVENT_RECEIVER: the bus owner sets or removes its receiver. -/
def Chip.setReceiver (m : Chip) (k : Mctp) (on : Bool) : Chip :=
  let bit : BitVec 4 := BitVec.ofNat 4 (2 ^ k.t.val)
  if on then m.modMg fun g => { g with recv := g.recv ||| bit }
  else m.modMg fun g => { g with recv := g.recv &&& ~~~ bit }

def execSetEventReceiver (k : Mctp) (on : Bool) (s : State) : Host.Outcome State Fault Refusal :=
  onBoth (takePldm k 2 0x04 fun p => (p.1, (p.2.setReceiver k on).reply k .success [])) s

/-- Record `i` of the repository (R489): a numeric sensor (1) with its unit, rate unit and decimal places of a reading, in the codes
of DSP0248 (7 W, 2 °C, 34 L with rate 4 per minute; PRESUMED, log entry 24); a state sensor (2) with its states; the numeric
effecter (3) with its unit and range. -/
def pdr (i : Nat) : Option (List Nat) :=
  if 1 ≤ i ∧ i ≤ 4 then some [1, i, 7, 0, 0]
  else if 5 ≤ i ∧ i ≤ 7 then some [1, i, 2, 0, 0]
  else if i = 8 then some [1, i, 34, 4, 2]
  else if i = 9 ∨ i = 10 then some [1, i, 2, 0, 1]
  else if i = 11 then some [2, i, 0, 1, 2, 3]
  else if i = 12 then some [2, i, 0, 1, 2, 3, 4, 5, 6, 7]
  else if i = 13 then some [3, i, 7, 0, 0, 600, 2600] else none

def execGetPdrRepositoryInfo (k : Mctp) (s : State) : Host.Outcome State Fault Refusal :=
  askPldm k 2 0x50 (fun _ _ => (.success, [13])) s
def execGetPdr (k : Mctp) (i : Nat) (s : State) : Host.Outcome State Fault Refusal := askPldm k 2 0x51 (fun _ _ => knownOr (pdr i)) s

/-- The numeric sensors, in the order of the repository: powers in W, temperatures in degrees C, then flow, inlet and outlet as
COOL_STAT holds them. -/
def Chip.sensor (m : Chip) (i : Nat) : Option Nat :=
  match i with
  | 1 => some (m.fld K.pwrPModule F.pwrPModulePIn)
  | 2 => some (m.fld K.pwrPModule F.pwrPModulePHbm)
  | 3 => some (m.fld K.pwrPModule F.pwrPModulePHub)
  | 4 => some (m.fld K.pwrPModule F.pwrPModulePConv)
  | 5 => some (m.fld K.coolTemps F.coolTempsTj)
  | 6 => some (m.fld K.coolTemps F.coolTempsThbm)
  | 7 => some (m.fld K.coolTemps F.coolTempsTplate)
  | 8 => some (m.fld K.coolCoolStat F.coolCoolStatFlow)
  | 9 => some (m.fld K.coolCoolStat F.coolCoolStatTIn)
  | 10 => some (m.fld K.coolCoolStat F.coolCoolStatTOut)
  | _ => none

/-- The state sensors: module state, limiter. -/
def Chip.stateSensor (m : Chip) (i : Nat) : Option Nat :=
  if i = 11 then some m.moduleSensor else if i = 12 then some (m.fld K.pwrPwrStat F.pwrPwrStatLimiter) else none

/-- A reading within 100 ms, or ERROR_NOT_READY. -/
def reading (late : Bool) (o : Option Nat) : MgmtCode × List Nat := if late then (.notReady, []) else knownOr (o.map fun v => [v])

def execGetSensorReading (k : Mctp) (i : Nat) (late : Bool) (s : State) : Host.Outcome State Fault Refusal :=
  askPldm k 2 0x11 (fun _ m => reading late (m.sensor i)) s
def execGetStateSensorReadings (k : Mctp) (i : Nat) (late : Bool) (s : State) : Host.Outcome State Fault Refusal :=
  askPldm k 2 0x21 (fun _ m => reading late (m.stateSensor i)) s
def execGetNumericEffecterValue (k : Mctp) (late : Bool) (s : State) : Host.Outcome State Fault Refusal :=
  askPldm k 2 0x32 (fun _ m => reading late (some (m.fld K.pwrCap F.pwrCapCapMgmt))) s

/-- The ostler's write of CAP_MGMT with the generation that it expects. -/
def Chip.capWrite (m : Chip) (v : Nat) (gen : W64) : Wr :=
  { m := ostlerId, off := K.pwrCap, size := 8, val := F.pwrCapCapMgmt.put (m.reg K.pwrCap) v, gen := some gen }

/-- SET_NUMERIC_EFFECTER_VALUE: compare and act (R73): a stale act is refused, the page is read again and the act made again. -/
def setEffecter (k : Mctp) (v : Nat) (gen : W64) (p : Nvm × Chip) : Nvm × Chip :=
  if v < 600 ∨ 2600 < v then (p.1, p.2.reply k .invalidData [])
  else
    let r := regWrite (p.2.capWrite v gen) p
    let r' := if r.2 = .stale then regWrite (r.1.2.capWrite v (r.1.2.reg (K.pageGen pwrPage.base))) r.1 else r
    (r'.1.1, r'.1.2.reply k (if r'.2 = .accepted then .success else .notReady) [])

def execSetNumericEffecterValue (k : Mctp) (v : Nat) (gen : W64) (s : State) : Host.Outcome State Fault Refusal :=
  onBoth (takePldm k 2 0x31 (setEffecter k v gen)) s

/-! ### PLDM firmware update (R489, R491, R494, R495) -/

/-- The PLDM update that runs. -/
def Chip.pldmUpd (m : Chip) : Option Update := m.mg.upd.filter (·.pldm)

/-- A command of an update in the state that it needs. -/
def inState (k : Mctp) (ok : Update → Bool) (f : Update → Nvm × Chip → Nvm × Chip) (p : Nvm × Chip) : Nvm × Chip :=
  match p.2.pldmUpd with
  | none => (p.1, p.2.reply k .notInUpdateMode [])
  | some u => if ok u then f u p else (p.1, p.2.reply k .invalidState [])

/-- QUERY_DEVICE_IDENTIFIERS: identifiers that no rule states. -/
def execQueryDeviceIdentifiers (k : Mctp) (s : State) : Host.Outcome State Fault Refusal :=
  onBoth (takePldm k 5 0x01 fun p => (p.1, (p.2.reply k .success [(Config.freeWord p.2.tick).toNat]).next)) s

/-- GET_FIRMWARE_PARAMETERS: one component, 0x0001, activated by an OSTLER reset with at most 400 ms of downtime. -/
def execGetFirmwareParameters (k : Mctp) (s : State) : Host.Outcome State Fault Refusal :=
  askPldm k 5 0x02 (fun _ _ => (.success, [1, 0x0001, 400])) s

/-- REQUEST_UPDATE: refused while an update runs, or a FW_BEGIN. -/
def requestUpdate (k : Mctp) (p : Nvm × Chip) : Nvm × Chip :=
  let m := p.2
  if m.mg.upd.isSome || (m.busy mboxPage && decide (m.cmdCode mboxPage = 2)) then (p.1, m.reply k .alreadyInUpdateMode [])
  else (p.1, (m.setUpd (some { pldm := true, fd := .learn, len := 0, got := [], verdict := none })).reply k .success [])

def execRequestUpdate (k : Mctp) (s : State) : Host.Outcome State Fault Refusal := onBoth (takePldm k 5 0x10 (requestUpdate k)) s

/-- PASS_COMPONENT_TABLE. -/
def passTable (k : Mctp) (id : Nat) : Nvm × Chip → Nvm × Chip :=
  inState k (fun u => u.fd == .learn) fun u p =>
    (p.1, if id = 1 then (p.2.setUpd (some { u with fd := .ready })).reply k .success [] else p.2.reply k .invalidData [])

def execPassComponentTable (k : Mctp) (id : Nat) (s : State) : Host.Outcome State Fault Refusal :=
  onBoth (takePldm k 5 0x13 (passTable k id)) s

/-- The first byte of the image that is not yet written. -/
def Update.nextOff (u : Update) : Nat :=
  2048 * (((List.range ((u.len + 2047) / 2048)).find? fun b => !u.got.elem b).getD 0)

/-- The request for the next part of the image, at most 2,048 bytes. -/
def Chip.askPart (m : Chip) (u : Update) : Chip := m.emit (.fwRequest u.nextOff (min 2048 (u.len - u.nextOff)))

/-- UPDATE_COMPONENT: slot A is erased, after its copy, and the transfer starts. -/
def updateComponent (k : Mctp) (id len : Nat) : Nvm × Chip → Nvm × Chip :=
  inState k (fun u => u.fd == .ready) fun u p =>
    if id ≠ 1 ∨ len = 0 ∨ 2 ^ 24 < len then (p.1, p.2.reply k .invalidData [])
    else
      let u1 : Update := { u with fd := .download, len := len, got := [], verdict := none }
      (p.1.eraseA, (((p.2.setUpd (some u1)).logEvent (.update 2)).reply k .success []).askPart u1)

def execUpdateComponent (k : Mctp) (id len : Nat) (s : State) : Host.Outcome State Fault Refusal :=
  onBoth (takePldm k 5 0x14 (updateComponent k id len)) s

/-- FIRMWARE_DATA_RESPONSE: the part that was asked for is written to slot A; with the last one the transfer is complete. -/
def dataResponse (d : List Byte) (p : Nvm × Chip) : Nvm × Chip :=
  match p.2.pldmUpd with
  | none => p
  | some u =>
    if u.fd ≠ .download ∨ d.length ≠ min 2048 (u.len - u.nextOff) then p
    else
      let r := fwPut u u.nextOff d p
      match r.2.pldmUpd with
      | none => r
      | some u1 =>
        if u1.whole then
          (r.1, (r.2.setUpd (some { u1 with fd := .verify })).emit (.fwComplete 0 true) |>.logEvent (.update 3))
        else (r.1, r.2.askPart u1)

def execFirmwareDataResponse (k : Mctp) (d : List Byte) (s : State) : Host.Outcome State Fault Refusal :=
  onBoth (takeMsg k true (dataResponse d)) s

/-- VERIFY_COMPLETE (R494): a good image is applied, since it already lies in slot A. -/
def verifyComplete (p : Nvm × Chip) : Nvm × Chip :=
  match p.2.pldmUpd with
  | none => p
  | some u =>
    if u.fd ≠ .verify ∨ u.verdict.isSome then p
    else
      let c := p.1.codeA
      let m1 := (p.2.emit (.fwComplete 1 (decide (c = 0)))).logEvent (.update 4)
      if c = 0 then (p.1, (m1.emit (.fwComplete 2 true)).setUpd (some { u with fd := .ready, verdict := some 0 }))
      else (p.1, m1.setUpd (some { u with verdict := some c }))

def execVerifyComplete (s : State) : Host.Outcome State Fault Refusal :=
  onBoth (fun p => if p.2.board.ostlerUp then verifyComplete p else p) s

/-- ACTIVATE_FIRMWARE: by an OSTLER reset; self-contained activation is not offered. -/
def activate (k : Mctp) (selfContained : Bool) : Nvm × Chip → Nvm × Chip :=
  inState k (fun u => u.fd == .ready && u.verdict == some 0) fun _ p =>
    if selfContained then (p.1, p.2.reply k .invalidData [])
    else
      let d := drainLog p.1 (((p.2.setUpd none).logEvent (.update 5)).reply k .success [400])
      (d.1, d.2.ostlerReset)

def execActivateFirmware (k : Mctp) (selfContained : Bool) (s : State) : Host.Outcome State Fault Refusal :=
  onBoth (takePldm k 5 0x1A (activate k selfContained)) s

def FdState.code : FdState → Nat
  | .learn => 1 | .ready => 2 | .download => 3 | .verify => 4 | .apply => 5 | .activate => 6

/-- GET_STATUS: 0 without an update. -/
def execGetStatus (k : Mctp) (s : State) : Host.Outcome State Fault Refusal :=
  askPldm k 5 0x1B (fun _ m => (.success, [(m.pldmUpd.map (·.fd.code)).getD 0])) s

/-- CANCEL_UPDATE_COMPONENT: slot A stays as far as it is written. -/
def cancelComponent (k : Mctp) : Nvm × Chip → Nvm × Chip :=
  inState k (fun u => u.fd != .learn && u.fd != .ready) fun u p =>
    (p.1, (p.2.setUpd (some { u with fd := .ready, verdict := none })).reply k .success [])

def execCancelUpdateComponent (k : Mctp) (s : State) : Host.Outcome State Fault Refusal :=
  onBoth (takePldm k 5 0x1C (cancelComponent k)) s

def execCancelUpdate (k : Mctp) (s : State) : Host.Outcome State Fault Refusal :=
  onBoth (takePldm k 5 0x1D (inState k (fun _ => true) fun _ p => (p.1, (p.2.setUpd none).reply k .success []))) s

/-! ### SPDM (R492, R493, R498 to R500) -/

/-- Requests answered so far on a transport: version 1, capabilities 2, algorithms 3. -/
def Chip.setPhaseSpdm (m : Chip) (k : Mctp) (n : Nat) : Chip := m.modMg fun g => { g with spdm := g.spdm.set k.t n }

/-- A request that needs the earlier ones to be answered. -/
def spdmAfter (k : Mctp) (n : Nat) (f : Nvm × Chip → Nvm × Chip) (p : Nvm × Chip) : Nvm × Chip :=
  if p.2.mg.spdm[k.t] < n then (p.1, p.2.reply k .unexpectedRequest []) else f p

def execGetVersion (k : Mctp) (s : State) : Host.Outcome State Fault Refusal :=
  onBoth (takeMsg k false fun p => (p.1, (p.2.setPhaseSpdm k 1).reply k .success [0x12, 0x13])) s

/-- CERT_CAP, CHAL_CAP, MEAS_CAP with signatures, as the flags of DSP0274. -/
def execGetCapabilities (k : Mctp) (s : State) : Host.Outcome State Fault Refusal :=
  onBoth (takeMsg k false (spdmAfter k 1 fun p => (p.1, (p.2.setPhaseSpdm k 2).reply k .success [0x16]))) s

/-- The algorithms (R492), in the codes of DSP0274 and RFC 8554 (PRESUMED, log entry 24): measurement specification DMTF,
MeasurementHashAlgo SHA-256, BaseAsymAlgo none, BaseHashAlgo SHA-256, and one ExtAsym entry: LMS and LM-OTS type of the top and of the
bottom level. -/
def algorithms : List Nat := [1, 2, 0, 1, 1, 8, 4, 6, 4]

/-- NEGOTIATE_ALGORITHMS: `offer` says that the requester offers the HSS entry. -/
def execNegotiateAlgorithms (k : Mctp) (offer : Bool) (s : State) : Host.Outcome State Fault Refusal :=
  onBoth (takeMsg k false (spdmAfter k 2 fun p =>
    (p.1, if offer then (p.2.setPhaseSpdm k 3).reply k .success algorithms else p.2.reply k .unsupportedRequest []))) s

def execGetDigests (k : Mctp) (s : State) : Host.Outcome State Fault Refusal :=
  onBoth (takeMsg k false (spdmAfter k 3 fun p => (p.1, p.2.reply k .success [Config.digest 0]))) s

/-- GET_CERTIFICATE: bytes of the chain of slot 0, the only one. -/
def execGetCertificate (k : Mctp) (slot off len : Nat) (s : State) : Host.Outcome State Fault Refusal :=
  onBoth (takeMsg k false (spdmAfter k 3 fun p =>
    (p.1, if slot = 0 then p.2.reply k .success ((((Config.certificate Config.identityKey).drop off).take len).map (·.toNat))
      else p.2.reply k .invalidData []))) s

/-- The number of signature indices, and how many of them are 90 %. -/
abbrev sigLimit : Nat := 2 ^ 30
abbrev sigLow : Nat := 966367642

/-- The 3,284 B of a signature with index `i` (R498): the level count as RFC 8554 writes it (levels less one; PRESUMED, log entry
24), the top-level signature, the bottom-level public key, the bottom-level signature. -/
def hssSignature (i : Nat) (data : List Nat) : List Nat :=
  let bytes (l : List Byte) : List Nat := l.map (·.toNat)
  [0, 0, 0, 1] ++ bytes (Config.topSignature (i / 1024)).toList ++ bytes (Config.bottomKey (i / 1024)).toList
    ++ bytes (Config.bottomSignature i data).toList

/-- A signature (R499): the index is read, the counter advanced and committed, and the answer signed; a reset that cuts it off
after the second step leaves the index unused. -/
def signMsg (k : Mctp) (data : List Nat) (cut : Bool) (p : Nvm × Chip) : Nvm × Chip :=
  let i := p.1.sig
  if sigLimit ≤ i then (p.1, p.2.reply k .unspecified [])
  else if !p.2.mg.trees.elem (i / 1024) then (p.1, p.2.reply k .busy [])
  else
    let m1 := if i + 1 = sigLow then p.2.event secPage 17 else p.2
    ({ p.1 with sig := i + 1 }, if cut then m1 else m1.reply k .success (data ++ hssSignature i data))

/-- CHALLENGE. -/
def execChallenge (k : Mctp) (slot : Nat) (cut : Bool) (s : State) : Host.Outcome State Fault Refusal :=
  onBoth (takeMsg k false (spdmAfter k 3 fun p =>
    if slot = 0 then signMsg k [Config.digest 0] cut p else (p.1, p.2.reply k .invalidData []))) s

/-- Measurement block `i` (R493). -/
def measurement (n : Nvm) (m : Chip) (i : Nat) : Option (List Nat) :=
  match i with
  | 1 => some [Config.digest 1]
  | 2 => some [Config.imageDigest m.mg.runImage, m.mg.runSvn.getD 0]
  | 3 => some [Config.digest 3, Config.digest 4, n.arb]
  | 4 => some [Config.cfgDigest n.ilv n.tid n.capBoot]
  | 5 => some [m.fld K.secSecStat F.secSecStatDbgUnlocked, m.fld K.secSecStat F.secSecStatDbgPerm]
  | _ => none

/-- What GET_MEASUREMENTS asks for: 0 the number of blocks, 0xFF all of them, else one. -/
def measured (n : Nvm) (m : Chip) (i : Nat) : Option (List Nat) :=
  if i = 0 then some [5]
  else if i = 0xFF then some ((List.range 5).flatMap fun j => (measurement n m (j + 1)).getD [])
  else measurement n m i

def execGetMeasurements (k : Mctp) (i : Nat) (signed cut : Bool) (s : State) : Host.Outcome State Fault Refusal :=
  onBoth (takeMsg k false (spdmAfter k 3 fun p =>
    match measured p.1 p.2 i with
    | none => (p.1, p.2.reply k .invalidData [])
    | some l => if signed then signMsg k l cut p else (p.1, p.2.reply k .success l))) s

/-- BOTTOM_TREE_READY (R500): the tree that the next index needs, or the one after it, is ready. -/
def Chip.treeReady (n : Nvm) (m : Chip) : Chip :=
  let t := n.sig / 1024
  m.modMg fun g => { g with trees := if g.trees.elem t then [t, t + 1] else [t] }

def execBottomTreeReady (s : State) : Host.Outcome State Fault Refusal :=
  onChipWith (fun n m => m.when m.board.ostlerUp (Chip.treeReady n)) s

/-! ### The TAP (R501 to R503) -/

/-- The TAP controller is out of reset. -/
def Chip.tapLive (m : Chip) : Bool := m.board.jtagTrstN && !m.board.por

/-- Permission bit `i` of an accepted token. -/
def Chip.permitted (m : Chip) (i : Nat) : Bool :=
  m.flag K.secSecStat F.secSecStatDbgUnlocked && (m.fld K.secSecStat F.secSecStatDbgPerm).testBit i

def Chip.selectTap (m : Chip) (i : TapInstr) : Chip := m.modBoard fun b => { b with tap := i.code }

/-- An instruction is selected; one that is not available selects BYPASS. -/
def tapRow (i : TapInstr) (ok : Chip → Bool) (f : Nvm × Chip → Nvm × Chip) (s : State) : Host.Outcome State Fault Refusal :=
  onBoth (fun p =>
    if !p.2.tapLive then p
    else if ok p.2 then f (p.1, p.2.selectTap i)
    else (p.1, p.2.selectTap .bypass)) s

/-- Boundary scan: by permission, or while the module is in MODULE reset or a held failure state. -/
def Chip.scanOk (m : Chip) : Bool := m.permitted 2 || m.board.inReset || m.board.heldFail

def execBypass (s : State) : Host.Outcome State Fault Refusal := tapRow .bypass (fun _ => true) id s
def execIdcode (s : State) : Host.Outcome State Fault Refusal :=
  tapRow .idcode (fun _ => true) (fun p => (p.1, p.2.emit (.tap 0x16416793))) s

/-- SAMPLE_PRELOAD: what the tester leaves in the boundary-scan register is open. -/
def execSamplePreload (s : State) : Host.Outcome State Fault Refusal :=
  tapRow .sample (fun _ => true) (fun p => (p.1, (p.2.modBoard fun b => { b with bsr := Config.freeWord p.2.tick }).next)) s
def execExtest (s : State) : Host.Outcome State Fault Refusal := tapRow .extest Chip.scanOk id s
def execClamp (s : State) : Host.Outcome State Fault Refusal := tapRow .clamp Chip.scanOk id s
def execHighz (s : State) : Host.Outcome State Fault Refusal := tapRow .highz Chip.scanOk id s

/-- DBG_TOKEN: the ostler checks the token. -/
def execDbgToken (t : List Byte) (s : State) : Host.Outcome State Fault Refusal :=
  tapRow .dbgToken (fun _ => true) (fun p => if p.2.board.ostlerUp then (p.1, (p.2.token t).1) else p) s

/-- TAP_DBG_NONCE: a new nonce is shifted out. -/
def execTapDbgNonce (s : State) : Host.Outcome State Fault Refusal :=
  tapRow .dbgNonce (fun _ => true) (fun p =>
    if p.2.board.ostlerUp then
      let m := p.2.newNonce
      (p.1, m.emit (.tap (m.mg.nonce.getD 0).toNat))
    else p) s

/-- DBG_ACCESS: a register access as master 0x7000. -/
def execDbgAccess (a : RegAcc) (s : State) : Host.Outcome State Fault Refusal :=
  tapRow .dbgAccess (fun m => m.permitted 0) (fun p =>
    match a with
    | .read _ off size => (p.1, p.2.readReg p.1 debuggerId off size)
    | .write w => (regWrite { w with m := debuggerId, gen := none } p).1) s

/-- DBG_RESET: a MODULE reset with cause DEBUG. -/
def execDbgReset (s : State) : Host.Outcome State Fault Refusal :=
  tapRow .dbgReset (fun m => m.permitted 0) (fun p => (p.1, p.2.moduleEnter .debug)) s

end Sys2Proof.Machine
end

