-- ==== Sys2Proof/Machine/Posted.lean ====
section
/-! DEFINITION. Posted writes of the host that waited behind a descriptor (R358), and the acceptance of a descriptor, which lets
them go on (R360). -/
namespace Sys2Proof.Machine

/-- A posted write goes on, or waits again. -/
def postedGo (s : Nvm × Chip) (e : Fin 2 × Posted) : Nvm × Chip :=
  match e.2 with
  | .reg w => postedWrite w s
  | .bar2 f a l => (s.1, s.2.bar2 f a l.length (some l))
  | .mcast a l => (s.1, s.2.invalMulticast e.1 a l)

/-- What waits behind descriptors goes on in its order, as far as each link does. -/
def postedAll (s : Nvm × Chip) : Nvm × Chip :=
  s.2.host.behind.foldl postedGo (s.1, { s.2 with host := { s.2.host with behind := [] } })

/-- INVAL_ACCEPT: the head of the FIFO is accepted; a descriptor that waited takes its slot. -/
def execInvalAccept (s : State) : Host.Outcome State Fault Refusal := onBoth (fun p => postedAll (p.1, p.2.invalAccept)) s

end Sys2Proof.Machine
end

