-- ==== Sys2Proof/Machine/All.lean ====
section
/-! DEFINITION. The meanings of all commands, gathered for the dispatch. -/
end

