-- ==== Sys2Proof/Machine/Dispatch.lean ====
section
/-! DEFINITION. One arm per command: its meaning. -/
namespace Sys2Proof.Machine

def exec (i : Instr) (s : State) : Host.Outcome State Fault Refusal :=
  match i with
  | .vstby33Rise => Sys2Proof.Machine.execVstby33Rise s
  | .vstby33Fall => Sys2Proof.Machine.execVstby33Fall s
  | .porRelease => Sys2Proof.Machine.execPorRelease s
  | .mainPowerGood mv => Sys2Proof.Machine.execMainPowerGood mv s
  | .hubRailsUp fail => Sys2Proof.Machine.execHubRailsUp fail s
  | .ostlerImageVerify a b => Sys2Proof.Machine.execOstlerImageVerify a b s
  | .coolantCheck => Sys2Proof.Machine.execCoolantCheck s
  | .coolFail => Sys2Proof.Machine.execCoolFail s
  | .railRampDone fail => Sys2Proof.Machine.execRailRampDone fail s
  | .hbmTrainingDone fail => Sys2Proof.Machine.execHbmTrainingDone fail s
  | .rakeRelease => Sys2Proof.Machine.execRakeRelease s
  | .moduleReady => Sys2Proof.Machine.execModuleReady s
  | .perst0Assert => Sys2Proof.Machine.execPerst0Assert s
  | .moduleResetRelease => Sys2Proof.Machine.execModuleResetRelease s
  | .perst0Deassert => Sys2Proof.Machine.execPerst0Deassert s
  | .perst1Change high => Sys2Proof.Machine.execPerst1Change high s
  | .hostLinkTrain l => Sys2Proof.Machine.execHostLinkTrain l s
  | .refclkSwitch present => Sys2Proof.Machine.execRefclkSwitch present s
  | .jtagTrst high => Sys2Proof.Machine.execJtagTrst high s
  | .ostlerWatchdog => Sys2Proof.Machine.execOstlerWatchdog s
  | .ostlerBoot a b => Sys2Proof.Machine.execOstlerBoot a b s
  | .snap l => Sys2Proof.Machine.execSnap l s
  | .moduleReset l => Sys2Proof.Machine.execModuleReset l s
  | .rakeReset l => Sys2Proof.Machine.execRakeReset l s
  | .ostlerReset l => Sys2Proof.Machine.execOstlerReset l s
  | .registerWrite w => Sys2Proof.Machine.execRegisterWrite w s
  | .commandEnd p => Sys2Proof.Machine.execCommandEnd p s
  | .evtEnableWrite w => Sys2Proof.Machine.execEvtEnableWrite w s
  | .errPop w => Sys2Proof.Machine.execErrPop w s
  | .discard w => Sys2Proof.Machine.execDiscard w s
  | .chockRelease w => Sys2Proof.Machine.execChockRelease w s
  | .readToClear m off size => Sys2Proof.Machine.execReadToClear m off size s
  | .lit x v => Sys2Proof.Machine.execLit x v s
  | .nop x => Sys2Proof.Machine.execNop x s
  | .litw x => Sys2Proof.Machine.execLitw x s
  | .drop x => Sys2Proof.Machine.execDrop x s
  | .dup x => Sys2Proof.Machine.execDup x s
  | .swap x => Sys2Proof.Machine.execSwap x s
  | .over x => Sys2Proof.Machine.execOver x s
  | .rot x => Sys2Proof.Machine.execRot x s
  | .nip x => Sys2Proof.Machine.execNip x s
  | .tuck x => Sys2Proof.Machine.execTuck x s
  | .pick x => Sys2Proof.Machine.execPick x s
  | .drop2 x => Sys2Proof.Machine.execDrop2 x s
  | .dup2 x => Sys2Proof.Machine.execDup2 x s
  | .swap2 x => Sys2Proof.Machine.execSwap2 x s
  | .depth x => Sys2Proof.Machine.execDepth x s
  | .tor x => Sys2Proof.Machine.execTor x s
  | .fromr x => Sys2Proof.Machine.execFromr x s
  | .rfetch x => Sys2Proof.Machine.execRfetch x s
  | .rdepth x => Sys2Proof.Machine.execRdepth x s
  | .add x => Sys2Proof.Machine.execAdd x s
  | .adc x => Sys2Proof.Machine.execAdc x s
  | .sub x => Sys2Proof.Machine.execSub x s
  | .sbb x => Sys2Proof.Machine.execSbb x s
  | .neg x => Sys2Proof.Machine.execNeg x s
  | .inc x => Sys2Proof.Machine.execInc x s
  | .dec x => Sys2Proof.Machine.execDec x s
  | .mul x => Sys2Proof.Machine.execMul x s
  | .muls x => Sys2Proof.Machine.execMuls x s
  | .udivmod x => Sys2Proof.Machine.execUdivmod x s
  | .and_ x => Sys2Proof.Machine.execAnd x s
  | .or_ x => Sys2Proof.Machine.execOr x s
  | .xor x => Sys2Proof.Machine.execXor x s
  | .not_ x => Sys2Proof.Machine.execNot x s
  | .shl x => Sys2Proof.Machine.execShl x s
  | .shr x => Sys2Proof.Machine.execShr x s
  | .sar x => Sys2Proof.Machine.execSar x s
  | .rol x => Sys2Proof.Machine.execRol x s
  | .eq x => Sys2Proof.Machine.execEq x s
  | .ne x => Sys2Proof.Machine.execNe x s
  | .ltu x => Sys2Proof.Machine.execLtu x s
  | .lts x => Sys2Proof.Machine.execLts x s
  | .geu x => Sys2Proof.Machine.execGeu x s
  | .ges x => Sys2Proof.Machine.execGes x s
  | .zeq x => Sys2Proof.Machine.execZeq x s
  | .rdsr x n => Sys2Proof.Machine.execRdsr x n s
  | .wrsr x n => Sys2Proof.Machine.execWrsr x n s
  | .cnt x => Sys2Proof.Machine.execCnt x s
  | .fetch x => Sys2Proof.Machine.execFetch x s
  | .store x => Sys2Proof.Machine.execStore x s
  | .fetchp x => Sys2Proof.Machine.execFetchp x s
  | .storep x => Sys2Proof.Machine.execStorep x s
  | .fetch4 x => Sys2Proof.Machine.execFetch4 x s
  | .store4 x => Sys2Proof.Machine.execStore4 x s
  | .br x => Sys2Proof.Machine.execBr x s
  | .bz x => Sys2Proof.Machine.execBz x s
  | .bnz x => Sys2Proof.Machine.execBnz x s
  | .call x => Sys2Proof.Machine.execCall x s
  | .ret x => Sys2Proof.Machine.execRet x s
  | .brx x => Sys2Proof.Machine.execBrx x s
  | .callx x => Sys2Proof.Machine.execCallx x s
  | .loop x => Sys2Proof.Machine.execLoop x s
  | .endloop x => Sys2Proof.Machine.execEndloop x s
  | .lpush x => Sys2Proof.Machine.execLpush x s
  | .lpop x => Sys2Proof.Machine.execLpop x s
  | .waitev x => Sys2Proof.Machine.execWaitev x s
  | .sendev x => Sys2Proof.Machine.execSendev x s
  | .eventDeliver n => Sys2Proof.Machine.execEventDeliver n s
  | .waituntil x => Sys2Proof.Machine.execWaituntil x s
  | .waituntilExpire x => Sys2Proof.Machine.execWaituntilExpire x s
  | .waitRelease x => Sys2Proof.Machine.execWaitRelease x s
  | .evpoll x => Sys2Proof.Machine.execEvpoll x s
  | .evpeek x => Sys2Proof.Machine.execEvpeek x s
  | .evclr x => Sys2Proof.Machine.execEvclr x s
  | .syscall x n => Sys2Proof.Machine.execSyscall x n s
  | .sysret x => Sys2Proof.Machine.execSysret x s
  | .tret x => Sys2Proof.Machine.execTret x s
  | .brake x => Sys2Proof.Machine.execBrake x s
  | .unbrake x => Sys2Proof.Machine.execUnbrake x s
  | .setmode x => Sys2Proof.Machine.execSetmode x s
  | .tstable x => Sys2Proof.Machine.execTstable x s
  | .vclaim x => Sys2Proof.Machine.execVclaim x s
  | .vclaimGrant c => Sys2Proof.Machine.execVclaimGrant c s
  | .vclaimLimitExpire c aft hi => Sys2Proof.Machine.execVclaimLimitExpire c aft hi s
  | .vrel x => Sys2Proof.Machine.execVrel x s
  | .trapEntry x hi => Sys2Proof.Machine.execTrapEntry x hi s
  | .intPendSet p => Sys2Proof.Machine.execIntPendSet p s
  | .cmpMatch x => Sys2Proof.Machine.execCmpMatch x s
  | .brakeLimitExpire x => Sys2Proof.Machine.execBrakeLimitExpire x s
  | .hubStop x hi => Sys2Proof.Machine.execHubStop x hi s
  | .start c l => Sys2Proof.Machine.execStart c l s
  | .stop c l => Sys2Proof.Machine.execStop c l s
  | .vflush c l => Sys2Proof.Machine.execVflush c l s
  | .evSet w => Sys2Proof.Machine.execEvSet w s
  | .cmData a => Sys2Proof.Machine.execCmData a s
  | .vsetvl x => Sys2Proof.Machine.execVsetvl x s
  | .vsettype x => Sys2Proof.Machine.execVsettype x s
  | .vsetctl x => Sys2Proof.Machine.execVsetctl x s
  | .vsetaccs x => Sys2Proof.Machine.execVsetaccs x s
  | .vfadd x sc => Sys2Proof.Machine.execVfadd x sc s
  | .vfsub x sc => Sys2Proof.Machine.execVfsub x sc s
  | .vfmul x sc => Sys2Proof.Machine.execVfmul x sc s
  | .vfmin x sc => Sys2Proof.Machine.execVfmin x sc s
  | .vfmax x sc => Sys2Proof.Machine.execVfmax x sc s
  | .vfma x sc => Sys2Proof.Machine.execVfma x sc s
  | .vfms x sc => Sys2Proof.Machine.execVfms x sc s
  | .vfnma x sc => Sys2Proof.Machine.execVfnma x sc s
  | .vfsgnj x sc => Sys2Proof.Machine.execVfsgnj x sc s
  | .vfabs x => Sys2Proof.Machine.execVfabs x s
  | .vfneg x => Sys2Proof.Machine.execVfneg x s
  | .vfrece x => Sys2Proof.Machine.execVfrece x s
  | .vfrsqe x => Sys2Proof.Machine.execVfrsqe x s
  | .vfrecs x sc => Sys2Proof.Machine.execVfrecs x sc s
  | .vfrsqs x sc => Sys2Proof.Machine.execVfrsqs x sc s
  | .vadd x sc => Sys2Proof.Machine.execVadd x sc s
  | .vsub x sc => Sys2Proof.Machine.execVsub x sc s
  | .vmul x sc => Sys2Proof.Machine.execVmul x sc s
  | .vmulh x sc => Sys2Proof.Machine.execVmulh x sc s
  | .vmin x sc => Sys2Proof.Machine.execVmin x sc s
  | .vmax x sc => Sys2Proof.Machine.execVmax x sc s
  | .vand x sc => Sys2Proof.Machine.execVand x sc s
  | .vor x sc => Sys2Proof.Machine.execVor x sc s
  | .vxor x sc => Sys2Proof.Machine.execVxor x sc s
  | .vshl x sc => Sys2Proof.Machine.execVshl x sc s
  | .vshr x sc => Sys2Proof.Machine.execVshr x sc s
  | .vpopc x => Sys2Proof.Machine.execVpopc x s
  | .vcvt x => Sys2Proof.Machine.execVcvt x s
  | .vrescale x => Sys2Proof.Machine.execVrescale x s
  | .vcadd x => Sys2Proof.Machine.execVcadd x s
  | .vmv x => Sys2Proof.Machine.execVmv x s
  | .vbcast x => Sys2Proof.Machine.execVbcast x s
  | .vmerge x => Sys2Proof.Machine.execVmerge x s
  | .vmeq x sc => Sys2Proof.Machine.execVmeq x sc s
  | .vmne x sc => Sys2Proof.Machine.execVmne x sc s
  | .vmlt x sc => Sys2Proof.Machine.execVmlt x sc s
  | .vmle x sc => Sys2Proof.Machine.execVmle x sc s
  | .vmgt x sc => Sys2Proof.Machine.execVmgt x sc s
  | .vmge x sc => Sys2Proof.Machine.execVmge x sc s
  | .vfsumo x => Sys2Proof.Machine.execVfsumo x s
  | .vfsumt x => Sys2Proof.Machine.execVfsumt x s
  | .vxsum x => Sys2Proof.Machine.execVxsum x s
  | .vxdot x => Sys2Proof.Machine.execVxdot x s
  | .vfmaxr x => Sys2Proof.Machine.execVfmaxr x s
  | .vfminr x => Sys2Proof.Machine.execVfminr x s
  | .visum x => Sys2Proof.Machine.execVisum x s
  | .vimaxr x => Sys2Proof.Machine.execVimaxr x s
  | .viminr x => Sys2Proof.Machine.execViminr x s
  | .vandr x => Sys2Proof.Machine.execVandr x s
  | .vorr x => Sys2Proof.Machine.execVorr x s
  | .vxorr x => Sys2Proof.Machine.execVxorr x s
  | .vcompress x => Sys2Proof.Machine.execVcompress x s
  | .vexpand x => Sys2Proof.Machine.execVexpand x s
  | .viota x => Sys2Proof.Machine.execViota x s
  | .vid x => Sys2Proof.Machine.execVid x s
  | .vrgather x => Sys2Proof.Machine.execVrgather x s
  | .vslideup x => Sys2Proof.Machine.execVslideup x s
  | .vslidedn x => Sys2Proof.Machine.execVslidedn x s
  | .vins x => Sys2Proof.Machine.execVins x s
  | .vext x => Sys2Proof.Machine.execVext x s
  | .vexth x => Sys2Proof.Machine.execVexth x s
  | .vrdcfg x => Sys2Proof.Machine.execVrdcfg x s
  | .vmand x => Sys2Proof.Machine.execVmand x s
  | .vmor x => Sys2Proof.Machine.execVmor x s
  | .vmxor x => Sys2Proof.Machine.execVmxor x s
  | .vmandn x => Sys2Proof.Machine.execVmandn x s
  | .vmnot x => Sys2Proof.Machine.execVmnot x s
  | .vmset x => Sys2Proof.Machine.execVmset x s
  | .vmclr x => Sys2Proof.Machine.execVmclr x s
  | .vmmv x => Sys2Proof.Machine.execVmmv x s
  | .vmpop x => Sys2Proof.Machine.execVmpop x s
  | .vmfirst x => Sys2Proof.Machine.execVmfirst x s
  | .vldr x => Sys2Proof.Machine.execVldr x s
  | .vstr x => Sys2Proof.Machine.execVstr x s
  | .vld x => Sys2Proof.Machine.execVld x s
  | .vst x => Sys2Proof.Machine.execVst x s
  | .vlds x => Sys2Proof.Machine.execVlds x s
  | .vsts x => Sys2Proof.Machine.execVsts x s
  | .vldx x => Sys2Proof.Machine.execVldx x s
  | .vstx x => Sys2Proof.Machine.execVstx x s
  | .vecEntryStart c => Sys2Proof.Machine.execVecEntryStart c s
  | .vecElementResponse c idx => Sys2Proof.Machine.execVecElementResponse c idx s
  | .vecEntryComplete c mem cycles replays third => Sys2Proof.Machine.execVecEntryComplete c mem cycles replays third s
  | .vzero c l => Sys2Proof.Machine.execVzero c l s
  | .vregData a => Sys2Proof.Machine.execVregData a s
  | .missue x => Sys2Proof.Machine.execMissue x s
  | .mwait x => Sys2Proof.Machine.execMwait x s
  | .mstat x => Sys2Proof.Machine.execMstat x s
  | .matrixEntryStart c half => Sys2Proof.Machine.execMatrixEntryStart c half s
  | .matrixPrepare c half rows => Sys2Proof.Machine.execMatrixPrepare c half rows s
  | .matrixEntryClose c half mismatch => Sys2Proof.Machine.execMatrixEntryClose c half mismatch s
  | .matrixEntryCommit c half mismatch => Sys2Proof.Machine.execMatrixEntryCommit c half mismatch s
  | .mtxModeChange c => Sys2Proof.Machine.execMtxModeChange c s
  | .clear idx l => Sys2Proof.Machine.execClear idx l s
  | .drgo x => Sys2Proof.Machine.execDrgo x s
  | .drwait x => Sys2Proof.Machine.execDrwait x s
  | .drstat x => Sys2Proof.Machine.execDrstat x s
  | .drayDescStart c k => Sys2Proof.Machine.execDrayDescStart c k s
  | .drayBurstIssue c k wr n => Sys2Proof.Machine.execDrayBurstIssue c k wr n s
  | .drayDescComplete c k => Sys2Proof.Machine.execDrayDescComplete c k s
  | .cmemFabricAccess w cls a n d => Sys2Proof.Machine.execCmemFabricAccess w cls a n d s
  | .partWrite w => Sys2Proof.Machine.execPartWrite w s
  | .qpower c l => Sys2Proof.Machine.execQpower c l s
  | .quarterReady c q => Sys2Proof.Machine.execQuarterReady c q s
  | .zero c l => Sys2Proof.Machine.execZero c l s
  | .bufzero c l => Sys2Proof.Machine.execBufzero c l s
  | .obufData a => Sys2Proof.Machine.execObufData a s
  | .depotAccess w cls a n d noalloc parity => Sys2Proof.Machine.execDepotAccess w cls a n d noalloc parity s
  | .depotLineFill idx l => Sys2Proof.Machine.execDepotLineFill idx l s
  | .split idx l => Sys2Proof.Machine.execSplit idx l s
  | .writebackRaise idx => Sys2Proof.Machine.execWritebackRaise idx s
  | .flush idx l => Sys2Proof.Machine.execFlush idx l s
  | .flushInval idx l => Sys2Proof.Machine.execFlushInval idx l s
  | .hbmRead w a fails scrub => Sys2Proof.Machine.execHbmRead w a fails scrub s
  | .hbmWrite w a d fails => Sys2Proof.Machine.execHbmWrite w a d fails s
  | .scrub idx l => Sys2Proof.Machine.execScrub idx l s
  | .patrolStart idx => Sys2Proof.Machine.execPatrolStart idx s
  | .freightDrayGrant => Sys2Proof.Machine.execFreightDrayGrant s
  | .freightJobEnd id => Sys2Proof.Machine.execFreightJobEnd id s
  | .pageWalk r => Sys2Proof.Machine.execPageWalk r s
  | .walkReadResponse r id => Sys2Proof.Machine.execWalkReadResponse r id s
  | .outriderWalk c k => Sys2Proof.Machine.execOutriderWalk c k s
  | .faultRecordWrite => Sys2Proof.Machine.execFaultRecordWrite s
  | .faultQEnable w => Sys2Proof.Machine.execFaultQEnable w s
  | .resolve l => Sys2Proof.Machine.execResolve l s
  | .invalMulticast l a bytes => Sys2Proof.Machine.execInvalMulticast l a bytes s
  | .descIn w => Sys2Proof.Machine.execDescIn w s
  | .invalAccept => Sys2Proof.Machine.execInvalAccept s
  | .drainRaise => Sys2Proof.Machine.execDrainRaise s
  | .invalCompletion => Sys2Proof.Machine.execInvalCompletion s
  | .doorbell w => Sys2Proof.Machine.execDoorbell w s
  | .qctlEnable w => Sys2Proof.Machine.execQctlEnable w s
  | .entryTake q w => Sys2Proof.Machine.execEntryTake q w s
  | .taskEntry h => Sys2Proof.Machine.execTaskEntry h s
  | .xferEntry => Sys2Proof.Machine.execXferEntry s
  | .postEntry => Sys2Proof.Machine.execPostEntry s
  | .endEntry => Sys2Proof.Machine.execEndEntry s
  | .migrateEntry => Sys2Proof.Machine.execMigrateEntry s
  | .adviseEntry => Sys2Proof.Machine.execAdviseEntry s
  | .taskPlace => Sys2Proof.Machine.execTaskPlace s
  | .taskDispatch x => Sys2Proof.Machine.execTaskDispatch x s
  | .taskSwitch => Sys2Proof.Machine.execTaskSwitch s
  | .sliceExpire x => Sys2Proof.Machine.execSliceExpire x s
  | .sideTask => Sys2Proof.Machine.execSideTask s
  | .vlimitSwitch c => Sys2Proof.Machine.execVlimitSwitch c s
  | .ctxDone w => Sys2Proof.Machine.execCtxDone w s
  | .taskEnd h => Sys2Proof.Machine.execTaskEnd h s
  | .endTask l => Sys2Proof.Machine.execEnd l s
  | .fence l => Sys2Proof.Machine.execFence l s
  | .unfence l => Sys2Proof.Machine.execUnfence l s
  | .relocateGroup c => Sys2Proof.Machine.execRelocateGroup c s
  | .configRequest f w => Sys2Proof.Machine.execConfigRequest f w s
  | .hostBar2Access f a n d => Sys2Proof.Machine.execHostBar2Access f a n d s
  | .hostCompletion id data err => Sys2Proof.Machine.execHostCompletion id data err s
  | .hostCompletionTimeout id => Sys2Proof.Machine.execHostCompletionTimeout id s
  | .linkReset l => Sys2Proof.Machine.execLinkReset l s
  | .hostLinkUp l gen width flit => Sys2Proof.Machine.execHostLinkUp l gen width flit s
  | .hostHoldExpire l id => Sys2Proof.Machine.execHostHoldExpire l id s
  | .selfanWrite p f => Sys2Proof.Machine.execSelfanWrite p f s
  | .selfanRead p f => Sys2Proof.Machine.execSelfanRead p f s
  | .selfanWriteRsp p f => Sys2Proof.Machine.execSelfanWriteRsp p f s
  | .selfanReadRsp p f => Sys2Proof.Machine.execSelfanReadRsp p f s
  | .linkControlFlit p nak lseq credits good => Sys2Proof.Machine.execLinkControlFlit p nak lseq credits good s
  | .replayTimeout p => Sys2Proof.Machine.execReplayTimeout p s
  | .ethernetFrame p etype dst fcs b => Sys2Proof.Machine.execEthernetFrame p etype dst fcs b s
  | .ethReplayTimeout n => Sys2Proof.Machine.execEthReplayTimeout n s
  | .portLockLoss p => Sys2Proof.Machine.execPortLockLoss p s
  | .couplingTimeout n wr tag => Sys2Proof.Machine.execCouplingTimeout n wr tag s
  | .notifyDeliver id => Sys2Proof.Machine.execNotifyDeliver id s
  | .coupleEntryWrite w => Sys2Proof.Machine.execCoupleEntryWrite w s
  | .train p l => Sys2Proof.Machine.execTrain p l s
  | .down p l => Sys2Proof.Machine.execDown p l s
  | .linkTrainDone p ok seen => Sys2Proof.Machine.execLinkTrainDone p ok seen s
  | .stageTimerExpire => Sys2Proof.Machine.execStageTimerExpire s
  | .stagingPost => Sys2Proof.Machine.execStagingPost s
  | .postQuiesced => Sys2Proof.Machine.execPostQuiesced s
  | .postCommit => Sys2Proof.Machine.execPostCommit s
  | .postQuiesceTimeout => Sys2Proof.Machine.execPostQuiesceTimeout s
  | .postRetry => Sys2Proof.Machine.execPostRetry s
  | .logOverflow => Sys2Proof.Machine.execLogOverflow s
  | .recoveryEvent d => Sys2Proof.Machine.execRecoveryEvent d s
  | .levelARepairDone => Sys2Proof.Machine.execLevelARepairDone s
  | .rollbackStop => Sys2Proof.Machine.execRollbackStop s
  | .rollbackRestore => Sys2Proof.Machine.execRollbackRestore s
  | .rollbackRestart => Sys2Proof.Machine.execRollbackRestart s
  | .reexecDataApply => Sys2Proof.Machine.execReexecDataApply s
  | .diverge h => Sys2Proof.Machine.execDiverge h s
  | .reexecEnd => Sys2Proof.Machine.execReexecEnd s
  | .arm l => Sys2Proof.Machine.execArm l s
  | .disarm l => Sys2Proof.Machine.execDisarm l s
  | .post l => Sys2Proof.Machine.execPost l s
  | .rollback l => Sys2Proof.Machine.execRollback l s
  | .abandon l => Sys2Proof.Machine.execAbandon l s
  | .register l => Sys2Proof.Machine.execRegister l s
  | .release l => Sys2Proof.Machine.execRelease l s
  | .governorAllocate p => Sys2Proof.Machine.execGovernorAllocate p s
  | .rakeLoop r mw => Sys2Proof.Machine.execRakeLoop r mw s
  | .sagWarning n mv => Sys2Proof.Machine.execSagWarning n mv s
  | .sagClear => Sys2Proof.Machine.execSagClear s
  | .supplyReset n mv => Sys2Proof.Machine.execSupplyReset n mv s
  | .thermalSample t => Sys2Proof.Machine.execThermalSample t s
  | .leakStop => Sys2Proof.Machine.execLeakStop s
  | .stopReset => Sys2Proof.Machine.execStopReset s
  | .flowUpdate pulses => Sys2Proof.Machine.execFlowUpdate pulses s
  | .demandUpdate max100 p1ms => Sys2Proof.Machine.execDemandUpdate max100 p1ms s
  | .cduInletRead t => Sys2Proof.Machine.execCduInletRead t s
  | .cduDemandWrite ok => Sys2Proof.Machine.execCduDemandWrite ok s
  | .cduStatusWrite ok => Sys2Proof.Machine.execCduStatusWrite ok s
  | .setEndpointId k eid => Sys2Proof.Machine.execSetEndpointId k eid s
  | .getEndpointId k => Sys2Proof.Machine.execGetEndpointId k s
  | .getEndpointUuid k => Sys2Proof.Machine.execGetEndpointUuid k s
  | .getMctpVersionSupport k => Sys2Proof.Machine.execGetMctpVersionSupport k s
  | .getMessageTypeSupport k => Sys2Proof.Machine.execGetMessageTypeSupport k s
  | .setdasa a => Sys2Proof.Machine.execSetdasa a s
  | .entdaa a => Sys2Proof.Machine.execEntdaa a s
  | .getTid k => Sys2Proof.Machine.execGetTid k s
  | .setTid k tid => Sys2Proof.Machine.execSetTid k tid s
  | .getPldmVersion k type => Sys2Proof.Machine.execGetPldmVersion k type s
  | .getPldmTypes k => Sys2Proof.Machine.execGetPldmTypes k s
  | .getPldmCommands k type => Sys2Proof.Machine.execGetPldmCommands k type s
  | .setEventReceiver k on => Sys2Proof.Machine.execSetEventReceiver k on s
  | .getPdrRepositoryInfo k => Sys2Proof.Machine.execGetPdrRepositoryInfo k s
  | .getPdr k idx => Sys2Proof.Machine.execGetPdr k idx s
  | .getSensorReading k idx late => Sys2Proof.Machine.execGetSensorReading k idx late s
  | .getStateSensorReadings k idx late => Sys2Proof.Machine.execGetStateSensorReadings k idx late s
  | .setNumericEffecterValue k v gen => Sys2Proof.Machine.execSetNumericEffecterValue k v gen s
  | .getNumericEffecterValue k late => Sys2Proof.Machine.execGetNumericEffecterValue k late s
  | .queryDeviceIdentifiers k => Sys2Proof.Machine.execQueryDeviceIdentifiers k s
  | .getFirmwareParameters k => Sys2Proof.Machine.execGetFirmwareParameters k s
  | .requestUpdate k => Sys2Proof.Machine.execRequestUpdate k s
  | .passComponentTable k id => Sys2Proof.Machine.execPassComponentTable k id s
  | .updateComponent k id len => Sys2Proof.Machine.execUpdateComponent k id len s
  | .firmwareDataResponse k d => Sys2Proof.Machine.execFirmwareDataResponse k d s
  | .activateFirmware k selfContained => Sys2Proof.Machine.execActivateFirmware k selfContained s
  | .getStatus k => Sys2Proof.Machine.execGetStatus k s
  | .cancelUpdateComponent k => Sys2Proof.Machine.execCancelUpdateComponent k s
  | .cancelUpdate k => Sys2Proof.Machine.execCancelUpdate k s
  | .getVersion k => Sys2Proof.Machine.execGetVersion k s
  | .getCapabilities k => Sys2Proof.Machine.execGetCapabilities k s
  | .negotiateAlgorithms k offer => Sys2Proof.Machine.execNegotiateAlgorithms k offer s
  | .getDigests k => Sys2Proof.Machine.execGetDigests k s
  | .getCertificate k slot off len => Sys2Proof.Machine.execGetCertificate k slot off len s
  | .challenge k slot cut => Sys2Proof.Machine.execChallenge k slot cut s
  | .getMeasurements k idx signed cut => Sys2Proof.Machine.execGetMeasurements k idx signed cut s
  | .bottomTreeReady => Sys2Proof.Machine.execBottomTreeReady s
  | .getInfo l => Sys2Proof.Machine.execGetInfo l s
  | .fwBegin l => Sys2Proof.Machine.execFwBegin l s
  | .fwWrite l => Sys2Proof.Machine.execFwWrite l s
  | .fwVerify l => Sys2Proof.Machine.execFwVerify l s
  | .fwActivate l => Sys2Proof.Machine.execFwActivate l s
  | .arbCommit l => Sys2Proof.Machine.execArbCommit l s
  | .cfgRead l => Sys2Proof.Machine.execCfgRead l s
  | .cfgWrite l => Sys2Proof.Machine.execCfgWrite l s
  | .logRead l => Sys2Proof.Machine.execLogRead l s
  | .dbgNonce l => Sys2Proof.Machine.execDbgNonce l s
  | .dbgUnlock l => Sys2Proof.Machine.execDbgUnlock l s
  | .dbgLock l => Sys2Proof.Machine.execDbgLock l s
  | .bypass => Sys2Proof.Machine.execBypass s
  | .idcode => Sys2Proof.Machine.execIdcode s
  | .samplePreload => Sys2Proof.Machine.execSamplePreload s
  | .extest => Sys2Proof.Machine.execExtest s
  | .clamp => Sys2Proof.Machine.execClamp s
  | .highz => Sys2Proof.Machine.execHighz s
  | .dbgToken t => Sys2Proof.Machine.execDbgToken t s
  | .tapDbgNonce => Sys2Proof.Machine.execTapDbgNonce s
  | .dbgAccess a => Sys2Proof.Machine.execDbgAccess a s
  | .dbgReset => Sys2Proof.Machine.execDbgReset s
  | .leakClear => Sys2Proof.Machine.execLeakClear s
  | .drayBurstResponse c k u idx => Sys2Proof.Machine.execDrayBurstResponse c k u idx s
  | .matrixFillEnd c half cycles => Sys2Proof.Machine.execMatrixFillEnd c half cycles s
  | .supplyWarningClears n mv => Sys2Proof.Machine.execSupplyWarningClears n mv s
  | .refclkLoss which present => Sys2Proof.Machine.execRefclkLoss which present s
  | .verifyComplete => Sys2Proof.Machine.execVerifyComplete s

end Sys2Proof.Machine
end

