-- ==== Sys2Proof/Machine/Idle.lean ====
section
/-! DEFINITION. What time alone does while no command waits: clocks count, running commands of pages make progress, waits are
counted (R26, R61, R299, R310, R318, R334, R374, R420, R432). -/
namespace Sys2Proof.Machine

/-- Cycles of domain `d` in this idle step: those that the configuration leaves free, none while the domain stands (R26). -/
def Chip.cyclesOf (m : Chip) (d : Nat) : Nat := if m.domRuns d then Config.elapsed d m.tick else 0

/-- Every running clock advances (R26). -/
def Chip.clocksTick (m : Chip) : Chip :=
  { m with dom := m.dom.mapIdx fun d x =>
      if x.run then { x with count := x.count + BitVec.ofNat 64 (Config.elapsed d m.tick) } else x }

/-- A counter of waits in coach cycles, while `b`. -/
def Chip.countIf (m : Chip) (b : Bool) (a n : Nat) : Chip := if b then m.count a n else m

/-- Waits of a coach's streams and requesters, `n` cycles long (R334, R374). -/
def Chip.coachWaits (m : Chip) (n : Nat) (c : Fin 64) : Chip :=
  let d := (m.coach c).dray.toList
  ((m.countIf (d.any (·.creditWait)) (K.drayCreditWait c.val) n).countIf (d.any (·.freightWait)) (K.drayFreightWait c.val) n).countIf
    (m.xlat.limited.any (·.coach == c)) (K.tlbMissWait c.val) n

/-- A packet of the port waits for a credit of its channel (R420). -/
def Chip.creditShort (m : Chip) (p : Nat) : Bool :=
  let s := m.sfPort p
  m.portUp p && !m.portEth p &&
    s.wait.any fun w => decide (s.limit.toList.getD w.pkt.channel 0 ≤ s.sent.toList.getD w.pkt.channel 0)

/-- Waits of a port for credits, `n` cycles long; codewords that its FEC corrects or not, which the line decides (R416, R432). -/
def Chip.portWaits (m : Chip) (n p : Nat) : Chip :=
  let m1 := m.countIf (m.creditShort p) (K.linkCreditWait p) n
  if m1.portUp p then
    (m1.next.next.count (K.linkFecCorr p) (Config.freeWord m1.tick).toNat).count (K.linkFecUncorr p) (Config.freeWord (m1.tick + 1)).toNat
  else m1

/-- Row accesses of a core memory that another grant delayed: which these are no rule states (R287, R311). -/
def Chip.bankWaits (m : Chip) (c : Fin 64) : Chip :=
  if m.domRuns (coachDomain c.val) then
    m.next.count (K.cmemBankWait c.val) (Config.freeWord m.tick).toNat
  else m

/-- PROGRESS of a running command rises, and stays below 1,000 (R61). -/
def Chip.progressOn (m : Chip) (p : PageId) : Chip :=
  let a := K.pageCmdStat p.base
  let n := m.fld a F.pageCmdStatProgress
  (m.setFld a F.pageCmdStatProgress (n + (Config.freeWord m.tick).toNat % (1000 - n))).next

/-- A running command goes on for as far as the free word says: the walk of a slice and the pass of a scrub, while memory is up,
the rows of a ZERO; of every other command only PROGRESS shows it. -/
def Chip.workOn (m : Chip) (p : PageId) : Chip :=
  let v := (Config.freeWord m.tick).toNat
  match p.kind with
  | .depot => if m.memUp then (m.walkTo p.inst ((m.slice p.inst).walk + v % 8193)).next else m
  | .cmem => if m.cmdCode p = 2 then (m.zeroOn p.inst (v % 8193)).next else m.progressOn p
  | .hbm =>
    let pos := m.fld (K.hbmScrubPos p.inst) F.hbmScrubPosAddr
    if m.memUp then (m.scrubTo p.inst (pos + v / 64 * 64 % (2 ^ 36 - pos))).next else m
  | _ => m.progressOn p

/-- The domain in which a page's commands run. -/
def PageId.domain (p : PageId) : Nat :=
  match p.kind with
  | .coach | .vec | .mtx | .cmem | .dray | .tlb => coachDomain p.inst
  | .tally => coachDomain (p.inst / 2)
  | .hbm => 5 + p.inst
  | .depot => 4
  | _ => 32

/-- Pages whose command runs. -/
def Chip.busyPages (m : Chip) : List PageId :=
  m.regs.filterMap fun e =>
    match pageAt e.1 with
    | some p => if e.1 = K.pageCmdStat p.base ∧ F.pageCmdStatBusy.bit e.2 then some p else none
    | none => none

/-- The waits of coaches and ports that an idle step counts. -/
def Chip.waited (m : Chip) : Chip :=
  let m1 := (List.finRange 64).foldl (fun (a : Chip) c => a.coachWaits (m.cyclesOf (coachDomain c.val)) c) m
  let m2 := (List.range 10).foldl (fun (a : Chip) p => a.portWaits (m.cyclesOf (22 + p)) p) m1
  (List.finRange 64).foldl Chip.bankWaits m2

/-- The running commands go on. -/
def Chip.working (m : Chip) : Chip :=
  m.busyPages.foldl (fun (a : Chip) p => if a.domRuns p.domain then a.workOn p else a) m

/-- Cycles of the hub in a millisecond: it runs at 400 MHz. -/
abbrev hubMs : Nat := 400000

/-- TIMER counts the milliseconds of the hub's clock since it read `was`, while the stage is open or being posted (R456, R462);
in a rollback and a re-execution it stands. Where a millisecond begins is the model's choice (log entry 2). -/
def Chip.stageTime (m : Chip) (was : W64) : Chip :=
  m.when (m.stg.armed && (m.stageState == 1 || m.stageState == 2)) fun m =>
    m.setFld K.stageTimer F.stageTimerMs
      (m.fld K.stageTimer F.stageTimerMs + ((m.counter 32).toNat / hubMs - was.toNat / hubMs))

/-- An idle step: time passes for clocks, running commands, the stage and waiters. -/
def Chip.idle (m : Chip) : Chip :=
  Chip.next (Chip.sendEvents (Chip.stageTime { m.waited.working with dom := m.clocksTick.dom } (m.counter 32)))

end Sys2Proof.Machine
end

