-- ==== Sys2Proof/Machine/Step.lean ====
section
/-! DEFINITION. One step: the command at the front of the queue, or an idle tick of the clocks. -/
namespace Sys2Proof.Machine

/-- The command at the front of the queue has its effect on the rest; with an empty queue time passes for the
clocks, the running commands and the waits (log entry 2), and the event log drains. -/
def step (s : State) : Host.Outcome State Fault Refusal :=
  match s.pending with
  | [] =>
    let d := drainLog s.nvm s.chip.idle
    .next { s with nvm := d.1, chip := d.2 }
  | i :: rest => exec i { s with pending := rest }

/-- The command that a word spells at the front of the queue; the table gives no row bits, so no word spells one. -/
def State.withFetchWord (s : State) (nbits w : Nat) : State :=
  match Sys2Proof.decodeTableWord nbits w with
  | some i => { s with pending := i :: s.pending }
  | none => s

end Sys2Proof.Machine
end

