-- ==== Sys2Proof/WellFormed.lean ====
section
/-! DEFINITION. Which commands the interfaces of the part can bring: data as long as the access that carries it, offsets
in the register space, packets of their own type. `exec` is total: it answers for every term. -/
namespace Sys2Proof
open Sys2Proof.Machine

/-- A write to the register space: BAR0 holds 128 MiB (R54), and an access carries at most 64 bytes. -/
def Machine.Wr.wf (w : Wr) : Bool := decide (w.off < 0x08000000 ∧ 1 ≤ w.size ∧ w.size ≤ 64)

def Machine.RegAcc.wf (a : RegAcc) : Bool :=
  match a with
  | .read _ off size => decide (off < 0x08000000 ∧ 1 ≤ size ∧ size ≤ 64)
  | .write w => w.wf

/-- The instance exists (R54). -/
def Machine.PageId.wf (p : PageId) : Bool := decide (p.inst < pageCount p.kind)

/-- The data of a write is as long as the access. -/
def dataOf (n : Nat) (d : Option (List Byte)) : Bool :=
  match d with
  | some l => l.length == n
  | none => true

/-- Header words of type `t`, with a payload as long as they say: only a write and a read response carry one (R417). -/
def Machine.Flits.wf (f : Flits) (t : PktType) : Bool :=
  let n := f.w2.toNat / 2 ^ 40 % 512 + 1
  let ok := decide (f.w2.toNat / 2 ^ 32 % 256 = 0)
  (match t with
    | .write => decide (f.w0.toNat % 16 = 1 ∧ f.data.length = n)
    | .read => decide (f.w0.toNat % 16 = 2) && f.data.isEmpty
    | .writeRsp => decide (f.w0.toNat % 16 = 3) && f.data.isEmpty
    | .readRsp => decide (f.w0.toNat % 16 = 4) && decide (f.data.length = if ok then n else 0))

/-- The command is one that its sender can send. -/
def Instr.wf (i : Instr) : Bool :=
  match i with
  | .registerWrite w => w.wf
  | .cmData a => a.wf
  | .vregData a => a.wf
  | .obufData a => a.wf
  | .dbgAccess a => a.wf
  | .commandEnd p => p.wf
  | .readToClear _ off _ => decide (off < 0x08000000)
  | .cmemFabricAccess _ cls _ n d => dataOf n d && decide (1 ≤ cls ∧ cls ≤ 4)
  | .depotAccess _ cls _ n d _ _ => dataOf n d && decide (1 ≤ cls ∧ cls ≤ 4)
  | .hostBar2Access _ _ n d => dataOf n d
  | .hbmWrite _ _ d _ => decide (d.length ≤ 64)
  | .invalMulticast _ _ bytes => decide (bytes.length ≤ 4096)
  | .hostLinkUp _ gen width _ => decide (1 ≤ gen ∧ gen ≤ 7) && ([1, 2, 4, 8, 16] : List Nat).contains width
  | .selfanWrite _ f => f.wf .write
  | .selfanRead _ f => f.wf .read
  | .selfanWriteRsp _ f => f.wf .writeRsp
  | .selfanReadRsp _ f => f.wf .readRsp
  | .getPldmVersion _ type => decide (type < 64)
  | .getPldmCommands _ type => decide (type < 64)
  | .evtEnableWrite w => w.wf
  | .errPop w => w.wf
  | .discard w => w.wf
  | .chockRelease w => w.wf
  | .evSet w => w.wf
  | .partWrite w => w.wf
  | .faultQEnable w => w.wf
  | .descIn w => w.wf
  | .doorbell w => w.wf
  | .qctlEnable w => w.wf
  | .ctxDone w => w.wf
  | .coupleEntryWrite w => w.wf
  | .vstby33Rise .. | .vstby33Fall .. | .porRelease .. | .mainPowerGood .. | .hubRailsUp .. | .ostlerImageVerify ..
  | .coolantCheck .. | .coolFail .. | .railRampDone .. | .hbmTrainingDone .. | .rakeRelease .. | .moduleReady ..
  | .perst0Assert .. | .moduleResetRelease .. | .perst0Deassert .. | .perst1Change .. | .hostLinkTrain ..
  | .refclkSwitch .. | .jtagTrst .. | .ostlerWatchdog .. | .ostlerBoot .. | .snap .. | .moduleReset ..
  | .rakeReset .. | .ostlerReset .. | .lit .. | .nop .. | .litw .. | .drop .. | .dup .. | .swap .. | .over ..
  | .rot .. | .nip .. | .tuck .. | .pick .. | .drop2 .. | .dup2 .. | .swap2 .. | .depth .. | .tor .. | .fromr ..
  | .rfetch .. | .rdepth .. | .add .. | .adc .. | .sub .. | .sbb .. | .neg .. | .inc .. | .dec .. | .mul ..
  | .muls .. | .udivmod .. | .and_ .. | .or_ .. | .xor .. | .not_ .. | .shl .. | .shr .. | .sar .. | .rol .. | .eq ..
  | .ne .. | .ltu .. | .lts .. | .geu .. | .ges .. | .zeq .. | .rdsr .. | .wrsr .. | .cnt .. | .fetch .. | .store ..
  | .fetchp .. | .storep .. | .fetch4 .. | .store4 .. | .br .. | .bz .. | .bnz .. | .call .. | .ret .. | .brx ..
  | .callx .. | .loop .. | .endloop .. | .lpush .. | .lpop .. | .waitev .. | .sendev .. | .eventDeliver ..
  | .waituntil .. | .waituntilExpire .. | .waitRelease .. | .evpoll .. | .evpeek .. | .evclr .. | .syscall ..
  | .sysret .. | .tret .. | .brake .. | .unbrake .. | .setmode .. | .tstable .. | .vclaim .. | .vclaimGrant ..
  | .vclaimLimitExpire .. | .vrel .. | .trapEntry .. | .intPendSet .. | .cmpMatch .. | .brakeLimitExpire ..
  | .hubStop .. | .start .. | .stop .. | .vflush .. | .vsetvl .. | .vsettype .. | .vsetctl .. | .vsetaccs ..
  | .vfadd .. | .vfsub .. | .vfmul .. | .vfmin .. | .vfmax .. | .vfma .. | .vfms .. | .vfnma .. | .vfsgnj ..
  | .vfabs .. | .vfneg .. | .vfrece .. | .vfrsqe .. | .vfrecs .. | .vfrsqs .. | .vadd .. | .vsub .. | .vmul ..
  | .vmulh .. | .vmin .. | .vmax .. | .vand .. | .vor .. | .vxor .. | .vshl .. | .vshr .. | .vpopc .. | .vcvt ..
  | .vrescale .. | .vcadd .. | .vmv .. | .vbcast .. | .vmerge .. | .vmeq .. | .vmne .. | .vmlt .. | .vmle ..
  | .vmgt .. | .vmge .. | .vfsumo .. | .vfsumt .. | .vxsum .. | .vxdot .. | .vfmaxr .. | .vfminr .. | .visum ..
  | .vimaxr .. | .viminr .. | .vandr .. | .vorr .. | .vxorr .. | .vcompress .. | .vexpand .. | .viota .. | .vid ..
  | .vrgather .. | .vslideup .. | .vslidedn .. | .vins .. | .vext .. | .vexth .. | .vrdcfg .. | .vmand .. | .vmor ..
  | .vmxor .. | .vmandn .. | .vmnot .. | .vmset .. | .vmclr .. | .vmmv .. | .vmpop .. | .vmfirst .. | .vldr ..
  | .vstr .. | .vld .. | .vst .. | .vlds .. | .vsts .. | .vldx .. | .vstx .. | .vecEntryStart ..
  | .vecElementResponse .. | .vecEntryComplete .. | .vzero .. | .missue .. | .mwait .. | .mstat ..
  | .matrixEntryStart .. | .matrixPrepare .. | .matrixEntryClose .. | .matrixEntryCommit .. | .mtxModeChange ..
  | .clear .. | .drgo .. | .drwait .. | .drstat .. | .drayDescStart .. | .drayBurstIssue .. | .drayDescComplete ..
  | .qpower .. | .quarterReady .. | .zero .. | .bufzero .. | .depotLineFill .. | .split .. | .writebackRaise ..
  | .flush .. | .flushInval .. | .hbmRead .. | .scrub .. | .patrolStart .. | .freightDrayGrant .. | .freightJobEnd ..
  | .pageWalk .. | .walkReadResponse .. | .outriderWalk .. | .faultRecordWrite .. | .resolve .. | .invalAccept ..
  | .drainRaise .. | .invalCompletion .. | .entryTake .. | .taskEntry .. | .xferEntry .. | .postEntry ..
  | .endEntry .. | .migrateEntry .. | .adviseEntry .. | .taskPlace .. | .taskDispatch .. | .taskSwitch ..
  | .sliceExpire .. | .sideTask .. | .vlimitSwitch .. | .taskEnd .. | .endTask .. | .fence .. | .unfence ..
  | .relocateGroup .. | .configRequest .. | .hostCompletion .. | .hostCompletionTimeout .. | .linkReset ..
  | .hostHoldExpire .. | .linkControlFlit .. | .replayTimeout .. | .ethernetFrame .. | .ethReplayTimeout ..
  | .portLockLoss .. | .couplingTimeout .. | .notifyDeliver .. | .train .. | .down .. | .linkTrainDone ..
  | .stageTimerExpire .. | .stagingPost .. | .postQuiesced .. | .postCommit .. | .postQuiesceTimeout ..
  | .postRetry .. | .logOverflow .. | .recoveryEvent .. | .levelARepairDone .. | .rollbackStop ..
  | .rollbackRestore .. | .rollbackRestart .. | .reexecDataApply .. | .diverge .. | .reexecEnd .. | .arm ..
  | .disarm .. | .post .. | .rollback .. | .abandon .. | .register .. | .release .. | .governorAllocate ..
  | .rakeLoop .. | .sagWarning .. | .sagClear .. | .supplyReset .. | .thermalSample .. | .leakStop .. | .stopReset ..
  | .flowUpdate .. | .demandUpdate .. | .cduInletRead .. | .cduDemandWrite .. | .cduStatusWrite ..
  | .setEndpointId .. | .getEndpointId .. | .getEndpointUuid .. | .getMctpVersionSupport ..
  | .getMessageTypeSupport .. | .setdasa .. | .entdaa .. | .getTid .. | .setTid .. | .getPldmTypes ..
  | .setEventReceiver .. | .getPdrRepositoryInfo .. | .getPdr .. | .getSensorReading .. | .getStateSensorReadings ..
  | .setNumericEffecterValue .. | .getNumericEffecterValue .. | .queryDeviceIdentifiers ..
  | .getFirmwareParameters .. | .requestUpdate .. | .passComponentTable .. | .updateComponent ..
  | .firmwareDataResponse .. | .activateFirmware .. | .getStatus .. | .cancelUpdateComponent .. | .cancelUpdate ..
  | .getVersion .. | .getCapabilities .. | .negotiateAlgorithms .. | .getDigests .. | .getCertificate ..
  | .challenge .. | .getMeasurements .. | .bottomTreeReady .. | .getInfo .. | .fwBegin .. | .fwWrite ..
  | .fwVerify .. | .fwActivate .. | .arbCommit .. | .cfgRead .. | .cfgWrite .. | .logRead .. | .dbgNonce ..
  | .dbgUnlock .. | .dbgLock .. | .bypass .. | .idcode .. | .samplePreload .. | .extest .. | .clamp .. | .highz ..
  | .dbgToken .. | .tapDbgNonce .. | .dbgReset .. | .leakClear .. | .drayBurstResponse .. | .matrixFillEnd ..
  | .supplyWarningClears .. | .refclkLoss .. | .verifyComplete .. => true

end Sys2Proof
end

