-- ==== Sys2Proof/Safety.lean ====
section
/-! DEFINITION. The terms in which statements speak: a run that does not stop, memory in its canonical form, and when an
instruction of a context is due and how it completes. -/
namespace Sys2Proof.Machine

/-- Memory is in canonical form. -/
def Chip.memWf (m : Chip) : Bool := smapWf (memDef m.veils) m.mem

/-- Every waiting command is well formed. -/
def State.queueWf (s : State) : Bool := s.pending.all Instr.wf

/-- The step answers a next state. -/
def Goes (o : Host.Outcome State Fault Refusal) : Prop := ∃ t, o = .next t

/-- A run of `n` steps that neither faults nor is refused. -/
def SafeRun (n : Nat) (s : State) : Prop := Goes (Sys2Proof.core.run n s)

/-! ### Instructions of a context -/

/-- The instruction of context `x` is `o` and is due: the context runs in a clocked coach, none of the causes that R117 puts
before it is present, and the level and the bank permit it (R112, R120). -/
structure Due (m : Chip) (x : Ctx) (o : Op) : Prop where
  running : (m.ctx x).st = .running
  clocked : m.coachOn x.coach = true
  free : m.boundary x = .go
  word : decodeOp (m.fetchWord x (m.ctx x).pc.toNat) = some o
  legal : ((m.ctx x).status.shadow && o.engine) = false
  allowed : (!(m.ctx x).status.lvl && o.priv) = false

/-- The chip after an instruction of `len` words completes: its bank is spilled, `upd` happens, the context goes on. None
where a spill is chocked or overflows. -/
def Chip.completed (m : Chip) (x : Ctx) (b : Bank) (c : Bool) (upd : Chip → Chip) (len : Nat) (next : Next) : Option Chip :=
  match m.spillAll x b with
  | .ok r => some ((upd r.1).modCtx x fun k => k.complete r.2 c len next)
  | .error _ => none

/-- The bank with `nd` data entries and `nr` return entries registered: both depths suffice and the fills succeed (R86, R87). -/
def Chip.filledTo (m : Chip) (x : Ctx) (nd nr : Nat) (b : Bank) : Prop :=
  nd ≤ (m.ctx x).bank.depth ∧ nr ≤ (m.ctx x).bank.rdepth ∧
    ∃ b1, m.fillData x nd (m.ctx x).bank 5 = .ok b1 ∧ m.fillReturn x nr b1 5 = .ok b

/-- An instruction of one word that acts on the bank and on C alone: its row, its operation, the entries that it needs, and
what it leaves, as R89 and R94 state it. -/
structure StackOp where
  row : Ctx → Sys2Proof.Instr
  op : Op
  nd : Nat
  nr : Nat
  res : Bank → Bool → Option (Bank × Bool)

/-- On the data stack alone: `f` of the entries, the top first. -/
def StackOp.data (row : Ctx → Sys2Proof.Instr) (op : Op) (nd : Nat) (f : List W16 → Option (List W16)) : StackOp :=
  ⟨row, op, nd, 0, fun b c => (f b.ds).map fun l => ({ b with ds := l }, c)⟩

/-- One entry in, one out. -/
def StackOp.one (row : Ctx → Sys2Proof.Instr) (op : Op) (f : W16 → W16) : StackOp :=
  .data row op 1 fun | a :: t => some (f a :: t) | _ => none

/-- Two entries in, one out; `a` is the lower. -/
def StackOp.two (row : Ctx → Sys2Proof.Instr) (op : Op) (f : W16 → W16 → W16) : StackOp :=
  .data row op 2 fun | b :: a :: t => some (f a b :: t) | _ => none

/-- A truth value on the stack. -/
def truth (p : Prop) [Decidable p] : W16 := if p then 0xFFFF else 0

def bit (c : Bool) : W16 := if c then 1 else 0

/-- Stack operations. -/
def stackMoves : List StackOp :=
  [.data .nop .nop 0 some,
   .data .drop .drop 1 fun | _ :: t => some t | _ => none,
   .data .dup .dup 1 fun | a :: t => some (a :: a :: t) | _ => none,
   .data .swap .swap 2 fun | b :: a :: t => some (a :: b :: t) | _ => none,
   .data .over .over 2 fun | b :: a :: t => some (a :: b :: a :: t) | _ => none,
   .data .rot .rot 3 fun | c :: b :: a :: t => some (a :: c :: b :: t) | _ => none,
   .data .nip .nip 2 fun | b :: _ :: t => some (b :: t) | _ => none,
   .data .tuck .tuck 2 fun | b :: a :: t => some (b :: a :: b :: t) | _ => none,
   .data .drop2 .drop2 2 fun | _ :: _ :: t => some t | _ => none,
   .data .dup2 .dup2 2 fun | b :: a :: t => some (b :: a :: b :: a :: t) | _ => none,
   .data .swap2 .swap2 4 fun | d :: c :: b :: a :: t => some (b :: a :: d :: c :: t) | _ => none,
   ⟨.tor, .tor, 1, 0, fun b c => match b.ds with | a :: t => some ({ b with ds := t, rs := a :: b.rs }, c) | _ => none⟩,
   ⟨.fromr, .fromr, 0, 1, fun b c => match b.rs with | a :: t => some ({ b with ds := a :: b.ds, rs := t }, c) | _ => none⟩,
   ⟨.rfetch, .rfetch, 0, 1, fun b c => match b.rs with | a :: _ => some ({ b with ds := a :: b.ds }, c) | _ => none⟩,
   ⟨.lpush, .lpush, 0, 0, fun b c => some ({ b with rs := b.le :: b.ls :: b.lc :: b.rs }, c)⟩,
   ⟨.lpop, .lpop, 0, 3, fun b c => match b.rs with
     | le :: ls :: lc :: t => some ({ b with rs := t, lc := lc, ls := ls, le := le }, c) | _ => none⟩]

/-- Arithmetic: C out of ADD and ADC is the carry, of SUB and SBB the borrow. -/
def stackSums : List StackOp :=
  [⟨.add, .add, 2, 0, fun k _ => match k.ds with
     | b :: a :: t => some ({ k with ds := (a + b) :: t }, decide (65536 ≤ a.toNat + b.toNat)) | _ => none⟩,
   ⟨.adc, .adc, 2, 0, fun k c => match k.ds with
     | b :: a :: t => some ({ k with ds := (a + b + bit c) :: t }, decide (65536 ≤ a.toNat + b.toNat + (bit c).toNat)) | _ => none⟩,
   ⟨.sub, .sub, 2, 0, fun k _ => match k.ds with
     | b :: a :: t => some ({ k with ds := (a - b) :: t }, decide (a.toNat < b.toNat)) | _ => none⟩,
   ⟨.sbb, .sbb, 2, 0, fun k c => match k.ds with
     | b :: a :: t => some ({ k with ds := (a - b - bit c) :: t }, decide (a.toNat < b.toNat + (bit c).toNat)) | _ => none⟩,
   .one .neg .neg fun a => 0 - a,
   .one .inc .inc fun a => a + 1,
   .one .dec .dec fun a => a - 1,
   .data .mul .mul 2 fun
     | b :: a :: t => some (BitVec.ofNat 16 (a.toNat * b.toNat / 65536) :: BitVec.ofNat 16 (a.toNat * b.toNat) :: t) | _ => none,
   .data .muls .muls 2 fun
     | b :: a :: t => some (BitVec.ofInt 16 (a.toInt * b.toInt / 65536) :: BitVec.ofInt 16 (a.toInt * b.toInt) :: t) | _ => none,
   .data .udivmod .udivmod 2 fun
     | b :: a :: t => some (if b = 0 then a :: 0xFFFF :: t else (a % b) :: (a / b) :: t) | _ => none]

/-- Logic and shifts by a count modulo 16. -/
def stackLogic : List StackOp :=
  [.two .and_ .and fun a b => a &&& b,
   .two .or_ .or fun a b => a ||| b,
   .two .xor .xor fun a b => a ^^^ b,
   .one .not_ .not fun a => ~~~a,
   .two .shl .shl fun a n => a <<< (n.toNat % 16),
   .two .shr .shr fun a n => BitVec.ofNat 16 (a.toNat / 2 ^ (n.toNat % 16)),
   .two .sar .sar fun a n => BitVec.ofInt 16 (a.toInt / 2 ^ (n.toNat % 16)),
   .two .rol .rol fun a n => (a <<< (n.toNat % 16)) ||| (a >>> ((16 - n.toNat % 16) % 32))]

/-- Comparisons: 0xFFFF for true, 0 for false. -/
def stackTests : List StackOp :=
  [.two .eq .eq fun a b => truth (a = b),
   .two .ne .ne fun a b => truth (a ≠ b),
   .two .ltu .ltu fun a b => truth (a.toNat < b.toNat),
   .two .lts .lts fun a b => truth (a.toInt < b.toInt),
   .two .geu .geu fun a b => truth (b.toNat ≤ a.toNat),
   .two .ges .ges fun a b => truth (b.toInt ≤ a.toInt),
   .one .zeq .zeq fun a => truth (a = 0)]


/-- The state with another chip, all else as before. -/
def State.on (s : State) (m : Chip) : State := { s with chip := m }

/-! ### The block and its start-up -/

/-- The state after a command that left `n` and `m`: entries of the event log that wait reach the flash (R507). -/
def State.settled (s : State) (n : Nvm) (m : Chip) : State :=
  let d := drainLog n m
  { s with nvm := d.1, chip := d.2 }

/-- An OSTLER reset as R33 describes it: the cause is recorded, the mailbox page and the ostler return to their reset
values, and the ostler boots again. -/
def Chip.ostlerFalls (m : Chip) : Chip :=
  let m1 := m.setFld K.rstResetCause F.rstResetCauseOstler 1
  { (m1.resetPages 0x1000 0x2000).modBoard fun b =>
      { b with ostlerUp := false, ostlerBoot := true, romLoader := false, unlogged := F.rstResetCauseOstler.put b.unlogged 1 } with
    mg := Ostler.reset }

/-- The image of slot A verifies (R494, R497): it was written whole, its key, signature and body are good, and its version is at least
the anti-rollback value. -/
def Nvm.goodA (n : Nvm) : Prop :=
  n.aCut = false ∧ n.checkA.keyOk = true ∧ n.checkA.sigOk = true ∧ n.checkA.bodyOk = true ∧ n.arb ≤ n.checkA.svn.val

/-- The image of slot B verifies. -/
def Nvm.goodB (n : Nvm) : Prop :=
  n.checkB.keyOk = true ∧ n.checkB.sigOk = true ∧ n.checkB.bodyOk = true ∧ n.arb ≤ n.checkB.svn.val

/-- The image that slot A, or slot B, gives the ostler. -/
def Nvm.imageA (n : Nvm) : Option (Nat × SMap Byte) := some (n.checkA.svn.val, n.slotA)
def Nvm.imageB (n : Nvm) : Option (Nat × SMap Byte) := some (n.checkB.svn.val, n.slotB)

/-! ### Register pages -/

/-- A write to page `p` that waits behind no descriptor of its link (R358), whose master is not frozen by a chock (a dray stream is while
it works for the task that the chock stands on, log entry 47), to a page that is served to it. -/
structure Reaches (m : Chip) (w : Wr) (p : PageId) : Prop where
  page : pageAt w.off = some p
  posted : m.stalledLink w.m = none
  free : m.frozen w.m = false
  served : m.served p w.m = true

/-- Its size and alignment are those of R56. -/
def Wr.sized (w : Wr) (p : PageId) : Prop :=
  (w.size = 4 ∨ w.size = 8) ∧ w.off % w.size = 0 ∧ (w.reg = K.pageCmd p.base → w.size = 8)

/-- The write waits behind no descriptor of its link (R358) and passes every check of R71. -/
structure Taken (m : Chip) (w : Wr) (p : PageId) : Prop where
  page : pageAt w.off = some p
  posted : m.stalledLink w.m = none
  accepted : m.judge w (m.heldChange w) = .accepted

/-- The chip after an accepted write: RUN follows, and the ostler and the debugger are answered. -/
def Chip.wrote (m : Chip) (p : PageId) (w : Wr) : Chip := (m.syncRun p).answer w.m 0

/-- The register that a write to page `p` names, with its new value, for a register without effects. -/
structure Plain (m : Chip) (w : Wr) (p : PageId) (r : RegRow) : Prop where
  row : w.row p = some r
  block : 0x100 ≤ w.reg - p.base
  live : r.staged = 0
  kind : p.kind ∈ [PageKind.glob, .pwr, .cool, .stage, .xlat, .time, .sec, .func, .mtx, .dray, .tally, .depot,
    .hbm, .link, .hostif, .clk, .rst]

/-- The command codes that a page defines (R61 and the page's own rules); every other code is BAD_CODE. -/
def PageKind.codes : PageKind → List Nat
  | .time | .vec | .tally | .hbm | .fault => [1]
  | .rst | .coach | .cmem | .depot | .shunt => [1, 2, 3]
  | .link => [1, 2]
  | .stage => [1, 2, 3, 4, 5, 6, 7]
  | .mbox => [1, 2, 3, 4, 5, 6, 7, 8, 9, 10, 11, 12]
  | _ => []

/-- The command of page `p` has ended without an error (R61). -/
structure Ended (b : Chip) (p : PageId) : Prop where
  busy : b.busy p = false
  done : b.fld (K.pageCmdStat p.base) F.pageCmdStatDone = 1
  ok : b.fld (K.pageCmdStat p.base) F.pageCmdStatErr = 0
  progress : b.fld (K.pageCmdStat p.base) F.pageCmdStatProgress = 1000
  event : (b.reg (K.pageEvt p.base)).getLsbD 0 = true

/-! ### Instructions that complete -/

/-- Row `i` completes the instruction at the PC of `x`: with its spills done it leaves bank `b` and carry `c`, does `upd`,
takes `len` words and goes on at `next`. -/
def Completes (i : Sys2Proof.Instr) (s : State) (x : Ctx) (b : Bank) (c : Bool) (upd : Chip → Chip) (len : Nat) (next : Next) :
    Prop :=
  ∀ m', (s.chip.tallyBoundary x).completed x b c upd len next = some m' → exec i s = .next (s.on m')

/-- The same for an instruction of an engine: the RUN bits of the coach's pages follow. -/
def Starts (i : Sys2Proof.Instr) (s : State) (x : Ctx) (b : Bank) (upd : Chip → Chip) : Prop :=
  ∀ m', (s.chip.tallyBoundary x).completed x b (s.chip.ctx x).status.c upd 1 .seq = some m' →
    exec i s = .next (s.on (m'.syncCoach x.coach))

/-- The instruction waits with its operands on the stack, after `upd`. -/
def Chip.nowWaits (m : Chip) (x : Ctx) (w : Wait) (upd : Chip → Chip) : Chip :=
  (upd m).modCtx x fun k => { k with st := .waiting, wait := w }

/-- The value that an instruction of R104 takes and what becomes of the stage log: live, it is recorded; in a re-execution it
is that of its next record. -/
def Chip.takes (m : Chip) (x : Ctx) (kind : LogKind) (live : Option W64) (v : W64) (upd : Chip → Chip) : Prop :=
  ((m.reexec = false ∨ m.replay (ctxId x) (m.ctx x).task kind = .live) ∧ live = some v ∧ m.logStalls 0 = false ∧
    upd = fun m' => m'.logRec (ctxRec x (m.ctx x) kind v)) ∨
  (m.reexec = true ∧ upd = Chip.logReach ∧ ∃ r, m.replay (ctxId x) (m.ctx x).task kind = .value r ∧ v = r.value)

/-- Events `v` leave the event register. -/
def Chip.consume (m : Chip) (x : Ctx) (v : W64) : Chip :=
  m.modCtx x fun k => { k with events := k.events &&& ~~~ (v.truncate 16) }

/-- Words `[a, a + n)` of the level's space are in range. -/
def Context.reaches (k : Context) (a : W16) (n : Nat) : Prop := ∀ i < n, k.inRange (a.toNat + i) = true

/-- They hold `l`, the lowest address first. -/
def Chip.holds (m : Chip) (x : Ctx) (a : W16) (l : List W16) : Prop :=
  (m.ctx x).reaches a l.length ∧ ∀ i (h : i < l.length), m.loadWord x (a.toNat + i) = l[i]

/-- The row of a vector instruction; `sc` says whether the scalar form is meant. -/
def vecInsn (o : VOp) (x : Ctx) (sc : Bool) : Sys2Proof.Instr :=
  match o with
  | .vsetvl => .vsetvl x | .vsettype => .vsettype x | .vsetctl => .vsetctl x | .vsetaccs => .vsetaccs x
  | .vfadd => .vfadd x sc | .vfsub => .vfsub x sc | .vfmul => .vfmul x sc | .vfmin => .vfmin x sc
  | .vfmax => .vfmax x sc | .vfma => .vfma x sc | .vfms => .vfms x sc | .vfnma => .vfnma x sc
  | .vfsgnj => .vfsgnj x sc | .vfabs => .vfabs x | .vfneg => .vfneg x | .vfrece => .vfrece x
  | .vfrsqe => .vfrsqe x | .vfrecs => .vfrecs x sc | .vfrsqs => .vfrsqs x sc | .vadd => .vadd x sc
  | .vsub => .vsub x sc | .vmul => .vmul x sc | .vmulh => .vmulh x sc | .vmin => .vmin x sc
  | .vmax => .vmax x sc | .vand => .vand x sc | .vor => .vor x sc | .vxor => .vxor x sc
  | .vshl => .vshl x sc | .vshr => .vshr x sc | .vpopc => .vpopc x | .vcvt => .vcvt x
  | .vrescale => .vrescale x | .vcadd => .vcadd x | .vmv => .vmv x | .vbcast => .vbcast x
  | .vmerge => .vmerge x | .vmeq => .vmeq x sc | .vmne => .vmne x sc | .vmlt => .vmlt x sc
  | .vmle => .vmle x sc | .vmgt => .vmgt x sc | .vmge => .vmge x sc | .vfsumo => .vfsumo x
  | .vfsumt => .vfsumt x | .vxsum => .vxsum x | .vxdot => .vxdot x | .vfmaxr => .vfmaxr x
  | .vfminr => .vfminr x | .visum => .visum x | .vimaxr => .vimaxr x | .viminr => .viminr x
  | .vandr => .vandr x | .vorr => .vorr x | .vxorr => .vxorr x | .vcompress => .vcompress x
  | .vexpand => .vexpand x | .viota => .viota x | .vid => .vid x | .vrgather => .vrgather x
  | .vslideup => .vslideup x | .vslidedn => .vslidedn x | .vins => .vins x | .vext => .vext x
  | .vexth => .vexth x | .vrdcfg => .vrdcfg x | .vmand => .vmand x | .vmor => .vmor x
  | .vmxor => .vmxor x | .vmandn => .vmandn x | .vmnot => .vmnot x | .vmset => .vmset x
  | .vmclr => .vmclr x | .vmmv => .vmmv x | .vmpop => .vmpop x | .vmfirst => .vmfirst x
  | .vldr => .vldr x | .vstr => .vstr x | .vld => .vld x | .vst => .vst x
  | .vlds => .vlds x | .vsts => .vsts x | .vldx => .vldx x | .vstx => .vstx x

/-- Special registers that WRSR writes at supervisor level besides the banks and INT_ACK. -/
def supervisorWritable : List Nat :=
  [0x40, 0x41, 0x42, 0x43, 0x44, 0x45, 0x46, 0x47, 0x48, 0x4F, 0x61, 0x63, 0x64, 0x65, 0x66, 0x67] ++
    (List.range 16).map (0x50 + ·)

/-! ### Traps, waits and claims -/

/-- The context runs or waits in a clocked coach, no event has been taken, no hub stop applies, and its PC and the operand word of its instruction are in range (R117). -/
structure AtBoundary (m : Chip) (x : Ctx) : Prop where
  going : (m.ctx x).st = .running ∨ (m.ctx x).st = .waiting
  clocked : m.coachOn x.coach = true
  fresh : (m.ctx x).entering = none
  hub : (m.ctx x).hubDue = false
  pc : (m.ctx x).inRange (m.ctx x).pc.toNat = true
  operand : m.lenOf x = 2 → (m.ctx x).inRange ((m.ctx x).pc + 1).toNat = true

/-- No deferred fault can be taken. -/
def Context.noDeferred (k : Context) : Prop :=
  k.status.stable = false ∨ (k.defMtx = none ∧ k.defVec = none ∧ k.defDray = [])

/-- What a context keeps through an instruction that acts on the stacks and C alone. -/
def Context.rest (k : Context) : Context :=
  { k with pc := 0, st := .running, wait := .none, main := Bank.reset, shadow := Bank.reset, retired := 0, looped := false, stale := [],
           status := { k.status with c := false } }

/-- `t` is `m` after an instruction of context `x` that leaves bank `b` and carry `c` and has no other effect. -/
structure StackFrame (m t : Chip) (x : Ctx) (b : Bank) (c : Bool) : Prop where
  chip : t = { m with coaches := t.coaches, cm := t.cm }
  others : ∀ d : Fin 64, d ≠ x.coach → t.coach d = m.coach d
  coach : t.coach x.coach = { m.coach x.coach with fore := (t.coach x.coach).fore, aft := (t.coach x.coach).aft }
  rest : (t.ctx x).rest = (m.ctx x).rest
  retired : (t.ctx x).retired = (m.ctx x).retired + 1
  carry : (t.ctx x).status.c = c
  bank : if (m.ctx x).status.shadow then (t.ctx x).main = (m.ctx x).main else (t.ctx x).shadow = (m.ctx x).shadow
  other : ∃ l, t.ctx ⟨x.coach, !x.aft⟩ = { m.ctx ⟨x.coach, !x.aft⟩ with stale := l }
  words : ∀ (d : Fin 64) (a : Nat), a < 65536 →
    (d = x.coach → ∀ i < 4, a ≠ ((m.ctx x).phys b.dsp.toNat + i) % 65536 ∧ a ≠ ((m.ctx x).phys b.rsp.toNat + i) % 65536) →
    t.cmWord d a = m.cmWord d a

/-- The state with `m` after a row of coach `c`. -/
def State.onCoach (s : State) (c : Fin 64) (m : Chip) : State := s.on (m.syncCoach c)

/-! ### Page commands -/

/-- Row `i` is command `code` of page `p`: where the write waits behind no descriptor of its link (R358) and passes the checks
of R71 the command is launched, `f` happens to the chip, and the ostler or the debugger is answered. -/
def Launches (i : Sys2Proof.Instr) (s : State) (p : PageId) (code : Nat) (l : Launch) (f : Chip → Chip) : Prop :=
  s.chip.stalledLink l.m = none → s.chip.judge (l.wr p code) false = .accepted → exec i s = .next (s.on ((f (s.chip.beginCmd p code l)).answer l.m 0))

/-- The same for a command that leaves `n` behind, with entries of the event log. -/
def LaunchesTo (i : Sys2Proof.Instr) (s : State) (p : PageId) (code : Nat) (l : Launch) (n : Nvm) (f : Chip → Chip) : Prop :=
  s.chip.stalledLink l.m = none → s.chip.judge (l.wr p code) false = .accepted → exec i s = .next (s.settled n ((f (s.chip.beginCmd p code l)).answer l.m 0))

/-- A coach of the rake holds a resident task partition and is not fenced. -/
def Chip.rakeHolds (m : Chip) (r : Nat) : Prop :=
  ∃ c : Fin 64, c.val / 16 = r ∧ m.flag (K.shuntCoachCfg c) F.shuntCoachCfgFenced = false ∧
    ∃ i : Fin 8, m.flag (K.cmemPart c i) F.cmemPartValid = true

/-! ### Engines -/

/-- Coach `c` is clocked and entry `e` heads its vector queue, `t` behind it. -/
structure VecHead (m : Chip) (c : Fin 64) (e : VEntry) (t : List VEntry) : Prop where
  clocked : m.coachOn c = true
  queue : (m.vec c).q = e :: t

/-- Entry `e` of coach `c` is next to start on pipeline `half`: the pipeline is not stopped, no MODE change waits, its side is
served and it heads the side's queue. -/
structure MtxNext (m : Chip) (c : Fin 64) (half : Bool) (e : MEntry) : Prop where
  clocked : m.coachOn c = true
  mode : m.pend ⟨.mtx, c⟩ = false
  go : (if half then (m.mtx c).stop1 else (m.mtx c).stop0) = false
  bufs : m.bufZeroing c = false
  side : m.mtxSide c half = some e.aft
  head : (m.mtx c).head e.aft = some e

/-- Descriptor `e` heads stream `k` of a clocked coach, `q` behind it. -/
structure DrayHead (m : Chip) (c : Fin 64) (k : Fin 8) (e : DDesc) (q : List DDesc) : Prop where
  clocked : m.coachOn c = true
  queue : (m.stream c k).q = e :: q

/-- An integer operation of R197 on `w`-bit elements, as exact arithmetic. -/
def intResult (o : VOp) (w a b : Nat) : Option Nat :=
  match o with
  | .vadd => some ((a + b) % 2 ^ w)
  | .vsub => some ((a + 2 ^ w - b) % 2 ^ w)
  | .vmul => some (a * b % 2 ^ w)
  | .vand => some (a &&& b)
  | .vor => some (a ||| b)
  | .vxor => some (a ^^^ b)
  | _ => none

/-! ### Memory and translation -/

/-- An access of `n` bytes at `a` in whole 8-byte words of row `p` of coach `c`, at byte `off` of the row (R278). -/
structure RowShaped (a n c p off : Nat) : Prop where
  region : regionOf a = .core c p off
  words : a % 8 = 0 ∧ n % 8 = 0
  inRow : 0 < n ∧ off + n ≤ 512

/-- The HBM address `a` lies at line `l` of stack `i`, and no block of the access is known bad. -/
structure AtLine (m : Chip) (a n i l : Nat) : Prop where
  hbm : a + n ≤ 0x10000000000
  line : m.stackOf a = (i, l)
  good : m.badBlocks a n = []

/-- The requests of `q` that wait for page `w.page` of its ASID in rake `r`. -/
def Chip.waitsOn (m : Chip) (r : Nat) (w : XWalk) : List XMiss :=
  m.xlat.miss.filter fun q => decide (q.req.coach.val / 16 = r) && q.asid == w.asid && decide (q.va / 65536 = w.page)

/-! ### The shunter -/

/-- `e` is the oldest entry of type `ty` that may start and satisfies `p`, and no post, rollback or level-C hold stops the
shunter (R378, R400). -/
structure EntryNext (m : Chip) (ty : Nat) (p : SEntry → Bool) (e : SEntry) : Prop where
  free : m.shuntHold = false
  next : m.nextEntry ty p = some e

/-- The entry completes with a status and a result, and leaves. -/
def Chip.entryEnds (m : Chip) (e : SEntry) (status result : Nat) (m' : Chip) : Prop :=
  ∃ b, m.complete e.queue e.words[0] status result 0 = some b ∧ m' = b.dropSEntry e

/-- A switch of context `x` away from task `u` is decided, for task `t` (R392). -/
def Chip.leaves (m : Chip) (x : Ctx) (u : Task) (h : HubStop) (t : W16) : Chip :=
  (m.modCtx x fun k => if k.stopReq.elem h then k else { k with stopReq := k.stopReq ++ [h] }).modTask u.handle fun u =>
    { u with st := .leaving, forTask := some t }

/-! ### Host and peers -/

/-- The chip once port `p` has accepted packet `k` with number `lseq`: acknowledged and counted (R417, R419). -/
def Chip.accepted (m : Chip) (p : Nat) (lseq : BitVec 12) (k : Packet) : Chip :=
  (((m.modPort p fun s => { s with flit := { s.flit with rx := s.flit.rx + 1, naked := false }, got := vinc s.got k.channel }).linkFlit
    p true lseq).count (K.linkRxPkts p) 1).count (K.linkRxBytes p) k.payload

/-- The words `f` arrive good and in order at a flit port that is up; they spell packet `k`, for this module. -/
structure Lands (m : Chip) (p : Fin 10) (f : Flits) (k : Packet) : Prop where
  up : m.portUp p = true
  flit : m.portEth p = false
  good : f.good = true
  spells : f.packet = some k
  order : f.lseq = (m.sfPort p).flit.rx
  here : k.dst = m.ownAddr
  room : m.arrivalStalls k = false

/-- `i` is the row of words that arrive as a packet of this type. -/
def PacketRow (p : Fin 10) (f : Flits) (typ : PktType) (i : Sys2Proof.Instr) : Prop :=
  match typ with
  | .write => i = .selfanWrite p f
  | .read => i = .selfanRead p f
  | .writeRsp => i = .selfanWriteRsp p f
  | .readRsp => i = .selfanReadRsp p f

/-! ### The stage -/

/-- The image that a post takes: every context's vector state saved, the counts of the stage restarted (R442, R444). -/
def Chip.postImage (m : Chip) : Image := m.saveAllVec.freshCounts.imageOf

/-- The STAGE page is BUSY for the stage controller (R441, R452). -/
def Chip.heldPage (m : Chip) : Chip :=
  (m.setReg (K.pageCmdStat stagePage.base) (F.pageCmdStatIssuer.put (F.pageCmdStatBusy.put (m.reg (K.pageCmdStat stagePage.base)) 1) 0x8005)).count
    (K.pageGen stagePage.base) 1

/-- It is BUSY no longer: the command that waits for this ends with `err` (R463). -/
def Chip.freedPage (m : Chip) (err : Nat) : Chip :=
  if m.stg.postCmd = 0 then (m.setFld (K.pageCmdStat stagePage.base) F.pageCmdStatBusy 0).count (K.pageGen stagePage.base) 1
  else ({ m with stg := { m.stg with postCmd := 0 } } : Chip).endCmd ⟨.stage, 0⟩ err

/-- Event `e` is noted at level `lev`: EVT_INFO, EVT_ADDR, EVT_STAMP and an EVENT record (R462, R463). -/
def Chip.noted (m : Chip) (e : RecEvent) (lev : Nat) : Chip :=
  let info := e.cause + lev * 2 ^ 8 + e.unit.toNat * 2 ^ 16
  (((m.setReg K.stageEvtInfo (BitVec.ofNat 64 info)).setReg K.stageEvtAddr e.addr).setReg K.stageEvtStamp e.stamp).record ⟨.stage, 0⟩ 0x86
    e.unit (some info) (some e.addr.toNat) (e.stamp.toNat / 2 ^ 58)

/-- A context as the Stop phase leaves it (R452). -/
def Context.halted (k : Context) : Context :=
  if k.st.going then { k with st := .stopped, wait := .none, entering := none, stopReq := k.stopReq.filter (· != .quiesce) ++ [.quiesce] }
  else k

/-- A context as the Restart leaves it: one that was asked to quiesce goes on, unless another stop keeps it (R452). -/
def Context.resumed (k : Context) : Context :=
  if k.stopReq.elem .quiesce then
    let r := k.stopReq.filter (· != .quiesce)
    { k with stopReq := r, st := if k.st == .stopped && r.isEmpty then .running else k.st }
  else k

/-- No task is ended by a rollback to image `i`: none that is held now or that it holds is marked stale, has mode ABORT, or has been
ended by an earlier rollback of the stage (R386, R440). -/
def Chip.sparesAll (m : Chip) (i : Image) : Prop :=
  (∀ t ∈ m.sh.tasks, t.abortMode = false ∧ t.handle ∉ m.stg.stale) ∧ ∀ t ∈ i.sh.tasks, t.abortMode = false ∧ t.ord ∉ m.stg.aborted

/-! ### Power and coolant -/

/-- P_cool in W for a flow in 0.01 L/min and an inlet temperature in 0.1 °C (R477). -/
def coolPower (f : Nat) (t : Int) : Nat := min (min 2600 (871 * f / 100)) (2600 - 16 * (t - 400).toNat)

/-- A transfer to the coolant unit has succeeded or failed: the tenth failure in a row loses the unit (R480). -/
def Chip.cduTold (m : Chip) (ok : Bool) : Chip :=
  let b : Chip := { m with pwr := { m.pwr with cduFails := if ok then 0 else m.pwr.cduFails + 1 } }
  if ok then b.setFld K.coolCoolStat F.coolCoolStatCduOk 1
  else if b.pwr.cduFails = 10 then (b.setFld K.coolCoolStat F.coolCoolStatCduOk 0).event ⟨.cool, 0⟩ 18 else b

/-- T_in reads `w`, from the unit or from the plate sensor: below 15 °C event COLD; ten readings in a row at or above 48 °C begin
the stop (R479, R481). -/
def Chip.inletIs (m : Chip) (w : BitVec 16) (unit : Bool) : Chip :=
  let b := ({ m with pwr := { m.pwr with cduIn := unit } } : Chip).setFld K.coolCoolStat F.coolCoolStatTIn w.toNat
  let c := if w.toInt < 150 then b.event ⟨.cool, 0⟩ 19 else b
  let d := Chip.coolConds { c with pwr := { c.pwr with hotInlet := if 480 ≤ w.toInt then m.pwr.hotInlet + 1 else 0 } }
  if 10 ≤ d.pwr.hotInlet then d.beginStop .therm 5 else d

/-! ### What every step keeps -/

/-- Both stacks hold at most the sixteen entries that may be registered (R86). -/
def Bank.fits (b : Bank) : Prop := b.ds.length ≤ 16 ∧ b.rs.length ≤ 16

def Context.stacksFit (k : Context) : Prop := k.main.fits ∧ k.shadow.fits

/-- The contexts of a coach: their stacks fit, and TRAP_BASE is a multiple of 64 (R115). -/
def Coach.fits (k : Coach) : Prop :=
  (k.fore.stacksFit ∧ k.fore.trapBase &&& 0x3F = 0) ∧ k.aft.stacksFit ∧ k.aft.trapBase &&& 0x3F = 0

/-- The control state that a task has left fits. -/
def Task.fits (t : Task) : Prop := ∀ v, t.saved = some v → v.ctx.stacksFit

def Image.fits (i : Image) : Prop := (∀ c : Fin 64, i.coaches[c].fits) ∧ ∀ t ∈ i.sh.tasks, t.fits

/-- The bounds and forms that the state always has: memory in canonical form, at most 8 records in an error queue (R59), at most
4,096 entries in the event log and 64 that wait for it (R507), stacks and trap bases in coaches, tasks and images as they must be. -/
structure State.Kept (s : State) : Prop where
  mem : s.chip.memWf = true
  errq : ∀ e ∈ s.chip.errq, e.2.recs.length ≤ 8
  log : s.nvm.log.length ≤ 4096 ∧ s.chip.mg.logWait.length ≤ 64
  coaches : ∀ c : Fin 64, (s.chip.coach c).fits
  tasks : ∀ t ∈ s.chip.sh.tasks, t.fits
  images : ∀ i, s.chip.stg.image = some i ∨ s.chip.stg.nextImage = some i → i.fits

/-! ### Management -/

/-- The ostler takes the message; `l` says that the recovery loader takes it as well. -/
structure Heard (m : Chip) (k : Mctp) (l : Bool) : Prop where
  hears : m.hears k l = true
  framed : k.framed = true
  short : k.len ≤ 4096
  order : k.inSeq = true

/-- Row `i` is answered with a code and data and changes nothing else. -/
def Asks (i : Sys2Proof.Instr) (s : State) (k : Mctp) (c : MgmtCode) (l : List Nat) : Prop :=
  exec i s = .next (s.settled s.nvm (s.chip.emit (.mgmt k.t.val c l)))

/-- The answer to a query: the list if there is one. -/
def AsksFor (i : Sys2Proof.Instr) (s : State) (k : Mctp) (o : Option (List Nat)) : Prop :=
  match o with
  | some l => Asks i s k .success l
  | none => Asks i s k .invalidData []

/-- Row `i` leaves `n` and `m`, and is answered. -/
def Changes (i : Sys2Proof.Instr) (s : State) (k : Mctp) (c : MgmtCode) (l : List Nat) (n : Nvm) (m : Chip) : Prop :=
  exec i s = .next (s.settled n (m.emit (.mgmt k.t.val c l)))

end Sys2Proof.Machine
end

