-- ==== Sys2Proof/Certificates/Slice0/Obligations.lean ====
section
/-! DEFINITION. The statements for the provers. -/
open Sys2Proof Sys2Proof.Machine

/-- A step runs the command at the front of the queue on the rest of the queue -/
def Obligations.FrontCommandIsExecuted : Prop :=
  ∀ (c : Instr) (s : State), step { s with pending := c :: s.pending } = exec c s

/-- With no command waiting the clocks that run go on, and where no page is busy nothing else changes but counts (the model's choice, log entry 2). Clauses rest on the model's choices: log entries 2 and 22. -/
def Obligations.IdleStepTicksTheClocks : Prop :=
  ∀ s : State, s.pending = [] → ∃ t, step s = .next t ∧ t.pending = [] ∧
    (∀ d : Fin 34, t.chip.dom[d] = if s.chip.dom[d].run then
      { s.chip.dom[d] with count := s.chip.dom[d].count + BitVec.ofNat 64 (Config.elapsed d s.chip.tick) } else s.chip.dom[d]) ∧
    t.nvm.arb = s.nvm.arb ∧ t.nvm.sig = s.nvm.sig ∧
    (s.chip.busyPages = [] → t.chip.mem = s.chip.mem ∧ t.chip.cm = s.chip.cm ∧ t.chip.coaches = s.chip.coaches ∧
      t.chip.board = s.chip.board ∧ t.chip.sh = s.chip.sh ∧ t.chip.errq = s.chip.errq ∧ t.chip.chocks = s.chip.chocks ∧
      (∀ a, a ≠ K.stageTimer → (∀ c : Fin 64, a ≠ K.drayCreditWait c ∧ a ≠ K.drayFreightWait c ∧ a ≠ K.tlbMissWait c ∧ a ≠ K.cmemBankWait c) →
        (∀ p : Fin 10, a ≠ K.linkCreditWait p ∧ a ≠ K.linkFecCorr p ∧ a ≠ K.linkFecUncorr p) → t.chip.reg a = s.chip.reg a))

/-- Every command answers a next state and leaves the queue as it is; one that is not due answers the state as it is (the model's choice, log entry 3). Clauses rest on the model's choices: log entry 3. -/
def Obligations.EveryCommandGoesOn : Prop :=
  ∀ (i : Instr) (s : State), ∃ t, exec i s = .next t ∧ t.pending = s.pending

/-- No step lowers the anti-rollback value or the signature index -/
def Obligations.NonVolatileCountersNeverFall : Prop :=
  ∀ s t : State, step s = .next t → s.nvm.arb ≤ t.nvm.arb ∧ s.nvm.sig ≤ t.nvm.sig

/-- vstby33 rising or falling takes the whole module to its power-on reset, which has the forms and bounds that every step keeps. Clauses rest on the model's choices: log entries 5, 6, 7 and 8. -/
def Obligations.PowerOnResetClearsTheModule : Prop :=
  ∀ s : State,
    (s.chip.board.vstby33 = false → ∃ t, exec .vstby33Rise s = .next t ∧ t.nvm = s.nvm ∧ t.pending = s.pending ∧
      { t.chip with board := Board.reset, out := [], tick := 0 } = Chip.reset ∧
      t.chip.board.por = true ∧ t.chip.board.vstby33 = true ∧ t.chip.board.vin48 = false ∧ t.chip.board.straps = 0 ∧
      t.chip.board.causes = [] ∧ t.chip.board.inReset = false ∧ t.chip.board.ostlerUp = false) ∧
    (s.chip.board.vstby33 = true → ∃ t, exec .vstby33Fall s = .next t ∧ t.nvm = s.nvm ∧ t.pending = s.pending ∧
      { t.chip with board := Board.reset, out := [], tick := 0 } = Chip.reset ∧
      t.chip.board.por = true ∧ t.chip.board.vstby33 = false ∧ t.chip.board.vin48 = false ∧ t.chip.board.straps = 0 ∧
      t.chip.board.causes = [] ∧ t.chip.board.inReset = false ∧ t.chip.board.ostlerUp = false) ∧
    State.reset.Kept

/-- POR_RELEASE latches the straps; MAIN_POWER_GOOD defines T0; a cause clears with its land, and 20 ms after the last start-up goes on from step 2. Clauses rest on the model's choices: log entries 5, 9, 12, 19 and 21. -/
def Obligations.PowerComesUp : Prop :=
  ∀ s : State,
    (s.chip.board.vstby33 = true → s.chip.board.por = true →
      let up := (((s.chip.modBoard fun b =>
        { b with por := false, straps := BitVec.ofNat 5 (b2n b.strapBifur + 2 * b2n (!b.strapRecN) + 4 * b.strapAddr.toNat),
                 refclk := b.refclk ||| 8 }).clocks (fun d => d == 33) true).syncRun ⟨.rst, 0⟩).syncRun ⟨.clk, 0⟩
      exec .porRelease s = .next (s.on (if s.chip.board.coolLeakN then up else up.beginStop .leak 6))) ∧
    (s.chip.board.vstby33 = true → s.chip.board.por = false → s.chip.board.mainGood = false →
      let m := s.chip.modBoard fun b => { b with vin48 := true, wake := false, causes := b.causes.filter fun c => !(c == .sag48) }
      let good := m.modBoard fun b => { b with mainGood := true, t0 := s.chip.counter 33 }
      (∀ mv : Nat, 40000 ≤ mv → mv < 45000 → exec (.mainPowerGood mv) s = .next (s.on m)) ∧
      (∀ mv : Nat, 45000 ≤ mv → exec (.mainPowerGood mv) s = .next (s.on
        (if s.chip.board.inReset then good
         else (good.modBoard fun b => { b with stepTwo := true }).setFld K.rstBootStat F.rstBootStatPhase 2)))) ∧
    (s.chip.board.perst0N = false → exec .perst0Deassert s = .next (s.on ({ s.chip with board :=
      { s.chip.board with perst0N := true, causes := s.chip.board.causes.filter fun c => !(c == .perst) } }))) ∧
    (s.chip.board.coolLeakN = false → exec .leakClear s = .next (s.on ({ s.chip with board :=
      { s.chip.board with coolLeakN := true, causes := s.chip.board.causes.filter fun c => !(c == .leak) } }))) ∧
    (∀ (n : Fin 22) (mv : Nat), s.chip.warnClears n mv = true → exec (.supplyWarningClears n mv) s = .next (s.on (s.chip.setReg K.pwrRailWarn (s.chip.reg K.pwrRailWarn &&& ~~~ (BitVec.ofNat 64 (2 ^ n.val)))))) ∧
    (s.chip.board.inReset = true → s.chip.board.causes = [] → s.chip.board.mainGood = true → s.chip.board.coolLeakN = true →
      exec .moduleResetRelease s = .next (s.on (({ s.chip with board := { s.chip.board with inReset := false, stepTwo := true } } : Chip).setFld K.rstBootStat F.rstBootStatPhase 2)))

/-- Each start-up step that succeeds begins the next one, with what R40 says it leaves. Clauses rest on the model's choices: log entries 12, 14, 15, 18, 21, 25 and 65. -/
def Obligations.StartupStepsInOrder : Prop :=
  ∀ s : State, let m := s.chip; let n := s.nvm
    (m.atStep 2 = true → exec (.hubRailsUp false) s = .next (s.on ((((((m.clocks (fun d => d == 32 || d == 21) true).syncHub).modBoard fun b =>
      { b with hubRails := true }).setPhase 3).syncRun ⟨.hostif, 0⟩).syncRun ⟨.time, 0⟩))) ∧
    (∀ a b : Verdict, m.atStep 3 = true → m.board.ostlerUp = false → m.board.straps.getLsbD 1 = false →
      m.flag K.rstBootStat F.rstBootStatBootFail = false →
      a.intact = true → n.goodA → exec (.ostlerImageVerify a b) s = .next (s.settled n
        ((((m.setFld K.rstBootStat F.rstBootStatImage 0).ostlerRuns n n.imageA).setPhase 4).syncRun ⟨.cool, 0⟩))) ∧
    (∀ a b : Verdict, m.atStep 3 = true → m.board.ostlerUp = false → m.board.straps.getLsbD 1 = false →
      m.flag K.rstBootStat F.rstBootStatBootFail = false →
      (a.intact = false ∨ ¬ n.goodA) → b.intact = true → n.goodB →
      exec (.ostlerImageVerify a b) s = .next (s.settled n
        ((((m.setFld K.rstBootStat F.rstBootStatImage 1).ostlerRuns n n.imageB).setPhase 4).syncRun ⟨.cool, 0⟩))) ∧
    (∀ a b : Verdict, m.atStep 3 = true → m.board.ostlerUp = false → m.board.straps.getLsbD 1 = true →
      m.flag K.rstBootStat F.rstBootStatBootFail = false → exec (.ostlerImageVerify a b) s = .next (s.settled n
        ((m.setFld K.rstBootStat F.rstBootStatRecovery 1).ostlerRuns n none))) ∧
    (m.atStep 4 = true → m.board.ramping = false → m.board.coolLeakN = true → 50 ≤ m.fld K.coolCoolStat F.coolCoolStatFlow →
      m.flag K.coolCoolStat F.coolCoolStatCduOk = true → m.pwr.cduIn = true →
      (BitVec.ofNat 16 (m.fld K.coolCoolStat F.coolCoolStatTIn)).toInt ≤ 400 → exec .coolantCheck s = .next (s.on
        (((m.setFld K.rstBootStat F.rstBootStatCoolHold 0).modBoard fun b => { b with ramping := true, thermTripN := true }).coolConds))) ∧
    (m.atStep 4 = true → m.board.ramping = true → exec (.railRampDone none) s = .next (s.on (((m.modBoard fun b => { b with ramping := false, coreRails := true }).clocks
        (fun d => decide (4 ≤ d ∧ d ≤ 20) || decide (22 ≤ d ∧ d ≤ 31)) true).setPhase 5))) ∧
    (m.atStep 5 = true → m.pwr.stops = [] → ∃ t, exec (.hbmTrainingDone none) s = .next t ∧ t.chip.phase = 6 ∧ t.chip.mem = [] ∧ t.chip.veils = [] ∧
      t.chip.obuf = [] ∧ t.chip.badCrc = [] ∧ t.chip.slices = Vector.replicate 16 Slice.reset ∧
      (∀ k : Fin 16, t.chip.fld (K.hbmHbmCfg k) F.hbmHbmCfgIlv = n.ilv % 2) ∧
      t.chip.coaches = m.coaches ∧ t.chip.board = m.board ∧ t.chip.dom = m.dom) ∧
    (m.atStep 6 = true → m.pwr.stops = [] → exec .rakeRelease s = .next (s.settled n
      (((allCtxs.foldl Chip.holdSources ((((m.clocks (fun d => decide (d < 4)) true).setPhase 7).setFld K.pwrCap F.pwrCapCapMgmt
        n.capBoot).showPoints)).syncRun ⟨.xlat, 0⟩).syncRun ⟨.inval, 0⟩))) ∧
    (m.atStep 7 = true → ∃ t, exec .moduleReady s = .next t ∧ t.chip.phase = 8 ∧ t.chip.ready = true ∧
      t.chip.fld K.rstBootStat F.rstBootStatReadyMs = ((m.counter 33 - m.board.t0).toNat / 25000) % 2 ^ 32 ∧
      (∀ a, a ≠ K.rstBootStat → t.chip.reg a = m.reg a) ∧ t.chip.coaches = m.coaches ∧ t.chip.board = m.board ∧
      t.chip.dom = m.dom ∧ t.chip.mem = m.mem)

/-- A failing start-up step holds the module in the failure state with its bit and unit. Clauses rest on the model's choices: log entries 13, 14 and 18. -/
def Obligations.StartupFailuresHold : Prop :=
  ∀ s : State, let m := s.chip
    (m.atStep 2 = true → exec (.hubRailsUp true) s = .next (s.on (((m.clocks (fun d => d == 32 || d == 21) true).syncHub).holdFailure
      F.rstBootStatRailFail 4))) ∧
    (∀ a b : Verdict, m.atStep 3 = true → m.board.ostlerUp = false → m.board.straps.getLsbD 1 = false →
      m.flag K.rstBootStat F.rstBootStatBootFail = false →
      (a.intact = false ∨ ¬ s.nvm.goodA) → (b.intact = false ∨ ¬ s.nvm.goodB) →
      exec (.ostlerImageVerify a b) s = .next (s.settled s.nvm
        ((m.ostlerRuns s.nvm none).holdFailure F.rstBootStatBootFail 0))) ∧
    (m.atStep 4 = true → m.flag K.rstBootStat F.rstBootStatCoolHold = true →
      exec .coolFail s = .next (s.on (m.holdFailure F.rstBootStatCoolFail 0))) ∧
    (∀ r : Fin 18, m.atStep 4 = true → m.board.ramping = true →
      exec (.railRampDone (some r)) s = .next (s.on (m.holdFailure F.rstBootStatRailFail
        (if r.val < 8 then 2 else if r.val = 8 then 0 else if r.val < 17 then 1 else 3)))) ∧
    (∀ k : Fin 16, m.atStep 5 = true → m.pwr.stops = [] →
      exec (.hbmTrainingDone (some k)) s = .next (s.settled s.nvm (m.holdFailure F.rstBootStatHbmFail k))) ∧
    (m.atStep 4 = true → m.board.ramping = false → (m.board.coolLeakN = false ∨ m.fld K.coolCoolStat F.coolCoolStatFlow < 50 ∨
        m.flag K.coolCoolStat F.coolCoolStatCduOk = false ∨ m.pwr.cduIn = false ∨
        400 < (BitVec.ofNat 16 (m.fld K.coolCoolStat F.coolCoolStatTIn)).toInt) →
      exec .coolantCheck s = .next (s.on (m.setFld K.rstBootStat F.rstBootStatCoolHold 1))) ∧
    (∀ (f : Fld) (u : Nat), f ∈ [F.rstBootStatBootFail, F.rstBootStatRailFail, F.rstBootStatHbmFail, F.rstBootStatCoolFail] → u < 16 →
      let h := m.holdFailure f u
      h.board.heldFail = true ∧ h.board.ramping = false ∧ h.board.coreRails = false ∧ h.flag K.rstBootStat f = true ∧
      h.fld K.rstBootStat F.rstBootStatFailUnit = u ∧ h.ready = false ∧ h.phase = m.phase ∧
      (∀ d : Fin 34, h.dom[d] = if d.val ≤ 3 ∨ (5 ≤ d.val ∧ d.val ≤ 20) then { m.dom[d] with run := false } else m.dom[d]) ∧
      h.coaches = m.coaches ∧ (∀ a, a ≠ K.rstBootStat → h.reg a = m.reg a))

/-- A MODULE cause records its bit, keeps what R33 preserves and resets everything else. Clauses rest on the model's choices: log entries 9, 19 and 88. -/
def Obligations.ModuleCausesEnterModuleReset : Prop :=
  ∀ s : State, s.chip.board.vstby33 = true → s.chip.board.por = false → (s.chip.board.inReset = false →
    (s.chip.board.perst0N = true → exec .perst0Assert s = .next (s.on ((s.chip.modBoard fun b => { b with perst0N := false }).moduleEnter .perst))) ∧
    (∀ mv : Nat, s.chip.board.vin48 = true → mv < 40000 → exec (.supplyReset 21 mv) s = .next (s.on
      ((s.chip.modBoard fun b => { b with vin48 := false, mainGood := false }).moduleEnter .sag48))) ∧
    (∀ (r : Fin 22) (mv : Nat), r.val < 21 → s.chip.watched r = true → 100 * mv < 88 * s.chip.setPoint r →
      exec (.supplyReset r mv) s = .next (s.on (s.chip.moduleEnter (.sagRail r)))) ∧
    (∀ c t, s.chip.pwr.stops = c :: t → exec .stopReset s = .next (s.settled s.nvm (s.chip.moduleEnter c))) ∧
    (s.chip.board.jtagTrstN = true → s.chip.permitted 0 = true → exec .dbgReset s = .next (s.settled s.nvm
      ((s.chip.selectTap .dbgReset).moduleEnter .debug))) ∧
    (∀ c : ModCause, let m := s.chip.moduleEnter c
      m.board.inReset = true ∧ (∀ k, k ∈ m.board.causes ↔ k ∈ c :: s.chip.pwr.stops ∧ k.lasts s.chip.board = true) ∧
      m.board.hubRails = (s.chip.board.hubRails && !((c :: s.chip.pwr.stops).any ModCause.sags)) ∧
      m.reg K.rstResetCause = (c :: s.chip.pwr.stops).foldl causeWord (s.chip.reg K.rstResetCause) ∧
      m.reg K.rstResetCount = s.chip.reg K.rstResetCount + 1 ∧
      m.reg K.rstLastResetStamp = BitVec.ofNat 64 (33 * 2 ^ 58 + (s.chip.counter 33).toNat % 2 ^ 58) ∧
      (∀ a, a ≠ K.rstResetCause → a ≠ K.rstResetCount → a ≠ K.rstLastResetStamp → m.reg a = regReset a) ∧
      m.dom[33] = s.chip.dom[33] ∧ (∀ d : Fin 33, m.dom[d.val] = Domain.reset d) ∧
      m.mem = [] ∧ m.coaches = Chip.reset.coaches ∧ m.cm = [] ∧ m.slices = Chip.reset.slices ∧ m.obuf = [] ∧
      m.errq = [] ∧ m.chocks = [] ∧ m.staged = [] ∧ m.stg = StageCtl.reset ∧ m.sh = Shunter.reset ∧ m.xlat = Xlat.reset ∧
      m.host = HostIf.reset ∧ m.sf = Selfan.reset ∧ m.pwr = Power.reset ∧ m.mg = Ostler.reset)) ∧
    (s.chip.board.inReset = true →
      (s.chip.board.perst0N = true → exec .perst0Assert s = .next (s.on ((s.chip.modBoard fun b => { b with perst0N := false }).moduleEnter .perst))) ∧
      (∀ mv : Nat, s.chip.board.vin48 = true → mv < 40000 → exec (.supplyReset 21 mv) s = .next (s.on
        ((s.chip.modBoard fun b => { b with vin48 := false, mainGood := false }).moduleEnter .sag48))) ∧
      (s.chip.board.coolLeakN = true → exec .leakStop s = .next (s.settled s.nvm
        ((s.chip.modBoard fun b => { b with coolLeakN := false }).moduleEnter .leak))) ∧
      (∀ t : Temps, 1100 ≤ t.hub ∨ (∃ r : Fin 4, 1100 ≤ t.die[r]) ∨ (∃ k : Fin 16, 1050 ≤ t.stack[k]) ∨ 700 ≤ t.outlet →
        exec (.thermalSample t) s = .next (s.settled s.nvm
          ((s.chip.modBoard fun b => { b with thermTripN := false }).moduleEnter .therm))) ∧
      (∀ c : ModCause, s.chip.moduleEnter c = { s.chip with
        regs := (s.chip.setReg K.rstResetCause (causeWord (s.chip.reg K.rstResetCause) c)).regs
        board := { s.chip.board with
          unlogged := causeWord s.chip.board.unlogged c
          causes := if c.lasts s.chip.board = true ∧ c ∉ s.chip.board.causes then s.chip.board.causes ++ [c] else s.chip.board.causes
          hubRails := s.chip.board.hubRails && !c.sags } }))

/-- jtag_trst_n resets the TAP controller and nothing else. Clauses rest on the model's choices: log entry 30. -/
def Obligations.JtagTrstResetsOnlyTheTap : Prop :=
  ∀ (s : State) (high : Bool), exec (.jtagTrst high) s = .next (s.on ({ s.chip with board :=
    { s.chip.board with jtagTrstN := high, tap := if high then s.chip.board.tap else TapInstr.idcode.code } }))

/-- Host links train, come up, fall to LINK reset and follow perst1_n; reference clocks come and go. Clauses rest on the model's choices: log entries 10, 50 and 72. -/
def Obligations.HostLinksComeAndGo : Prop :=
  ∀ (s : State) (l : Fin 2), let m := s.chip
    (m.hasLink l = true → m.domRuns 21 = true → m.perstHigh l = true → m.training l = false →
      exec (.hostLinkTrain l) s = .next (s.on ({ m with board :=
        { m.board with train0 := m.board.train0 || decide (l = 0), train1 := m.board.train1 || decide (l = 1) } }))) ∧
    (∀ (gen width : Nat) (flit : Bool), m.hasLink l = true → m.training l = true → m.linkUp l = false → 3 ≤ gen → gen ≤ 6 →
      width ∈ (if m.bifur then [1, 2, 4, 8] else [1, 2, 4, 8, 16]) → (gen = 6 → flit = true) →
      exec (.hostLinkUp l gen width flit) s = .next (s.on (((m.setReg (K.hostifLinkStat l) (BitVec.ofNat 64 (1 + gen * 2 + width * 16 + b2n flit * 512))).pumpLink l).sendEvents))) ∧
    (m.hasLink l = true → m.linkUp l = true → exec (.linkReset l) s = .next (s.on (m.linkReset l))) ∧
    (let r := m.linkReset l;
      r.reg (K.hostifLinkStat l) = 0 ∧ r.reg K.rstResetCause = F.rstResetCauseLink.put (m.reg K.rstResetCause) 1 ∧
      (∀ f : Fin 16, r.host.cfg[f] = if f ∈ m.linkFuncs l then FuncCfg.reset else m.host.cfg[f]) ∧
      (∀ f ∈ m.linkFuncs l, r.fld (K.funcFstat f.val) F.funcFstatBme = 0 ∧ ∀ e ∈ r.host.msixPend, e.1 ≠ f.val) ∧
      (∀ f ∈ m.linkVfs l, r.fld (K.funcFstat f.val) F.funcFstatPresent = 0) ∧
      (∀ k : Fin 2, r.host.mcBase[k] = (if k = l then 0 else m.host.mcBase[k]) ∧ r.host.mcSize[k] = (if k = l then 0 else m.host.mcSize[k]) ∧
        r.host.mcRecv[k] = if k = l then 0 else m.host.mcRecv[k]) ∧
      r.host.held = m.host.held.filter (fun w => !(w.kind == .inval && w.link == l.val)) ∧
      r.host.reads = m.host.reads.map (fun q => if q.link = l.val then { q with sent := false, tags := [] } else q) ∧
      (∀ e ∈ r.host.behind, e.1 ≠ l) ∧ (∀ d ∈ r.xlat.stalled, d.link ≠ l) ∧
      r.host.jobs = m.host.jobs ∧ r.board = m.board ∧ r.dom = m.dom ∧ r.mem = m.mem ∧ r.cm = m.cm ∧ r.coaches = m.coaches ∧
      r.sh = m.sh ∧ r.stg = m.stg ∧ r.pwr = m.pwr ∧ r.sf = m.sf ∧ r.errq = m.errq ∧ r.chocks = m.chocks ∧ r.staged = m.staged ∧
      (∀ a, (∀ f ∈ m.linkFuncs l, a < pageBase .func f ∨ pageBase .func f + 0x1000 ≤ a) → a ≠ K.hostifLinkStat l → a ≠ K.rstResetCause →
        a ≠ K.invalLostCpl → a ≠ K.hostifHeld → r.reg a = m.reg a)) ∧
    (∀ high : Bool, m.board.perst1N = !high → (m.bifur = false ∨ m.board.por = true) →
      exec (.perst1Change high) s = .next (s.on ({ m with board := { m.board with perst1N := high } }))) ∧
    (m.board.perst1N = false → m.bifur = true → m.board.por = false →
      exec (.perst1Change true) s = .next (s.on ({ m with board :=
        { m.board with perst1N := true, link1Held := false } }))) ∧
    (m.board.perst1N = true → m.bifur = true → m.board.por = false →
      let held : Chip := { m with board := { m.board with perst1N := false, link1Held := true, train1 := false } }
      exec (.perst1Change false) s = .next (s.on (if m.board.inReset then held.setFld K.rstResetCause F.rstResetCauseLink 1
        else held.linkReset 1))) ∧
    (∀ i : Fin 4, m.board.por = false → m.board.refclk.getLsbD i = true →
      let w := m.board.refclk &&& ~~~ (BitVec.ofNat 4 (2 ^ i.val))
      let sel := if w.getLsbD 0 || w.getLsbD 1 then m.bifur && !w.getLsbD 0 && w.getLsbD 1 else m.board.refSel1
      let lost := ({ m with board := { m.board with refclk := w, refSel1 := sel } } : Chip).count K.clkRefclkLoss 1
      (i = 0 → exec (.refclkSwitch false) s = .next (s.on lost)) ∧
      (∀ k : Fin 3, i.val = k.val + 1 → exec (.refclkLoss k false) s = .next (s.on (if k = 2 then ((lost.clocks (fun d => d == 33) false).syncRun ⟨.rst, 0⟩).syncRun ⟨.clk, 0⟩ else lost)))) ∧
    (∀ i : Fin 4, m.board.por = false → m.board.refclk.getLsbD i = false →
      let w := m.board.refclk ||| BitVec.ofNat 4 (2 ^ i.val)
      let sel := if w.getLsbD 0 || w.getLsbD 1 then m.bifur && !w.getLsbD 0 && w.getLsbD 1 else m.board.refSel1
      let back : Chip := { m with board := { m.board with refclk := w, refSel1 := sel } }
      let told := if sel = m.board.refSel1 then back else back.count K.clkRefclkLoss 1
      (i = 0 → exec (.refclkSwitch true) s = .next (s.on told)) ∧
      (∀ k : Fin 3, i.val = k.val + 1 → exec (.refclkLoss k true) s = .next (s.on (if k = 2 then ((told.clocks (fun d => d == 33) true).syncRun ⟨.rst, 0⟩).syncRun ⟨.clk, 0⟩ else told))))

/-- The ostler falls to a watchdog and boots again; before step 6 the watchdog is a MODULE cause. Clauses rest on the model's choices: log entry 14. -/
def Obligations.OstlerFallsAndBootsAgain : Prop :=
  ∀ s : State, let m := s.chip
    ((m.board.ostlerUp = true ∨ m.board.ostlerBoot = true ∨ m.atStep 3 = true) → 6 ≤ m.phase → exec .ostlerWatchdog s = .next (s.on m.ostlerFalls)) ∧
    ((m.board.ostlerUp = true ∨ m.board.ostlerBoot = true ∨ m.atStep 3 = true) → m.phase < 6 → exec .ostlerWatchdog s = .next (s.on (m.moduleEnter .watchdog))) ∧
    (∀ a b : Verdict, m.board.ostlerBoot = true → m.board.inReset = false → m.board.por = false → m.board.straps.getLsbD 1 = false →
      m.flag K.rstBootStat F.rstBootStatBootFail = false →
      (a.intact = true → s.nvm.goodA → exec (.ostlerBoot a b) s = .next (s.settled s.nvm
        ((m.setFld K.rstBootStat F.rstBootStatImage 0).ostlerRuns s.nvm s.nvm.imageA))) ∧
      ((a.intact = false ∨ ¬ s.nvm.goodA) → b.intact = true → s.nvm.goodB →
        exec (.ostlerBoot a b) s = .next (s.settled s.nvm
          ((m.setFld K.rstBootStat F.rstBootStatImage 1).ostlerRuns s.nvm s.nvm.imageB))) ∧
      ((a.intact = false ∨ ¬ s.nvm.goodA) → (b.intact = false ∨ ¬ s.nvm.goodB) →
        exec (.ostlerBoot a b) s = .next (s.settled s.nvm ((m.ostlerRuns s.nvm none).holdFailure F.rstBootStatBootFail 0)))) ∧
    (∀ g : Option (Nat × SMap Byte), let r := m.ostlerRuns s.nvm g
      r.board = { m.board with ostlerUp := true, ostlerBoot := false, romLoader := g.isNone, unlogged := 0 } ∧
      r.mg.runSvn = g.map Prod.fst ∧ r.mg.runImage = (g.map Prod.snd).getD [] ∧ r.mg.trees = [s.nvm.sig / 1024] ∧
      r.flag K.mboxMbStat F.mboxMbStatRecovery = g.isNone ∧
      r.coaches = m.coaches ∧ r.mem = m.mem ∧ r.dom = m.dom ∧ r.sh = m.sh ∧ r.stg = m.stg ∧ r.xlat = m.xlat ∧
      (∀ a, ¬ (0x1000 ≤ a ∧ a < 0x2000) → r.reg a = m.reg a)) ∧
    (let r := m.ostlerFalls;
      r.coaches = m.coaches ∧ r.mem = m.mem ∧ r.dom = m.dom ∧ r.sh = m.sh ∧ r.stg = m.stg ∧ r.xlat = m.xlat ∧
      (∀ a, ¬ (0x1000 ≤ a ∧ a < 0x2000) → a ≠ K.rstResetCause → r.reg a = m.reg a))

/-- Every page lies at its base, and PAGE_ID reads its type code and instance -/
def Obligations.PagesLieAtTheirBases : Prop :=
  ∀ (p : PageId) (o : Nat), p.inst < pageCount p.kind → o < 0x1000 →
    pageAt (pageBase p.kind p.inst + o) = some p ∧
    (∀ (n : Nvm) (m : Chip), F.pageIdType.get (m.view n p 0) = pageType p.kind ∧
      F.pageIdInstance.get (m.view n p 0) = p.inst ∧ F.pageIdLayout.get (m.view n p 0) = 1)

/-- A register or field holds what was put there; every other register and every field apart from it is unchanged -/
def Obligations.RegisterHoldsWhatWasSet : Prop :=
  ∀ (m : Chip) (a : Nat),
    (∀ (v : W64) (b : Nat), (m.setReg a v).reg b = if b = a then v else m.reg b) ∧
    (∀ (f g : Fld) (v : Nat), f.lo + f.len ≤ 64 → g.lo + g.len ≤ 64 →
      (m.setFld a f v).fld a f = v % 2 ^ f.len ∧
      (f.lo + f.len ≤ g.lo ∨ g.lo + g.len ≤ f.lo → (m.setFld a f v).fld a g = m.fld a g))

/-- A page decides each write by the checks of R71 in order; the first that fails decides the outcome. Clauses rest on the model's choices: log entry 17. -/
def Obligations.WriteChecksInOrder : Prop :=
  ∀ (s : State) (w : Wr) (p : PageId), let m := s.chip; let n := s.nvm
    (∀ l, m.stalledLink w.m = some l → exec (.registerWrite w) s = .next (s.settled n
      { m with host := { m.host with behind := m.host.behind ++ [(l, .reg w)] } })) ∧
    (m.stalledLink w.m = none → m.frozen w.m = true → exec (.registerWrite w) s = .next (s.settled n m)) ∧
    (Reaches m w p →
      (¬ w.sized p → exec (.registerWrite w) s = .next (s.settled n (m.emit (.unsupported w.m w.off)))) ∧
      (w.sized p →
        (m.hasRight p w.m = false → w.ctxDone = false →
          (idKind w.m = 1 → exec (.registerWrite w) s = .next (s.settled n
            (m.chock ⟨.func, idIndex w.m % 16⟩ w.m 1 w.off 32))) ∧
          (idKind w.m = 3 → exec (.registerWrite w) s = .next (s.settled n
            (m.chock ⟨.dray, idIndex w.m / 8⟩ w.m 3 (0x30000000000 + w.off) (idIndex w.m / 8 / 16)))) ∧
          (idKind w.m = 7 → exec (.registerWrite w) s = .next (s.settled n ((m.refuse p w.m).answer w.m 0x13))) ∧
          (idKind w.m = 0 ∨ idKind w.m = 2 ∨ idKind w.m = 4 ∨ idKind w.m = 5 → exec (.registerWrite w) s = .next (s.settled n m))) ∧
        (m.hasRight p w.m = true ∨ w.ctxDone = true →
          (m.busy p = true → exec (.registerWrite w) s = .next (s.settled n ((m.refuse p w.m).answer w.m 0x10))) ∧
          (m.busy p = false →
            (w.ownerOnly p = true → w.m.toNat ≠ m.owner p → exec (.registerWrite w) s = .next (s.settled n
              (((m.refuse p w.m).record p 0x02 w.m none (some w.off) 32).answer w.m 0x13))) ∧
            ((w.ownerOnly p = true → w.m.toNat = m.owner p) →
              (w.m = 0x6000 → w.gen ≠ some (m.reg (K.pageGen p.base)) → exec (.registerWrite w) s = .next (s.settled n
                ((((m.refuse p w.m).event p 4).record p 0x04 w.m (some (m.fld (K.pageGen p.base) ⟨0, 32⟩)) (some w.off) 32).answer
                  w.m 0x11))) ∧
              ((w.m = 0x6000 → w.gen = some (m.reg (K.pageGen p.base))) →
                (m.heldChange w = true → m.running p = true → exec (.registerWrite w) s = .next (s.settled n
                  (((m.refuse p w.m).record p 0x01 w.m none (some w.off) 32).answer w.m 0x12))) ∧
                (m.heldChange w = false ∨ m.running p = false → Taken m w p ∧
                  (w.reg ≠ K.pageCmd p.base →
                    exec (.registerWrite w) s = .next (s.settled n ((m.acceptWrite p w).wrote p w)))))))))) ∧
    (let r := m.refuse p w.m;
      r.fld (K.pageStat p.base) F.pageStatRefused = (m.fld (K.pageStat p.base) F.pageStatRefused + 1) % 2 ^ 32 ∧
      r.fld (K.pageStat p.base) F.pageStatLastRefused = w.m.toNat ∧ (r.reg (K.pageEvt p.base)).getLsbD 1 = true)

/-- An accepted write of a plain register changes its writable bits, counts in PAGE_GEN, and changes nothing else. Clauses rest on the model's choices: log entry 29. -/
def Obligations.PlainRegisterTakesTheWrite : Prop :=
  ∀ (s : State) (w : Wr) (p : PageId) (r : RegRow), let m := s.chip
    Taken m w p → w.row p = some r →
      (Plain m w p r → exec (.registerWrite w) s = .next (s.settled s.nvm
        (((m.setReg w.reg (m.newValue w p r)).bumpIf (m.newValue w p r != m.reg w.reg) p).wrote p w))) ∧
      (0x100 ≤ w.reg - p.base → r.staged ≠ 0 → let v := m.newValue w p r
        let m1 := m.setReg w.reg ((m.reg w.reg &&& r.staged) ||| (v &&& ~~~ r.staged))
        let m2 : Chip := if r.staged &&& w.cover ≠ 0 ∨ m.staged.any (fun e => e.1 == w.reg) = true
          then { m1 with staged := smapInsert w.reg v (smapErase (· == w.reg) m.staged) } else m1
        exec (.registerWrite w) s = .next (s.settled s.nvm ((m2.bumpIf (v != m.shadow w.reg) p).wrote p w)))

/-- EVT_ENABLE_WRITE, ERR_POP, DISCARD and CHOCK_RELEASE do what their header register does. Clauses rest on the model's choices: log entries 20 and 32. -/
def Obligations.HeaderRegistersAct : Prop :=
  ∀ (s : State) (w : Wr) (p : PageId) (r : RegRow), let m := s.chip; let n := s.nvm; let d := w.data &&& w.cover
    Taken m w p → w.row p = some r →
      (w.reg = p.base + 0x38 → exec (.evtEnableWrite w) s = .next (s.settled n
        (((m.setEvtEn p (m.newValue w p r)).bumpIf (m.newValue w p r != m.reg w.reg) p).wrote p w)) ∧
        exec (.evtEnableWrite w) s = exec (.registerWrite w) s) ∧
      (w.reg = p.base + 0x40 → F.pageErrHeadPop.bit d = true → exec (.errPop w) s = .next (s.settled n ((m.popErr p).wrote p w)) ∧
        exec (.errPop w) s = exec (.registerWrite w) s ∧
        (∀ e t, (m.errQ p).recs = e :: t → ((m.popErr p).errQ p).recs = t)) ∧
      (w.reg = p.base + 0x10 → F.pageCtlDiscard.bit d = true → exec (.discard w) s = .next (s.settled n
        ((((if m.pend p then (m.setReg w.reg (m.newValue w p r)).dropStaged p else m.setReg w.reg (m.newValue w p r))).bumpIf
          (m.pend p || m.newValue w p r != m.reg w.reg) p).wrote p w)) ∧
        exec (.discard w) s = exec (.registerWrite w) s ∧ (m.dropStaged p).pend p = false) ∧
      (∀ id : BitVec 16, w.reg = p.base + 0x58 → F.pageChockRelease.bit d = true → F.pageChockReleaseId.get d = id.toNat →
        m.chocks.any (fun k => k.master == id && k.page == p) = true → exec (.chockRelease w) s = .next (s.settled n
          (((m.release p id).resumeMaster id).wrote p w)) ∧
        exec (.chockRelease w) s = exec (.registerWrite w) s)

/-- EV_SET, PART, QCTL of FAULT, DESC_IN, OR_BASE, doorbells, QCTL, CTX_DONE and coupling entries do what their register does. Clauses rest on the model's choices: log entries 31 and 97. -/
def Obligations.BlockRegistersAct : Prop :=
  ∀ (s : State) (w : Wr) (p : PageId) (r : RegRow), let m := s.chip; let n := s.nvm
    Taken m w p → w.row p = some r → let v := m.newValue w p r; let c : Fin 64 := ⟨p.inst % 64, Nat.mod_lt _ (by decide)⟩
      (p.kind = .coach → r.staged = 0 → w.reg = p.base + 0x128 → exec (.evSet w) s = .next (s.settled n
        ((m.writeCoach c w v).wrote p w)) ∧
        m.writeCoach c w v = (m.setEvents ⟨c, F.coachEvSetSide.bit (w.data &&& w.cover)⟩
          (BitVec.ofNat 16 (F.coachEvSetEv.get (w.data &&& w.cover)))).bumpIf
          (BitVec.ofNat 16 (F.coachEvSetEv.get (w.data &&& w.cover)) &&&
            ~~~ (m.ctx ⟨c, F.coachEvSetSide.bit (w.data &&& w.cover)⟩).events != 0) (coachPage c)) ∧
      (∀ i : Fin 8, p.kind = .cmem → w.reg = p.base + 0x108 + 8 * i → r.staged = 0 →
        (m.partCheck c i (m.reg w.reg) v = 0 → exec (.partWrite w) s = .next (s.settled n (((m.putReg p w.reg v).followPart c).wrote p w))) ∧
        (m.partCheck c i (m.reg w.reg) v ≠ 0 → exec (.partWrite w) s = .next (s.settled n
          ((m.refuseWith p w (m.partCheck c i (m.reg w.reg) v) 32 18).syncRun p)))) ∧
      (p.kind = .cmem → ∀ a : Bool, let k := (m.followPart c).ctx ⟨c, a⟩
        (∀ q, (m.ctx ⟨c, a⟩).task ≠ 0 → m.partition c (m.ctx ⟨c, a⟩).task = some q →
          k = { m.ctx ⟨c, a⟩ with mbase := BitVec.ofNat 16 q.1, mlim := BitVec.ofNat 16 q.2 }) ∧
        ((m.ctx ⟨c, a⟩).task = 0 ∨ m.partition c (m.ctx ⟨c, a⟩).task = none → k = m.ctx ⟨c, a⟩)) ∧
      (∀ k : Fin 8, p.kind = .tlb → w.reg = K.tlbOrBase c k → r.staged = 0 → ∃ t : Chip,
        exec (.registerWrite w) s = .next (s.settled n (t.wrote p w)) ∧ t.regs = (m.putReg p w.reg v).regs ∧
        ((t.coach c).dray[k]).orSet = ((m.coach c).dray[k]).begun ∧
        (∀ j : Fin 8, j ≠ k → (t.coach c).dray[j] = (m.coach c).dray[j])) ∧
      (p.kind = .fault → w.reg = K.faultQCtl → r.staged = 0 → exec (.faultQEnable w) s = .next (s.settled n
        ((if F.faultQCtlEn.bit v = true ∧ m.flag K.faultQCtl F.faultQCtlEn = false then (m.putReg p w.reg v).faultRestart
          else m.putReg p w.reg v).wrote p w))) ∧
      (p.kind = .inval → w.reg = K.invalDescIn 3 → w.size = 8 → r.staged = 0 → ∃ d : InvDesc,
        let m1 := m.putReg p w.reg (w.merge (m.reg w.reg))
        exec (.descIn w) s = .next (s.settled n ((m1.invalPut d).wrote p w)) ∧
        ∀ i : Fin 4, d.words[i] = if i = 3 then w.val else m.reg (K.invalDescIn i)) ∧
      (p.kind = .doorbell → w.reg = p.base + 0x110 → r.staged = 0 → w.cover &&& 0xFFFF ≠ 0 →
        exec (.doorbell w) s = .next (s.settled n
          (((m.doorbell p.inst (F.doorbellSqTailIndex.get v)).bumpIf
            (v != m.reg w.reg && decide (F.doorbellSqTailIndex.get v < m.sqSize p.inst)) p).wrote p w))) ∧
      (p.kind = .doorbell → w.reg = p.base + 0x108 → r.staged = 0 → exec (.qctlEnable w) s = .next (s.settled n
        ((if F.doorbellQctlEn.bit v = true ∧ m.flag (K.doorbellQctl p.inst) F.doorbellQctlEn = false then
          (m.putReg p w.reg v).restartQueue p.inst else m.putReg p w.reg v).wrote p w))) ∧
      (p.kind = .shunt → w.reg = K.shuntCtxDone → r.staged = 0 → w.ctxDone = true → exec (.ctxDone w) s = .next (s.settled n
        (let d : Fin 64 := ⟨idIndex w.m / 8 % 64, Nat.mod_lt _ (by decide)⟩
         ((m.ctxDone ⟨d, m.streamSide d (idIndex w.m % 8)⟩ (w.data &&& w.cover)).syncCoach d).wrote p w))) ∧
      (p.kind = .couple → 0x100 ≤ w.reg - p.base → w.reg - p.base < 0xF00 → r.staged = 0 →
        m.badEntry p w v = false → w.reg ≠ K.coupleCplCfg 0 →
        exec (.coupleEntryWrite w) s = .next (s.settled n ((m.putReg p w.reg v).wrote p w)))

/-- A command that is accepted shows BUSY and its issuer; when it ends it shows its result, DONE and CMD_DONE. Clauses rest on the model's choices: log entries 28 and 29. -/
def Obligations.CommandsBeginAndEnd : Prop :=
  ∀ (m : Chip) (p : PageId) (code : Nat) (l : Launch), code < 256 → p.inst < pageCount p.kind →
    let st := K.pageCmdStat p.base
    (let b := m.beginCmd p code l;
      b.busy p = true ∧ b.fld st F.pageCmdStatDone = 0 ∧ b.fld st F.pageCmdStatErr = 0 ∧ b.fld st F.pageCmdStatProgress = 0 ∧
      b.cmdCode p = code ∧ b.fld st F.pageCmdStatTag = l.tag.toNat ∧ b.fld st F.pageCmdStatIssuer = l.m.toNat ∧
      b.cmdArg p = l.arg.toNat ∧ b.reg (K.pageGen p.base) = m.reg (K.pageGen p.base) + 1 ∧
      (∀ a, a ≠ K.pageCmd p.base → a ≠ st → a ≠ K.pageGen p.base → b.reg a = m.reg a) ∧ b.coaches = m.coaches ∧ b.mem = m.mem) ∧
    (∀ err : Nat, err < 256 → let e := m.endCmd p err
      e.busy p = false ∧ e.fld st F.pageCmdStatDone = 1 ∧ e.fld st F.pageCmdStatErr = err ∧
      e.fld st F.pageCmdStatProgress = 1000 ∧ e.cmdCode p = m.cmdCode p ∧
      (e.reg (K.pageEvt p.base)).getLsbD 0 = true ∧ e.reg (K.pageGen p.base) = m.reg (K.pageGen p.base) + 1 ∧
      e.coaches = m.coaches ∧ e.mem = m.mem) ∧
    (p.kind ≠ .mbox → code ∉ p.kind.codes → m.runCmd p code l = m.endCmd p 0x01) ∧
    (∀ n : Nvm, code ∉ PageKind.mbox.codes ∨ (m.board.romLoader = true ∧ 5 < code) → m.board.ostlerUp = true →
      mboxRun code (n, m) = (n, m.endCmd ⟨.mbox, 0⟩ 0x01)) ∧
    (∀ f : Chip → Chip, l.arg ≠ 0 → m.noArg p l f = m.endCmd p 0x02)

/-- COMMAND_END of a running command of a page other than the mailbox leaves what that command leaves at its end. Clauses rest on the model's choices: log entries 26, 27 and 28. -/
def Obligations.CommandsEndWithTheirEffect : Prop :=
  (∀ (s : State) (p : PageId) (f : Chip → Chip), p.inst < pageCount p.kind → s.chip.busy p = true →
    (p.kind = .depot ∨ p.kind = .hbm → s.chip.memUp = true) →
    (p.kind, s.chip.cmdCode p, f) ∈ [
      (PageKind.time, 1, Chip.snapEnd), (.rst, 2, Chip.rakeResetEnd),
      (.vec, 1, fun m => m.vzeroEnd ⟨p.inst % 64, Nat.mod_lt _ (by decide)⟩), (.tally, 1, fun m => m.tallyClear p),
      (.cmem, 2, fun m => m.zeroEnd p.inst), (.cmem, 3, fun m => m.bufzeroEnd p.inst),
      (.depot, 1, fun m => (m.splitEnd p.inst).releaseHeld p.inst), (.depot, 2, fun m => m.flushEnd p.inst false),
      (.depot, 3, fun m => m.flushEnd p.inst true), (.hbm, 1, fun m => m.scrubEnd p.inst), (.shunt, 2, Chip.fenceEnd)] →
    exec (.commandEnd p) s = .next (s.settled s.nvm ((f s.chip).syncRun p))) ∧
  (∀ (m : Chip),
    (∀ k, m.board.snap = some k → let e := m.snapEnd
      Ended e ⟨.time, 0⟩ ∧ e.board = { m.board with snap := none } ∧ e.dom = m.dom ∧ e.coaches = m.coaches ∧ e.mem = m.mem ∧
      (∀ d : Fin 34, e.fld (K.timeSnapCnt d) F.timeSnapCntCount = k.cnt[d].toNat % 2 ^ 58 ∧
        e.fld (K.timeSnapLat d) F.timeSnapLatPeriodPs = k.period[d] % 2 ^ 24) ∧
      (∀ r : Fin 4, e.reg (K.timeSnapEpoch r) = k.epoch[r]) ∧ e.reg K.timeSnapRun = k.run.zeroExtend 64 ∧
      e.reg K.timeSnapSeq = m.reg K.timeSnapSeq + 1) ∧
    (let e := m.rakeResetEnd;
      Ended e ⟨.rst, 0⟩ ∧ e.board = m.board ∧ e.coaches = m.coaches ∧ e.mem = m.mem ∧
      ∀ d : Fin 34, e.dom[d] = if d.val = m.cmdArg ⟨.rst, 0⟩ % 4 then
        { m.dom[d] with run := decide (7 ≤ m.phase) && m.board.coreRails && m.pwr.stops.isEmpty } else m.dom[d]) ∧
    (∀ c : Fin 64, let e := m.vzeroEnd c
      Ended e ⟨.vec, c⟩ ∧ (e.coach c).vec = { VecEngine.reset with q := (m.coach c).vec.q } ∧
      (e.coach c).vown = { (m.coach c).vown with tag := 0, dirty := false } ∧ (e.coach c).mtx = (m.coach c).mtx ∧
      (e.coach c).dray = (m.coach c).dray ∧ (∀ a : Bool, e.ctx ⟨c, a⟩ = m.ctx ⟨c, a⟩) ∧ (∀ d, d ≠ c → e.coach d = m.coach d) ∧
      e.cm = m.cm ∧ e.mem = m.mem) ∧
    (∀ i : Fin 128, let p : PageId := ⟨.tally, i⟩; let e := m.tallyClear p
      Ended e p ∧ e.coaches = m.coaches ∧ e.mem = m.mem ∧
      (∀ a, p.base + 0x180 ≤ a → a < p.base + 0x400 → e.reg a = regReset a) ∧
      (∀ a, a < p.base + 0x180 ∨ p.base + 0x400 ≤ a → a ≠ K.pageCmdStat p.base → a ≠ K.pageGen p.base → a ≠ K.pageEvt p.base →
        a ≠ K.hostifMsixDrop → e.reg a = m.reg a)) ∧
    (∀ c : Fin 64, let r := zeroRange (m.cmdArg ⟨.cmem, c⟩); let pos := smapGet (fun _ => 0) m.zeroed c; let e := m.zeroEnd c
      Ended e ⟨.cmem, c⟩ ∧ e.coaches = m.coaches ∧ e.cm = m.cm ∧
      (∀ i o : Nat, pos ≤ i → i < r.2 → m.rowReady c (r.1 + i) = true → o < 512 → e.rdByte (rowAddr c (r.1 + i) + o) = 0) ∧
      (∀ a : Nat, (∀ i : Nat, pos ≤ i → i < r.2 → a < rowAddr c (r.1 + i) ∨ rowAddr c (r.1 + i) + 512 ≤ a) → e.rdByte a = m.rdByte a)) ∧
    (∀ c : Fin 64, let e := m.bufzeroEnd c
      Ended e ⟨.cmem, c⟩ ∧ e.coaches = m.coaches ∧ e.mem = m.mem ∧
      ∀ (d : Fin 64) (f b : Nat), f < 4 → b < 2 ^ 18 → e.obufByte d f b = if d = c then 0 else m.obufByte d f b) ∧
    (∀ i : Fin 16, m.cmdCode ⟨.depot, i⟩ = 1 → let e := m.splitEnd i; let a0 := m.eighths i; let a1 := m.pendEighths i
      let at' (n : Nat) : Nat := 0x10000000000 + i * 0x2000000 + n * 0x400000
      Ended e ⟨.depot, i⟩ ∧ e.eighths i = a1 ∧ e.fld (K.depotSplit i) F.depotSplitCways = (16 - 2 * a1) % 32 ∧
      (e.slice i).walk = 0 ∧ (e.slice i).raised = false ∧
      (∀ d ∈ (e.slice i).lines, (m.slice i).walk ≤ d.line % 8192 → d.way < 16 - 2 * a1) ∧
      (∀ a : Nat, at' (min a0 a1) ≤ a → a < at' (max a0 a1) → e.rdByte a = 0) ∧
      (∀ a : Nat, a < at' (min a0 a1) ∨ at' (max a0 a1) ≤ a → e.rdByte a = m.rdByte a)) ∧
    (∀ (i : Fin 16) (inval : Bool), m.cmdCode ⟨.depot, i⟩ = (if inval then 3 else 2) → let e := m.flushEnd i inval
      Ended e ⟨.depot, i⟩ ∧ e.mem = m.mem ∧ (e.slice i).walk = 0 ∧ (e.slice i).raised = false ∧
      (∀ d ∈ (e.slice i).lines, (m.slice i).walk ≤ d.line % 8192 → inval = false ∧ d.dirty = false) ∧
      (∀ d ∈ (e.slice i).boot, inval = false ∧ d.dirty = false)) ∧
    (∀ i : Fin 16, let e := m.scrubEnd i
      Ended e ⟨.hbm, i⟩ ∧ e.reg (K.hbmScrubPos i) = 0 ∧ e.reg (K.hbmScrubPasses i) = m.reg (K.hbmScrubPasses i) + 1 ∧ e.mem = m.mem ∧
      (m.fld (K.pageCmdStat (PageId.base ⟨.hbm, i⟩)) F.pageCmdStatIssuer = 0x8031 → (e.reg (K.pageEvt (PageId.base ⟨.hbm, i⟩))).getLsbD 17 = true)) ∧
    (let c : Fin 64 := ⟨m.cmdArg ⟨.shunt, 0⟩ % 64, Nat.mod_lt _ (by decide)⟩; let gone := m.relocateGo c
      let set := m.flag (K.shuntCoachCfg c) F.shuntCoachCfgFenced
      (m.shuntHold = true → m.fenceEnd = m) ∧
      (m.shuntHold = false → set = false → m.fenceEnd = m.fenceCoach c) ∧
      (set = true → m.fencedOff c = false → m.fenceEnd = m) ∧
      (m.shuntHold = false → set = true → m.fencedOff c = true →
        ((∀ t ∈ gone.residents c, t.st = .stranded ∧ t.ending = none) → Ended m.fenceEnd ⟨.shunt, 0⟩ ∧
          (m.fenceEnd.reg (K.pageEvt (PageId.base ⟨.shunt, 0⟩))).getLsbD 17 = true ∧ m.fenceEnd.sh = gone.sh ∧ m.fenceEnd.coaches = gone.coaches) ∧
        ((∃ t ∈ gone.residents c, t.st ≠ .stranded ∨ t.ending ≠ none) → m.fenceEnd = gone))))

/-- A read of a register returns its value and clears a count that reads clear; data windows read and write their place and move on. Clauses rest on the model's choices: log entry 31. -/
def Obligations.ReadsShowAndClear : Prop :=
  ∀ (s : State) (k : BitVec 16) (off size : Nat), let m := s.chip; let n := s.nvm
    ((size = 4 ∨ size = 8) → off % size = 0 → (idKind k = 1 → m.chocked k = false) → (∀ p, pageAt off = some p →
      (m.served p k = true → exec (.readToClear k off size) s = .next (s.settled n
        ((m.afterRead p off size).emit (.value k off (m.viewPart n p off size))))) ∧
      (m.served p k = false → exec (.readToClear k off size) s = .next (s.settled n (m.emit (.value k off 0))))) ∧
      (pageAt off = none → exec (.readToClear k off size) s = .next (s.settled n (m.emit (.value k off 0))))) ∧
    (¬ ((size = 4 ∨ size = 8) ∧ off % size = 0) → exec (.readToClear k off size) s = .next (s.settled n (m.emit (.unsupported k off)))) ∧
    ((m.afterRead ⟨.clk, 0⟩ K.clkRefclkLoss 8).reg K.clkRefclkLoss = 0) ∧
    (∀ c : Fin 64, (size = 4 ∨ size = 8) → off % size = 0 → (idKind k = 1 → m.chocked k = false) → m.served ⟨.coach, c⟩ k = true →
      m.served ⟨.vec, c⟩ k = true → m.served ⟨.cmem, c⟩ k = true →
      (off - off % 8 = K.coachCmData c → exec (.cmData (.read k off size)) s = .next (s.settled n
        ((m.cmAdvance c size).emit (.value k off (m.viewPart n ⟨.coach, c⟩ off size))))) ∧
      (off - off % 8 = K.vecVregData c → exec (.vregData (.read k off size)) s = .next (s.settled n
        ((if size = 8 ∨ off % 8 = 4 then m.vregAdvance c else m).emit (.value k off (m.viewPart n ⟨.vec, c⟩ off size))))) ∧
      (off - off % 8 = K.cmemObufData c → exec (.obufData (.read k off size)) s = .next (s.settled n
        ((if size = 8 ∨ off % 8 = 4 then m.obufAdvance c else m).emit (.value k off (m.viewPart n ⟨.cmem, c⟩ off size)))))) ∧
    (∀ (c : Fin 64) (w : Wr),
      (Taken m w ⟨.coach, c⟩ → w.reg = K.coachCmData c → exec (.cmData (.write w)) s = .next (s.settled n
        ((((m.setCms c (m.fld (K.coachCmAddr c) F.coachCmAddrAddr) w.cmWords).cmAdvance c w.size).bumpGen (coachPage c)).wrote
          ⟨.coach, c⟩ w))) ∧
      (Taken m w ⟨.vec, c⟩ → w.reg = K.vecVregData c → exec (.vregData (.write w)) s = .next (s.settled n
        ((m.vregWrite c w).wrote ⟨.vec, c⟩ w))) ∧
      (Taken m w ⟨.cmem, c⟩ → w.reg = K.cmemObufData c → exec (.obufData (.write w)) s = .next (s.settled n
        ((m.obufWriteWord c w).wrote ⟨.cmem, c⟩ w))))

/-- Every stack, arithmetic, logic, shift and comparison instruction completes with the result of R89 -/
def Obligations.StackInstructionsComplete : Prop :=
  ∀ (s : State) (x : Ctx) (e : StackOp), e ∈ stackMoves ++ stackSums ++ stackLogic ++ stackTests →
    Due s.chip x e.op → ∀ (b b' : Bank) (c' : Bool), (s.chip.tallyBoundary x).filledTo x e.nd e.nr b →
      e.res b (s.chip.ctx x).status.c = some (b', c') → Completes (e.row x) s x b' c' id 1 .seq

/-- LIT, LITW, DEPTH, RDEPTH, RDSR and PICK complete. Clauses rest on the model's choices: log entry 92. -/
def Obligations.PushesComplete : Prop :=
  ∀ (s : State) (x : Ctx) (b : Bank), let m := s.chip.tallyBoundary x; let k := s.chip.ctx x; let c := k.status.c
    (m.filledTo x 0 0 b →
      (∀ v : BitVec 15, Due s.chip x (.lit v) → Completes (.lit x v) s x { b with ds := v.zeroExtend 16 :: b.ds } c id 1 .seq) ∧
      (∀ t, Due s.chip x .litw → k.inRange (k.pc + 1).toNat = true → m.fetchWord x (k.pc + 1).toNat = t →
        Completes (.litw x) s x { b with ds := t :: b.ds } c id 2 .seq) ∧
      (Due s.chip x .depth → Completes (.depth x) s x { b with ds := BitVec.ofNat 16 (min 65535 k.bank.depth) :: b.ds } c id 1 .seq) ∧
      (Due s.chip x .rdepth → Completes (.rdepth x) s x { b with ds := BitVec.ofNat 16 (min 65535 k.bank.rdepth) :: b.ds } c id 1 .seq) ∧
      (∀ n : BitVec 7, Due s.chip x (.rdsr n) → Completes (.rdsr x n) s x { b with ds := k.readSr x n.toNat :: b.ds } c id 1 .seq)) ∧
    (∀ (n : W16) (t : List W16) (b1 : Bank), Due s.chip x .pick → m.filledTo x 1 0 b1 → b1.ds.head? = some n → n.toNat ≤ 15 →
      m.filledTo x (n.toNat + 2) 0 b → b.ds = n :: t → Completes (.pick x) s x { b with ds := t.getD n.toNat 0 :: t } c id 1 .seq)

/-- FETCH, FETCHP, FETCH4, STORE, STOREP and STORE4 complete; an address out of range chocks the context. Clauses rest on the model's choices: log entry 91. -/
def Obligations.LoadsAndStoresComplete : Prop :=
  ∀ (s : State) (x : Ctx) (b : Bank), let m := s.chip.tallyBoundary x; let k := s.chip.ctx x; let c := k.status.c
    (∀ (a : W16) (t : List W16), m.filledTo x 1 0 b → b.ds = a :: t →
      (∀ v, m.holds x a [v] →
        (Due s.chip x .fetch → Completes (.fetch x) s x { b with ds := v :: t } c id 1 .seq) ∧
        (Due s.chip x .fetchp → Completes (.fetchp x) s x { b with ds := (a + 1) :: v :: t } c id 1 .seq)) ∧
      (∀ v0 v1 v2 v3, m.holds x a [v0, v1, v2, v3] → Due s.chip x .fetch4 →
        Completes (.fetch4 x) s x { b with ds := v0 :: v1 :: v2 :: v3 :: t } c id 1 .seq) ∧
      (k.inRange a.toNat = false →
        (Due s.chip x .fetch → exec (.fetch x) s = .next (s.on (m.chockCtx x a.toNat))) ∧
        (Due s.chip x .fetchp → exec (.fetchp x) s = .next (s.on (m.chockCtx x a.toNat))) ∧
        (Due s.chip x .fetch4 → exec (.fetch4 x) s = .next (s.on (m.chockCtx x a.toNat))))) ∧
    (∀ (a v : W16) (t : List W16), m.filledTo x 2 0 b → b.ds = a :: v :: t →
      (k.inRange a.toNat = true →
        (Due s.chip x .store → Completes (.store x) s x { b with ds := t } c (fun m => m.storeWords x a [v]) 1 .seq) ∧
        (Due s.chip x .storep → Completes (.storep x) s x { b with ds := (a + 1) :: t } c (fun m => m.storeWords x a [v]) 1 .seq)) ∧
      (k.inRange a.toNat = false →
        (Due s.chip x .store → exec (.store x) s = .next (s.on (m.chockCtx x a.toNat))) ∧
        (Due s.chip x .storep → exec (.storep x) s = .next (s.on (m.chockCtx x a.toNat))))) ∧
    (∀ (a v0 v1 v2 v3 : W16) (t : List W16), m.filledTo x 5 0 b → b.ds = a :: v0 :: v1 :: v2 :: v3 :: t → Due s.chip x .store4 →
      (k.reaches a 4 → Completes (.store4 x) s x { b with ds := t } c (fun m => m.storeWords x a [v0, v1, v2, v3]) 1 .seq) ∧
      (k.inRange a.toNat = false → exec (.store4 x) s = .next (s.on (m.chockCtx x a.toNat))))

/-- BR, BZ, BNZ, CALL, RET, BRX, CALLX and ENDLOOP complete -/
def Obligations.BranchesComplete : Prop :=
  ∀ (s : State) (x : Ctx) (b : Bank), let m := s.chip.tallyBoundary x; let k := s.chip.ctx x; let c := k.status.c
    (∀ t, k.inRange (k.pc + 1).toNat = true → m.fetchWord x (k.pc + 1).toNat = t →
      (m.filledTo x 0 0 b →
        (Due s.chip x .br → Completes (.br x) s x b c id 2 (.jump t)) ∧
        (Due s.chip x .call → Completes (.call x) s x { b with rs := (k.pc + 2) :: b.rs } c id 2 (.jump t))) ∧
      (∀ (f : W16) (r : List W16), m.filledTo x 1 0 b → b.ds = f :: r →
        (Due s.chip x .bz → Completes (.bz x) s x { b with ds := r } c id 2 (if f = 0 then .jump t else .seq)) ∧
        (Due s.chip x .bnz → Completes (.bnz x) s x { b with ds := r } c id 2 (if f = 0 then .seq else .jump t)))) ∧
    (∀ (a : W16) (r : List W16), m.filledTo x 1 0 b → b.ds = a :: r →
      (Due s.chip x .brx → Completes (.brx x) s x { b with ds := r } c id 1 (.jump a)) ∧
      (Due s.chip x .callx → Completes (.callx x) s x { b with ds := r, rs := (k.pc + 1) :: b.rs } c id 1 (.jump a))) ∧
    (∀ (a : W16) (r : List W16), m.filledTo x 0 1 b → b.rs = a :: r → Due s.chip x .ret →
      Completes (.ret x) s x { b with rs := r } c id 1 (.jump a)) ∧
    (m.filledTo x 0 0 b → Due s.chip x .endloop →
      Completes (.endloop x) s x (if b.lc = 0 then b else { b with lc := 0 }) c id 1 (if b.lc = 0 then .seq else .skip (b.le + 1)))

/-- LOOP sets the loop registers, and an instruction at LE counts a pass -/
def Obligations.LoopsRunTheirBody : Prop :=
  (∀ (s : State) (x : Ctx) (b : Bank) (n t : W16) (r : List W16), let m := s.chip.tallyBoundary x; let k := s.chip.ctx x
    Due s.chip x .loop → k.inRange (k.pc + 1).toNat = true → m.fetchWord x (k.pc + 1).toNat = t → m.filledTo x 1 0 b → b.ds = n :: r →
      ((k.pc + 2).toNat ≤ t.toNat → Completes (.loop x) s x { b with ds := r, ls := k.pc + 2, le := t, lc := n } k.status.c id 2
        (.skip (if n = 0 then t + 1 else k.pc + 2))) ∧
      (t.toNat < (k.pc + 2).toNat → exec (.loop x) s = .next (s.on (m.syncFault x 0x03 0x02)))) ∧
  (∀ (k : Context) (b : Bank) (c : Bool) (len : Nat), let last := k.pc + BitVec.ofNat 16 (len - 1)
    (∀ a, (k.complete b c len (.jump a)).pc = a ∧ (k.complete b c len (.jump a)).bank = b) ∧
    (∀ a, (k.complete b c len (.skip a)).pc = a ∧ (k.complete b c len (.skip a)).bank = b) ∧
    (k.bank.lc = 0 ∨ last ≠ k.bank.le → (k.complete b c len .seq).pc = k.pc + BitVec.ofNat 16 len ∧ (k.complete b c len .seq).bank = b) ∧
    (k.bank.lc ≠ 0 → last = k.bank.le → b.lc = k.bank.lc → b.ls = k.bank.ls → b.le = k.bank.le →
      (k.complete b c len .seq).bank = { b with lc := b.lc - 1 } ∧
      (k.complete b c len .seq).pc = if b.lc = 1 then b.le + 1 else b.ls))

/-- WRSR writes the special register it names; each one holds what was written and no other changes. Clauses rest on the model's choices: log entry 92. -/
def Obligations.SpecialRegistersTakeWrites : Prop :=
  (∀ (s : State) (x : Ctx) (b : Bank) (n : BitVec 7) (w : W16) (t : List W16), let k := s.chip.ctx x; let c := k.status.c
    let b' := { b with ds := t }
    Due s.chip x (.wrsr n) → (s.chip.tallyBoundary x).filledTo x 1 0 b → b.ds = w :: t →
      (n = 0 → Completes (.wrsr x n) s x b' (w.getLsbD 0) id 1 .seq) ∧
      (1 ≤ n.toNat → n.toNat ≤ 9 → Completes (.wrsr x n) s x (b'.write n.toNat w) c id 1 .seq) ∧
      (0x0A ≤ n.toNat → n.toNat < 0x40 → Completes (.wrsr x n) s x b' c id 1 .seq) ∧
      (n = 0x62 → Completes (.wrsr x n) s x b' c (fun m => m.intAck x w) 1 .seq) ∧
      (0x68 ≤ n.toNat → n.toNat ≤ 0x6D → if k.status.shadow then Completes (.wrsr x n) s x (b'.write (n.toNat - 0x64) w) c id 1 .seq
        else Completes (.wrsr x n) s x b' c (fun m => m.modCtx x fun k => { k with shadow := k.shadow.write (n.toNat - 0x64) w }) 1 .seq) ∧
      (n.toNat ∈ supervisorWritable → Completes (.wrsr x n) s x b' c (fun m => m.modCtx x fun k => k.writeSr n.toNat w) 1 .seq) ∧
      (0x49 ≤ n.toNat → n.toNat ≤ 0x4E ∨ n = 0x60 ∨ 0x6E ≤ n.toNat → Completes (.wrsr x n) s x b' c id 1 .seq)) ∧
  (∀ (k : Context) (x : Ctx) (n i : Nat) (w : W16), n ∈ supervisorWritable →
    (k.writeSr n w).readSr x n = (if n = 0x40 then w &&& 0xFFC0 else if n = 0x61 then w &&& 0x3F else w) ∧
    (i ≠ n → (k.writeSr n w).readSr x i = k.readSr x i) ∧
    (k.writeSr n w).cmpArmed = (k.cmpArmed || n == 0x63)) ∧
  (∀ (b : Bank) (n : Nat) (w : W16), 1 ≤ n → n ≤ 9 → ∀ (k : Context) (x : Ctx), k.bank = b →
    ∀ i < 0x40, (k.setBank (b.write n w)).readSr x i = if i = n then w else k.readSr x i)

/-- CNT, WAITEV, EVPOLL, EVPEEK, EVCLR, WAITUNTIL and SENDEV complete; a wait without its condition waits. Clauses rest on the model's choices: log entries 4 and 37. -/
def Obligations.EventInstructionsComplete : Prop :=
  ∀ (s : State) (x : Ctx) (b : Bank), let m := s.chip.tallyBoundary x; let k := s.chip.ctx x; let c := k.status.c
    (m.filledTo x 0 0 b → ∀ (v : W64) (upd : Chip → Chip),
      (Due s.chip x .cnt → m.takes x .cnt (some (m.cycle x.coach)) v upd → Completes (.cnt x) s x
        { b with ds := v.extractLsb' 0 16 :: v.extractLsb' 16 16 :: v.extractLsb' 32 16 :: v.extractLsb' 48 16 :: b.ds } c upd 1 .seq) ∧
      (Due s.chip x .evpeek → m.takes x .evpeek (some (k.events.zeroExtend 64)) v upd →
        Completes (.evpeek x) s x { b with ds := v.truncate 16 :: b.ds } c upd 1 .seq)) ∧
    (∀ (mask : W16) (t : List W16), m.filledTo x 1 0 b → b.ds = mask :: t →
      (∀ (v : W64) (upd : Chip → Chip),
        (Due s.chip x .waitev → m.takes x .waitev
            (if k.events &&& mask ≠ 0 ∨ mask = 0 then some ((k.events &&& mask).zeroExtend 64) else none) v upd →
          Completes (.waitev x) s x { b with ds := v.truncate 16 :: t } c (fun m => (upd m).consume x v) 1 .seq) ∧
        (Due s.chip x .evpoll → m.takes x .evpoll (some ((k.events &&& mask).zeroExtend 64)) v upd →
          Completes (.evpoll x) s x { b with ds := v.truncate 16 :: t } c (fun m => (upd m).consume x v) 1 .seq)) ∧
      (Due s.chip x .waitev → m.reexec = false → k.events &&& mask = 0 → mask ≠ 0 →
        exec (.waitev x) s = .next (s.on (m.nowWaits x .waitev id))) ∧
      (Due s.chip x .evclr → Completes (.evclr x) s x { b with ds := t } c (fun m => m.consume x (mask.zeroExtend 64)) 1 .seq)) ∧
    (∀ (t0 t1 t2 t3 mask : W16) (r : List W16), m.filledTo x 5 0 b → b.ds = t0 :: t1 :: t2 :: t3 :: mask :: r → Due s.chip x .waituntil →
      let past := decide (t0.toNat + 2 ^ 16 * t1.toNat + 2 ^ 32 * t2.toNat + 2 ^ 48 * t3.toNat ≤ (m.cycle x.coach).toNat)
      (∀ (v : W64) (upd : Chip → Chip), m.takes x .waituntil
          (if k.events &&& mask ≠ 0 then some ((k.events &&& mask).zeroExtend 64) else if past then some 0 else none) v upd →
        Completes (.waituntil x) s x { b with ds := v.truncate 16 :: r } c (fun m => (upd m).consume x v) 1 .seq) ∧
      (m.reexec = false → k.events &&& mask = 0 → past = false → exec (.waituntil x) s = .next (s.on (m.nowWaits x .waituntil id)))) ∧
    (∀ (w e : W16) (t : List W16), m.filledTo x 2 0 b → b.ds = w :: e :: t → Due s.chip x .sendev → e.toNat ≤ 11 →
      let b' := { b with ds := t }
      (∀ (d : Fin 64) (aft : Bool), w.toNat = 256 * d + 128 * b2n aft → Completes (.sendev x) s x b' c
        (fun m => { m with sends := m.sends ++ [⟨⟨d, aft⟩, e.toNat, k.asid, k.status.lvl, x.coach⟩] }) 1 .seq) ∧
      (∀ i : Fin 8, w.toNat = 0x4000 + i → m.streamSide x.coach i = x.aft → Completes (.sendev x) s x b' c
        (fun m => m.modStream x.coach i fun t => { t with gate := t.gate ||| BitVec.ofNat 12 (2 ^ e.toNat) }) 1 .seq) ∧
      (∀ (v : W64) (upd : Chip → Chip), w = 0x8000 → m.takes x .markSendev (some 0) v upd → Completes (.sendev x) s x b' c
        (fun m => (upd m).event ⟨.coach, x.coach⟩ ((if x.aft then 32 else 16) + e.toNat)) 1 .seq))

/-- BRAKE, UNBRAKE, TSTABLE, SETMODE, SYSCALL, SYSRET and TRET complete. Clauses rest on the model's choices: log entries 35 and 90. -/
def Obligations.ModeChangesComplete : Prop :=
  ∀ (s : State) (x : Ctx) (b : Bank), let m := s.chip.tallyBoundary x; let k := s.chip.ctx x; let c := k.status.c
    let go (f : Context → Context) : State := s.on (m.modCtx x f)
    let back (pc : W16) (st : Status) : State := go fun k => { k.retire.setStatus st with pc := pc, stale := [] }
    (m.filledTo x 0 0 b →
      (Due s.chip x .brake → Completes (.brake x) s x b c (fun m => m.modCtx x fun k => k.setStatus { k.status with brake := true }) 1 .seq) ∧
      (Due s.chip x .unbrake → Completes (.unbrake x) s x b c (fun m => m.modCtx x fun k => k.setStatus { k.status with brake := false }) 1 .seq) ∧
      (Due s.chip x .tstable → Completes (.tstable x) s x b c
        (fun m => m.modCtx x fun k => k.setStatus { k.status with stable := true, df := false }) 1 .seq) ∧
      (∀ n : BitVec 4, Due s.chip x (.syscall n) → k.entryEn.getLsbD n.toNat = true → exec (.syscall x n) s = .next (go fun k =>
        { Context.setStatus { k.retire.setBank (if b.lc ≠ 0 ∧ k.pc = b.le then { b with lc := b.lc - 1 } else b) with
            sysRa := if b.lc ≠ 0 ∧ k.pc = b.le then (if b.lc = 1 then b.le + 1 else b.ls) else k.pc + 1, sysSt := k.status.word }
          { k.status with lvl := true } with pc := k.entry[n.toNat], stale := [] })) ∧
      (Due s.chip x .sysret → let st := Status.ofWord k.sysSt
        exec (.sysret x) s = .next (back k.sysRa { k.status with c := st.c, lvl := st.lvl, brake := st.brake })) ∧
      (Due s.chip x .tret →
        (k.status.df = true → exec (.tret x) s = .next (back k.dfRa (Status.ofWord k.dfSt))) ∧
        (k.status.df = false → k.status.tp = true → exec (.tret x) s = .next (back k.trapRa (Status.ofWord k.trapSt))) ∧
        (k.status.df = false → k.status.tp = false → exec (.tret x) s = .next (back k.shdRa (Status.ofWord k.shdSt))))) ∧
    (∀ (w : W16) (t : List W16), m.filledTo x 1 0 b → b.ds = w :: t → Due s.chip x .setmode → w.toNat < 4 →
      let st (up : Bool) : Status := { k.status with lvl := up, brake := w.getLsbD 1 }
      (w.getLsbD 0 = true → Completes (.setmode x) s x { b with ds := t } c (fun m => m.modCtx x fun k => k.setStatus (st true)) 1 .seq) ∧
      (w.getLsbD 0 = false → k.status.shadow = false → k.status.df = false → exec (.setmode x) s = .next (go fun k =>
        { (k.retire.setBank { b with ds := t }).setStatus (st false) with pc := k.pc + 1 - k.cbase })))

/-- MISSUE, MWAIT, MSTAT, DRGO, DRWAIT, DRSTAT, VCLAIM and VREL complete. Clauses rest on the model's choices: log entries 47 and 91. -/
def Obligations.EngineInstructionsComplete : Prop :=
  ∀ (s : State) (x : Ctx) (b : Bank), let m := s.chip.tallyBoundary x; let k := s.chip.ctx x; let c := k.status.c
    (m.filledTo x 0 0 b →
      (Due s.chip x .mwait → m.mtxCount x = 0 → Completes (.mwait x) s x b c id 1 .seq) ∧
      (Due s.chip x .mstat → m.mtxCount x = 0 → Completes (.mstat x) s x
        { b with ds := (k.mstat ||| BitVec.ofNat 16 (b2n (m.mtxSplit x.coach.val))) :: b.ds } c
        (fun m => m.modCtx x fun k => { k with mstat := 0 }) 1 .seq) ∧
      (Due s.chip x .vclaim →
        (m.ownsVec x = true → (x.aft && (m.coach x.coach).vown.evict) = false → Starts (.vclaim x) s x b fun m => m.claimVec x false) ∧
        (m.ownsVec x = false ∨ (x.aft && (m.coach x.coach).vown.evict) = true → exec (.vclaim x) s = .next (s.on ((m.nowWaits x .claim fun m => m.claimVec x true).syncCoach x.coach)))) ∧
      (Due s.chip x .vrel →
        (m.ownsVec x = false → Starts (.vrel x) s x b id) ∧
        (m.ownsVec x = true → (m.vec x.coach).q = [] →
          Starts (.vrel x) s x b fun m => m.modVown x.coach fun v => { v with owner := 0 }))) ∧
    (∀ (d : W16) (t ws : List W16), m.filledTo x 1 0 b → b.ds = d :: t → m.holds x d ws → ws.length = 8 → Due s.chip x .missue →
      ((m.mtx x.coach).queue.filter (·.aft == x.aft)).length < 2 → ∃ e : MEntry,
        Starts (.missue x) s x { b with ds := t } (fun m => Chip.modMtx { m with issued := m.issued + 1 }
          x.coach fun a => { a with queue := a.queue ++ [e] }) ∧
        e.words.toList = ws ∧ e.d = d ∧ e.pc = k.pc ∧ e.aft = x.aft ∧ e.sup = k.status.lvl ∧ e.stage = .queued ∧
        e.id = m.issued) ∧
    (∀ (d : W16) (t ws : List W16) (i : Fin 8), m.filledTo x 2 0 b → b.ds = BitVec.ofNat 16 i :: d :: t → m.streamSide x.coach i = x.aft →
      (m.stream x.coach i).err = false → (m.stream x.coach i).queued < 4 → m.holds x d ws → ws.length = 16 → Due s.chip x .drgo →
      ∃ e : DDesc, Starts (.drgo x) s x { b with ds := t } (fun m => m.modStream x.coach i fun t => { t with q := t.q ++ [e] }) ∧
        e.words.toList = ws ∧ e.d = d ∧ e.pc = k.pc ∧ e.aft = x.aft ∧ e.sup = k.status.lvl ∧ e.mid = m.issued) ∧
    (∀ (t : List W16) (i : Fin 8), m.filledTo x 1 0 b → b.ds = BitVec.ofNat 16 i :: t → m.streamSide x.coach i = x.aft →
      let st := m.stream x.coach i
      (Due s.chip x .drwait → st.q = [] → Completes (.drwait x) s x { b with ds := t } c id 1 .seq) ∧
      (Due s.chip x .drstat → Completes (.drstat x) s x
        { b with ds := BitVec.ofNat 16 (st.queued + 8 * b2n st.active + 16 * b2n st.err) :: t } c id 1 .seq))

/-- Every vector instruction is queued with its operands, or, in VR form, answers its value. Clauses rest on the model's choices: log entry 76. -/
def Obligations.VectorInstructionsComplete : Prop :=
  ∀ (s : State) (x : Ctx) (o : VOp) (sc : Bool) (b : Bank), let m := s.chip.tallyBoundary x; let i := vecInsn o x sc
    (Op.vec o sc).wf = true → Due s.chip x (.vec o sc) → m.ownsVec x = true →
    (x.aft && (m.coach x.coach).vown.evict) = false → m.filledTo x (o.form sc).pops 0 b →
      let n := m.vecEntry x o sc b.ds
      (o.form sc ≠ .vr → (m.vec x.coach).q.length < 8 → Starts i s x { b with ds := b.ds.drop (o.form sc).pops } fun m =>
        (m.modVec x.coach fun k => { k with q := k.q ++ [n] }).claimVec x false) ∧
      (o.form sc = .vr → (m.vec x.coach).q = [] →
        (n.check (m.vec x.coach).cfg = none → Starts i s x
          { b with ds := unfour ((m.vec x.coach).readOut n) ++ b.ds.drop 1 } fun m =>
            (m.count (K.vecVarithCyc x.coach.val) (if o = .vrdcfg then 1 else 2)).claimVec x false) ∧
        (∀ d, n.check (m.vec x.coach).cfg = some d → Starts i s x { b with ds := 0 :: 0 :: 0 :: 0 :: b.ds.drop 1 } fun m =>
          (m.vecFault x.coach n d none none).claimVec x false)) ∧
      n.pc = (s.chip.ctx x).pc ∧ n.aft = x.aft ∧ n.started = false ∧ n.done = false ∧ decodeOp n.word = some (.vec o sc) ∧
      (o.form sc = .c → ∀ w t, b.ds = w :: t → n.x = w) ∧
      (o.form sc ≠ .c → ∀ w t, b.ds = w :: t → n.desc = w) ∧
      (o.form sc = .vx → ∀ w v t, b.ds = w :: v :: t → n.x = v) ∧
      (∀ w w0 w1 w2 w3 t, b.ds = w :: w0 :: w1 :: w2 :: w3 :: t →
        (o.form sc = .vf → n.f = w3 ++ w2 ++ w1 ++ w0) ∧ (o.form sc = .vm → n.a = w3 ++ w2 ++ w1 ++ w0) ∧
        (∀ v0 v1 v2 v3 r, t = v0 :: v1 :: v2 :: v3 :: r → o.form sc = .vms → n.a = w3 ++ w2 ++ w1 ++ w0 ∧ n.t = v3 ++ v2 ++ v1 ++ v0))

/-- Every operation of a context decodes from its word, and no two words stand for one operation -/
def Obligations.OperationsEncodeAndDecode : Prop :=
  (∀ o : Op, o.wf = true → decodeOp (encodeOp o) = some o) ∧
  (∀ (w : W16) (o : Op), decodeOp w = some o → o.wf = true ∧ encodeOp o = w)

/-- An instruction completes where its entries fit, where the oldest four can be spilled, and traps where they cannot. Clauses rest on the model's choices: log entry 90. -/
def Obligations.SpillsFollowTheirRule : Prop :=
  (∀ (m : Chip) (x : Ctx) (b : Bank) (c : Bool) (upd : Chip → Chip) (len : Nat) (nx : Next), let k := m.ctx x
    (b.ds.length ≤ 16 → b.rs.length ≤ 16 →
      m.completed x b c upd len nx = some ((upd m).modCtx x fun k => k.complete b c len nx)) ∧
    (16 < b.ds.length → b.rs.length ≤ 16 → (∀ i < 4, k.inRange (b.dsp + BitVec.ofNat 16 i).toNat = true) →
      (b.dsp.toNat + 4 ≤ b.dsl.toNat → m.completed x b c upd len nx =
        some ((upd (m.setCms x.coach (k.phys b.dsp.toNat) (b.ds.drop (b.ds.length - 4)).reverse)).modCtx x fun k =>
          k.complete { b with ds := b.ds.take (b.ds.length - 4), dsp := b.dsp + 4 } c len nx)) ∧
      (b.dsl.toNat < b.dsp.toNat + 4 → m.completed x b c upd len nx = none ∧
        m.carry x (.done b c upd nx) = m.syncFault x 0x04 0)) ∧
    (b.ds.length ≤ 16 → 16 < b.rs.length → (∀ i < 4, k.inRange (b.rsp + BitVec.ofNat 16 i).toNat = true) →
      (b.rsp.toNat + 4 ≤ b.rsl.toNat → m.completed x b c upd len nx =
        some ((upd (m.setCms x.coach (k.phys b.rsp.toNat) (b.rs.drop (b.rs.length - 4)).reverse)).modCtx x fun k =>
          k.complete { b with rs := b.rs.take (b.rs.length - 4), rsp := b.rsp + 4 } c len nx)) ∧
      (b.rsl.toNat < b.rsp.toNat + 4 → m.carry x (.done b c upd nx) = m.syncFault x 0x04 1))) ∧
  (∀ (s : State) (x : Ctx) (e : StackOp), e ∈ stackMoves ++ stackSums ++ stackLogic ++ stackTests → Due s.chip x e.op →
    let m := s.chip.tallyBoundary x; let b := (s.chip.ctx x).bank
    (b.depth < e.nd → exec (e.row x) s = .next (s.on (m.syncFault x 0x05 0))) ∧
    (e.nd ≤ b.depth → b.rdepth < e.nr → exec (e.row x) s = .next (s.on (m.syncFault x 0x05 1))))

/-- An instruction that completes changes its context's stacks, PC, C and counts, what fetch remembers, the words it spills to, and nothing else. Clauses rest on the model's choices: log entries 29 and 90. -/
def Obligations.StackInstructionFrame : Prop :=
  (∀ (m : Chip) (x : Ctx) (b : Bank) (c : Bool) (len : Nat) (nx : Next) (t : Chip), m.completed x b c id len nx = some t →
    StackFrame m t x b c) ∧
  (∀ (s : State) (x : Ctx) (e : StackOp), e ∈ stackMoves ++ stackSums ++ stackLogic ++ stackTests → Due s.chip x e.op →
    ∀ (b b' : Bank) (c' : Bool) (t : Chip), (s.chip.tallyBoundary x).filledTo x e.nd e.nr b →
      e.res b (s.chip.ctx x).status.c = some (b', c') → (s.chip.tallyBoundary x).completed x b' c' id 1 .seq = some t →
      exec (e.row x) s = .next (s.on t) ∧ StackFrame (s.chip.tallyBoundary x) t x b' c')

/-- A trap is entered as R118 says: the pair it saves, the cause, STATUS, the bank and the handler -/
def Obligations.TrapEntryFollowsItsRule : Prop :=
  ∀ (m : Chip) (x : Ctx) (q : Cause) (ra : W16) (looped : Bool), q.v < 64 → q.detail < 256 →
    let k := m.ctx x; let t := m.enterTrap x q ra looped; let e := t.ctx x; let w := BitVec.ofNat 16 (q.v + 128 * b2n looped + 256 * q.detail)
    (k.status.stable = true ∨ k.status.df = false →
      e.status.lvl = true ∧ e.status.brake = true ∧ e.status.stable = false ∧ e.status.c = k.status.c ∧
      e.main = (if k.status.lvl then k.main else k.main.relocate k.cbase) ∧ e.shadow = k.shadow ∧
      e.sysRa = k.sysRa ∧ e.sysSt = k.sysSt ∧ e.retired = k.retired ∧ e.events = k.events ∧ e.intPend = k.intPend ∧ e.st = .running) ∧
    (k.status.stable = true → q.cls = .supervisor →
      e.shdRa = ra ∧ e.shdSt = k.status.word ∧ e.cause = w ∧ e.info = q.info ∧ e.status.shadow = true ∧ e.status.tp = false ∧
      e.status.df = k.status.df ∧ e.trapRa = k.trapRa ∧ e.trapSt = k.trapSt ∧ e.dfRa = k.dfRa ∧ e.dfSt = k.dfSt ∧ e.dfCause = k.dfCause ∧
      e.pc = m.cmWord x.coach (k.trapBase.toNat + q.v)) ∧
    (k.status.stable = true → q.cls = .task →
      e.trapRa = ra ∧ e.trapSt = k.status.word ∧ e.cause = w ∧ e.info = q.info ∧ e.status.shadow = k.status.shadow ∧ e.status.tp = true ∧
      e.status.df = k.status.df ∧ e.shdRa = k.shdRa ∧ e.shdSt = k.shdSt ∧ e.dfRa = k.dfRa ∧ e.dfSt = k.dfSt ∧ e.dfCause = k.dfCause ∧
      e.pc = m.cmWord x.coach (k.trapBase.toNat + q.v)) ∧
    (k.status.stable = false → k.status.df = false →
      e.dfRa = ra ∧ e.dfSt = k.status.word ∧ e.dfCause = w ∧ e.cause = k.cause ∧ e.info = k.info ∧ e.status.shadow = true ∧
      e.status.df = true ∧ e.status.tp = false ∧ e.shdRa = k.shdRa ∧ e.shdSt = k.shdSt ∧ e.trapRa = k.trapRa ∧ e.trapSt = k.trapSt ∧
      e.pc = m.cmWord x.coach k.trapBase.toNat) ∧
    (k.status.stable = false → k.status.df = true →
      e = Context.reset ∧ t.ctx ⟨x.coach, !x.aft⟩ = Context.reset ∧ t.cm = m.cm ∧ t.mem = m.mem ∧ t.dom = m.dom ∧
      t.flag K.rstResetCause F.rstResetCauseCoach = true ∧ t.fld K.rstResetCause F.rstResetCauseCoachId = x.coach)

/-- TRAP_ENTRY takes the first cause that R117 finds at the boundary. Clauses rest on the model's choices: log entries 36 and 37. -/
def Obligations.CausesAreTakenInOrder : Prop :=
  ∀ (s : State) (x : Ctx) (hi : Nat), let m := s.chip; let k := m.ctx x; let tm := m.tallyBoundary x
    (k.st = .running ∨ k.st = .waiting → m.coachOn x.coach = true → k.entering = none → k.hubDue = false → k.inRange k.pc.toNat = false →
      exec (.trapEntry x hi) s = .next (s.onCoach x.coach (m.chockCtx x k.pc.toNat))) ∧
    (k.st = .running ∨ k.st = .waiting → m.coachOn x.coach = true → k.entering = none → k.hubDue = false → k.inRange k.pc.toNat = true → m.lenOf x = 2 →
      k.inRange (k.pc + 1).toNat = false → exec (.trapEntry x hi) s = .next (s.onCoach x.coach (m.chockCtx x (k.pc + 1).toNat))) ∧
    (AtBoundary m x → k.status.stable = true →
      (∀ d, k.defMtx = some d → exec (.trapEntry x hi) s = .next (s.onCoach x.coach
        ((tm.modCtx x fun k => { k with defMtx := none }).enterTrap x ⟨0x08, .task, d.detail, d.info⟩ k.pc k.looped))) ∧
      (k.defMtx = none → ∀ d, k.defVec = some d → exec (.trapEntry x hi) s = .next (s.onCoach x.coach
        ((tm.modCtx x fun k => { k with defVec := none }).enterTrap x ⟨0x09, .task, d.detail, d.info⟩ k.pc k.looped))) ∧
      (k.defMtx = none → k.defVec = none → ∀ (i : Fin 8) d l, k.defDray = d :: l → d.detail = i → exec (.trapEntry x hi) s =
        .next (s.onCoach x.coach (((tm.modCtx x fun k => { k with defDray := l }).modStream x.coach i fun t => { t with err := false }).enterTrap x
          ⟨0x0A, .task, d.detail, d.info⟩ k.pc k.looped)))) ∧
    (AtBoundary m x → k.noDeferred → m.reexec = false → k.status.brake = false → m.logStalls 0 = false →
      (m.vec x.coach).q = [] → (m.mtx x.coach).arr = [] → ∀ i : Fin 6, k.intPend.getLsbD i && k.intEn.getLsbD i →
      (∀ j : Fin 6, j < i → (k.intPend.getLsbD j && k.intEn.getLsbD j) = false) → let v := k.intStamp[i]
        exec (.trapEntry x hi) s = .next (s.onCoach x.coach ((m.logRec (ctxRec x k (.async (0x10 + i)) v)).enterTrap x
          ⟨0x10 + i, .supervisor, 0, #v[v.extractLsb' 0 16, v.extractLsb' 16 16, v.extractLsb' 32 16, v.extractLsb' 48 16]⟩ k.pc k.looped))) ∧
    (AtBoundary m x → k.noDeferred → m.reexec = false → (k.status.brake = true ∨ k.intPend &&& k.intEn &&& 0x3F = 0) →
      let fault (v d : Nat) : State := s.onCoach x.coach (m.syncFault x v d)
      (decodeOp (m.fetchWord x k.pc.toNat) = none → exec (.trapEntry x hi) s = .next (fault 0x01 0)) ∧
      (∀ o, decodeOp (m.fetchWord x k.pc.toNat) = some o →
        (k.status.shadow = true → o.engine = true → exec (.trapEntry x hi) s = .next (fault 0x01 1)) ∧
        (k.status.shadow = false ∨ o.engine = false → k.status.lvl = false → o.priv = true →
          exec (.trapEntry x hi) s = .next (fault 0x02 0)) ∧
        (∀ n : BitVec 4, o = .syscall n → k.entryEn.getLsbD n.toNat = false → exec (.trapEntry x hi) s = .next (fault 0x06 n.toNat)))) ∧
    (∀ (v d : Nat), v < 64 → d < 256 → ∃ i : Vector W16 4, i[0] = m.fetchWord x k.pc.toNat ∧ i[1] = m.topWord x ∧
      ∃ n hi : Nat, m.syncFault x v d = Chip.enterTrap (if v = 0x04 ∨ v = 0x05 then (Chip.haltVec { m with tick := n } x hi).next else { m with tick := n })
        x ⟨v, if v = 0x04 ∨ v = 0x05 then .supervisor else .task, d, i⟩ k.pc false)

/-- WAIT_RELEASE, WAITUNTIL_EXPIRE, VCLAIM_GRANT, VCLAIM_LIMIT_EXPIRE and HUB_STOP act as their rules say. Clauses rest on the model's choices: log entries 4, 38 and 44. -/
def Obligations.WaitsAndClaimsGoOn : Prop :=
  ∀ (s : State) (x : Ctx), let m := s.chip; let tm := m.tallyBoundary x; let k := m.ctx x
    (k.st = .waiting → m.coachOn x.coach = true → m.boundary x = .go →
      (∀ (b : Bank) (c : Bool) (upd : Chip → Chip) (nx : Next) (t : Chip), tm.planOf x = .done b c upd nx →
        tm.completed x b c upd (tm.lenOf x) nx = some t → exec (.waitRelease x) s = .next (s.onCoach x.coach t)) ∧
      (∀ (w : Wait) (upd : Chip → Chip), tm.planOf x = .wait w upd →
        exec (.waitRelease x) s = .next (s.onCoach x.coach (tm.nowWaits x w upd)))) ∧
    (∀ (b : Bank) (t0 t1 t2 t3 mask : W16) (r : List W16), k.st = .waiting → k.wait = .waituntil → m.coachOn x.coach = true →
      m.fillData x 5 k.bank 5 = .ok b → b.ds = t0 :: t1 :: t2 :: t3 :: mask :: r →
      let m1 := m.setDom (coachDomain x.coach.val) fun d =>
        { d with count := if d.count.toNat < (t3 ++ t2 ++ t1 ++ t0 : W64).toNat then t3 ++ t2 ++ t1 ++ t0 else d.count }
      exec (.waituntilExpire x) s = .next (s.onCoach x.coach (m1.waitRelease x)) ∧
      (t3 ++ t2 ++ t1 ++ t0 : W64).toNat ≤ (m1.cycle x.coach).toNat) ∧
    (let c := x.coach; let v := (m.coach c).vown
      m.coachOn c = true →
      (v.owner = 0 → v.claimF || v.claimA → let y : Ctx := ⟨c, !v.claimF⟩
        exec (.vclaimGrant c) s = .next (s.onCoach c ((((m.takeVec c (m.ctx y).task).claimVec y false).modVown c fun v =>
          { v with owner := if y.aft then 2 else 1, evict := false }).setEvents y 0x4000))) ∧
      (∀ hi : Nat, v.claimA = true → v.owner = 1 → v.limitA = false → v.capA ≠ 0 → exec (.vclaimLimitExpire c true hi) s = .next (s.onCoach c
        ((m.modVown c fun v => { v with limitA := true, limitHits := v.limitHits + 1 }).event (coachPage c) 48))) ∧
      (∀ hi : Nat, v.claimF = true → v.owner = 2 → v.limitF = false → v.capF ≠ 0 → (m.vec c).q = [] → exec (.vclaimLimitExpire c false hi) s =
        .next (s.onCoach c (m.modVown c fun v => { v with limitF := true, evict := true, limitHits := v.limitHits + 1 })))) ∧
    (∀ hi : Nat, m.coachOn x.coach = true → k.st = .running ∨ k.st = .waiting → k.entering = none → HubStop.stop ∈ k.stopReq →
      let m1 := ((m.modCtx x fun k => { k with st := .stopped, wait := .none, entering := none, stopReq := k.stopReq.filter fun h => h != .stop && h != .quiesce }).claimVec
        x false).stopEngines x hi
      let m2 := if m1.busy (coachPage x.coach) ∧ m1.cmdCode (coachPage x.coach) = 2 then m1.endCmd (coachPage x.coach) 0 else m1
      exec (.hubStop x hi) s = .next (s.onCoach x.coach (m2.syncCoach x.coach)))

/-- EVENT_DELIVER, INT_PEND_SET, CMP_MATCH and BRAKE_LIMIT_EXPIRE act as their rules say. Clauses rest on the model's choices: log entries 39 and 42. -/
def Obligations.SourcesAndEventsArrive : Prop :=
  ∀ (s : State), let m := s.chip
    (∀ (n : Nat) (e : Send), m.sends[n]? = some e → let m1 : Chip := { m with sends := m.sends.eraseIdx n }
      (e.sup = true ∨ ((m.ctx e.target).task ≠ 0 ∧ (m.ctx e.target).asid = e.asid) → exec (.eventDeliver n) s = .next (s.on
        (m1.modCtx e.target fun k => { k with events := k.events ||| BitVec.ofNat 16 (2 ^ e.event) }))) ∧
      (e.sup = false → (m.ctx e.target).task = 0 ∨ (m.ctx e.target).asid ≠ e.asid → exec (.eventDeliver n) s = .next (s.on
        (m1.countFld (K.coachEvDrop e.drop.val) F.coachEvDropCount 1)))) ∧
    (∀ (n : Nat) (x : Ctx) (i : Fin 6), m.posts[n]? = some (x, i.val) → let m1 : Chip := { m with posts := m.posts.eraseIdx n }
      exec (.intPendSet (.posted n)) s = .next (s.on (m1.modCtx x fun k => if k.intPend.getLsbD i then k else
        { k with intPend := k.intPend ||| BitVec.ofNat 16 (2 ^ i.val), intStamp := k.intStamp.set i (m.stamp (coachDomain x.coach.val)) }))) ∧
    (∀ x : Ctx, m.flag K.shuntShuntCtl F.shuntShuntCtlEn = true →
      exec (.intPendSet (.shunt x)) s = .next (s.on (m.modCtx x fun k => if k.intPend.getLsbD 3 then k else
        { k with intPend := k.intPend ||| 8, intStamp := k.intStamp.set 3 (m.stamp (coachDomain x.coach.val)) }))) ∧
    (∀ x : Ctx, (m.ctx x).cmpArmed = true → m.domRuns (coachDomain x.coach.val) = true → ∃ t, exec (.cmpMatch x) s = .next (s.on t) ∧ (t.ctx x).cmpArmed = false ∧
      (t.ctx x).intPend = (m.ctx x).intPend ||| 0x20 ∧ (m.ctx x).cmp.toNat ≤ (t.cycle x.coach).toNat ∧ t.regs = m.regs ∧ t.mem = m.mem) ∧
    (∀ x : Ctx, let k := m.ctx x
      k.status.brake = true → k.hangSent = false → k.limitNow ≠ 0 → exec (.brakeLimitExpire x) s = .next (s.on
        (let w := BitVec.ofNat 64 (x.coach.val + 64 * b2n x.aft + 2 ^ 16 * k.pc.toNat + 2 ^ 32 * k.cause.toNat + 2 ^ 48 * k.task.toNat)
         let m1 := (m.setReg K.shuntHangRec w).event ⟨.shunt, 0⟩ 16
         Chip.modCtx { m1 with stg := { m1.stg with hang := w } } x fun k => { k with hangSent := true })))

/-- RAKE_RESET is refused with BAD_ARG for rake 4 or higher, else with NOT_IDLE while the rake holds a partition. Clauses rest on the model's choices: log entry 11. -/
def Obligations.RakeResetIsRefused : Prop :=
  ∀ (s : State) (l : Launch), s.chip.stalledLink l.m = none → s.chip.judge (l.wr ⟨.rst, 0⟩ 2) false = .accepted →
    (4 ≤ l.arg.toNat ∨ s.chip.rakeHolds l.arg.toNat) → ∃ t : Chip, exec (.rakeReset l) s = .next (s.settled s.nvm (t.answer l.m 0)) ∧
      t.fld (K.pageCmdStat (pageBase .rst 0)) F.pageCmdStatErr = (if 4 ≤ l.arg.toNat then 0x02 else 0x03) ∧
      t.busy ⟨.rst, 0⟩ = false ∧ t.coaches = s.chip.coaches ∧ t.mem = s.chip.mem ∧ t.cm = s.chip.cm ∧ t.dom = s.chip.dom

/-- SNAP, MODULE_RESET, RAKE_RESET and OSTLER_RESET do what their rules say when they are accepted. Clauses rest on the model's choices: log entries 11, 22, 26 and 27. -/
def Obligations.ModuleCommandsTakeEffect : Prop :=
  ∀ (s : State) (l : Launch), let m := s.chip
    (l.arg = 0 → ∃ sn : Snap, Launches (.snap l) s ⟨.time, 0⟩ 1 l (fun b => b.next.modBoard fun x => { x with snap := some sn }) ∧
      (∀ d : Fin 34, (m.dom[d].run = false → sn.cnt[d] = m.dom[d].count) ∧
        (m.dom[d].run = true → ∃ k : Fin 3, sn.cnt[d] = m.dom[d].count + BitVec.ofNat 64 (latCyc d + k) - 1) ∧
        sn.run.getLsbD d = m.dom[d].run ∧ sn.period[d] = m.dom[d].period) ∧
      ∀ r : Fin 4, sn.epoch[r] = m.reg (K.timeEpoch r)) ∧
    (l.arg = 0 → Launches (.moduleReset l) s ⟨.rst, 0⟩ 1 l fun b => b.moduleEnter .cmd) ∧
    (l.arg = 0 → Launches (.ostlerReset l) s ⟨.rst, 0⟩ 3 l fun b => b.ostlerFalls.endCmd ⟨.rst, 0⟩ 0) ∧
    (l.arg ≠ 0 → Launches (.snap l) s ⟨.time, 0⟩ 1 l (fun b => b.endCmd ⟨.time, 0⟩ 0x02) ∧
      Launches (.moduleReset l) s ⟨.rst, 0⟩ 1 l (fun b => b.endCmd ⟨.rst, 0⟩ 0x02) ∧
      Launches (.ostlerReset l) s ⟨.rst, 0⟩ 3 l (fun b => b.endCmd ⟨.rst, 0⟩ 0x02)) ∧
    (∀ r : Fin 4, l.arg.toNat = r → ¬ m.rakeHolds r → ∃ f : Chip → Chip, LaunchesTo (.rakeReset l) s ⟨.rst, 0⟩ 2 l s.nvm f ∧
      let b := m.beginCmd ⟨.rst, 0⟩ 2 l; let t := f b
      (∀ c : Fin 64, if c.val / 16 = r then
          (let k := t.coach c; let z := Context.reset
            ({ k with fore := { k.fore with intPend := 0, intStamp := z.intStamp }, aft := { k.aft with intPend := 0, intStamp := z.intStamp } } : Coach)
              = Coach.reset) ∧ (∀ a i, (t.ctx ⟨c, a⟩).intPend.getLsbD i = m.sourceHolds i) ∧ ∀ a < 65536, t.cmWord c a = 0
        else t.coach c = m.coach c ∧ ∀ a, t.cmWord c a = m.cmWord c a) ∧
      (∀ d : Fin 34, if d.val = r then t.dom[d].run = false ∧ t.dom[d].count = 0 else t.dom[d] = m.dom[d]) ∧
      t.reg (K.timeEpoch r) = b.reg (K.timeEpoch r) + 1 ∧ t.flag K.rstResetCause F.rstResetCauseRake = true ∧
      t.fld K.rstResetCause F.rstResetCauseRakeId = r ∧ t.busy ⟨.rst, 0⟩ = true ∧ t.sh = m.sh ∧ t.stg = m.stg ∧ t.host = m.host ∧ t.sf = m.sf)

/-- VZERO, CLEAR, QPOWER, ZERO, BUFZERO, SPLIT, FLUSH, FLUSH_INVAL, SCRUB, TRAIN and DOWN begin or end as their rules say. Clauses rest on the model's choices: log entries 28, 57 and 80. -/
def Obligations.BlockCommandsTakeEffect : Prop :=
  ∀ (s : State) (l : Launch), let m := s.chip
    (∀ c : Fin 64, let v : PageId := ⟨.vec, c⟩; let p : PageId := ⟨.cmem, c⟩; let a := l.arg.toNat
      (Launches (.vzero c l) s v 1 l fun b => if l.arg ≠ 0 then b.endCmd v 0x02 else if b.running v then b.endCmd v 0x03 else b) ∧
      (16 ≤ a → Launches (.qpower c l) s p 1 l fun b => b.endCmd p 0x02) ∧
      (a < 16 → let off := (List.range 4).filter fun q => (m.fld (K.cmemQpwr c) F.cmemQpwrOn).testBit q && !a.testBit q
        let rdy := Nat.land (m.fld (K.cmemQpwr c) F.cmemQpwrReady) a
        (off.any (m.usedQuarters c) = true → Launches (.qpower c l) s p 1 l fun b => b.endCmd p 0x03) ∧
        (off.any (m.usedQuarters c) = false → Launches (.qpower c l) s p 1 l fun b =>
          let d := ((off.foldl (fun x q => x.zeroMem (rowAddr c (2048 * q)) 0x100000) b).setFld (K.cmemQpwr c) F.cmemQpwrOn a).setFld
            (K.cmemQpwr c) F.cmemQpwrReady rdy
          if rdy = a then d.endCmd p 0 else d)) ∧
      (Launches (.zero c l) s p 2 l fun b =>
        if a < 2 ^ 26 ∧ a % 8192 + a / 8192 < 8192 then { b with zeroed := smapSet (fun _ => 0) b.zeroed c.val 0 } else b.endCmd p 0x02) ∧
      (Launches (.bufzero c l) s p 3 l fun b => if l.arg ≠ 0 then b.endCmd p 0x02
        else if (m.mtx c).queue = [] ∧ (m.mtx c).arr = [] ∧ ∀ k : Fin 8, (m.stream c k).active = false then b else b.endCmd p 0x03)) ∧
    (∀ i : Fin 128, Launches (.clear i l) s ⟨.tally, i⟩ 1 l fun b => if l.arg = 0 then b else b.endCmd ⟨.tally, i⟩ 0x02) ∧
    (∀ i : Fin 16, let d : PageId := ⟨.depot, i⟩; let h : PageId := ⟨.hbm, i⟩; let a := l.arg.toNat
      (Launches (.split i l) s d 1 l fun b => if 8 < a then b.endCmd d 0x02 else if m.stageMoves then b.endCmd d 0x03
        else if a = m.eighths i then b.endCmd d 0
        else (b.setFld (K.depotSplit i) F.depotSplitPendA a).modSlice i fun k => { k with walk := 0 }) ∧
      (Launches (.flush i l) s d 2 l fun b => if l.arg ≠ 0 then b.endCmd d 0x02 else if m.stageMoves then b.endCmd d 0x03
        else b.modSlice i fun k => { k with walk := 0 }) ∧
      (Launches (.flushInval i l) s d 3 l fun b => if l.arg ≠ 0 then b.endCmd d 0x02 else if m.stageMoves then b.endCmd d 0x03
        else b.modSlice i fun k => { k with walk := 0 }) ∧
      (Launches (.scrub i l) s h 1 l fun b => if l.arg ≠ 0 then b.endCmd h 0x02 else b.setReg (K.hbmScrubPos i) 0)) ∧
    (∀ i : Fin 10, let p : PageId := ⟨.link, i⟩
      (Launches (.train i l) s p 1 l fun b => if l.arg ≠ 0 then b.endCmd p 0x02 else if m.portUp i then b.endCmd p 0x03
        else (((b.setFld (K.linkPortStat i) F.linkPortStatTraining 1).modPort i fun _ => SfPort.reset).portClock i).syncRun p) ∧
      (Launches (.down i l) s p 2 l fun b => if l.arg ≠ 0 then b.endCmd p 0x02 else if m.portUp i then (b.portDown i 1).endCmd p 0
        else b.endCmd p 0x03))

/-- START, STOP, VFLUSH, RESOLVE, END, FENCE and UNFENCE do what their rules say when they are accepted. Clauses rest on the model's choices: log entries 32, 59, 69 and 75. -/
def Obligations.ShunterAndCoachCommandsTakeEffect : Prop :=
  ∀ (s : State) (l : Launch), let m := s.chip; let a := l.arg.toNat
    (∀ c : Fin 64, let p : PageId := ⟨.coach, c⟩; let x : Ctx := ⟨c, l.arg.getLsbD 0⟩; let k := m.ctx x
      let goes := k.st = .running ∨ k.st = .waiting
      (2 ≤ a → Launches (.start c l) s p 1 l (fun b => b.endCmd p 0x02) ∧ Launches (.stop c l) s p 2 l (fun b => b.endCmd p 0x02) ∧
        Launches (.vflush c l) s p 3 l fun b => b.endCmd p 0x02) ∧
      (a < 2 → k.st = .held ∨ k.st = .stopped → Launches (.start c l) s p 1 l fun b => ((((b.applyStaged p).applyStaged ⟨.tally, x.tally⟩).modCtx x
        fun k => if m.stg.post == .quiesce || m.stg.post == .mirror || m.stg.rb != .none then
            { k with st := .stopped, stopReq := if k.stopReq.elem .quiesce then k.stopReq else .quiesce :: k.stopReq }
          else { k with st := .running, wait := .none }).syncCoach c).endCmd p 0) ∧
      (a < 2 → k.st ≠ .held → k.st ≠ .stopped → Launches (.start c l) s p 1 l fun b => b.endCmd p 0x03) ∧
      (a < 2 → goes → Launches (.stop c l) s p 2 l fun b => b.modCtx x fun k =>
        if k.stopReq.elem .stop then k else { k with stopReq := k.stopReq ++ [.stop] }) ∧
      (a < 2 → ¬ goes → Launches (.stop c l) s p 2 l fun b => b.endCmd p 0x03) ∧
      (a < 2 → (m.coach c).vown.owner = 0 → Launches (.vflush c l) s p 3 l fun b =>
        (((if (m.coach c).vown.tag = 0 then b else (b.saveVec c).modVec c fun k => { k with q := [] }).modVown c fun v =>
          { v with owner := 0, dirty := false, tag := 0, evict := false }).syncCoach c).endCmd p 0)) ∧
    (let p : PageId := ⟨.fault, 0⟩;
      (2 ^ 33 ≤ a → Launches (.resolve l) s p 1 l fun b => b.endCmd p 0x02) ∧
      (a < 2 ^ 33 → m.faultOf (a % 2 ^ 32) = none → Launches (.resolve l) s p 1 l fun b => b.endCmd p 0x20) ∧
      (∀ f, a < 2 ^ 33 → m.faultOf (a % 2 ^ 32) = some f → Launches (.resolve l) s p 1 l fun b =>
        (Chip.wakeSided (if a < 2 ^ 32 then (b.closeFault f).adviceWalks f
          else (f.reqs.map (·.2)).eraseDups.foldl (fun m h => if h = 0 then m else m.markEnding h 0x05 0) (b.closeFault f))).endCmd p 0)) ∧
    (let p : PageId := ⟨.shunt, 0⟩;
      (∀ h : W16, a = h.toNat → (m.task h).isSome → m.shuntHold = false → Launches (.endTask l) s p 1 l fun b => b.markEnding h 0x04 0) ∧
      (2 ^ 16 ≤ a ∨ m.task (BitVec.ofNat 16 a) = none → Launches (.endTask l) s p 1 l fun b => b.endCmd p 0x02) ∧
      (∀ c : Fin 64, a = c.val →
        (m.shuntHold = false → Launches (.fence l) s p 2 l fun b => b.fenceCoach c) ∧
        (m.shuntHold = true → Launches (.fence l) s p 2 l id) ∧
        ((∃ i : Fin 8, m.flag (K.cmemPart c i) F.cmemPartValid = true) → Launches (.unfence l) s p 3 l fun b => b.endCmd p 0x03) ∧
        ((∀ i : Fin 8, m.flag (K.cmemPart c i) F.cmemPartValid = false) → Launches (.unfence l) s p 3 l fun b =>
          (([false, true] : List Bool).foldl (fun m a => if (m.ctx ⟨c, a⟩).st == .fenced then m.idleCtx ⟨c, a⟩ else m)
            (b.setFld (K.shuntCoachCfg c) F.shuntCoachCfgFenced 0)).endCmd p 0)) ∧
      (64 ≤ a → Launches (.fence l) s p 2 l (fun b => b.endCmd p 0x02) ∧ Launches (.unfence l) s p 3 l fun b => b.endCmd p 0x02))

/-- ARM, DISARM, POST, ROLLBACK, ABANDON, REGISTER and RELEASE do what R463 says when they are accepted. Clauses rest on the model's choices: log entries 60, 74 and 75. -/
def Obligations.StageCommandsTakeEffect : Prop :=
  ∀ (s : State) (l : Launch), let m := s.chip; let p : PageId := ⟨.stage, 0⟩
    let ask (code : Nat) (b : Chip) : Chip := (b.modStg fun s => { s with postCmd := code }).setFld K.stageStageStat F.stageStageStatPostPend 1
    (l.arg ≠ 0 → Launches (.arm l) s p 1 l (fun b => b.endCmd p 0x02) ∧ Launches (.disarm l) s p 2 l (fun b => b.endCmd p 0x02) ∧
      Launches (.post l) s p 3 l (fun b => b.endCmd p 0x02) ∧ Launches (.rollback l) s p 4 l (fun b => b.endCmd p 0x02) ∧
      Launches (.abandon l) s p 5 l (fun b => b.endCmd p 0x02) ∧ Launches (.register l) s p 6 l fun b => b.endCmd p 0x02) ∧
    (l.arg = 0 →
      (m.areasOk = true → m.guardsOk = true → m.stg.armed = false → Launches (.arm l) s p 1 l fun b =>
        ask 1 (((m.stg.tags.filter (·.2 == clsGuarded)).map (·.1)).foldl Chip.mirrorGranule b)) ∧
      (m.areasOk = false ∨ m.guardsOk = false → Launches (.arm l) s p 1 l fun b => b.endCmd p 0x02) ∧
      (m.areasOk = true → m.guardsOk = true → m.stg.armed = true → Launches (.arm l) s p 1 l fun b => b.endCmd p 0x03) ∧
      (m.stg.armed = true → Launches (.disarm l) s p 2 l (ask 2)) ∧
      (m.stg.armed = false → Launches (.disarm l) s p 2 l fun b => b.endCmd p 0x03) ∧
      (m.stageState ≠ 5 → Launches (.post l) s p 3 l (ask 3) ∧ Launches (.abandon l) s p 5 l fun b => b.endCmd p 0x03) ∧
      (m.stageState = 5 → Launches (.post l) s p 3 l (fun b => b.endCmd p 0x03) ∧
        Launches (.abandon l) s p 5 l fun b =>
          let c : Chip := m.sh.tasks.foldl (fun (c : Chip) t => ((c.complete t.queue t.words[0] 0x04 0 t.handle.toNat).map fun d => d.freeTask t).getD c) b
          ask 5 (Chip.modStg { c with crcSeen := [] } fun s => { s with events := [], current := none })) ∧
      (∀ (b : Chip) (t : Task), (b.freeTask t).sh.tasks.map (·.handle) = (b.sh.tasks.map (·.handle)).filter fun h => h != t.handle) ∧
      (m.stageState = 1 → Launches (.rollback l) s p 4 l fun b =>
        let c := b.modStg fun s => { s with postCmd := 4 }
        { c with stg := { c.stg with events := c.stg.events ++ [c.recEvent 0x0B l.m 0 32] } }) ∧
      (m.stageState ≠ 1 → Launches (.rollback l) s p 4 l fun b => b.endCmd p 0x03) ∧
      (let g := m.fld K.stageRegDst F.stageRegDstAddr; let n := m.fld K.stageRegCtl F.stageRegCtlPages; let src := m.reg K.stageRegSrc;
        let peer := m.flag K.stageRegCtl F.stageRegCtlPeer;
        (n = 0 ∨ granulesOk g n = false ∨ sourceOk src peer = false → Launches (.register l) s p 6 l fun b => b.endCmd p 0x02) ∧
        (n ≠ 0 → granulesOk g n = true → sourceOk src peer = true → Launches (.register l) s p 6 l fun b =>
          match b.registerRange ⟨g, n, src, peer⟩ with | some t => t.endCmd p 0 | none => b.endCmd p 0x20))) ∧
    (2 ^ 26 ≤ l.arg.toNat → Launches (.release l) s p 7 l fun b => b.endCmd p 0x02) ∧
    (l.arg.toNat < 2 ^ 26 →
      ((∀ r ∈ m.stg.regist, r.first ≠ l.arg.toNat) → Launches (.release l) s p 7 l fun b => b.endCmd p 0x21) ∧
      (∀ r, m.stg.regist.find? (fun r => r.first == l.arg.toNat) = some r → Launches (.release l) s p 7 l fun b => (b.endReg r).endCmd p 0))

/-- Every mailbox command is accepted or refused as R505 says and ends with its effect. Clauses rest on the model's choices: log entries 14, 33 and 66. -/
def Obligations.MailboxCommandsTakeEffect : Prop :=
  ∀ (s : State), let m := s.chip; let n := s.nvm; let p : PageId := ⟨.mbox, 0⟩
    (∀ (e : Nat × (Launch → Instr)) (l : Launch), e ∈ ([(1, .getInfo), (2, .fwBegin), (3, .fwWrite), (4, .fwVerify), (5, .fwActivate), (6, .arbCommit), (7, .cfgRead),
      (8, .cfgWrite), (9, .logRead), (10, .dbgNonce), (11, .dbgUnlock), (12, .dbgLock)] : List (Nat × (Launch → Instr))) → let b := m.beginCmd p e.1 l
      (m.board.ostlerUp = false → LaunchesTo (e.2 l) s p e.1 l n id) ∧
      (m.board.ostlerUp = true →
        (b.mboxErr n e.1 ≠ 0 → LaunchesTo (e.2 l) s p e.1 l n fun b => b.endCmd p (b.mboxErr n e.1)) ∧
        (b.mboxErr n e.1 = 0 → e.1 ≠ 2 → LaunchesTo (e.2 l) s p e.1 l n id) ∧
        (b.mboxErr n e.1 = 0 → e.1 = 2 → LaunchesTo (e.2 l) s p e.1 l
          { (if n.codeA = 0 then { n with slotB := n.slotA, checkB := n.checkA } else n) with
            slotA := [], checkA := Config.imageCheck [], aCut := true } fun b =>
          (b.setUpd (some ⟨false, .ready, l.arg.toNat, [], none⟩)).logEvent (.update 2))) ∧
      (m.board.romLoader = true → 5 < e.1 → b.mboxErr n e.1 = 0x01) ∧
      (m.board.romLoader = false → e.1 ∈ [1, 4, 10, 11, 12] → l.arg ≠ 0 → b.mboxErr n e.1 = 0x02)) ∧
    (m.busy p = true → m.board.ostlerUp = true → let arg := m.cmdArg p
      (m.cmdCode p = 2 → m.mg.upd.isSome → exec (.commandEnd p) s = .next (s.settled n (m.endCmd p 0))) ∧
      (m.mboxErr n (m.cmdCode p) = 0 → let ends (n' : Nvm) (t : Chip) : Prop := exec (.commandEnd p) s = .next (s.settled n' t)
        (m.cmdCode p = 1 → ∃ t : Chip, ends n (t.endCmd p 0) ∧ (t.reg K.mboxMbLen).toNat ≤ 2048 ∧
          (∀ i < 256, t.reg (K.mboxMbBuf i) = Config.infoWord n.checkA.svn.val n.checkB.svn.val i) ∧ ∀ v, m.mg.runSvn = some v →
          t.reg K.mboxMbResp = BitVec.ofNat 64 (v % 256 + m.fld K.rstBootStat F.rstBootStatImage * 2 ^ 8 + n.arb % 256 * 2 ^ 16)) ∧
        (∀ u, m.cmdCode p = 3 → m.mboxUpd = some u → let r := fwPut u arg (m.bufBytes (m.fld K.mboxMbLen F.mboxMbLenBytes)) (n, m)
          ends r.1 ((r.2.logEvent (.update 3)).endCmd p 0)) ∧
        (∀ u, m.cmdCode p = 4 → m.mg.upd = some u → u.pldm = false →
          let t := ((m.setReg K.mboxMbResp (BitVec.ofNat 64 n.codeA)).logEvent (.update 4)).setUpd (some { u with verdict := some n.codeA })
          (n.codeA = 0 → ends n (t.endCmd p 0)) ∧ (n.codeA ≠ 0 → ∃ t' : Chip, ends n t' ∧ t'.busy p = false ∧
            t'.fld (K.pageCmdStat p.base) F.pageCmdStatErr = 0x04)) ∧
        (m.cmdCode p = 5 → arg = 0 → ends n (((m.setUpd none).logEvent (.update 5)).endCmd p 0)) ∧
        (m.cmdCode p = 5 → arg = 1 → let d := drainLog n (((m.setUpd none).logEvent (.update 5)).endCmd p 0)
          ends d.1 d.2.ostlerFalls) ∧
        (∀ v, m.cmdCode p = 6 → m.mg.runSvn = some v → ends { n with arb := max n.arb (min 64 v) } ((m.logEvent (.arbCommit (max n.arb (min 64 v)))).endCmd p 0)) ∧
        (m.cmdCode p = 7 → ends n ((m.setReg K.mboxMbResp (BitVec.ofNat 64 (if arg = 0 then n.ilv else if arg = 1 then n.tid else n.capBoot))).endCmd p 0)) ∧
        (m.cmdCode p = 8 → let v := (m.reg K.mboxMbArg).toNat
          ends (if arg = 0 then { n with ilv := v } else if arg = 1 then { n with tid := v } else { n with capBoot := v }) (m.endCmd p 0)) ∧
        (m.cmdCode p = 9 → ∃ t : Chip, ends n (t.endCmd p 0) ∧ t.reg K.mboxMbLen = BitVec.ofNat 64 (32 * min 64 (n.log.length - arg)) ∧
          ∀ i < 64, ∀ e, n.log[arg + i]? = some e → ∀ j : Fin 4, t.reg (K.mboxMbBuf (4 * i + j)) = (Config.logBytes e)[j]) ∧
        (m.cmdCode p = 10 → ∃ (t : Chip) (v : BitVec 128), ends n (t.endCmd p 0) ∧ t.mg.nonce = some v ∧ t.reg (K.mboxMbBuf 0) = Config.deviceId ∧
          t.reg (K.mboxMbBuf 1) = v.extractLsb' 0 64 ∧ t.reg (K.mboxMbBuf 2) = v.extractLsb' 64 64 ∧ t.reg K.mboxMbLen = 24) ∧
        (m.cmdCode p = 11 → let t := m.token (m.bufBytes (m.fld K.mboxMbLen F.mboxMbLenBytes))
          (t.2 = true → ends n (t.1.endCmd p 0)) ∧ (t.2 = false → ∃ t' : Chip, ends n t' ∧ t'.busy p = false ∧
            t'.fld (K.pageCmdStat p.base) F.pageCmdStatErr = 0x04)) ∧
        (m.cmdCode p = 12 → ends n (m.dbgLock.endCmd p 0))))

/-- VEC_ENTRY_START, VEC_ELEMENT_RESPONSE and VEC_ENTRY_COMPLETE start, answer and complete the head entry. Clauses rest on the model's choices: log entries 34, 44, 76, 95 and 96. -/
def Obligations.VectorEntriesRun : Prop :=
  ∀ (s : State) (c : Fin 64) (e : VEntry) (t : List VEntry), let m := s.chip; let k := m.vec c; let x : Ctx := ⟨c, e.aft⟩
    VecHead m c e t → let done (v : VecEngine) : VecEngine :=
        { v with q := (({ e with done := true } : VEntry) :: t).dropWhile (·.done), vresume := if e.op.1.fam = .mem ∨ e.op.1 = .vfsumo then 0 else v.vresume }
      let adv (b : Chip) : Chip := if e.sr.isSome then b.count (K.tallySrCtrV x.tally) 1 else b
      (e.started = false → m.vecGoes x false = true →
        (∀ d, e.check (e.cfg.getD k.cfg) = some d → exec (.vecEntryStart c) s =
            .next (s.onCoach c (m.vecReject c 0 d none (if d = vElemAlign then some e.a else none)))) ∧
        (e.check (e.cfg.getD k.cfg) = none →
          (e.op.1.fam = .row → m.vecRows x e k.cfg = none → exec (.vecEntryStart c) s = .next (s.onCoach c (m.chockCtx x e.a.toNat))) ∧
          (e.op.1.fam ≠ .mem → (e.op.1.fam = .row → m.vecRows x e k.cfg ≠ none) → e.cfg = none → exec (.vecEntryStart c) s =
            .next (s.onCoach c (m.modVec c fun v => { v with q := { e with started := true, cfg := some k.cfg, next := 0 } :: t }))) ∧
          (e.op.1.fam = .mem → e.cfg = none → k.vresume.getLsbD 17 = false → exec (.vecEntryStart c) s = .next (s.onCoach c
            ((m.modVec c fun v => { v with q := { e with started := true, cfg := some k.cfg, next := 0 } :: t }).vecSendAll c (k.vl.toNat + 1)))))) ∧
      (∀ (g : VCfg) (f : VFlight), e.cfg = some g → e.flight.find? (·.ix == f.ix) = some f → f.segs ≠ [] → f.segs.all (·.isDev) = true →
        m.segsHeld (e.cls g) (!e.op.1.loads) false f.segs = false → (e.op.1.loads = true ∨ m.vecRemoteDone c f.ix f.segs = true) →
        (∀ h ∈ e.flight, h.ix < f.ix → segsMeet h.segs f.segs = false) →
        exec (.vecElementResponse c f.ix) s = .next (s.onCoach c (((m.vecPerform c e g f).vecLand c f.ix).vecSettle c))) ∧
      (e.started = true → e.done = false → e.op.1.memPipe = false → ∀ cyc : Nat,
        let o := k.exec e (m.vecKey x e)
        exec (.vecEntryComplete c false cyc 0 false) s = .next (s.onCoach c (adv (((o.elems.reverse.foldl (fun b v =>
          if b.tallyReg x.tally v.reg then b.tallyOne x.tally (v.fmt.counted v.x v.S v.bits v.flushed) else b)
          ((m.modVec c fun _ => o.eng).addFlags x o.flags)).count (K.vecVarithCyc c) (k.cycles e)).modVec c fun v =>
            { v with q := ((v.q.set 0 { e with done := true })).dropWhile (·.done), vresume := if e.op.1 = .vfsumo then 0 else v.vresume })))) ∧
      (∀ (g : VCfg) (cyc r : Nat) (b : Bool), e.started = true → e.done = false → e.op.1.fam = .mem → e.cfg = some g → e.halt = false →
        g.vl.toNat ≤ e.next → e.flight = [] → exec (.vecEntryComplete c true cyc r b) s = .next (s.onCoach c
          ((adv ((m.count (K.vecVmemCyc c) cyc).modVec c done)).endJob (.vec c)))) ∧
      (∀ (g : VCfg) (cyc r : Nat) (b : Bool), e.started = true → e.done = false → e.op.1.fam = .row → e.cfg = some g →
        exec (.vecEntryComplete c true cyc r b) s = .next (s.onCoach c (adv (((m.vecRowMove c e g).count (K.vecVmemCyc c) cyc).modVec c fun v =>
          { v with q := (v.q.set 0 { e with done := true }).dropWhile (·.done) }))))

/-- VADD, VSUB, VMUL, VAND, VOR and VXOR write each active element modulo its width and nothing else -/
def Obligations.IntegerVectorResults : Prop :=
  ∀ (k : VecEngine) (e : VEntry) (key : W64) (w : Nat) (f : Nat → Nat → Nat), let c := k.cfg; let F := c.fmt; let g := c.group
    F = .uint w ∨ F = .sint w → (∀ a b, intResult e.op.1 w a b = some (f a b)) → e.check c = none → k.vl.toNat ≤ vlMax F g →
      let o := k.exec e key
      (∀ i < k.vl.toNat, k.active c e i = true → o.eng.elem F e.vd i = f (if e.op.2 then e.f.toNat % 2 ^ w else k.elem F e.vs1 i) (k.elem F e.vs2 i)) ∧
      (∀ i < k.vl.toNat, k.active c e i = false → o.eng.elem F e.vd i = if c.mzero then 0 else k.elem F e.vd i) ∧
      (∀ i, k.vl.toNat ≤ i → i < vlMax F g → o.eng.elem F e.vd i = k.elem F e.vd i) ∧
      (∀ r : Fin 32, r < e.vd ∨ e.vd + g ≤ r → o.eng.v[r] = k.v[r]) ∧
      o.eng.msk = k.msk ∧ o.eng.vl = k.vl ∧ o.eng.vtype = k.vtype ∧ o.eng.vctl = k.vctl ∧ o.flags = 0

/-- MATRIX_ENTRY_START, MATRIX_PREPARE, MATRIX_FILL_END, MATRIX_ENTRY_CLOSE, MATRIX_ENTRY_COMMIT and MTX_MODE_CHANGE take an entry through the array. Clauses rest on the model's choices: log entries 62, 77, 93 and 94. -/
def Obligations.MatrixEntriesRun : Prop :=
  (∀ (s : State) (c : Fin 64) (half : Bool) (e0 : MEntry), let m := s.chip; let e := { e0 with half := half }
    let out (b : Chip) : Chip := b.modMtx c fun a => { a with queue := a.queue.filter (·.id != e.id) }
    let stop : Bool := if half then (m.mtx c).stop1 else (m.mtx c).stop0
    let rate : Nat := if m.mtxSplit c.val then 4 else 8
    let told (w : MEntry) (b : Chip) : Chip := b.report
      { b.recEvent 0x01 (ctxId ⟨c, w.aft⟩) 0 (coachDomain c.val) with coach := some c.val, nth := w.replays + 1 }
    let again (w : MEntry) : Chip := told w (((m.setFld (K.mtxMreplay c) F.mtxMreplayCount
      (m.fld (K.mtxMreplay c) F.mtxMreplayCount + 1)).event ⟨.mtx, c⟩ 17).mtxReplay c { w.replay w.S with replays := w.replays + 1 })
    (MtxNext m c half e0 → (m.mtx c).full half = false →
      (∀ d, m.mtxCheck c e = some d → exec (.matrixEntryStart c half) s = .next (s.onCoach c ((out m).mtxReject c e d))) ∧
      (∀ row, m.mtxCheck c e = none → m.mtxBeyond c e = some row →
        exec (.matrixEntryStart c half) s = .next (s.onCoach c (m.chockCtx ⟨c, e.aft⟩ row))) ∧
      (m.mtxCheck c e = none → m.mtxBeyond c e = none →
        let m2 : Chip := (out (m.mtxServed c e.aft)).modMtx c fun a => { a with arr := a.arr ++ [{ e with stage := .waiting }] }
        exec (.matrixEntryStart c half) s = .next (s.onCoach c (m2.setEntry c { e with stage := .waiting, fwd := m2.mtxForward c e })))) ∧
    (m.coachOn c = true →
      (∀ (w : MEntry) (rows : Nat), ((m.mtx c).pipe half).find? (·.stage == .waiting) = some w → w.fwd ≠ none ∨ m.mtxBlockers c w = [] →
        exec (.matrixPrepare c half rows) s = .next (s.onCoach c (m.mtxPrepare c w rows))) ∧
      (∀ (w : MEntry) (n : Nat), (m.mtx c).fills half = some w → w.cyc < n → n ≤ 128 →
        let m1 : Chip := if w.combine then m.tileTouch c w.aft (m.tileE c w) (m.mtxSplit c.val) w.mRows w.nCols (w.cyc * rate) (n * rate) else m
        exec (.matrixFillEnd c half n) s = .next (s.onCoach c ((m1.count (K.mtxFillCyc c) (n - w.cyc)).setEntry c (m1.fillTo c w n)))) ∧
      (∀ w, (m.mtx c).front half = some w → w.stage = .filled → w.fwd = none → stop = false →
        (w.replays < 2 → exec (.matrixEntryClose c half true) s = .next (s.onCoach c (again w))) ∧
        (2 ≤ w.replays → exec (.matrixEntryClose c half true) s = .next (s.onCoach c
          (told w (((m.modMtx c fun a => if w.half then { a with stop1 := true } else { a with stop0 := true }).setEntry c { w with replaying := false }).event ⟨.mtx, c⟩ 19)))) ∧
        ((∀ q ∈ w.withC.cells, q.overflows = false) → exec (.matrixEntryClose c half false) s = .next (s.onCoach c
          (m.setEntry c { w.withC with stage := .closed, replaying := false }))) ∧
        ((∃ q ∈ w.withC.cells, q.overflows = true) → (m.mtxSaturates c w = true ∨ w.rescaled = true) →
          exec (.matrixEntryClose c half false) s = .next (s.onCoach c (m.setEntry c
            { w.withC with cells := w.withC.cells.map MCell.saturate, saturated := true, stage := .closed, replaying := false }))) ∧
        ((∃ q ∈ w.withC.cells, q.overflows = true) → m.mtxSaturates c w = false → w.rescaled = false →
          exec (.matrixEntryClose c half false) s = .next (s.onCoach c
            ((m.mtxRescaleRec c w w.withC.rescaled').mtxReplay c { w.replay w.withC.rescaled' with rescaled := true })))) ∧
      (∀ w l, (m.mtx c).pipe half = w :: l → w.stage = .closed →
        (w.replays < 2 → exec (.matrixEntryCommit c half true) s = .next (s.onCoach c (again w))) ∧
        (2 ≤ w.replays → exec (.matrixEntryCommit c half true) s = .next (s.onCoach c
          (told w (((m.modMtx c fun a => if w.half then { a with stop1 := true } else { a with stop0 := true }).setEntry c
            { w with stage := .filled, replaying := false }).event ⟨.mtx, c⟩ 19)))) ∧
        ∃ b : Chip, exec (.matrixEntryCommit c half false) s = .next (s.onCoach c b) ∧
          (b.mtx c).queue = (m.mtx c).queue ∧ (∀ y ∈ (b.mtx c).arr, y.id ≠ w.id) ∧ (b.ctx ⟨c, w.aft⟩).events = (m.ctx ⟨c, w.aft⟩).events ||| 0x2000 ∧
          (b.ctx ⟨c, w.aft⟩).mstat &&& (m.ctx ⟨c, w.aft⟩).mstat = (m.ctx ⟨c, w.aft⟩).mstat) ∧
      ((m.mtx c).arr = [] → exec (.mtxModeChange c) s = .next (s.onCoach c (m.applyStaged ⟨.mtx, c⟩))))) ∧
  (∀ (k : MCell) (S : Int) (neg : Bool) (n : Nat) (d : Nat), n * 2 ^ d < 2 ^ 159 →
    k.add S neg n (S + d) = ({ k with acc := k.acc + (if neg then -((n * 2 ^ d : Nat) : Int) else (n * 2 ^ d : Nat)) }, false))

/-- DRAY_DESC_START, DRAY_BURST_ISSUE, DRAY_BURST_RESPONSE and DRAY_DESC_COMPLETE take a descriptor through its stream. Clauses rest on the model's choices: log entries 47, 52, 79 and 99. -/
def Obligations.DrayDescriptorsRun : Prop :=
  ∀ (s : State) (c : Fin 64) (k : Fin 8) (e : DDesc) (q : List DDesc), let m := s.chip; let t := m.stream c k; let x : Ctx := ⟨c, e.aft⟩
    DrayHead m c k e q →
      (t.active = false → m.bufZeroing c = false →
        (t.begun = true → m.drayGoes c k e true = true → exec (.drayDescStart c k) s = .next (s.onCoach c ((m.modStream c k fun t =>
          { t with active := true, stopping := false, faulted := false, off := 0 }).outriderArm c k e))) ∧
        (t.begun = false → m.drayGoes c k e false = true →
          (∀ r, e.check = some r → exec (.drayDescStart c k) s = .next (s.onCoach c
            ((((m.setReg (K.drayStreamErr c k) (BitVec.ofNat 64 (r + e.d.toNat * 2 ^ 8 + 2 ^ 24))).event ⟨.dray, c⟩ 16).modStream c k fun t =>
              { t with q := [], active := false, begun := false, err := true }).modCtx x fun y =>
                { y with defDray := y.defDray ++ [⟨k, #v[e.pc, BitVec.ofNat 16 (r + 256 * k), 0, 0]⟩] }))) ∧
          (e.check = none → (e.gate = true → t.gate.getLsbD e.gev = true) → exec (.drayDescStart c k) s = .next (s.onCoach c
            ((m.modStream c k fun t => { t with active := true, begun := true, stopping := false, faulted := false, row := 0, off := 0, flags := 0, scales := [], again := none, orNow := (m.reg (K.tlbOrBase c k), m.reg (K.tlbOrCtl c k)), orSet := false, gate := if e.gate then t.gate &&& ~~~ (BitVec.ofNat 12 (2 ^ e.gev)) else t.gate }).outriderArm
              c k e))))) ∧
      (t.active = true →
        (∀ n : Nat, m.streamChocked c k = false → t.row < e.rows → t.stopping = false → e.op = opFill → (t.open' false)[n]? = none →
          exec (.drayBurstIssue c k false n) s = .next (s.onCoach c (m.modStream c k (·.plan e)))) ∧
        (∀ (n i : Nat) (u : DUnit) (p : DPiece), m.maySend c k u.id i = true → (t.open' false)[n]? = some (u, i, p) →
          (m.hasCredit c k = false → exec (.drayBurstIssue c k false n) s = .next (s.onCoach c
            ((m.count (K.drayCreditWait c) 1).modStream c k fun t => { t with creditWait := true }))) ∧
          (∀ (b : Chip) (g : XSeg), m.hasCredit c k = true → m.burstSeg c k e false p.a p.len = (b, .ok g) → g.isDev = true →
            exec (.drayBurstIssue c k false n) s = .next (s.onCoach c (b.draySent c k u.id false i (some g)))) ∧
          (∀ (b : Chip) (a : Nat), m.hasCredit c k = true → m.burstSeg c k e false p.a p.len = (b, .chock a) →
            exec (.drayBurstIssue c k false n) s = .next (s.onCoach c ((b.chock ⟨.dray, c⟩ (streamId c k) 3 a (coachDomain c)).modStream
              c k fun t => { t with froze := (u.id, i) }))) ∧
          (∀ b : Chip, m.hasCredit c k = true → m.burstSeg c k e false p.a p.len = (b, .fail) →
            exec (.drayBurstIssue c k false n) s = .next (s.onCoach c (b.drayFaulted c k (·.id == u.id))))) ∧
        (∀ (n i : Nat) (u : DUnit) (p : DPiece), m.maySend c k u.id i = true → (t.open' true)[n]? = some (u, i, p) → e.dkind = kObuf →
          exec (.drayBurstIssue c k true n) s = .next (s.onCoach c (if m.drayInterlock c e u.row then m else m.draySent c k u.id true i none))) ∧
        (∀ (i : Nat) (u : DUnit) (p : DPiece), t.units.find? (·.id == u.id) = some u → p.st = .sent →
          (u.writing = true → u.wr[i]? = some p → p.seg = none → exec (.drayBurstResponse c k u.id i) s =
            .next (s.settled s.nvm (((m.drayObuf c e u i p).drayLanded c k u.id i p.len).syncCoach c))) ∧
          (∀ (g : XSeg) (a : Nat), u.writing = true → u.wr[i]? = some p → p.seg = some g → g.place = .dev a → (∀ o, regionOf a ≠ .regs o) →
            m.segsHeld e.cls true e.noalloc [g] = false → exec (.drayBurstResponse c k u.id i) s = .next (s.settled s.nvm
              (((m.segsWrite (streamId c k) e.cls e.noalloc (u.slice i) [g]).drayLanded c k u.id i g.len).syncCoach c))) ∧
          (∀ (g : XSeg) (a : Nat), u.writing = false → u.rd[i]? = some p → p.seg = some g → g.place = .dev a → (∀ o, regionOf a ≠ .regs o) →
            m.segsHeld e.cls false e.noalloc [g] = false → let r := (m.scratchRead (m.ctx x).task a g.len).segsRead (streamId c k) e.cls e.noalloc [g]
              exec (.drayBurstResponse c k u.id i) s = .next (s.settled s.nvm
                ((r.1.drayReadIn c k u.id i (r.2.getD (List.replicate g.len 0))).syncCoach c)))) ∧
        (t.units = [] → e.rows ≤ t.row → t.again = none → ∃ b : Chip, exec (.drayDescComplete c k) s = .next (s.onCoach c b) ∧
          b.stream c k = { t with q := q, active := false, begun := false, stopping := false, row := 0, off := 0, flags := 0, scales := [] } ∧
          b.reg (K.tallyFlags x.tally) = m.reg (K.tallyFlags x.tally) ||| t.flags.zeroExtend 64 ∧
          (b.ctx x).events = ((m.ctx x).events ||| if e.notify then 0x1000 else 0) ||| (if e.even then BitVec.ofNat 16 (2 ^ e.ev) else 0) ∧
          b.sends = m.sends))

/-- Accesses to core memory, depot and stacks are served, and QUARTER_READY, WRITEBACK_RAISE, PATROL_START and the freight grants act. Clauses rest on the model's choices: log entries 17, 46, 54, 80, 98 and 100. -/
def Obligations.MemoryAccessesAreServed : Prop :=
  (∀ (s : State) (w : BitVec 16) (cls a n c p off : Nat), let m := s.chip
    RowShaped a n c p off → m.memUp = true →
      (m.rowReady c p = true → exec (.cmemFabricAccess w cls a n none) s = .next (s.on
        ((m.count (K.cmemRowsRd c) 1).emit (.access w a (some (m.rdBytes (0x20000000000 + c * 0x400000 + p * 0x200 + off) n)))))) ∧
      (m.rowReady c p = false → exec (.cmemFabricAccess w cls a n none) s = .next (s.on
        ((((m.record ⟨.cmem, c⟩ 0x84 w none (some (0x20000000000 + c * 0x400000 + p * 0x200)) (c / 16)).event ⟨.cmem, c⟩ 16).emit
          (.access w a (some (List.replicate n 0))))))) ∧
      (∀ d : List Byte, d.length = n →
        (off = 0 → n = 512 → m.rowReady c p = true → exec (.cmemFabricAccess w cls a n (some d)) s = .next (s.on
          (((m.count (K.cmemRowsWr c) 1).wrBytes (0x20000000000 + c * 0x400000 + p * 0x200) d).emit (.access w a (some []))))) ∧
        (n ≠ 512 → exec (.cmemFabricAccess w cls a n (some d)) s = .next (s.on
          ((((m.record ⟨.cmem, c⟩ 0x85 w (some 1) (some a) (c / 16)).event ⟨.cmem, c⟩ 17).emit (.access w a none))))))) ∧
  (∀ (s : State) (c : Fin 64) (q : Fin 4), let m := s.chip; let on := m.fld (K.cmemQpwr c) F.cmemQpwrOn; let rdy := m.fld (K.cmemQpwr c) F.cmemQpwrReady
    on.testBit q = true → rdy.testBit q = false → rdy + 2 ^ q.val ≠ on → exec (.quarterReady c q) s = .next (s.on
      ((m.zeroMem (0x20000000000 + c.val * 0x400000 + 2048 * q.val * 0x200) 0x100000).setFld (K.cmemQpwr c) F.cmemQpwrReady (rdy + 2 ^ q.val)))) ∧
  (∀ (s : State) (w : BitVec 16) (cls a n i x : Nat) (na : Bool), let m := s.chip; m.memUp = true → idKind w ≠ 2 →
    regionOf a = .depot i x → m.busy ⟨.depot, i⟩ = false → m.splitHeld cls a n = false → a % 8 = 0 → n % 8 = 0 → 8 ≤ n → a % 256 + n ≤ 256 →
      (x + n ≤ m.eighths i * 0x400000 → exec (.depotAccess w cls a n none na false) s = .next (s.on (m.emit (.access w a (some (m.rdBytes a n)))))) ∧
      (m.eighths i * 0x400000 < x + n → exec (.depotAccess w cls a n none na false) s = .next (s.on
        (((m.record ⟨.depot, i⟩ 0x80 w (some 0) (some a) 4).event ⟨.depot, i⟩ 16).emit (.access w a none))))) ∧
  (∀ (s : State) (i : Fin 16), let m := s.chip
    (m.memUp = true →
      (∀ (l : Nat) (f : DFetch), (m.slice i).fetch.find? (fun e => e.line == l) = some f →
        let m1 : Chip := (m.modSlice i fun k => { k with fetch := k.fetch.erase f }.refill 512).count (K.hbmRdBytes i) 256
        let bad := m.badBlocks (m.hbmAddr i (l * 256)) 256
        (f.drop = true → exec (.depotLineFill i l) s = .next (s.on m1)) ∧
        (f.drop = false → bad = [] → exec (.depotLineFill i l) s = .next (s.on (m1.allocate i l f.dirty f.pf))) ∧
        (f.drop = false → bad ≠ [] → f.pf = true →
          exec (.depotLineFill i l) s = .next (s.on (bad.foldl (fun m b => m.crcError (b * 64) 2 f.master) m1))) ∧
        (f.drop = false → bad ≠ [] → f.pf = false → f.held = true → exec (.depotLineFill i l) s = .next s) ∧
        (f.drop = false → bad ≠ [] → f.pf = false → f.held = false → exec (.depotLineFill i l) s = .next (s.on
          (bad.foldl (fun m b => m.crcError (b * 64) 0 f.master)
            (m.modSlice i fun k => { k with fetch := k.fetch.map fun g => if g = f then { g with held := true } else g }))))) ∧
      (∀ (w : BitVec 16) (a l : Nat), a % 64 = 0 → AtLine m a 64 i l → let m1 := m.count (K.hbmRdBytes i) 64
        exec (.hbmRead w a 0 false) s = .next (s.on (m1.emit (.access w a (some (m.rdBytes a 64))))) ∧
        exec (.hbmRead w a 1 false) s = .next (s.on ((m1.count (K.hbmCrcRetry i) 1).emit (.access w a (some (m.rdBytes a 64))))) ∧
        (let m2 := (m1.markBad (a / 64)).crcError a 0 w;
          exec (.hbmRead w a 2 false) s = .next (s.on ({ m2 with crcHeld := m2.crcHeld ++ [heldReq w (m.masterClass w) a none 64 true] }))) ∧
        (m.busy ⟨.hbm, i⟩ = false → exec (.hbmRead w a 2 true) s = .next (s.on ((m1.markBad (a / 64)).crcError a 2 w))) ∧
        (m.busy ⟨.hbm, i⟩ = true → m.fld (K.hbmScrubPos i) F.hbmScrubPosAddr ≤ l / 64 * 64 → l / 64 * 64 + 64 < 2 ^ 36 →
          exec (.hbmRead w a 0 true) s = .next (s.on ((m.scrubTo i (l / 64 * 64)).scrubTo i (l / 64 * 64 + 64))))) ∧
      (∀ (w : BitVec 16) (a l : Nat) (d : List Byte), AtLine m a d.length i l → 0 < d.length → m.inMirror a = false →
        let m1 := (m.stackBytes i a d.length true).wrBytes a d
        exec (.hbmWrite w a d (0, 0)) s = .next (s.on (m1.tagWrite w a d.length none)) ∧
        (a / 64 = (a + d.length - 1) / 64 → d.length < 64 →
          exec (.hbmWrite w a d (2, 0)) s = .next (s.on (((m1.markBad (a / 64)).crcError (a / 64 * 64) 1 w).tagWrite w a d.length none)))) ∧
      (∀ j, m.nextJob = some j → exec .freightDrayGrant s = .next (s.on
        (match j.work with | .xfer id => m.grantJob.xferStep id 4 | .reload g => m.grantJob.reloadStart g | _ => m.grantJob))) ∧
      (∀ id j x, m.host.jobs.find? (fun k => k.id == id && k.granted) = some j → j.work = .xfer x →
        exec (.freightJobEnd id) s = .next (s.on (m.xferWork x)))) ∧
    (m.busy ⟨.depot, i⟩ = true → exec (.writebackRaise i) s = .next (s.on (m.modSlice i fun k => { k with raised := true }))) ∧
    (m.flag (K.hbmScrubCtl i) F.hbmScrubCtlPatrol = true → m.busy ⟨.hbm, i⟩ = false → 8 ≤ m.phase → exec (.patrolStart i) s = .next (s.on
      ((m.beginCmd ⟨.hbm, i⟩ 1 ⟨0x8031, 0, 0, none⟩).setReg (K.hbmScrubPos i) 0))))

/-- PAGE_WALK, WALK_READ_RESPONSE, OUTRIDER_WALK and FAULT_RECORD_WRITE walk the tables and write fault records. Clauses rest on the model's choices: log entries 17, 53 and 78. -/
def Obligations.WalksRunAndFaultsAreWritten : Prop :=
  ∀ (s : State), let m := s.chip
    (∀ (r : Fin 4) (q : XMiss), let k := m.xrake r
      let far (d : XMiss) : Nat := (d.req.coach.val % 16 + 15 - k.last.val) % 16
      k.walks.length < 4 → (m.unwalked r).find? (fun d => (m.unwalked r).all fun g => decide (far d ≤ far g)) = some q →
        exec (.pageWalk r) s = .next (s.on
          ((m.modRake r fun k => { k with last := ⟨q.req.coach.val % 16, Nat.mod_lt _ (by decide)⟩ }).walkStart
            r q.asid (q.va / 65536) true none))) ∧
    (∀ (r : Fin 4) (id : Nat) (w : XWalk), (m.xrake r).walks.find? (·.id == id) = some w → w.host = false → m.devHeld (if w.demand then 1 else 4) false false w.addr 8 = false → w.again = false →
      let d := m.devRead (hubId .xlat) (if w.demand then 1 else 4) w.addr 8 false; let m1 := d.1
      (d.2 = none → exec (.walkReadResponse r id) s = .next (s.on (m1.walkFail r w 7 w.level))) ∧
      (∀ l, d.2 = some l → let e : W64 := BitVec.ofNat 64 (leNat l)
        (w.level = 4 → (e.getLsbD 0 = false ∨ asidMalformed e = true) → exec (.walkReadResponse r id) s = .next (s.on (m1.walkFail r w 8 4))) ∧
        (w.level ≤ 3 → e.getLsbD 0 = false → exec (.walkReadResponse r id) s = .next (s.on (m1.walkFail r w 1 w.level))) ∧
        (w.level ≤ 3 → e.getLsbD 0 = true → malformed e w.level = true → exec (.walkReadResponse r id) s = .next (s.on (m1.walkFail r w 5 w.level))) ∧
        (w.level ≤ 1 → e.getLsbD 0 = true → malformed e w.level = false → e.getLsbD 1 = true → ∃ b : Chip,
          exec (.walkReadResponse r id) s = .next (s.on b) ∧ b.waitsOn r w = [] ∧ (∀ y ∈ (b.xrake r).walks, y.id ≠ id) ∧
            (m1.waitsOn r w = [] → b.xlat.tlb = m1.xlat.tlb)) ∧
        (1 ≤ w.level → w.level ≤ 3 → e.getLsbD 0 = true → malformed e w.level = false → e.getLsbD 1 = false →
          
          let n : Nat × Bool := if e.getLsbD 2 then (e.toNat / 2 ^ 16 * 2 ^ 16, true) else (e.toNat / 2 ^ 16 % 2 ^ 26 * 2 ^ 16, false);
          let w1 : XWalk := { w with level := w.level - 1, host := n.2, addr := n.1 + 8 * (w.page / 2 ^ (13 * (w.level - 1)) % 2 ^ 13) };
          exec (.walkReadResponse r id) s = .next (s.on
            (((m1.modRake r fun k => { k with wc := ptrPut ⟨w.asid, w.level, w.page / 2 ^ (13 * w.level), e, true⟩ k.wc }).modWalk r id
              fun _ => w1).walkRead r w1))))) ∧
    (∀ (c : Fin 64) (k : Fin 8) (h : XAhead) (p tile : Nat) (t : List (Nat × Nat)), let r := c.val / 16
      m.xlat.ahead.find? (fun h => h.coach == c && h.stream == k.val) = some h → (m.ctx ⟨c, m.streamSide c k⟩).st = .running → (m.ctx ⟨c, m.streamSide c k⟩).task = h.task →
      m.unwalked r = [] → (m.xrake r).walks = [] → h.pages = (p, tile) :: t → (m.xrake r).tc.any (·.maps h.asid p) = false →
      exec (.outriderWalk c k) s = .next (s.on ((({ m with xlat := { m.xlat with ahead := m.xlat.ahead.map fun g =>
        if g.coach == c && g.stream == k.val then { g with pages := t } else g } } : Chip).count K.xlatOrWalks 1).walkStart r h.asid p false
          (some (c, k.val, tile))))) ∧
    (∀ f, m.xlat.faults.find? (!·.written) = some f → m.flag K.faultQCtl F.faultQCtlEn = true →

      let size := 2 ^ m.fld K.faultQCtl F.faultQCtlLog2size;
      let full : Prop := (m.fld K.faultQTail F.faultQTailIndex + 1) % size = m.fld K.faultQHead F.faultQHeadIndex % size;
      (full → exec .faultRecordWrite s = .next (s.on (m.event ⟨.fault, 0⟩ 17))) ∧
      (¬ full → m.faultSlotHeld = false → ∃ b : Chip, exec .faultRecordWrite s = .next (s.on b) ∧
        b.xlat.faults = m.xlat.faults.map fun (g : XFault) => if g.seq = f.seq then { g with written := true } else g))

/-- INVAL_MULTICAST, INVAL_ACCEPT, DRAIN_RAISE and INVAL_COMPLETION take descriptors, invalidate, drain and complete. Clauses rest on the model's choices: log entry 78. -/
def Obligations.InvalidationDrainsAndCompletes : Prop :=
  ∀ (s : State), let m := s.chip
    (∀ (l : Fin 2) (a : Nat) (b : List Byte), m.linkUp l.val = true → m.inMulticast l a = true → m.linkStalled l = false →
      (a % 32 = 0 → b.length = 32 → exec (.invalMulticast l a b) s = .next (s.on (m.invalPut
        ⟨Vector.ofFn fun i => BitVec.ofNat 64 (leNat ((b.drop (8 * i.val)).take 8)), l⟩))) ∧
      (a % 32 ≠ 0 ∨ b.length ≠ 32 → exec (.invalMulticast l a b) s = .next (s.on ((m.count K.invalBadDesc 1).count K.hostifMcDrop 1)))) ∧
    (∀ (d : InvDesc) (t : List InvDesc), m.xlat.fifo = d :: t → ∃ b : Chip, exec .invalAccept s = .next (s.on b) ∧
      b.xlat.drains = m.xlat.drains ++ [⟨d, d.bad, m.xlat.ser, m.counter 32, false⟩] ∧
      b.xlat.fifo = t ++ m.xlat.stalled.take 1 ∧ b.xlat.stalled = m.xlat.stalled.drop 1 ∧
      (d.bad = true → b.xlat.tlb = m.xlat.tlb) ∧
      (d.bad = false → ∀ (c : Fin 64) (e : XLeaf), e ∈ b.xlat.tlb[c] ↔ e ∈ m.xlat.tlb[c] ∧ d.removesLeaf e = false)) ∧
    (let up (d : InvDrain) : InvDrain := if m.undrained d.upto then { d with raised := true } else d;
      let ds := m.xlat.drains.map up;
      let n := ((ds.filter (·.raised)).map (·.upto)).foldl max 0;
      ∃ b : Chip, exec .drainRaise s = .next (s.on b) ∧ b.xlat = { m.xlat with drains := ds } ∧
        b.sf.wait = (m.sf.wait.map fun w => if w.ser < n then { w with cls := 0 } else w) ∧
        ∀ p : Fin 10, b.sf.port[p] = { m.sf.port[p] with wait := m.sf.port[p].wait.map fun w => { w with pkt := w.pkt.raise w.ser n } }) ∧
    (∀ (d : InvDrain) (t : List InvDrain), m.xlat.drains = d :: t → m.undrained d.upto = false →
      let ns := ((m.counter 32 - d.accAt).toNat * 2500) / 1000
      let m1 : Chip := { m with xlat := { m.xlat with drains := t } }
      let m2 := if m1.fld K.invalDrainMax F.invalDrainMaxNs < ns then m1.setFld K.invalDrainMax F.invalDrainMaxNs (min ns (2 ^ 32 - 1)) else m1
      let slot := m2.fld K.invalSlot F.invalSlotSlot
      let cpl := leBytes 8 (d.desc.seq + slot * 2 ^ 32 + b2n d.bad * 2 ^ 48) ++ leBytes 8 (m2.stamp 32).toNat
      (m2.linkUp d.desc.link.val = false → exec .invalCompletion s = .next (s.on ((m2.count K.invalLostCpl 1).event ⟨.inval, 0⟩ 18))) ∧
      (m2.linkUp d.desc.link.val = true → exec .invalCompletion s = .next (s.on
        ((((m2.linkWrite d.desc.link.val (d.desc.words[3].toNat + slot * 16) cpl).setFld K.invalLastDone F.invalLastDoneSeq
          d.desc.seq).count K.invalDoneCount 1).event ⟨.inval, 0⟩ 16))))

/-- ENTRY_TAKE, the six entries, TASK_PLACE, TASK_DISPATCH, TASK_SWITCH, SLICE_EXPIRE, VLIMIT_SWITCH, SIDE_TASK, TASK_END and RELOCATE_GROUP act. Clauses rest on the model's choices: log entries 43, 55, 59, 68, 69, 70 and 71. -/
def Obligations.EntriesAndTasksGoOn : Prop :=
  ∀ (s : State), let m := s.chip
    (∀ (q : Fin 1024) (w : Vector (BitVec 64) 8), let i := m.fld (K.doorbellSqHead q) F.doorbellSqHeadIndex
      let r := m.hostRoute (m.fld (K.doorbellSqBase q) F.doorbellSqBaseAddr * 4096 + i * 64)
      m.shuntGoes = true → m.reexec = false → (∀ e ∈ m.sh.entries, badHeader e.words = false) → badHeader w = false →
        m.linkUp r.1 = true → m.bme (linkPf r.1) = true → m.readsOut r.1 + (m.readParts (linkPf r.1) r.2 64).length ≤ 768 →
        (m.nextQueue false = some q.val → m.tasksHeld < 2048 → m.logStalls 64 = false →
          ∃ b : Chip, exec (.entryTake q w) s = .next (s.on b) ∧ b.sh = { m.sh with
            last := q.val, skip := [], order := m.sh.order + 1, taken := m.sh.taken + 1, entries := m.sh.entries ++ [⟨q.val, i, m.sh.taken, w, m.sh.order, false, 0⟩] }) ∧
        (m.nextQueue true = some q.val → 2048 ≤ m.tasksHeld → entryType w[0] = 0x01 →
          exec (.entryTake q w) s = .next (s.on { m with sh := { m.sh with skip := q.val :: m.sh.skip } }))) ∧
    (∀ (e : SEntry), EntryNext m 0x01 (fun _ => true) e → ∀ h : BitVec 16, let t := m.taskOf e h
      ((badTask t = true ∨ m.asidOk e.queue t.asid = false) → ∀ b, m.entryEnds e 2 0 b → exec (.taskEntry h) s = .next (s.on b)) ∧
      (badTask t = false → m.asidOk e.queue t.asid = true → h ≠ 0 → m.task h = none → m.handleFits e h = true → exec (.taskEntry h) s = .next (s.on
        { m with sh := { m.sh with entries := m.sh.entries.filter (·.order != e.order), tasks := m.sh.tasks ++ [t] }
                 stg := { m.stg with given := (e.ord, h) :: m.stg.given } }))) ∧
    (∀ (e : SEntry), (EntryNext m 0x02 (fun f => !f.started) e → (m.privOk e.queue = false ∨ xferOf e m.sh.nextXfer = none → ∀ b, m.entryEnds e 2 0 b →
          exec .xferEntry s = .next (s.on b)) ∧
        (∀ x, m.privOk e.queue = true → xferOf e m.sh.nextXfer = some x → exec .xferEntry s = .next (s.on (m.xferStart e x)))) ∧
      (EntryNext m 0x10 (fun f => !f.started) e → (m.privOk e.queue = false ∨ migrateOf e m.sh.nextXfer = none → ∀ b, m.entryEnds e 2 0 b →
          exec .migrateEntry s = .next (s.on b)) ∧
        (∀ x, m.privOk e.queue = true → migrateOf e m.sh.nextXfer = some x → exec .migrateEntry s = .next (s.on (m.xferStart e x)))) ∧
      (EntryNext m 0x03 (fun _ => true) e → (m.taskByTag e.queue e.words = none → ∀ b, m.entryEnds e 8 0 b → exec .postEntry s = .next (s.on b)) ∧
        (∀ t, m.taskByTag e.queue e.words = some t → ∀ b, (m.postTask t).entryEnds e 0 0 b → exec .postEntry s = .next (s.on b))) ∧
      (EntryNext m 0x04 (fun f => f.started && (m.task f.aim).isNone) e → ∀ b, m.entryEnds e 0 0 b → exec .endEntry s = .next (s.on b)) ∧
      (EntryNext m 0x04 (fun f => !f.started) e → m.nextEntry 0x04 (fun f => f.started && (m.task f.aim).isNone) = none →
        (m.taskByTag e.queue e.words = none → ∀ b, m.entryEnds e 8 0 b →
          exec .endEntry s = .next (s.on b)) ∧
        (∀ t, m.taskByTag e.queue e.words = some t → exec .endEntry s = .next (s.on ((m.startEntryOf e t.handle).markEnding t.handle 4 0)))) ∧
      (EntryNext m 0x11 (fun _ => true) e → (adviseOf e.words = none → ∀ b, m.entryEnds e 2 0 b → exec .adviseEntry s = .next (s.on b)) ∧
        (∀ a, adviseOf e.words = some a → m.asidOk e.queue a.asid.toNat = true →
          (a.attr = 4 → ∀ b, Chip.entryEnds (Chip.syncAdvice { m with xlat := { m.xlat with advice := m.xlat.advice.filter fun b =>
            !(b.asid == a.asid && decide (a.page ≤ b.page ∧ b.page + b.pages ≤ a.page + a.pages)) } }) e 0 0 b →
            exec .adviseEntry s = .next (s.on b)) ∧
          (a.attr ≠ 4 → 256 ≤ m.xlat.advice.length → ∀ b, m.entryEnds e 3 0 b → exec .adviseEntry s = .next (s.on b)) ∧
          (a.attr ≠ 4 → m.xlat.advice.length < 256 → ∀ b, (Chip.entryEnds (Chip.syncAdvice { m with xlat := { m.xlat with advice := m.xlat.advice ++ [a] } })
            e 0 0 b) → exec .adviseEntry s = .next (s.on b))))) ∧
    (m.shuntGoes = true →
      (let n := m.endFenced; m.memUp = true → ∀ t p l, (∀ u ∈ n.sh.tasks, n.placeStep u = false) → n.waitingTasks = t :: l → n.placeOf t = some p →
        exec .taskPlace s = .next (s.on (n.placeAt t p))) ∧
      (∀ x t, (m.ctx x).st = .idle → bestTask (m.readyFor x) = some t → t.forTask = none →
        exec (.taskDispatch x) s = .next (s.on (m.enterCtx x t))) ∧
      (∀ t v, bestTask (m.sh.tasks.filter fun t => m.wantsSwitch t && (m.victimOf t).isSome) = some t → m.victimOf t = some v →
        exec .taskSwitch s = .next (s.on (m.leaves v.1 v.2 .switch t.handle))) ∧
      (∀ x u t, m.task (m.ctx x).task = some u → u.st = .running → u.ending = none →
        (let sl := m.fld K.shuntShuntCtl F.shuntShuntCtlSlice; let due := u.disp.toNat + sl * 40000; sl ≠ 0 → bestTask ((m.readyFor x).filter fun t => t.prio == u.prio) = some t →
          exec (.sliceExpire x) s = .next (s.on ((m.setDom 32 fun d =>
            { d with count := if d.count.toNat < due then BitVec.ofNat 64 due else d.count }).leaves x u .switch t.handle))) ∧
        (x.aft = true → (m.coach x.coach).vown.claimA = true → (m.coach x.coach).vown.limitA = true → bestTask (m.readyFor x) = some t →
          exec (.vlimitSwitch x.coach) s = .next (s.on (m.leaves x u .yield t.handle))))) ∧
    (∀ r l t x, m.shuntHold = false → m.xlat.toSide = r :: l → m.task r.2 = some t → m.ctxOf r.2 = some x → t.ending = none →
      exec .sideTask s = .next (s.on ((({ m with xlat := { m.xlat with toSide := l } } : Chip).modCtx x fun k =>
        if k.stopReq.elem .side then k else { k with stopReq := k.stopReq ++ [.side] }).modTask t.handle fun t => { t with st := .leaving }))) ∧
    (∀ r l t, m.shuntHold = false → m.xlat.toSide = r :: l → let m1 : Chip := { m with xlat := { m.xlat with toSide := l } };
      m.task r.2 = some t → m1.ctxOf r.2 = none → t.st = .ready → m1.taskHeld t.handle = true →
      exec .sideTask s = .next (s.on ((m1.modTask t.handle fun t => { t with st := .sided }).count K.shuntSidings 1))) ∧
    (∀ h t st res, m.task h = some t → t.ending = some (st, res) → m.ctxOf h = none → m.stg.rb = .none →
      ∀ b, m.endTask t st res.toNat = some b → exec (.taskEnd h) s = .next (s.on b)) ∧
    (∀ h t, m.task h = some t → t.ending = none → m.busy ⟨.shunt, 0⟩ = true → m.cmdCode ⟨.shunt, 0⟩ = 1 → m.cmdArg ⟨.shunt, 0⟩ = h.toNat →
      m.shuntHold = false → exec (.taskEnd h) s = .next (s.on (m.markEnding h 4 0))) ∧
    (∀ c d : Fin 64, m.fencedOff c = true → m.shuntHold = false → (m.coach c).vown.dirty = false →
      let n := m.endFenced; let g := n.strandedOf c; g ≠ [] → (∀ t ∈ g, t.solo = false ∧ n.noCoach t = false) → n.targetFor g = some d →
      exec (.relocateGroup c) s = .next (s.on ((n.moveGroup c d g).clearParts c)))

/-- CONFIG_REQUEST, HOST_BAR2_ACCESS, HOST_COMPLETION, HOST_COMPLETION_TIMEOUT and HOST_HOLD_EXPIRE serve the host link. Clauses rest on the model's choices: log entries 50, 58, 72 and 83. -/
def Obligations.HostAccessesAreServed : Prop :=
  ∀ (s : State), let m := s.chip
    (∀ (f : Fin 16) (w : CfgAccess), m.linkUp (m.linkOf f.val) = true → (∀ off n, w ≠ .tableRead off n) → (∀ off l, w ≠ .tableWrite off l) →
      (m.cfgOpen = false → exec (.configRequest f w) s = .next (s.on (m.emit (.config f.val true [])))) ∧
      (m.ready = true → m.present f.val = true → let r := (m.cfgWrite f w).emit (.config f.val false (m.cfgValue f w))
        exec (.configRequest f w) s = .next (s.on (if w = .other then r.next else r))) ∧
      (m.cfgOpen = true → m.present f.val = false → exec (.configRequest f w) s = .next (s.on (m.emit (.unsupported (funcId f.val) 0))))) ∧
    (∀ (f : Fin 16) (off n : Nat) (l : List Byte), m.linkUp (m.linkOf f.val) = true → m.present f.val = true → m.ready = true →
      (tableShape off n = true → exec (.configRequest f (.tableRead off n)) s = .next (s.on
        (m.emit (.access (funcId f.val) off (some ((List.range n).map fun i => m.msixByte f.val (off + i))))))) ∧
      exec (.configRequest f (.tableWrite off l)) s = .next (s.on (m.tableWrite f.val off l))) ∧
    (∀ (f : Fin 16) (a n : Nat) (d : List Byte), m.memUp = true → m.linkUp (m.linkOf f.val) = true → let id := funcId f.val
      (0 < n → m.present f.val = false ∨ m.ready = false ∨ m.chocked id = true →
        exec (.hostBar2Access f a n none) s = .next (s.on ((m.aerNote f.val 20).emit (.unsupported id a)))) ∧
      (0 < d.length → m.present f.val = false ∨ m.ready = false ∨ m.chocked id = true → exec (.hostBar2Access f a n (some d)) s = .next (s.on m)) ∧
      (m.present f.val = true → m.ready = true → m.chocked id = false →
        (0 < n → m.inWindow f.val a n = false →
          exec (.hostBar2Access f a n none) s = .next (s.on (((m.count (K.funcMemDeny f.val) 1).aerNote f.val 20).emit (.unsupported id a)))) ∧
        (0 < d.length → m.inWindow f.val a d.length = false →
          exec (.hostBar2Access f a n (some d)) s = .next (s.on (m.count (K.funcMemDeny f.val) 1))) ∧
        (0 < n → m.inWindow f.val a n = true → m.devHeld 3 false false a n = false → let r := m.landRead id 3 a n
          exec (.hostBar2Access f a n none) s = .next (s.on
            (match r.2 with | some l => r.1.emit (.access id a (some (m.overDeferred a l))) | none => (r.1.aerNote f.val 20).emit (.unsupported id a)))) ∧
        (0 < d.length → m.inWindow f.val a d.length = true → m.devHeld 3 true false a d.length = false → m.stalledLink id = none →
          m.logStalls d.length = false →
          let r : LogRec := dataRec .bar2Write id 0 a d (some ⟨3, none, none⟩); let u := m.landWrite id 3 a d none
          (m.waitsTurn = false ∨ m.inMirror a = true →
            (u.2 = true → exec (.hostBar2Access f a n (some d)) s = .next (s.on (u.1.logRec r))) ∧
            (u.2 = false → exec (.hostBar2Access f a n (some d)) s = .next (s.on ((u.1.aerNote f.val 20).emit (.unsupported id a))))) ∧
          (m.waitsTurn = true → m.inMirror a = false →
            exec (.hostBar2Access f a n (some d)) s = .next (s.on ((m.logPut r).deferWrite ⟨r, .write⟩)))))) ∧
    (∀ (id : Nat) (r : HostRead) (l : Fin 2), m.host.reads.find? (fun r => r.id == id) = some r →
      (∀ d err, m.memUp = true → r.sent = true → m.linkUp r.link = true → (err = true ∨ d.length = r.len) →
        exec (.hostCompletion id d err) s = .next (s.on (m.readDeliver r d err))) ∧
      (r.sent = true → exec (.hostCompletionTimeout id) s = .next (s.on ((m.aerNote r.func 14).readDeliver r [] true))) ∧
      (r.link = l.val → r.sent = false → (m.linkUp l.val = false ∨ m.bme r.func = false) → m.logged r = false ∨ m.readsFromLog r.master = false →
        exec (.hostHoldExpire l (some id)) s = .next (s.on (m.readDeliver r [] true)))) ∧
    (∀ (l : Fin 2) (w : HeldWrite) (t : List HeldWrite), m.host.held = w :: t → w.link = l.val → (m.linkUp l.val = false ∨ m.bme w.func = false) →
      exec (.hostHoldExpire l none) s = .next (s.on (Chip.pumpHeld { m with host := { m.host with held := t } } l.val)))

/-- Selfan packets, control flits, frames, timeouts, lost locks, trained links and NOTIFY_DELIVER act on ports and couplings. Clauses rest on the model's choices: log entries 56, 73, 84 and 103. -/
def Obligations.PeersAndPortsAreServed : Prop :=
  ∀ (s : State), let m := s.chip
    (∀ (p : Fin 10) (f : Flits) (k : Packet) (i : Sys2Proof.Instr), Lands m p f k → PacketRow p f k.typ i → let b := m.accepted p f.lseq k
      (k.typ = .write ∨ k.typ = .read →
        ((b.cplOn = false ∨ b.stageState = 5) → exec i s = .next (s.on (b.slotDone p k))) ∧
        (b.cplOn = true → b.stageState ≠ 5 →
          (b.peerOf k.src = none → exec i s = .next (s.on
            (((b.count (K.coupleUnknownSrc 0) 1).event ⟨.couple, 0⟩ 19).slotDone p k))) ∧
          (∀ n, b.peerOf k.src = some n →
            (k.typ = .write → b.osnFar n k.tag.toNat = true → exec i s = .next (s.on (b.slotDone p k))) ∧
            ((k.typ = .read ∨ b.osnFar n k.tag.toNat = false) →
              (b.chocked (peerId n) = true →
                exec i s = .next (s.on (((b.markIf n k).respond n k 2 []).slotDone p k))) ∧
              (b.chocked (peerId n) = false → b.windowOk n k = false → exec i s = .next (s.on
                (((((b.chock ⟨.couple, k.win / 64⟩ (peerId n) 4 (k.win * 2 ^ 44 + k.off) 32).countFld (K.coupleWinCnt (k.win / 64) (k.win % 64))
                  F.coupleWinCntDenied 1).markIf n k).respond n k 3 []).slotDone p k))) ∧
              (b.chocked (peerId n) = false → b.windowOk n k = true →
                (k.typ = .write → b.osnDup n k.tag.toNat = true → exec i s = .next (s.on
                  (((b.count (K.coupleDupCnt 0) 1).respond n k 1 []).slotDone p k))) ∧
                ((k.typ = .read ∨ b.osnDup n k.tag.toNat = false) → exec i s = .next (s.on (b.takeInbound n p k)))))))) ∧
      (k.typ = .writeRsp ∨ k.typ = .readRsp →
        (∀ o, (b.slotDone p k).outFrom k.src (k.typ == .writeRsp) k.tag = some o →
          exec i s = .next (s.on ((b.slotDone p k).endOut o k.status.toNat k.data))) ∧
        ((b.slotDone p k).outFrom k.src (k.typ == .writeRsp) k.tag = none → exec i s = .next (s.on (b.slotDone p k))))) ∧
    (∀ (p : Fin 10) (lseq : BitVec 12), m.portUp p = true → m.portEth p = false → let e := (m.sfPort p).flit
      (∀ (f : Flits) (typ : PktType) (i : Sys2Proof.Instr), f.good = false → PacketRow p f typ i → exec i s = .next (s.on
        (((m.count (K.linkCrcErr p) 1).modPort p fun s => { s with flit := { e with naked := true } }).linkFlit p false (e.rx - 1)))) ∧
      (∀ (f : Flits) (k : Packet) (i : Sys2Proof.Instr), f.good = true → f.packet = some k → f.lseq ≠ e.rx → e.naked = false →
        m.arrivalStalls k = false → PacketRow p f k.typ i → exec i s = .next (s.on
          ((m.modPort p fun s => { s with flit := { e with naked := true } }).linkFlit p false (e.rx - 1)))) ∧
      (∀ (cr : Vector Nat 10), exec (.linkControlFlit p false lseq cr true) s = .next (s.on
        ((m.modPort p fun s => { s with flit := s.flit.acked lseq, limit := Vector.ofFn fun i => max s.limit[i] cr[i] }).pumpPort p))) ∧
      (e.replay ≠ [] → e.tries < 16 → exec (.replayTimeout p) s = .next (s.on (e.replay.foldl (fun m t => m.emit (.packet p (t.pkt.flits t.lseq)))
        ((m.modPort p fun s => { s with flit := { e with tries := e.tries + 1 } }).count (K.linkRetries p) 1)))) ∧
      (e.replay ≠ [] → 16 ≤ e.tries → exec (.replayTimeout p) s = .next (s.on ((m.portDown p 2).event ⟨.link, p⟩ 18)))) ∧
    (∀ (p : Fin 10) (t : BitVec 16) (dst : BitVec 48) (fcs : Bool) (b : EthBody), m.portUp p = true → m.portEth p = true →
      (∀ pr, m.flag (K.linkPortCfg p) F.linkPortCfgPfc = true → exec (.ethernetFrame p t dst true (.pause pr)) s =
        .next (s.on ((m.modPort p fun s => { s with paused := pr }).pumpPort p))) ∧
      ((∀ pr, b ≠ .pause pr) → fcs = false ∨ t.toNat ≠ m.fld (K.coupleCplCfg 0) F.coupleCplCfgEtype ∨ dst.toNat ≠ m.fld (K.coupleCplMac 0) F.coupleCplMacMac →
        exec (.ethernetFrame p t dst fcs b) s = .next (s.on (m.count (K.linkEthDrop p) 1))) ∧
      (∀ src lseq n, fcs = true → t.toNat = m.fld (K.coupleCplCfg 0) F.coupleCplCfgEtype → dst.toNat = m.fld (K.coupleCplMac 0) F.coupleCplMacMac →
        m.ethPeer src = some n → exec (.ethernetFrame p t dst fcs (.ack src true lseq)) s = .next (s.on
          ((List.range 10).foldl Chip.pumpPort (m.setEth n ((m.ethEnd n).acked lseq)))))) ∧
    (∀ (n : Fin 1024) (q : Nat) (b : Chip), F.couplePeerCtlEth.bit (m.peerCtl n) = true → (m.ethEnd n).replay ≠ [] → m.choosePort n (m.peerCtl n) = some (q, b) →
      exec (.ethReplayTimeout n) s = .next (s.on ((m.ethEnd n).replay.foldl (fun m t => m.emit (.frame q (m.ethHead t.mac) (t.pkt.flits t.lseq))) (b.count (K.linkRetries q) 1)))) ∧
    (∀ (p : Fin 10), m.portUp p = true → exec (.portLockLoss p) s = .next (s.on (m.portDown p 3))) ∧
    (∀ (p : Fin 10) (seen : BitVec 16), m.flag (K.linkPortStat p) F.linkPortStatTraining = true →
      let st := F.linkPortStatTraining.put (m.reg (K.linkPortStat p)) 0
      let m1 := ((m.ethRestart p).setReg (K.linkPortStat p) (F.linkPortStatSeen.put (F.linkPortStatLock.put (F.linkPortStatUp.put st 1) 15)
          (if m.portEth p then 0 else seen.toNat))).modPort p fun s => { s with locked := true }
      let m2 := if m.portEth p then m1 else m1.linkFlit p true ((m1.sfPort p).flit.rx - 1)
      exec (.linkTrainDone p true seen) s = .next (s.on (((m2.event ⟨.link, p⟩ 16).endCmd ⟨.link, p⟩ 0).syncRun ⟨.link, p⟩)) ∧
      exec (.linkTrainDone p false seen) s = .next (s.on ((((m.setReg (K.linkPortStat p) (F.linkPortStatCause.put st 4)).record ⟨.link, p⟩ 0x80 0
        none none (22 + p)).endCmd ⟨.link, p⟩ 4).syncRun ⟨.link, p⟩))) ∧
    (∀ (n : Fin 1024) (wr : Bool) (tag : BitVec 32) (o : CplOut), m.outOf n wr tag = some o → o.port ≠ noPort → m.outStalls o = false →
      exec (.couplingTimeout n wr tag) s = .next (s.on (m.endOut o 0x11 []))) ∧
    (∀ (id : Nat) (i : Inbound), m.memUp = true → m.sf.inb.find? (·.id == id) = some i → m.hasJob (.inbound id) = true →
      let k := i.pkt; let w := peerId i.peer
      k.typ = .write → k.notify = true → m.devHeld (k.cls + 1) true false i.addr k.bytes = false → m.osnAhead i.peer k.tag.toNat = 1 →
      m.osnDup i.peer k.tag.toNat = false → m.targetFails i.addr k.data.length true = false → m.logStalls k.data.length = false →
      m.waitsTurn = false → exec (.notifyDeliver id) s = .next (s.on
        ((((((m.logRec (dataRec .peerWrite w 0 i.addr k.data (some ⟨k.cls + 1, some i.cls, some ⟨i.peer, k.win, i.winCtl⟩⟩))).peerPut w
          (k.cls + 1) i.addr k.data (some i.cls)).notifyWindow ⟨i.peer, k.win, i.winCtl⟩).osnMark i.peer k.tag.toNat).countFld (K.coupleWinCnt (k.win / 64) (k.win % 64)) F.coupleWinCntServed 1).inboundDone i 0 [])))

/-- STAGE_TIMER_EXPIRE, STAGING_POST, POST_QUIESCED, POST_COMMIT, POST_QUIESCE_TIMEOUT, POST_RETRY and LOG_OVERFLOW take a staging post through its phases. Clauses rest on the model's choices: log entries 74, 101, 102 and 104. -/
def Obligations.PostsRunThroughTheirPhases : Prop :=
  ∀ (s : State), let m := s.chip
    (m.stg.armed = true → m.stageState = 1 → m.stg.post = .none → m.fld K.stageTimer F.stageTimerMs ≤ max 250 (min 60000 (m.fld K.stageStageLen F.stageStageLenMs)) →
      exec .stageTimerExpire s = .next (s.on
        ((m.setFld K.stageTimer F.stageTimerMs (max 250 (min 60000 (m.fld K.stageStageLen F.stageStageLenMs)))).requestPost))) ∧
    (m.flag K.stageStageStat F.stageStageStatPostPend = true → m.stg.post = .none → m.stg.rb = .none → m.stageState < 4 → m.stg.postCmd ≠ 4 →
      let b : Chip := ((({ m with stg := { m.stg with post := .quiesce, postAt := m.counter 32, postFrom := m.stageState } } : Chip).setFld
        K.stageStageStat F.stageStageStatState 2).setFld K.stageStageStat F.stageStageStatPostPend 0).heldPage
      exec .stagingPost s = .next (s.on (allCtxs.foldl (fun b x => b.quiesceCtx x) b))) ∧
    (∀ (b : Chip) (x : Ctx), let k := b.ctx x; k.st.going = true → k.stopReq.elem .side = false →
      b.quiesceCtx x = (b.setCtx x { k with stopReq := k.stopReq.filter (fun h => h != .switch && h != .side && h != .yield && h != .quiesce) ++
        [.quiesce] }).modTask k.task fun t => if t.st == .leaving then { t with st := .running, forTask := none } else t) ∧
    (m.memUp = true → m.stg.post = .quiesce → m.quiesced = true →
      (m.saveAllVec.postImages = true → ∃ b : Chip, exec .postQuiesced s = .next (s.on b) ∧ b.stg.post = .mirror ∧ b.stg.nextImage = some m.postImage) ∧
      (m.saveAllVec.postImages = false → ∃ b : Chip, exec .postQuiesced s = .next (s.on b) ∧ b.stg.post = .mirror ∧ b.stg.nextImage = none)) ∧
    (m.memUp = true → m.stg.post = .mirror → m.mirrorFails = false → m.stg.deferred = [] → ∃ b : Chip, exec .postCommit s = .next (s.on b) ∧ b.stg.post = .none ∧
      b.stg.image = m.stg.nextImage ∧ b.stg.nextImage = none ∧ b.stg.armed = m.postMirrors ∧ b.stg.written = [] ∧ b.stg.log = [] ∧
      b.stg.stale = [] ∧ b.stg.bDuring = 0) ∧
    (m.stg.post = .quiesce → m.quiesced = false → m.stg.deferred = [] → ∃ b : Chip, exec .postQuiesceTimeout s = .next (s.on b) ∧ b.stg.post = .retry ∧ b.stg.image = m.stg.image) ∧
    (m.stg.post = .retry → let b : Chip := { m with stg := { m.stg with post := .none } };
      exec .postRetry s = .next (s.on (if b.postDue then b.takePost else b))) ∧
    (m.logging = true → m.flag K.stageStageStat F.stageStageStatFull = true →
      exec .logOverflow s = .next (s.settled s.nvm (m.escalate (m.recEvent 0x09 0x8005 0 32))))

/-- RECOVERY_EVENT, LEVEL_A_REPAIR_DONE, ROLLBACK_STOP, RESTORE and RESTART, REEXEC_DATA_APPLY, DIVERGE and REEXEC_END recover from errors. Clauses rest on the model's choices: log entries 48, 49, 60, 74, 75, 101, 102 and 104. -/
def Obligations.RecoveryRollsBackAndRunsAgain : Prop :=
  (∀ (s : State), let m := s.chip
    (∀ e0 t, m.stg.events = e0 :: t → m.stageState ≠ 5 → m.stg.rb = .none →
      let b : Chip := { m with stg := { m.stg with events := t } }; let e := (m.levelOf e0).1; let lev := (m.levelOf e0).2
      let does (c : Chip) : Prop := exec (.recoveryEvent none) s = .next (s.settled s.nvm c)
      (lev = .none → e.cause ≠ 0x06 → e.cause ≠ 0x03 → does b) ∧
      (lev = .none → e.cause = 0x03 → does (({ b with stg := { b.stg with mirrorBad := true } } : Chip).setFld K.stageStageStat F.stageStageStatPostPend 1)) ∧
      (∀ i, lev = .none → e.cause = 0x06 → m.stg.image = some i → ∀ x : Ctx, x = ⟨⟨idIndex e.unit / 2 % 64, Nat.mod_lt _ (by decide)⟩, idIndex e.unit % 2 == 1⟩ →
        does (((b.setCtx x { (i.coaches[x.coach.val]).side x.aft with st := .idle, task := 0, asid := 0, stopReq := [] }).syncCoach
          x.coach).markEnding e.task 0x0A 0)) ∧
      (lev = .a → m.stg.current = none → let c : Chip := { b.noted e 1 with stg := { (b.noted e 1).stg with current := some e } }
        (e.cause = 0x02 ∨ e.cause = 0x04 → b.tag (e.addr.toNat / 65536) = 2 → does (c.askJob (.reload (e.addr.toNat / 65536)) 0x8005 1)) ∧
        ((e.cause ≠ 0x02 ∧ e.cause ≠ 0x04) ∨ b.tag (e.addr.toNat / 65536) ≠ 2 → does c)) ∧
      (lev = .b →
        let n := b.noted e 2; let n1 := n.setFld K.stageStageStat F.stageStageStatBcount (n.fld K.stageStageStat F.stageStageStatBcount + 1)
        let n2 := if n1.stg.post = .none then n1 else n1.setFld K.stageStageStat F.stageStageStatPostPend 1
        let n3 : Chip := { n2 with stg := { n2.stg with
          current := none, post := .none, nextImage := none, rb := .begun, rbAt := m.counter 32, rbFence := if e.cause = 0x01 then e.coach else none
          third := if e.cause = 0x06 then (e.task, e.retired) :: n2.stg.third else n2.stg.third } }
        does (((n3.setFld K.stageStageStat F.stageStageStatState 3).event ⟨.stage, 0⟩ 17).heldPage)) ∧
      (lev = .c →
        let n := (b.noted e 3).count K.stageCntC 1
        let n1 : Chip := { n with stg := { n.stg with current := none, post := .none, rb := .none, rbFence := none, nextImage := none } }
        let n2 := (n1.setFld K.stageStageStat F.stageStageStatState 5).stopAll true
        let n3 := if n2.busy ⟨.stage, 0⟩ then n2.freedPage 4 else n2
        does ((((n3.event ⟨.stage, 0⟩ 19).emit (.notify ⟨.stage, 0⟩)).logEvent (.levelC e.cause)).tellState))) ∧
    (∀ e, (m.stg.armed = false → (m.levelB e) = (e, .c)) ∧
      (m.stg.armed = true → m.stg.mirrorBad = false → m.fld K.stageStageStat F.stageStageStatBcount < 2 → m.levelB e = (e, .b)) ∧
      (m.stg.armed = true → m.stg.mirrorBad = false → 2 ≤ m.fld K.stageStageStat F.stageStageStatBcount →
        m.levelB e = ({ e with cause := 0x0C }, .c))) ∧
    (∀ e b, m.memUp = true → m.stg.current = some e → e.cause = 0x02 → m.tag (e.addr.toNat / 65536) = 1 →
      m.mirrorOf e.addr.toNat = some b → b / 64 ∉ m.badCrc → exec .levelARepairDone s = .next (s.on
        (let c := m.copyMem (b / 64 * 64) (e.addr.toNat / 64 * 64) 64
         let r : Chip := { c with badCrc := c.badCrc.filter (· != e.addr.toNat / 64), stg := { c.stg with current := none } }
         ((r.count K.stageCntA 1).event ⟨.stage, 0⟩ 21).releaseCrc (e.addr.toNat / 65536)))) ∧
    (m.stg.rb = .begun → exec .rollbackStop s = .next (s.on (let b := m.stopAll false; { b with stg := { b.stg with rb := .stopped } }))) ∧
    (m.memUp = true → m.stg.rb = .stopped → m.depotWorks = false → exec .rollbackRestore s = .next (s.on m.restore)) ∧
    (m.stg.rb = .restored → m.stg.rbFence = none → (∀ c : Fin 64, m.flag (K.shuntCoachCfg c) F.shuntCoachCfgFenced = false) →
      let b : Chip := { m with stg := { m.stg with rb := .none, rbFence := none, rbRun := m.counter 32, bDuring := m.stg.bDuring + m.queuedB.length } }
      let c := (b.setFld K.stageStageStat F.stageStageStatState 4).resumeCtxs
      exec .rollbackRestart s = .next (s.on (Chip.pumpReads (if c.stg.postCmd = 4 ∨ c.stg.postCmd = 0 then c.freedPage 0 else c)))) ∧
    (∀ r, m.memUp = true → m.reexec = true → m.logHead = some r → r.kind = .peerWrite ∨ r.kind = .bar2Write →
      (∀ d ∈ m.stg.deferred, d.entry ≠ r) → let t := r.land.getD ⟨3, none, none⟩
      m.logReach.devHeld t.cls true false r.value.toNat r.payload.length = false → let b := m.logReach.peerPut r.master t.cls r.value.toNat r.payload t.rc
        exec .reexecDataApply s = .next (s.on ((match t.notify with | some n => b.notifyWindow n | none => b).pumpPeers.pumpReads))) ∧
    (∀ h : BitVec 16, m.reexec = true → h ≠ 0 → h ∈ m.stg.diverged → exec (.diverge h) s = .next (s.on
      (let b := m.stageRecord 0x84 0x8005 none none
       let c : Chip := { b with stg := { b.stg with diverged := b.stg.diverged.filter (· != h)
                                                    log := b.stg.log.map fun r => if r.task = h then { r with reached := true } else r } }
       (c.markEnding h 7 0).pumpPeers.pumpReads))) ∧
    (m.reexec = true → m.stg.rb = .none → m.logHead = none →
      let us := ((m.stg.rbRun - m.stg.rbAt).toNat / 400) % 2 ^ 32; let ms := (m.counter 32 - m.stg.rbRun).toNat / 400 / 1000 % 2 ^ 32
      let b := (((m.setFld K.stageStageStat F.stageStageStatState 1).count K.stageCntB 1).setReg K.stageLastRb (BitVec.ofNat 64 (us + ms * 2 ^ 32))).event
        ⟨.stage, 0⟩ 18
      let c := if b.flag K.stageLogCtl F.stageLogCtlNotice then
          (allCtxs.filter fun x => (b.ctx x).intEn.getLsbD 2).foldl (fun b x => b.postInt x 2) b else b
      exec .reexecEnd s = .next (s.on (Chip.pumpReads (Chip.pumpPeers { c with stg := { c.stg with diverged := [] } }))))) ∧
  (∀ (b : Chip) (xf : Bool), let t := b.stopAll xf
    (∀ x : Ctx, t.ctx x = (b.ctx x).halted) ∧
    (∀ c : Fin 64, (t.vec c).q = [] ∧ (t.mtx c).queue = [] ∧ (t.mtx c).arr = [] ∧ ∀ k, t.stream c k = DStream.reset) ∧
    t.sends = [] ∧ t.xlat = { b.xlat with miss := [], toSide := [], limited := [] } ∧ t.sf.out = [] ∧ t.sf.wait = [] ∧
    t.host.held = (b.host.held.filter fun w => w.kind == .record || w.kind == .inval || (xf && w.kind == .transfer)) ∧
    t.host.jobs = (b.host.jobs.filter fun j => j.work.isInbound || (xf && j.work.isXfer)) ∧
    t.host.reads = (b.host.reads.filter fun r => r.dest.isWalk || (xf && r.isTransfer)) ∧
    t.mem = b.mem ∧ t.veils = b.veils ∧ t.cm = b.cm ∧ t.obuf = b.obuf ∧ t.slices = b.slices ∧ t.badCrc = b.badCrc ∧ t.sh = b.sh ∧
    t.stg = b.stg ∧ t.chocks = b.chocks ∧ t.errq = b.errq ∧ t.out = b.out) ∧
  (∀ b : Chip, let t := b.resumeCtxs; (∀ x : Ctx, t.ctx x = (b.ctx x).resumed) ∧ t.mem = b.mem ∧ t.sh = b.sh ∧ t.stg = b.stg) ∧
  (∀ (b : Chip) (g a : Nat), b.mirrorOf (g * 65536) = some a →
    let t := b.restoreGranule g; let c := b.copyMem a (g * 65536) 65536
    t.mem = c.mem ∧ t.veils = c.veils ∧ t.coaches = b.coaches ∧ t.sh = b.sh) ∧
  (∀ (b : Chip) (i : Image), b.stg.image = some i → b.crcHeld = [] → b.sparesAll i → let t := b.restore
    t.stg.rb = .restored ∧ t.stg.stale = [] ∧ t.stg.diverged = [] ∧ t.stg.image = some i ∧ t.stg.regist = i.regist ∧
    t.stg.log = (b.stg.log.map fun r => { r with reached := false }) ∧ t.xlat.faults = [] ∧ t.cm = i.cm ∧ t.obuf = i.obuf ∧
    (t.sh.tasks.map fun u => u.handle) = (i.sh.tasks.map fun u => u.handle) ∧ t.sh.entries = i.sh.entries ∧
    (∀ c : Fin 64, (t.vec c).v = (i.coaches[c.val]).vec.v ∧ (t.mtx c).queue = (i.coaches[c.val]).mtx.queue) ∧
    ∀ x : Ctx, (t.ctx x).pc = (restoreCtx (b.ctx x) ((i.coaches[x.coach.val]).side x.aft)).pc ∧
      (t.ctx x).main = (restoreCtx (b.ctx x) ((i.coaches[x.coach.val]).side x.aft)).main)

/-- GOVERNOR_ALLOCATE, RAKE_LOOP, SAG_WARNING, SAG_CLEAR, THERMAL_SAMPLE, LEAK_STOP, FLOW_UPDATE, DEMAND_UPDATE and the transfers to the coolant unit act. Clauses rest on the model's choices: log entries 18, 19, 63, 64, 65 and 88. -/
def Obligations.PowerAndCoolingFollowTheirLoops : Prop :=
  (∀ (s : State), let m := s.chip; let tin := (BitVec.ofNat 16 (m.fld K.coolCoolStat F.coolCoolStatTIn)).toInt
    let cool := coolPower (m.fld K.coolCoolStat F.coolCoolStatFlow) tin
    let hw := min 2600 (min (clamp 600 2600 (m.fld K.pwrCap F.pwrCapCapHost)) (clamp 600 2600 (m.fld K.pwrCap F.pwrCapCapMgmt)))
    (m.governed = true →
      (∀ p : Powers, let tot := min cool hw * 1000 - p.hbm - p.hub - p.conv; let sum := p.top.toList.sum
        let b := (m.setReg K.pwrPModule (BitVec.ofNat 64 (p.input / 1000 % 65536 + p.hbm / 1000 % 65536 * 2 ^ 16 + p.hub / 1000 % 65536 * 2 ^ 32
          + p.conv / 1000 % 65536 * 2 ^ 48))).count K.pwrEnergy p.mj
        exec (.governorAllocate p) s = .next (s.on (Chip.coolConds { b with pwr := { b.pwr with
          share := Vector.ofFn fun (r : Fin 4) => min (clamp 100 440 (m.fld (K.pwrRakeLim r.val) F.pwrRakeLimCapW) * 1000)
            (if sum = 0 then tot / 4 else tot * p.top[r] / sum)
          throt := decide (tot < p.low.toList.sum) } }))) ∧
      (∀ (r : Fin 4) (mw : Nat), let b := m.setFld (K.pwrRakeStat r) F.pwrRakeStatPW (mw / 1000)
        (m.pwr.stretch = true → exec (.rakeLoop r mw) s = .next (s.on ((b.floorCheck r).govern))) ∧
        (m.pwr.stretch = false →
          let cuts := if m.pwr.hot.getLsbD r then m.pwr.cuts[r] + 1 else 0
          let p := nextPoint m.pwr.point[r] mw (m.pwr.share[r] * 19 ^ cuts / 20 ^ cuts)
          let q : Power := { m.pwr with cuts := m.pwr.cuts.set r cuts, tight := setBit4 m.pwr.tight r (decide (m.pwr.share[r] * 95 ≤ mw * 100)) }
          (p = m.pwr.point[r] → exec (.rakeLoop r mw) s = .next (s.on ((Chip.floorCheck { b with pwr := q } r).govern))) ∧
          (p ≠ m.pwr.point[r] → exec (.rakeLoop r mw) s = .next (s.on
            ((Chip.floorCheck (Chip.rakeClock { b with pwr := { q with point := q.point.set r p } } r) r).govern)))))) ∧
    (∀ p c w : Nat, nextPoint p w c =
      if c < w then (if c * 125 < w * 100 then p - 4 else if c * 110 < w * 100 then p - 2 else p - 1)
      else if w * 100 < c * 95 ∧ p < 18 then p + 1 else p) ∧
    (∀ (n : Fin 22) (mv : Nat), m.board.inReset = false → m.watched n = true → m.warns n mv = true →
      let b := m.setReg K.pwrRailWarn (m.reg K.pwrRailWarn ||| BitVec.ofNat 64 (2 ^ n.val))
      (m.flag K.pwrPwrStat F.pwrPwrStatSag = true → exec (.sagWarning n mv) s = .next (s.on b)) ∧
      (m.flag K.pwrPwrStat F.pwrPwrStatSag = false →
        let c := ((b.setFld K.pwrPwrStat F.pwrPwrStatSag 1).countFld K.pwrSagCnt F.pwrSagCntCount 1).event ⟨.pwr, 0⟩ 16
        let d := if c.domRuns 0 || c.domRuns 1 || c.domRuns 2 || c.domRuns 3 then
            let k := (List.finRange 4).foldl (fun (k : Chip) r => if k.domRuns r.val then k.rakeClock r else k) { c with pwr := { c.pwr with stretch := true } }
            { k with posts := k.posts ++ allCtxs.map fun x => (x, srcSag) } else c
        let e := if d.ready && d.stg.armed then d.setFld K.stageStageStat F.stageStageStatPostPend 1 else d
        exec (.sagWarning n mv) s = .next (s.on ((e.platform .sag).govern)))) ∧
    (m.flag K.pwrPwrStat F.pwrPwrStatSag = true → m.reg K.pwrRailWarn = 0 → exec .sagClear s = .next (s.on
      (let b := m.setFld K.pwrPwrStat F.pwrPwrStatSag 0
       let u : Chip := { b with pwr := { b.pwr with stretch := false } }
       let c := if b.pwr.stretch then (List.finRange 4).foldl (fun (k : Chip) r => if k.domRuns r.val then k.rakeClock r else k) u else b
       (c.event ⟨.pwr, 0⟩ 17).govern))) ∧
    (∀ t : Temps, m.board.por = false → m.board.inReset = false →
      let die := (t.die.toList).foldl max t.hub; let stack := (t.stack.toList).foldl max t.stack[0]; let plate := max (max t.inlet t.outlet) t.body
      let b := (List.finRange 4).foldl (fun (b : Chip) r => b.setFld (K.pwrRakeStat r.val) F.pwrRakeStatTj (celsius t.die[r])) m
      let c := (b.setReg K.coolTemps (F.coolTempsTplate.put (F.coolTempsThbm.put (F.coolTempsTj.put (b.reg K.coolTemps) (celsius die)) (celsius stack))
        (celsius plate))).setFld K.coolCoolStat F.coolCoolStatTOut (BitVec.ofInt 16 t.outlet).toNat
      ∃ (hot : BitVec 4) (grp : BitVec 4), (∀ r : Fin 4, hot.getLsbD r = decide (950 ≤ t.die[r])) ∧
        (∀ g : Fin 4, grp.getLsbD g = true ↔ ∃ i : Fin 16, i.val / 4 = g.val ∧ 900 ≤ t.stack[i]) ∧
        let d : Chip := { c with pwr := { c.pwr with hot := hot, hbmHot := grp, plateIn := t.inlet } }
        let v := d.pwr.conds
        let e := d.setConds (BitVec.ofNat 5 (b2n (hyst (v.getLsbD 0) die 1000) + 2 * b2n (hyst (v.getLsbD 1) stack 950) + v.toNat / 4 * 4))
        (die < 1100 → stack < 1050 → t.outlet < 700 → exec (.thermalSample t) s = .next (s.settled s.nvm e.govern)) ∧
        (1100 ≤ die → exec (.thermalSample t) s = .next (s.settled s.nvm (e.beginStop .therm 1).govern)) ∧
        (die < 1100 → 1050 ≤ stack → exec (.thermalSample t) s = .next (s.settled s.nvm (e.beginStop .therm 2).govern)) ∧
        (die < 1100 → stack < 1050 → 700 ≤ t.outlet → exec (.thermalSample t) s = .next (s.settled s.nvm (e.beginStop .therm 3).govern))) ∧
    (m.board.coolLeakN = true → m.board.por = false → let b := m.modBoard fun d => { d with coolLeakN := false }
      (m.board.inReset = true → exec .leakStop s = .next (s.settled s.nvm (b.moduleEnter .leak))) ∧
      (m.board.inReset = false → exec .leakStop s = .next (s.settled s.nvm ((b.event ⟨.cool, 0⟩ 20).beginStop .leak 6)))) ∧
    (m.cooled = true → let cfg := m.reg K.coolCoolCfg; let fmax := max 300 (F.coolCoolCfgFlowMax.get cfg)
      (∀ n : Nat, exec (.flowUpdate n) s = .next (s.settled s.nvm
        (let f := min 65535 (n * 24000 / max 1 (F.coolCoolCfgKPpl.get cfg))
         let b := ({ m with pwr := { m.pwr with coolCfg := cfg } } : Chip).setFld K.coolCoolStat F.coolCoolStatFlow f
         let c := Chip.coolConds { b with pwr := { b.pwr with lowFlow := if f < 30 ∧ m.railsUp then m.pwr.lowFlow + 1 else 0 } }
         if 100 ≤ c.pwr.lowFlow then c.beginStop .therm 4 else c))) ∧
      (∀ a p : Nat,
        let n := (m.sh.tasks.filter fun t => t.st == .waiting || t.st == .stranded || t.st == .ready).length
        let pred := min hw (max a (p + F.coolCoolCfgFfW.get cfg * n)); let d := 697 * clamp 50 125 (F.coolCoolCfgRiseTgt.get cfg)
        let r : Nat × Nat := if m.phase < 7 ∨ fmax * d ≤ pred * 10000 then (fmax, 1000)
          else if pred * 10000 ≤ 50 * d then (50, (2 * 50000 + fmax) / (2 * fmax))
          else ((2 * (pred * 10000) + d) / (2 * d), (2 * (pred * 10000000) + d * fmax) / (2 * (d * fmax)))
        exec (.demandUpdate a p) s = .next (s.on ((({ m with pwr := { m.pwr with coolCfg := cfg } } : Chip).setReg K.coolDemand
          (F.coolDemandPPred.put (F.coolDemandFDem.put (F.coolDemandDuty.put (m.reg K.coolDemand) r.2) r.1) pred)).setFld K.coolDemand
          F.coolDemandPCool cool)))) ∧
    (m.cduUp = true → let addr := F.coolCoolCfgCduAddr.get m.pwr.coolCfg
      (∀ w : BitVec 16, exec (.cduInletRead (some w)) s = .next (s.settled s.nvm (((m.emit (.cdu addr 0x10 none)).cduTold true).inletIs w true))) ∧
      (let b := (m.emit (.cdu addr 0x10 none)).cduTold false;
        (b.flag K.coolCoolStat F.coolCoolStatCduOk = false → exec (.cduInletRead none) s = .next (s.settled s.nvm
          (b.inletIs (BitVec.ofInt 16 m.pwr.plateIn) false))) ∧
        (b.flag K.coolCoolStat F.coolCoolStatCduOk = true → exec (.cduInletRead none) s = .next (s.settled s.nvm
          (let d := Chip.coolConds { b with pwr := { b.pwr with hotInlet := if 480 ≤ tin then m.pwr.hotInlet + 1 else 0 } }
           if 10 ≤ d.pwr.hotInlet then d.beginStop .therm 5 else d)))) ∧
      (∀ ok, exec (.cduDemandWrite ok) s = .next (s.on (((m.emit (.cdu addr 0x20 (some (if m.phase < 7 then max 300 (F.coolCoolCfgFlowMax.get m.pwr.coolCfg)
          else m.fld K.coolDemand F.coolDemandFDem)))).cduTold ok).coolConds)) ∧
        exec (.cduStatusWrite ok) s = .next (s.on (((m.emit (.cdu addr 0x21 (some (b2n m.railsUp + 2 * b2n (!m.board.coolLeakN) +
          4 * b2n (!m.board.thermTripN) + 8 * b2n m.coolLimits)))).cduTold ok).coolConds))))) ∧
  (∀ b : Chip,
    (let c : BitVec 5 := BitVec.ofNat 5 (b.pwr.conds.toNat % 4 + 4 * b2n (decide (b.pCool < b.pIn))
        + 8 * b2n (decide (400 < b.tIn) || (b.pwr.conds.getLsbD 3 && decide (370 < b.tIn)))
        + 16 * b2n (!b.flag K.coolCoolStat F.coolCoolStatCduOk && b.railsUp));
      b.coolConds.pwr = { b.pwr with conds := c } ∧ b.coolConds.flag K.pwrPwrStat F.pwrPwrStatThermWarn = (c != 0) ∧
      b.coolConds.posts = b.posts ++ if b.pwr.conds = 0 ∧ c ≠ 0 then allCtxs.map fun x => (x, srcThermal) else []) ∧
    b.govern.fld K.pwrPwrStat F.pwrPwrStatLimiter = b.limiter ∧
    b.govern.flag K.pwrPwrStat F.pwrPwrStatHbmThrot = (b.pwr.throt || b.pwr.hbmHot != 0) ∧ b.govern.pwr = b.pwr ∧
    (b.limitBinds = true → (b.pLim = 2600 → b.limiter = 1) ∧ (b.pLim ≠ 2600 → b.coolLimits = true → b.limiter = 2)) ∧
    (b.limitBinds = false → b.pwr.hot ≠ 0 → b.limiter = 3) ∧
    ((∀ r : Fin 4, 18 ≤ b.pwr.point[r]) → b.pIn ≤ b.pLim → b.pwr.hot = 0 →
      b.limiter = if b.pwr.stretch then 5 else if b.fld K.pwrPwrStat F.pwrPwrStatFloorUnmet = 0 then 0 else 7) ∧
    (∀ r : Fin 4, ((b.floorCheck r).fld K.pwrPwrStat F.pwrPwrStatFloorUnmet).testBit r =
      if b.fld (K.pwrRakeLim r) F.pwrRakeLimFloorMhz ≤ 400 + 25 * b.pwr.point[r] then false
      else ((b.fld K.pwrPwrStat F.pwrPwrStatFloorUnmet).testBit r || decide (100 < b.pwr.below[r] + 1))) ∧
    (∀ (c : ModCause) (src : Nat), b.pwr.stops.elem c = false → b.board.por = false → b.board.inReset = false → src < 8 → let t := b.beginStop c src
      t.pwr = { b.pwr with stops := b.pwr.stops ++ [c] } ∧ (∀ d : Fin 34, t.dom[d].run = (b.dom[d].run && decide (4 ≤ d.val))) ∧
      t.board = { b.board with thermTripN := b.board.thermTripN && c != .therm } ∧ t.memUp = false ∧
      t.fld K.coolTemps F.coolTempsTripSrc = if b.pwr.stops = [] then src else b.fld K.coolTemps F.coolTempsTripSrc))

/-- Every MCTP, PLDM and SPDM message of the table, SETDASA, ENTDAA, VERIFY_COMPLETE and BOTTOM_TREE_READY act and are answered. Clauses rest on the model's choices: log entries 23, 24, 51, 61, 66 and 89. -/
def Obligations.ManagementMessagesAreAnswered : Prop :=
  ∀ (s : State) (k : Mctp), let m := s.chip; let n := s.nvm
    (Heard m k true →
      (∀ e : Byte, (e = 0 ∨ e = 0xFF → Asks (.setEndpointId k e) s k .invalidData []) ∧
        (e ≠ 0 → e ≠ 0xFF → Changes (.setEndpointId k e) s k .success [e.toNat] n (m.modMg fun g => { g with eid := g.eid.set k.t e }))) ∧
      Asks (.getEndpointId k) s k .success [m.mg.eid[k.t].toNat] ∧ Asks (.getEndpointUuid k) s k .success [Config.uuid.toNat] ∧
      Asks (.getMctpVersionSupport k) s k .success [1, 3] ∧ Asks (.getMessageTypeSupport k) s k .success [0, 1, 5] ∧
      Asks (.getTid k) s k .success [n.tid] ∧
      (∀ t : Byte, (1 ≤ t.toNat ∧ t.toNat ≤ 254 → Changes (.setTid k t) s k .success [] { n with tid := t.toNat } m) ∧
        (t = 0 ∨ t = 0xFF → Asks (.setTid k t) s k .invalidData [])) ∧
      (∀ t, AsksFor (.getPldmVersion k t) s k (pldmVersion t)) ∧ Asks (.getPldmTypes k) s k .success [0, 2, 5] ∧
      (∀ t, AsksFor (.getPldmCommands k t) s k (pldmCommands t)) ∧
      (∃ v, exec (.queryDeviceIdentifiers k) s = .next (s.settled n ((m.emit (.mgmt k.t.val .success [v])).next))) ∧
      Asks (.getFirmwareParameters k) s k .success [1, 1, 400] ∧
      (m.mg.upd = none → (m.busy ⟨.mbox, 0⟩ = false ∨ m.cmdCode ⟨.mbox, 0⟩ ≠ 2) → Changes (.requestUpdate k) s k .success [] n (m.setUpd (some ⟨true, .learn, 0, [], none⟩))) ∧
      (m.mg.upd.isSome = true ∨ (m.busy ⟨.mbox, 0⟩ = true ∧ m.cmdCode ⟨.mbox, 0⟩ = 2) → Asks (.requestUpdate k) s k .alreadyInUpdateMode []) ∧
      (∀ t, Asks (.getStatus k) s k .success [match m.pldmUpd with | some u => u.fd.code | none => 0] ∧ (m.pldmUpd = none →
        Asks (.passComponentTable k t) s k .notInUpdateMode [] ∧ Asks (.updateComponent k t t) s k .notInUpdateMode [] ∧
        (∀ b, Asks (.activateFirmware k b) s k .notInUpdateMode []) ∧ Asks (.cancelUpdateComponent k) s k .notInUpdateMode [] ∧
        Asks (.cancelUpdate k) s k .notInUpdateMode [])) ∧
      (∀ u, m.mg.upd = some u → u.pldm = true →
        Changes (.cancelUpdate k) s k .success [] n (m.setUpd none) ∧
        (u.fd = .learn → Changes (.passComponentTable k 1) s k .success [] n (m.setUpd (some { u with fd := .ready }))) ∧
        (u.fd ≠ .learn → ∀ t, Asks (.passComponentTable k t) s k .invalidState []) ∧
        (u.fd = .ready → ∀ len, 0 < len → len ≤ 2 ^ 24 → let v : Update := { u with fd := .download, len := len, got := [], verdict := none };
          exec (.updateComponent k 1 len) s = .next (s.settled n.eraseA
            ((((m.setUpd (some v)).logEvent (.update 2)).emit (.mgmt k.t.val .success [])).askPart v))) ∧
        (u.fd = .download → ∀ d : List Byte, d.length = min 2048 (u.len - u.nextOff) → let r := fwPut u u.nextOff d (n, m)
          ∀ v, r.2.pldmUpd = some v →
            (v.whole = true → exec (.firmwareDataResponse k d) s = .next (s.settled r.1
              (((r.2.setUpd (some { v with fd := .verify })).emit (.fwComplete 0 true)).logEvent (.update 3)))) ∧
            (v.whole = false → exec (.firmwareDataResponse k d) s = .next (s.settled r.1 (r.2.askPart v)))) ∧
        (u.fd = .download → Changes (.cancelUpdateComponent k) s k .success [] n (m.setUpd (some { u with fd := .ready, verdict := none }))) ∧
        (u.fd = .verify → u.verdict = none → m.board.ostlerUp = true → let a := (m.emit (.fwComplete 1 (decide (n.codeA = 0)))).logEvent (.update 4)
          (n.codeA = 0 → exec .verifyComplete s = .next (s.settled n
            ((a.emit (.fwComplete 2 true)).setUpd (some { u with fd := .ready, verdict := some 0 })))) ∧
          (n.codeA ≠ 0 → exec .verifyComplete s = .next (s.settled n (a.setUpd (some { u with verdict := some n.codeA }))))) ∧
        (u.fd = .ready → u.verdict = some 0 → Asks (.activateFirmware k true) s k .invalidData [] ∧
          (let d := drainLog n (((m.setUpd none).logEvent (.update 5)).emit (.mgmt k.t.val .success [400]));
            exec (.activateFirmware k false) s = .next (s.settled d.1 d.2.ostlerReset)))) ∧
      (∀ code, code < 2 ∨ 5 < code → controlAnswer k code m = (.unsupportedCmd, []))) ∧
    (∀ type code f, Heard m k (type != 2) → code ∉ (pldmCommands type).getD [] →
      takePldm k type code f (n, m) = (n, m.emit (.mgmt k.t.val .unsupportedPldmCmd []))) ∧
    (Heard m k false →
      (∀ b, Changes (.setEventReceiver k b) s k .success [] n (m.setReceiver k b)) ∧ Asks (.getPdrRepositoryInfo k) s k .success [13] ∧
      (∀ i, AsksFor (.getPdr k i) s k (pdr i) ∧ Asks (.getSensorReading k i true) s k .notReady [] ∧
        Asks (.getStateSensorReadings k i true) s k .notReady [] ∧
        AsksFor (.getSensorReading k i false) s k ((m.sensor i).map fun v => [v]) ∧
        AsksFor (.getStateSensorReadings k i false) s k ((m.stateSensor i).map fun v => [v])) ∧
      Asks (.getNumericEffecterValue k true) s k .notReady [] ∧
      Asks (.getNumericEffecterValue k false) s k .success [m.fld K.pwrCap F.pwrCapCapMgmt] ∧
      (∀ v g, (v < 600 ∨ 2600 < v → Asks (.setNumericEffecterValue k v g) s k .invalidData []) ∧
        (600 ≤ v → v ≤ 2600 → ∀ a b, regWrite (m.capWrite v g) (n, m) = ((a, b), .accepted) →
          Changes (.setNumericEffecterValue k v g) s k .success [] a b)) ∧
      Changes (.getVersion k) s k .success [0x12, 0x13] n (m.setPhaseSpdm k 1) ∧
      (1 ≤ m.mg.spdm[k.t] → Changes (.getCapabilities k) s k .success [0x16] n (m.setPhaseSpdm k 2)) ∧
      (2 ≤ m.mg.spdm[k.t] → Changes (.negotiateAlgorithms k true) s k .success [1, 2, 0, 1, 1, 8, 4, 6, 4] n (m.setPhaseSpdm k 3) ∧
        Asks (.negotiateAlgorithms k false) s k .unsupportedRequest []) ∧
      (3 ≤ m.mg.spdm[k.t] → Asks (.getDigests k) s k .success [Config.digest 0] ∧
        (∀ o l, Asks (.getCertificate k 0 o l) s k .success ((((Config.certificate Config.identityKey).drop o).take l).map (·.toNat)) ∧
          ∀ t, t ≠ 0 → Asks (.getCertificate k t o l) s k .invalidData [] ∧ ∀ b, Asks (.challenge k t b) s k .invalidData []) ∧
        (∀ i l, measured n m i = some l → ∀ b, Asks (.getMeasurements k i false b) s k .success l) ∧
        measured n m 2 = some [Config.imageDigest m.mg.runImage, m.mg.runSvn.getD 0] ∧ measured n m 3 = some [Config.digest 3, Config.digest 4, n.arb] ∧
        (n.sig + 1 < 966367642 → n.sig / 1024 ∈ m.mg.trees → Changes (.challenge k 0 false) s k .success
            (Config.digest 0 :: hssSignature n.sig [Config.digest 0]) { n with sig := n.sig + 1 } m ∧
          exec (.challenge k 0 true) s = .next (s.settled { n with sig := n.sig + 1 } m))) ∧
      (m.mg.spdm[k.t] < 3 → Asks (.getDigests k) s k .unexpectedRequest [])) ∧
    (m.hears k true = true → k.framed = false → exec (.getTid k) s = .next (s.settled n m)) ∧
    (m.hears k true = true → k.framed = true → (4096 < k.len ∨ k.inSeq = false) →
      exec (.getTid k) s = .next (s.settled n (m.countFld K.mboxMbStat F.mboxMbStatMctpDrop 1))) ∧
    (m.hears k true = false → m.board.vstby33 = true → m.board.por = false → m.board.vin48 = false → k.t.val < 2 → m.addressed k = true →
      exec (.getTid k) s = .next (s.settled n (m.modBoard fun b => { b with wake := true }))) ∧
    (m.board.ostlerUp = true → (∀ a : BitVec 7, m.mg.i3cDyn = none → exec (.setdasa a) s = .next (s.on (m.modMg fun g => { g with i3cDyn := some a })) ∧
        exec (.entdaa a) s = .next (s.on (m.modMg fun g => { g with i3cDyn := some a }))) ∧
      exec .bottomTreeReady s = .next (s.settled n (m.modMg fun g =>
        { g with trees := if n.sig / 1024 ∈ g.trees then [n.sig / 1024, n.sig / 1024 + 1] else [n.sig / 1024] })))

/-- BYPASS, IDCODE, SAMPLE_PRELOAD, EXTEST, CLAMP, HIGHZ, DBG_TOKEN, TAP_DBG_NONCE and DBG_ACCESS select their instruction and act. Clauses rest on the model's choices: log entries 22, 30 and 67. -/
def Obligations.TapInstructionsAct : Prop :=
  ∀ (s : State), let m := s.chip; let n := s.nvm; m.board.jtagTrstN = true → m.board.por = false →
    let sel (i : TapInstr) : Chip := m.modBoard fun b => { b with tap := i.code }
    let scan := m.permitted 2 = true ∨ m.board.inReset = true ∨ m.board.heldFail = true
    exec .bypass s = .next (s.settled n (sel .bypass)) ∧
    exec .idcode s = .next (s.settled n ((sel .idcode).emit (.tap 0x16416793))) ∧
    exec .samplePreload s = .next (s.settled n (((sel .sample).modBoard fun b => { b with bsr := Config.freeWord m.tick }).next)) ∧
    (scan → exec .extest s = .next (s.settled n (sel .extest)) ∧ exec .clamp s = .next (s.settled n (sel .clamp)) ∧
      exec .highz s = .next (s.settled n (sel .highz))) ∧
    (¬ scan → exec .extest s = .next (s.settled n (sel .bypass)) ∧ exec .clamp s = .next (s.settled n (sel .bypass)) ∧
      exec .highz s = .next (s.settled n (sel .bypass))) ∧
    (m.board.ostlerUp = true → (∀ t, exec (.dbgToken t) s = .next (s.settled n ((sel .dbgToken).token t).1)) ∧
      (let b := (sel .dbgNonce).newNonce; exec .tapDbgNonce s = .next (s.settled n (b.emit (.tap (b.mg.nonce.getD 0).toNat))))) ∧
    (m.permitted 0 = true →
      (∀ who off size, exec (.dbgAccess (.read who off size)) s = .next (s.settled n ((sel .dbgAccess).readReg n 0x7000 off size))) ∧
      (∀ w, let r := regWrite { w with m := 0x7000, gen := none } (n, sel .dbgAccess)
        exec (.dbgAccess (.write w)) s = .next (s.settled r.1.1 r.1.2))) ∧
    (m.permitted 0 = false → ∀ a, exec (.dbgAccess a) s = .next (s.settled n (sel .bypass)))

/-- Every step keeps memory canonical, the error queues, logs and stacks within their bounds, and TRAP_BASE aligned. Clauses rest on the model's choices: log entry 68. -/
def Obligations.StepKeepsFormsAndBounds : Prop :=
  ∀ s t : State, s.Kept → step s = .next t → t.Kept
end

