-- ==== Sys2Proof/Laws/SMap.lean ====
section
/-! SUPPORT. Sparse maps: what reading gives after a write, and that every operation keeps the canonical form. -/
namespace Sys2Proof.Machine

variable {α : Type}

/-! ### Reading -/

@[simp] theorem smapGet_nil (d : Nat → α) (k : Nat) : smapGet d [] k = d k := rfl

theorem smapGet_cons (d : Nat → α) (j : Nat) (v : α) (t : SMap α) (k : Nat) :
    smapGet d ((j, v) :: t) k = if j = k then v else smapGet d t k := rfl

theorem smapGet_erase (d : Nat → α) (p : Nat → Bool) (m : SMap α) (k : Nat) :
    smapGet d (smapErase p m) k = if p k then d k else smapGet d m k := by
  induction m with
  | nil => cases h : p k <;> simp [smapErase]
  | cons e t ih =>
    obtain ⟨j, v⟩ := e
    unfold smapErase at ih ⊢
    by_cases hj : j = k
    · subst hj; cases h : p j <;> simp_all [List.filter, smapGet_cons]
    · cases h : p j <;> simp_all [List.filter, smapGet_cons]

theorem smapGet_insert (d : Nat → α) (k : Nat) (v : α) (m : SMap α) (h : ∀ e ∈ m, e.1 ≠ k) (j : Nat) :
    smapGet d (smapInsert k v m) j = if j = k then v else smapGet d m j := by
  induction m with
  | nil => simp [smapInsert, smapGet_cons, eq_comm]
  | cons e t ih =>
    obtain ⟨i, w⟩ := e
    have hi : i ≠ k := h _ (List.mem_cons_self)
    have ht := ih fun e he => h e (List.mem_cons_of_mem _ he)
    unfold smapInsert
    split
    · simp [smapGet_cons, eq_comm]
    · simp only [smapGet_cons, ht]
      by_cases h1 : i = j
      · subst h1; simp [hi]
      · simp [h1]

theorem mem_smapErase {p : Nat → Bool} {m : SMap α} {e : Nat × α} :
    e ∈ smapErase p m ↔ e ∈ m ∧ p e.1 = false := by
  simp [smapErase]

/-- Reading after a write: the key written holds what was written, every other key what it held. -/
theorem smapGet_set [DecidableEq α] (d : Nat → α) (m : SMap α) (k : Nat) (v : α) (j : Nat) :
    smapGet d (smapSet d m k v) j = if j = k then v else smapGet d m j := by
  have h : ∀ e ∈ smapErase (· == k) m, e.1 ≠ k := by
    intro e he; simpa using (mem_smapErase.mp he).2
  unfold smapSet
  dsimp only
  split
  · rename_i hv
    rw [smapGet_erase]
    by_cases hj : j = k
    · subst hj; simp [hv]
    · simp [hj]
  · rw [smapGet_insert d k v _ h, smapGet_erase]
    by_cases hj : j = k <;> simp [hj]

/-! ### The canonical form -/

/-- Keys strictly rise and lie above `b` where one is given; no entry equals its default. -/
def SortedFrom [DecidableEq α] (d : Nat → α) (m : SMap α) : Prop :=
  m.Pairwise (fun e f => e.1 < f.1) ∧ ∀ e ∈ m, e.2 ≠ d e.1

theorem smapWf_iff [DecidableEq α] (d : Nat → α) (m : SMap α) : smapWf d m = true ↔ SortedFrom d m := by
  induction m with
  | nil => simp [smapWf, SortedFrom]
  | cons e t ih =>
    cases t with
    | nil => simp [smapWf, SortedFrom]
    | cons f t =>
      simp only [smapWf, Bool.and_eq_true, decide_eq_true_eq, ih, SortedFrom, List.pairwise_cons, List.mem_cons]
      constructor
      · rintro ⟨⟨h1, h2⟩, ⟨h3, h4⟩, h5⟩
        refine ⟨⟨?_, h3, h4⟩, ?_⟩
        · rintro a (rfl | ha)
          · exact h2
          · exact lt_trans h2 (h3 a ha)
        · rintro a (rfl | ha)
          · exact h1
          · exact h5 a ha
      · rintro ⟨⟨h1, h3, h4⟩, h5⟩
        exact ⟨⟨h5 e (.inl rfl), h1 f (.inl rfl)⟩, ⟨h3, h4⟩, fun a ha => h5 a (.inr ha)⟩

theorem smapWf_nil [DecidableEq α] (d : Nat → α) : smapWf d [] = true := rfl

theorem smapWf_filter [DecidableEq α] {d : Nat → α} {m : SMap α} (h : smapWf d m = true) (p : Nat × α → Bool) :
    smapWf d (m.filter p) = true := by
  rw [smapWf_iff] at *
  exact ⟨h.1.filter _, fun e he => h.2 e (List.mem_of_mem_filter he)⟩

theorem smapWf_erase [DecidableEq α] {d : Nat → α} {m : SMap α} (h : smapWf d m = true) (p : Nat → Bool) :
    smapWf d (smapErase p m) = true := smapWf_filter h _

theorem mem_smapInsert {k : Nat} {v : α} {m : SMap α} {e : Nat × α} :
    e ∈ smapInsert k v m ↔ e = (k, v) ∨ e ∈ m := by
  induction m with
  | nil => simp [smapInsert]
  | cons f t ih =>
    unfold smapInsert
    split
    · simp
    · simp only [List.mem_cons, ih]; tauto

theorem smapWf_insert [DecidableEq α] {d : Nat → α} {m : SMap α} {k : Nat} {v : α} (h : smapWf d m = true)
    (hk : ∀ e ∈ m, e.1 ≠ k) (hv : v ≠ d k) : smapWf d (smapInsert k v m) = true := by
  rw [smapWf_iff] at *
  refine ⟨?_, ?_⟩
  · induction m with
    | nil => simp [smapInsert]
    | cons e t ih =>
      obtain ⟨h1, h2⟩ := h
      rw [List.pairwise_cons] at h1
      unfold smapInsert
      split
      · rename_i hlt
        refine List.pairwise_cons.mpr ⟨?_, List.pairwise_cons.mpr h1⟩
        intro f hf
        rcases List.mem_cons.mp hf with rfl | hf
        · exact hlt
        · exact lt_trans hlt (h1.1 f hf)
      · rename_i hlt
        have hne := hk e List.mem_cons_self
        refine List.pairwise_cons.mpr ⟨?_, ih ⟨h1.2, fun f hf => h2 f (List.mem_cons_of_mem _ hf)⟩
          fun f hf => hk f (List.mem_cons_of_mem _ hf)⟩
        intro f hf
        rcases mem_smapInsert.mp hf with rfl | hf
        · exact lt_of_le_of_ne (not_lt.mp hlt) hne
        · exact h1.1 f hf
  · intro e he
    rcases mem_smapInsert.mp he with rfl | he
    · exact hv
    · exact h.2 e he

/-- A write keeps the canonical form. -/
theorem smapWf_set [DecidableEq α] {d : Nat → α} {m : SMap α} (h : smapWf d m = true) (k : Nat) (v : α) :
    smapWf d (smapSet d m k v) = true := by
  unfold smapSet
  dsimp only
  split
  · exact smapWf_erase h _
  · refine smapWf_insert (smapWf_erase h _) ?_ ‹_›
    intro e he; simpa using (mem_smapErase.mp he).2

theorem smapWf_setAll [DecidableEq α] {d : Nat → α} (l : List (Nat × α)) {m : SMap α} (h : smapWf d m = true) :
    smapWf d (smapSetAll d m l) = true := by
  unfold smapSetAll
  induction l generalizing m with
  | nil => exact h
  | cons e t ih => exact ih (smapWf_set h _ _)

theorem smapWf_copy [DecidableEq α] {v0 : α} {m : SMap α} (h : smapWf (fun _ => v0) m = true) (lo dst n : Nat) :
    smapWf (fun _ => v0) (smapCopy v0 m lo dst n) = true := smapWf_setAll _ (smapWf_erase h _)

/-- A range takes values of its own, none of which is what an unlisted key holds. -/
theorem smapWf_fill [DecidableEq α] {d : Nat → α} {m : SMap α} (h : smapWf d m = true) (lo n : Nat) (f : Nat → α)
    (hf : ∀ i < n, f i ≠ d (lo + i)) : smapWf d (smapFill m lo n f) = true := by
  rw [smapWf_iff] at *
  unfold smapFill
  have hr : ∀ e ∈ (List.range n).map (fun i => (lo + i, f i)), lo ≤ e.1 ∧ e.1 < lo + n ∧ e.2 ≠ d e.1 := by
    intro e he
    obtain ⟨i, hi, rfl⟩ := List.mem_map.mp he
    have := List.mem_range.mp hi
    exact ⟨by simp, by simp; omega, hf i this⟩
  refine ⟨?_, ?_⟩
  · rw [List.append_assoc, List.pairwise_append, List.pairwise_append]
    refine ⟨h.1.filter _, ⟨?_, h.1.filter _, ?_⟩, ?_⟩
    · rw [List.pairwise_map]
      exact List.pairwise_lt_range.imp fun hlt => by simpa using hlt
    · intro a ha b hb
      have h1 := hr a ha
      have h2 := of_decide_eq_true (List.mem_filter.mp hb).2
      omega
    · intro a ha b hb
      have h1 := of_decide_eq_true (List.mem_filter.mp ha).2
      rcases List.mem_append.mp hb with hb | hb
      · have := hr b hb; omega
      · have := of_decide_eq_true (List.mem_filter.mp hb).2; omega
  · intro e he
    rcases List.mem_append.mp he with he | he
    · rcases List.mem_append.mp he with he | he
      · exact h.2 e (List.mem_of_mem_filter he)
      · exact (hr e he).2.2
    · exact h.2 e (List.mem_of_mem_filter he)

/-- A map whose default changes only where it has no key left keeps its form. -/
theorem smapWf_mono [DecidableEq α] {d d' : Nat → α} {m : SMap α} (h : smapWf d m = true)
    (hd : ∀ e ∈ m, d' e.1 = d e.1) : smapWf d' m = true := by
  rw [smapWf_iff] at *
  exact ⟨h.1, fun e he => by rw [hd e he]; exact h.2 e he⟩

/-! ### Memory -/

/-- Reading one byte after one has been written: the byte written, and every other byte as before. -/
theorem rdByte_wrByte (m : Chip) (a : Nat) (b : Byte) (c : Nat) :
    (m.wrByte a b).rdByte c = if c = a then b else m.rdByte c := by
  unfold Chip.rdByte Chip.wrByte Chip.memCell Chip.setCell
  simp only [smapGet_set]
  by_cases h : c = a <;> simp [h, MByte.value]

theorem setCell_wf {m : Chip} (h : smapWf (memDef m.veils) m.mem = true) (a : Nat) (v : MByte) :
    smapWf (memDef (m.setCell a v).veils) (m.setCell a v).mem = true := smapWf_set h _ _

theorem wrBytes_wf (l : List Byte) {m : Chip} (h : smapWf (memDef m.veils) m.mem = true) (a : Nat) :
    smapWf (memDef (m.wrBytes a l).veils) (m.wrBytes a l).mem = true := by
  induction l generalizing m a with
  | nil => exact h
  | cons b t ih => exact ih (setCell_wf h _ _) _

theorem setCells_wf {m : Chip} (h : smapWf (memDef m.veils) m.mem = true) (lo n : Nat) (f : Nat → MByte) :
    smapWf (memDef (m.setCells lo n f).veils) (m.setCells lo n f).mem = true := by
  unfold Chip.setCells
  generalize List.range n = l
  induction l generalizing m with
  | nil => exact h
  | cons i t ih => exact ih (setCell_wf h _ _)

theorem zeroMem_wf {m : Chip} (h : smapWf (memDef m.veils) m.mem = true) (lo n : Nat) :
    smapWf (memDef (m.zeroMem lo n).veils) (m.zeroMem lo n).mem = true := by
  unfold Chip.zeroMem
  split
  · exact setCells_wf h _ _ _
  · exact smapWf_erase h (fun k => decide (lo ≤ k ∧ k < lo + n))

theorem putCells_wf {m : Chip} (h : smapWf (memDef m.veils) m.mem = true) (lo n : Nat) (l : SMap MByte) :
    smapWf (memDef (m.putCells lo n l).veils) (m.putCells lo n l).mem = true :=
  smapWf_setAll _ (zeroMem_wf h _ _)

theorem copyMem_wf {m : Chip} (h : smapWf (memDef m.veils) m.mem = true) (src dst n : Nat) :
    smapWf (memDef (m.copyMem src dst n).veils) (m.copyMem src dst n).mem = true := by
  unfold Chip.copyMem
  split
  · exact setCells_wf h _ _ _
  · exact putCells_wf h _ _ _

/-- An area that is left open changes no default beside it. -/
theorem memDef_veil (vs : List Veil) (lo n mark a : Nat) (ha : ¬ (lo ≤ a ∧ a < lo + n)) :
    memDef (⟨lo, n, mark⟩ :: vs.filter fun v => !(v.lo == lo && v.n == n)) a = memDef vs a := by
  unfold memDef
  rw [List.find?_cons_of_neg (by simpa using ha)]
  congr 1
  induction vs with
  | nil => rfl
  | cons v t ih =>
    by_cases hv : v.lo = lo ∧ v.n = n
    · have : ¬ (v.lo ≤ a ∧ a < v.lo + v.n) := by rw [hv.1, hv.2]; exact ha
      rw [List.filter_cons_of_neg (by simp [hv.1, hv.2]), List.find?_cons_of_neg (by simpa using this)]
      exact ih
    · rw [List.filter_cons_of_pos (by simp [-not_and]; tauto)]
      by_cases hin : v.lo ≤ a ∧ a < v.lo + v.n
      · rw [List.find?_cons_of_pos (by simpa using hin), List.find?_cons_of_pos (by simpa using hin)]
      · rw [List.find?_cons_of_neg (by simpa using hin), List.find?_cons_of_neg (by simpa using hin)]
        exact ih

theorem veilMem_wf {m : Chip} (h : smapWf (memDef m.veils) m.mem = true) (lo n : Nat) :
    smapWf (memDef (m.veilMem lo n).veils) (m.veilMem lo n).mem = true := by
  refine smapWf_mono (smapWf_erase h (fun k => decide (lo ≤ k ∧ k < lo + n))) ?_
  intro e he
  have := (mem_smapErase (p := fun k => decide (lo ≤ k ∧ k < lo + n)) (m := m.mem) |>.mp he).2
  exact memDef_veil _ _ _ _ _ (by simpa using this)

end Sys2Proof.Machine
end

