-- ==== Sys2Proof/Laws/Areas.lean ====
section
/-! SUPPORT. Save areas and images: marking an area and taking an image's rows back keep memory's canonical form. -/
namespace Sys2Proof.Machine

/-- A save area never starts at address 0, so no cell of it is what its address holds unlisted. -/
theorem markArea_wf {m : Chip} (h : smapWf (memDef m.veils) m.mem = true) (a : Nat × Nat) (ha : 0 < a.1) :
    smapWf (memDef (m.markArea a).1.veils) (m.markArea a).1.mem = true := by
  refine smapWf_fill h _ _ _ fun i _ => ?_
  unfold memDef
  split
  · intro he; injection he with h1 h2; omega
  · simp

theorem rowAddr_pos (c p : Nat) : 0 < rowAddr c p := by unfold rowAddr coreBase; omega

theorem ctlArea_pos (t : Task) : 0 < t.ctlArea.1 := rowAddr_pos _ _

theorem vecArea_pos (t : Task) : 0 < t.vecArea.1 := rowAddr_pos _ _

theorem restoreRows_wf {m : Chip} (h : smapWf (memDef m.veils) m.mem = true) (i : Image) :
    smapWf (memDef (m.restoreRows i).veils) (m.restoreRows i).mem = true := smapWf_setAll _ (smapWf_erase h _)

end Sys2Proof.Machine
end

