-- ==== Sys2Proof/Laws/State.lean ====
section
/-! SUPPORT. What each update of the block leaves as it was, field by field, and what the field it writes then holds. -/
namespace Sys2Proof.Machine

/-! ### `setReg` -/

@[simp] theorem setReg_board (m : Chip) (a : Nat) (v : W64) : (m.setReg a v).board = m.board := rfl
@[simp] theorem setReg_dom (m : Chip) (a : Nat) (v : W64) : (m.setReg a v).dom = m.dom := rfl
@[simp] theorem setReg_staged (m : Chip) (a : Nat) (v : W64) : (m.setReg a v).staged = m.staged := rfl
@[simp] theorem setReg_errq (m : Chip) (a : Nat) (v : W64) : (m.setReg a v).errq = m.errq := rfl
@[simp] theorem setReg_chocks (m : Chip) (a : Nat) (v : W64) : (m.setReg a v).chocks = m.chocks := rfl
@[simp] theorem setReg_mem (m : Chip) (a : Nat) (v : W64) : (m.setReg a v).mem = m.mem := rfl
@[simp] theorem setReg_veils (m : Chip) (a : Nat) (v : W64) : (m.setReg a v).veils = m.veils := rfl
@[simp] theorem setReg_slices (m : Chip) (a : Nat) (v : W64) : (m.setReg a v).slices = m.slices := rfl
@[simp] theorem setReg_obuf (m : Chip) (a : Nat) (v : W64) : (m.setReg a v).obuf = m.obuf := rfl
@[simp] theorem setReg_badCrc (m : Chip) (a : Nat) (v : W64) : (m.setReg a v).badCrc = m.badCrc := rfl
@[simp] theorem setReg_crcHeld (m : Chip) (a : Nat) (v : W64) : (m.setReg a v).crcHeld = m.crcHeld := rfl
@[simp] theorem setReg_coaches (m : Chip) (a : Nat) (v : W64) : (m.setReg a v).coaches = m.coaches := rfl
@[simp] theorem setReg_cm (m : Chip) (a : Nat) (v : W64) : (m.setReg a v).cm = m.cm := rfl
@[simp] theorem setReg_sends (m : Chip) (a : Nat) (v : W64) : (m.setReg a v).sends = m.sends := rfl
@[simp] theorem setReg_posts (m : Chip) (a : Nat) (v : W64) : (m.setReg a v).posts = m.posts := rfl
@[simp] theorem setReg_sh (m : Chip) (a : Nat) (v : W64) : (m.setReg a v).sh = m.sh := rfl
@[simp] theorem setReg_xlat (m : Chip) (a : Nat) (v : W64) : (m.setReg a v).xlat = m.xlat := rfl
@[simp] theorem setReg_host (m : Chip) (a : Nat) (v : W64) : (m.setReg a v).host = m.host := rfl
@[simp] theorem setReg_sf (m : Chip) (a : Nat) (v : W64) : (m.setReg a v).sf = m.sf := rfl
@[simp] theorem setReg_stg (m : Chip) (a : Nat) (v : W64) : (m.setReg a v).stg = m.stg := rfl
@[simp] theorem setReg_pwr (m : Chip) (a : Nat) (v : W64) : (m.setReg a v).pwr = m.pwr := rfl
@[simp] theorem setReg_mg (m : Chip) (a : Nat) (v : W64) : (m.setReg a v).mg = m.mg := rfl
@[simp] theorem setReg_out (m : Chip) (a : Nat) (v : W64) : (m.setReg a v).out = m.out := rfl
@[simp] theorem setReg_tick (m : Chip) (a : Nat) (v : W64) : (m.setReg a v).tick = m.tick := rfl

/-! ### `setFld` -/

@[simp] theorem setFld_board (m : Chip) (a : Nat) (f : Fld) (v : Nat) : (m.setFld a f v).board = m.board := rfl
@[simp] theorem setFld_dom (m : Chip) (a : Nat) (f : Fld) (v : Nat) : (m.setFld a f v).dom = m.dom := rfl
@[simp] theorem setFld_staged (m : Chip) (a : Nat) (f : Fld) (v : Nat) : (m.setFld a f v).staged = m.staged := rfl
@[simp] theorem setFld_errq (m : Chip) (a : Nat) (f : Fld) (v : Nat) : (m.setFld a f v).errq = m.errq := rfl
@[simp] theorem setFld_chocks (m : Chip) (a : Nat) (f : Fld) (v : Nat) : (m.setFld a f v).chocks = m.chocks := rfl
@[simp] theorem setFld_mem (m : Chip) (a : Nat) (f : Fld) (v : Nat) : (m.setFld a f v).mem = m.mem := rfl
@[simp] theorem setFld_veils (m : Chip) (a : Nat) (f : Fld) (v : Nat) : (m.setFld a f v).veils = m.veils := rfl
@[simp] theorem setFld_slices (m : Chip) (a : Nat) (f : Fld) (v : Nat) : (m.setFld a f v).slices = m.slices := rfl
@[simp] theorem setFld_obuf (m : Chip) (a : Nat) (f : Fld) (v : Nat) : (m.setFld a f v).obuf = m.obuf := rfl
@[simp] theorem setFld_badCrc (m : Chip) (a : Nat) (f : Fld) (v : Nat) : (m.setFld a f v).badCrc = m.badCrc := rfl
@[simp] theorem setFld_crcHeld (m : Chip) (a : Nat) (f : Fld) (v : Nat) : (m.setFld a f v).crcHeld = m.crcHeld := rfl
@[simp] theorem setFld_coaches (m : Chip) (a : Nat) (f : Fld) (v : Nat) : (m.setFld a f v).coaches = m.coaches := rfl
@[simp] theorem setFld_cm (m : Chip) (a : Nat) (f : Fld) (v : Nat) : (m.setFld a f v).cm = m.cm := rfl
@[simp] theorem setFld_sends (m : Chip) (a : Nat) (f : Fld) (v : Nat) : (m.setFld a f v).sends = m.sends := rfl
@[simp] theorem setFld_posts (m : Chip) (a : Nat) (f : Fld) (v : Nat) : (m.setFld a f v).posts = m.posts := rfl
@[simp] theorem setFld_sh (m : Chip) (a : Nat) (f : Fld) (v : Nat) : (m.setFld a f v).sh = m.sh := rfl
@[simp] theorem setFld_xlat (m : Chip) (a : Nat) (f : Fld) (v : Nat) : (m.setFld a f v).xlat = m.xlat := rfl
@[simp] theorem setFld_host (m : Chip) (a : Nat) (f : Fld) (v : Nat) : (m.setFld a f v).host = m.host := rfl
@[simp] theorem setFld_sf (m : Chip) (a : Nat) (f : Fld) (v : Nat) : (m.setFld a f v).sf = m.sf := rfl
@[simp] theorem setFld_stg (m : Chip) (a : Nat) (f : Fld) (v : Nat) : (m.setFld a f v).stg = m.stg := rfl
@[simp] theorem setFld_pwr (m : Chip) (a : Nat) (f : Fld) (v : Nat) : (m.setFld a f v).pwr = m.pwr := rfl
@[simp] theorem setFld_mg (m : Chip) (a : Nat) (f : Fld) (v : Nat) : (m.setFld a f v).mg = m.mg := rfl
@[simp] theorem setFld_out (m : Chip) (a : Nat) (f : Fld) (v : Nat) : (m.setFld a f v).out = m.out := rfl
@[simp] theorem setFld_tick (m : Chip) (a : Nat) (f : Fld) (v : Nat) : (m.setFld a f v).tick = m.tick := rfl

/-! ### `count` -/

@[simp] theorem count_board (m : Chip) (a n : Nat) : (m.count a n).board = m.board := rfl
@[simp] theorem count_dom (m : Chip) (a n : Nat) : (m.count a n).dom = m.dom := rfl
@[simp] theorem count_staged (m : Chip) (a n : Nat) : (m.count a n).staged = m.staged := rfl
@[simp] theorem count_errq (m : Chip) (a n : Nat) : (m.count a n).errq = m.errq := rfl
@[simp] theorem count_chocks (m : Chip) (a n : Nat) : (m.count a n).chocks = m.chocks := rfl
@[simp] theorem count_mem (m : Chip) (a n : Nat) : (m.count a n).mem = m.mem := rfl
@[simp] theorem count_veils (m : Chip) (a n : Nat) : (m.count a n).veils = m.veils := rfl
@[simp] theorem count_slices (m : Chip) (a n : Nat) : (m.count a n).slices = m.slices := rfl
@[simp] theorem count_obuf (m : Chip) (a n : Nat) : (m.count a n).obuf = m.obuf := rfl
@[simp] theorem count_badCrc (m : Chip) (a n : Nat) : (m.count a n).badCrc = m.badCrc := rfl
@[simp] theorem count_crcHeld (m : Chip) (a n : Nat) : (m.count a n).crcHeld = m.crcHeld := rfl
@[simp] theorem count_coaches (m : Chip) (a n : Nat) : (m.count a n).coaches = m.coaches := rfl
@[simp] theorem count_cm (m : Chip) (a n : Nat) : (m.count a n).cm = m.cm := rfl
@[simp] theorem count_sends (m : Chip) (a n : Nat) : (m.count a n).sends = m.sends := rfl
@[simp] theorem count_posts (m : Chip) (a n : Nat) : (m.count a n).posts = m.posts := rfl
@[simp] theorem count_sh (m : Chip) (a n : Nat) : (m.count a n).sh = m.sh := rfl
@[simp] theorem count_xlat (m : Chip) (a n : Nat) : (m.count a n).xlat = m.xlat := rfl
@[simp] theorem count_host (m : Chip) (a n : Nat) : (m.count a n).host = m.host := rfl
@[simp] theorem count_sf (m : Chip) (a n : Nat) : (m.count a n).sf = m.sf := rfl
@[simp] theorem count_stg (m : Chip) (a n : Nat) : (m.count a n).stg = m.stg := rfl
@[simp] theorem count_pwr (m : Chip) (a n : Nat) : (m.count a n).pwr = m.pwr := rfl
@[simp] theorem count_mg (m : Chip) (a n : Nat) : (m.count a n).mg = m.mg := rfl
@[simp] theorem count_out (m : Chip) (a n : Nat) : (m.count a n).out = m.out := rfl
@[simp] theorem count_tick (m : Chip) (a n : Nat) : (m.count a n).tick = m.tick := rfl

/-! ### `countFld` -/

@[simp] theorem countFld_board (m : Chip) (a : Nat) (f : Fld) (n : Nat) : (m.countFld a f n).board = m.board := rfl
@[simp] theorem countFld_dom (m : Chip) (a : Nat) (f : Fld) (n : Nat) : (m.countFld a f n).dom = m.dom := rfl
@[simp] theorem countFld_staged (m : Chip) (a : Nat) (f : Fld) (n : Nat) : (m.countFld a f n).staged = m.staged := rfl
@[simp] theorem countFld_errq (m : Chip) (a : Nat) (f : Fld) (n : Nat) : (m.countFld a f n).errq = m.errq := rfl
@[simp] theorem countFld_chocks (m : Chip) (a : Nat) (f : Fld) (n : Nat) : (m.countFld a f n).chocks = m.chocks := rfl
@[simp] theorem countFld_mem (m : Chip) (a : Nat) (f : Fld) (n : Nat) : (m.countFld a f n).mem = m.mem := rfl
@[simp] theorem countFld_veils (m : Chip) (a : Nat) (f : Fld) (n : Nat) : (m.countFld a f n).veils = m.veils := rfl
@[simp] theorem countFld_slices (m : Chip) (a : Nat) (f : Fld) (n : Nat) : (m.countFld a f n).slices = m.slices := rfl
@[simp] theorem countFld_obuf (m : Chip) (a : Nat) (f : Fld) (n : Nat) : (m.countFld a f n).obuf = m.obuf := rfl
@[simp] theorem countFld_badCrc (m : Chip) (a : Nat) (f : Fld) (n : Nat) : (m.countFld a f n).badCrc = m.badCrc := rfl
@[simp] theorem countFld_crcHeld (m : Chip) (a : Nat) (f : Fld) (n : Nat) : (m.countFld a f n).crcHeld = m.crcHeld := rfl
@[simp] theorem countFld_coaches (m : Chip) (a : Nat) (f : Fld) (n : Nat) : (m.countFld a f n).coaches = m.coaches := rfl
@[simp] theorem countFld_cm (m : Chip) (a : Nat) (f : Fld) (n : Nat) : (m.countFld a f n).cm = m.cm := rfl
@[simp] theorem countFld_sends (m : Chip) (a : Nat) (f : Fld) (n : Nat) : (m.countFld a f n).sends = m.sends := rfl
@[simp] theorem countFld_posts (m : Chip) (a : Nat) (f : Fld) (n : Nat) : (m.countFld a f n).posts = m.posts := rfl
@[simp] theorem countFld_sh (m : Chip) (a : Nat) (f : Fld) (n : Nat) : (m.countFld a f n).sh = m.sh := rfl
@[simp] theorem countFld_xlat (m : Chip) (a : Nat) (f : Fld) (n : Nat) : (m.countFld a f n).xlat = m.xlat := rfl
@[simp] theorem countFld_host (m : Chip) (a : Nat) (f : Fld) (n : Nat) : (m.countFld a f n).host = m.host := rfl
@[simp] theorem countFld_sf (m : Chip) (a : Nat) (f : Fld) (n : Nat) : (m.countFld a f n).sf = m.sf := rfl
@[simp] theorem countFld_stg (m : Chip) (a : Nat) (f : Fld) (n : Nat) : (m.countFld a f n).stg = m.stg := rfl
@[simp] theorem countFld_pwr (m : Chip) (a : Nat) (f : Fld) (n : Nat) : (m.countFld a f n).pwr = m.pwr := rfl
@[simp] theorem countFld_mg (m : Chip) (a : Nat) (f : Fld) (n : Nat) : (m.countFld a f n).mg = m.mg := rfl
@[simp] theorem countFld_out (m : Chip) (a : Nat) (f : Fld) (n : Nat) : (m.countFld a f n).out = m.out := rfl
@[simp] theorem countFld_tick (m : Chip) (a : Nat) (f : Fld) (n : Nat) : (m.countFld a f n).tick = m.tick := rfl

/-! ### `emit` -/

@[simp] theorem emit_board (m : Chip) (o : Output) : (m.emit o).board = m.board := rfl
@[simp] theorem emit_dom (m : Chip) (o : Output) : (m.emit o).dom = m.dom := rfl
@[simp] theorem emit_regs (m : Chip) (o : Output) : (m.emit o).regs = m.regs := rfl
@[simp] theorem emit_staged (m : Chip) (o : Output) : (m.emit o).staged = m.staged := rfl
@[simp] theorem emit_errq (m : Chip) (o : Output) : (m.emit o).errq = m.errq := rfl
@[simp] theorem emit_chocks (m : Chip) (o : Output) : (m.emit o).chocks = m.chocks := rfl
@[simp] theorem emit_mem (m : Chip) (o : Output) : (m.emit o).mem = m.mem := rfl
@[simp] theorem emit_veils (m : Chip) (o : Output) : (m.emit o).veils = m.veils := rfl
@[simp] theorem emit_slices (m : Chip) (o : Output) : (m.emit o).slices = m.slices := rfl
@[simp] theorem emit_obuf (m : Chip) (o : Output) : (m.emit o).obuf = m.obuf := rfl
@[simp] theorem emit_badCrc (m : Chip) (o : Output) : (m.emit o).badCrc = m.badCrc := rfl
@[simp] theorem emit_crcHeld (m : Chip) (o : Output) : (m.emit o).crcHeld = m.crcHeld := rfl
@[simp] theorem emit_coaches (m : Chip) (o : Output) : (m.emit o).coaches = m.coaches := rfl
@[simp] theorem emit_cm (m : Chip) (o : Output) : (m.emit o).cm = m.cm := rfl
@[simp] theorem emit_sends (m : Chip) (o : Output) : (m.emit o).sends = m.sends := rfl
@[simp] theorem emit_posts (m : Chip) (o : Output) : (m.emit o).posts = m.posts := rfl
@[simp] theorem emit_sh (m : Chip) (o : Output) : (m.emit o).sh = m.sh := rfl
@[simp] theorem emit_xlat (m : Chip) (o : Output) : (m.emit o).xlat = m.xlat := rfl
@[simp] theorem emit_host (m : Chip) (o : Output) : (m.emit o).host = m.host := rfl
@[simp] theorem emit_sf (m : Chip) (o : Output) : (m.emit o).sf = m.sf := rfl
@[simp] theorem emit_stg (m : Chip) (o : Output) : (m.emit o).stg = m.stg := rfl
@[simp] theorem emit_pwr (m : Chip) (o : Output) : (m.emit o).pwr = m.pwr := rfl
@[simp] theorem emit_mg (m : Chip) (o : Output) : (m.emit o).mg = m.mg := rfl
@[simp] theorem emit_tick (m : Chip) (o : Output) : (m.emit o).tick = m.tick := rfl

/-! ### `next` -/

@[simp] theorem next_board (m : Chip) : m.next.board = m.board := rfl
@[simp] theorem next_dom (m : Chip) : m.next.dom = m.dom := rfl
@[simp] theorem next_regs (m : Chip) : m.next.regs = m.regs := rfl
@[simp] theorem next_staged (m : Chip) : m.next.staged = m.staged := rfl
@[simp] theorem next_errq (m : Chip) : m.next.errq = m.errq := rfl
@[simp] theorem next_chocks (m : Chip) : m.next.chocks = m.chocks := rfl
@[simp] theorem next_mem (m : Chip) : m.next.mem = m.mem := rfl
@[simp] theorem next_veils (m : Chip) : m.next.veils = m.veils := rfl
@[simp] theorem next_slices (m : Chip) : m.next.slices = m.slices := rfl
@[simp] theorem next_obuf (m : Chip) : m.next.obuf = m.obuf := rfl
@[simp] theorem next_badCrc (m : Chip) : m.next.badCrc = m.badCrc := rfl
@[simp] theorem next_crcHeld (m : Chip) : m.next.crcHeld = m.crcHeld := rfl
@[simp] theorem next_coaches (m : Chip) : m.next.coaches = m.coaches := rfl
@[simp] theorem next_cm (m : Chip) : m.next.cm = m.cm := rfl
@[simp] theorem next_sends (m : Chip) : m.next.sends = m.sends := rfl
@[simp] theorem next_posts (m : Chip) : m.next.posts = m.posts := rfl
@[simp] theorem next_sh (m : Chip) : m.next.sh = m.sh := rfl
@[simp] theorem next_xlat (m : Chip) : m.next.xlat = m.xlat := rfl
@[simp] theorem next_host (m : Chip) : m.next.host = m.host := rfl
@[simp] theorem next_sf (m : Chip) : m.next.sf = m.sf := rfl
@[simp] theorem next_stg (m : Chip) : m.next.stg = m.stg := rfl
@[simp] theorem next_pwr (m : Chip) : m.next.pwr = m.pwr := rfl
@[simp] theorem next_mg (m : Chip) : m.next.mg = m.mg := rfl
@[simp] theorem next_out (m : Chip) : m.next.out = m.out := rfl

/-! ### `clocks` -/

@[simp] theorem clocks_board (m : Chip) (p : Nat → Bool) (r : Bool) : (m.clocks p r).board = m.board := rfl
@[simp] theorem clocks_regs (m : Chip) (p : Nat → Bool) (r : Bool) : (m.clocks p r).regs = m.regs := rfl
@[simp] theorem clocks_staged (m : Chip) (p : Nat → Bool) (r : Bool) : (m.clocks p r).staged = m.staged := rfl
@[simp] theorem clocks_errq (m : Chip) (p : Nat → Bool) (r : Bool) : (m.clocks p r).errq = m.errq := rfl
@[simp] theorem clocks_chocks (m : Chip) (p : Nat → Bool) (r : Bool) : (m.clocks p r).chocks = m.chocks := rfl
@[simp] theorem clocks_mem (m : Chip) (p : Nat → Bool) (r : Bool) : (m.clocks p r).mem = m.mem := rfl
@[simp] theorem clocks_veils (m : Chip) (p : Nat → Bool) (r : Bool) : (m.clocks p r).veils = m.veils := rfl
@[simp] theorem clocks_slices (m : Chip) (p : Nat → Bool) (r : Bool) : (m.clocks p r).slices = m.slices := rfl
@[simp] theorem clocks_obuf (m : Chip) (p : Nat → Bool) (r : Bool) : (m.clocks p r).obuf = m.obuf := rfl
@[simp] theorem clocks_badCrc (m : Chip) (p : Nat → Bool) (r : Bool) : (m.clocks p r).badCrc = m.badCrc := rfl
@[simp] theorem clocks_crcHeld (m : Chip) (p : Nat → Bool) (r : Bool) : (m.clocks p r).crcHeld = m.crcHeld := rfl
@[simp] theorem clocks_coaches (m : Chip) (p : Nat → Bool) (r : Bool) : (m.clocks p r).coaches = m.coaches := rfl
@[simp] theorem clocks_cm (m : Chip) (p : Nat → Bool) (r : Bool) : (m.clocks p r).cm = m.cm := rfl
@[simp] theorem clocks_sends (m : Chip) (p : Nat → Bool) (r : Bool) : (m.clocks p r).sends = m.sends := rfl
@[simp] theorem clocks_posts (m : Chip) (p : Nat → Bool) (r : Bool) : (m.clocks p r).posts = m.posts := rfl
@[simp] theorem clocks_sh (m : Chip) (p : Nat → Bool) (r : Bool) : (m.clocks p r).sh = m.sh := rfl
@[simp] theorem clocks_xlat (m : Chip) (p : Nat → Bool) (r : Bool) : (m.clocks p r).xlat = m.xlat := rfl
@[simp] theorem clocks_host (m : Chip) (p : Nat → Bool) (r : Bool) : (m.clocks p r).host = m.host := rfl
@[simp] theorem clocks_sf (m : Chip) (p : Nat → Bool) (r : Bool) : (m.clocks p r).sf = m.sf := rfl
@[simp] theorem clocks_stg (m : Chip) (p : Nat → Bool) (r : Bool) : (m.clocks p r).stg = m.stg := rfl
@[simp] theorem clocks_pwr (m : Chip) (p : Nat → Bool) (r : Bool) : (m.clocks p r).pwr = m.pwr := rfl
@[simp] theorem clocks_mg (m : Chip) (p : Nat → Bool) (r : Bool) : (m.clocks p r).mg = m.mg := rfl
@[simp] theorem clocks_out (m : Chip) (p : Nat → Bool) (r : Bool) : (m.clocks p r).out = m.out := rfl
@[simp] theorem clocks_tick (m : Chip) (p : Nat → Bool) (r : Bool) : (m.clocks p r).tick = m.tick := rfl

/-! ### `clearDoms` -/

@[simp] theorem clearDoms_board (m : Chip) (p : Nat → Bool) : (m.clearDoms p).board = m.board := rfl
@[simp] theorem clearDoms_regs (m : Chip) (p : Nat → Bool) : (m.clearDoms p).regs = m.regs := rfl
@[simp] theorem clearDoms_staged (m : Chip) (p : Nat → Bool) : (m.clearDoms p).staged = m.staged := rfl
@[simp] theorem clearDoms_errq (m : Chip) (p : Nat → Bool) : (m.clearDoms p).errq = m.errq := rfl
@[simp] theorem clearDoms_chocks (m : Chip) (p : Nat → Bool) : (m.clearDoms p).chocks = m.chocks := rfl
@[simp] theorem clearDoms_mem (m : Chip) (p : Nat → Bool) : (m.clearDoms p).mem = m.mem := rfl
@[simp] theorem clearDoms_veils (m : Chip) (p : Nat → Bool) : (m.clearDoms p).veils = m.veils := rfl
@[simp] theorem clearDoms_slices (m : Chip) (p : Nat → Bool) : (m.clearDoms p).slices = m.slices := rfl
@[simp] theorem clearDoms_obuf (m : Chip) (p : Nat → Bool) : (m.clearDoms p).obuf = m.obuf := rfl
@[simp] theorem clearDoms_badCrc (m : Chip) (p : Nat → Bool) : (m.clearDoms p).badCrc = m.badCrc := rfl
@[simp] theorem clearDoms_crcHeld (m : Chip) (p : Nat → Bool) : (m.clearDoms p).crcHeld = m.crcHeld := rfl
@[simp] theorem clearDoms_coaches (m : Chip) (p : Nat → Bool) : (m.clearDoms p).coaches = m.coaches := rfl
@[simp] theorem clearDoms_cm (m : Chip) (p : Nat → Bool) : (m.clearDoms p).cm = m.cm := rfl
@[simp] theorem clearDoms_sends (m : Chip) (p : Nat → Bool) : (m.clearDoms p).sends = m.sends := rfl
@[simp] theorem clearDoms_posts (m : Chip) (p : Nat → Bool) : (m.clearDoms p).posts = m.posts := rfl
@[simp] theorem clearDoms_sh (m : Chip) (p : Nat → Bool) : (m.clearDoms p).sh = m.sh := rfl
@[simp] theorem clearDoms_xlat (m : Chip) (p : Nat → Bool) : (m.clearDoms p).xlat = m.xlat := rfl
@[simp] theorem clearDoms_host (m : Chip) (p : Nat → Bool) : (m.clearDoms p).host = m.host := rfl
@[simp] theorem clearDoms_sf (m : Chip) (p : Nat → Bool) : (m.clearDoms p).sf = m.sf := rfl
@[simp] theorem clearDoms_stg (m : Chip) (p : Nat → Bool) : (m.clearDoms p).stg = m.stg := rfl
@[simp] theorem clearDoms_pwr (m : Chip) (p : Nat → Bool) : (m.clearDoms p).pwr = m.pwr := rfl
@[simp] theorem clearDoms_mg (m : Chip) (p : Nat → Bool) : (m.clearDoms p).mg = m.mg := rfl
@[simp] theorem clearDoms_out (m : Chip) (p : Nat → Bool) : (m.clearDoms p).out = m.out := rfl
@[simp] theorem clearDoms_tick (m : Chip) (p : Nat → Bool) : (m.clearDoms p).tick = m.tick := rfl

/-! ### `setCell` -/

@[simp] theorem setCell_board (m : Chip) (a : Nat) (v : MByte) : (m.setCell a v).board = m.board := rfl
@[simp] theorem setCell_dom (m : Chip) (a : Nat) (v : MByte) : (m.setCell a v).dom = m.dom := rfl
@[simp] theorem setCell_regs (m : Chip) (a : Nat) (v : MByte) : (m.setCell a v).regs = m.regs := rfl
@[simp] theorem setCell_staged (m : Chip) (a : Nat) (v : MByte) : (m.setCell a v).staged = m.staged := rfl
@[simp] theorem setCell_errq (m : Chip) (a : Nat) (v : MByte) : (m.setCell a v).errq = m.errq := rfl
@[simp] theorem setCell_chocks (m : Chip) (a : Nat) (v : MByte) : (m.setCell a v).chocks = m.chocks := rfl
@[simp] theorem setCell_veils (m : Chip) (a : Nat) (v : MByte) : (m.setCell a v).veils = m.veils := rfl
@[simp] theorem setCell_slices (m : Chip) (a : Nat) (v : MByte) : (m.setCell a v).slices = m.slices := rfl
@[simp] theorem setCell_obuf (m : Chip) (a : Nat) (v : MByte) : (m.setCell a v).obuf = m.obuf := rfl
@[simp] theorem setCell_badCrc (m : Chip) (a : Nat) (v : MByte) : (m.setCell a v).badCrc = m.badCrc := rfl
@[simp] theorem setCell_crcHeld (m : Chip) (a : Nat) (v : MByte) : (m.setCell a v).crcHeld = m.crcHeld := rfl
@[simp] theorem setCell_coaches (m : Chip) (a : Nat) (v : MByte) : (m.setCell a v).coaches = m.coaches := rfl
@[simp] theorem setCell_cm (m : Chip) (a : Nat) (v : MByte) : (m.setCell a v).cm = m.cm := rfl
@[simp] theorem setCell_sends (m : Chip) (a : Nat) (v : MByte) : (m.setCell a v).sends = m.sends := rfl
@[simp] theorem setCell_posts (m : Chip) (a : Nat) (v : MByte) : (m.setCell a v).posts = m.posts := rfl
@[simp] theorem setCell_sh (m : Chip) (a : Nat) (v : MByte) : (m.setCell a v).sh = m.sh := rfl
@[simp] theorem setCell_xlat (m : Chip) (a : Nat) (v : MByte) : (m.setCell a v).xlat = m.xlat := rfl
@[simp] theorem setCell_host (m : Chip) (a : Nat) (v : MByte) : (m.setCell a v).host = m.host := rfl
@[simp] theorem setCell_sf (m : Chip) (a : Nat) (v : MByte) : (m.setCell a v).sf = m.sf := rfl
@[simp] theorem setCell_stg (m : Chip) (a : Nat) (v : MByte) : (m.setCell a v).stg = m.stg := rfl
@[simp] theorem setCell_pwr (m : Chip) (a : Nat) (v : MByte) : (m.setCell a v).pwr = m.pwr := rfl
@[simp] theorem setCell_mg (m : Chip) (a : Nat) (v : MByte) : (m.setCell a v).mg = m.mg := rfl
@[simp] theorem setCell_out (m : Chip) (a : Nat) (v : MByte) : (m.setCell a v).out = m.out := rfl
@[simp] theorem setCell_tick (m : Chip) (a : Nat) (v : MByte) : (m.setCell a v).tick = m.tick := rfl

/-! ### `setCm` -/

@[simp] theorem setCm_board (m : Chip) (c : Fin 64) (a : Nat) (v : W16) : (m.setCm c a v).board = m.board := rfl
@[simp] theorem setCm_dom (m : Chip) (c : Fin 64) (a : Nat) (v : W16) : (m.setCm c a v).dom = m.dom := rfl
@[simp] theorem setCm_regs (m : Chip) (c : Fin 64) (a : Nat) (v : W16) : (m.setCm c a v).regs = m.regs := rfl
@[simp] theorem setCm_staged (m : Chip) (c : Fin 64) (a : Nat) (v : W16) : (m.setCm c a v).staged = m.staged := rfl
@[simp] theorem setCm_errq (m : Chip) (c : Fin 64) (a : Nat) (v : W16) : (m.setCm c a v).errq = m.errq := rfl
@[simp] theorem setCm_chocks (m : Chip) (c : Fin 64) (a : Nat) (v : W16) : (m.setCm c a v).chocks = m.chocks := rfl
@[simp] theorem setCm_mem (m : Chip) (c : Fin 64) (a : Nat) (v : W16) : (m.setCm c a v).mem = m.mem := rfl
@[simp] theorem setCm_veils (m : Chip) (c : Fin 64) (a : Nat) (v : W16) : (m.setCm c a v).veils = m.veils := rfl
@[simp] theorem setCm_slices (m : Chip) (c : Fin 64) (a : Nat) (v : W16) : (m.setCm c a v).slices = m.slices := rfl
@[simp] theorem setCm_obuf (m : Chip) (c : Fin 64) (a : Nat) (v : W16) : (m.setCm c a v).obuf = m.obuf := rfl
@[simp] theorem setCm_badCrc (m : Chip) (c : Fin 64) (a : Nat) (v : W16) : (m.setCm c a v).badCrc = m.badCrc := rfl
@[simp] theorem setCm_crcHeld (m : Chip) (c : Fin 64) (a : Nat) (v : W16) : (m.setCm c a v).crcHeld = m.crcHeld := rfl
@[simp] theorem setCm_sends (m : Chip) (c : Fin 64) (a : Nat) (v : W16) : (m.setCm c a v).sends = m.sends := rfl
@[simp] theorem setCm_posts (m : Chip) (c : Fin 64) (a : Nat) (v : W16) : (m.setCm c a v).posts = m.posts := rfl
@[simp] theorem setCm_sh (m : Chip) (c : Fin 64) (a : Nat) (v : W16) : (m.setCm c a v).sh = m.sh := rfl
@[simp] theorem setCm_xlat (m : Chip) (c : Fin 64) (a : Nat) (v : W16) : (m.setCm c a v).xlat = m.xlat := rfl
@[simp] theorem setCm_host (m : Chip) (c : Fin 64) (a : Nat) (v : W16) : (m.setCm c a v).host = m.host := rfl
@[simp] theorem setCm_sf (m : Chip) (c : Fin 64) (a : Nat) (v : W16) : (m.setCm c a v).sf = m.sf := rfl
@[simp] theorem setCm_stg (m : Chip) (c : Fin 64) (a : Nat) (v : W16) : (m.setCm c a v).stg = m.stg := rfl
@[simp] theorem setCm_pwr (m : Chip) (c : Fin 64) (a : Nat) (v : W16) : (m.setCm c a v).pwr = m.pwr := rfl
@[simp] theorem setCm_mg (m : Chip) (c : Fin 64) (a : Nat) (v : W16) : (m.setCm c a v).mg = m.mg := rfl
@[simp] theorem setCm_out (m : Chip) (c : Fin 64) (a : Nat) (v : W16) : (m.setCm c a v).out = m.out := rfl
@[simp] theorem setCm_tick (m : Chip) (c : Fin 64) (a : Nat) (v : W16) : (m.setCm c a v).tick = m.tick := rfl

/-! ### `setCoach` -/

@[simp] theorem setCoach_board (m : Chip) (c : Fin 64) (k : Coach) : (m.setCoach c k).board = m.board := rfl
@[simp] theorem setCoach_dom (m : Chip) (c : Fin 64) (k : Coach) : (m.setCoach c k).dom = m.dom := rfl
@[simp] theorem setCoach_regs (m : Chip) (c : Fin 64) (k : Coach) : (m.setCoach c k).regs = m.regs := rfl
@[simp] theorem setCoach_staged (m : Chip) (c : Fin 64) (k : Coach) : (m.setCoach c k).staged = m.staged := rfl
@[simp] theorem setCoach_errq (m : Chip) (c : Fin 64) (k : Coach) : (m.setCoach c k).errq = m.errq := rfl
@[simp] theorem setCoach_chocks (m : Chip) (c : Fin 64) (k : Coach) : (m.setCoach c k).chocks = m.chocks := rfl
@[simp] theorem setCoach_mem (m : Chip) (c : Fin 64) (k : Coach) : (m.setCoach c k).mem = m.mem := rfl
@[simp] theorem setCoach_veils (m : Chip) (c : Fin 64) (k : Coach) : (m.setCoach c k).veils = m.veils := rfl
@[simp] theorem setCoach_slices (m : Chip) (c : Fin 64) (k : Coach) : (m.setCoach c k).slices = m.slices := rfl
@[simp] theorem setCoach_obuf (m : Chip) (c : Fin 64) (k : Coach) : (m.setCoach c k).obuf = m.obuf := rfl
@[simp] theorem setCoach_badCrc (m : Chip) (c : Fin 64) (k : Coach) : (m.setCoach c k).badCrc = m.badCrc := rfl
@[simp] theorem setCoach_crcHeld (m : Chip) (c : Fin 64) (k : Coach) : (m.setCoach c k).crcHeld = m.crcHeld := rfl
@[simp] theorem setCoach_cm (m : Chip) (c : Fin 64) (k : Coach) : (m.setCoach c k).cm = m.cm := rfl
@[simp] theorem setCoach_sends (m : Chip) (c : Fin 64) (k : Coach) : (m.setCoach c k).sends = m.sends := rfl
@[simp] theorem setCoach_posts (m : Chip) (c : Fin 64) (k : Coach) : (m.setCoach c k).posts = m.posts := rfl
@[simp] theorem setCoach_sh (m : Chip) (c : Fin 64) (k : Coach) : (m.setCoach c k).sh = m.sh := rfl
@[simp] theorem setCoach_xlat (m : Chip) (c : Fin 64) (k : Coach) : (m.setCoach c k).xlat = m.xlat := rfl
@[simp] theorem setCoach_host (m : Chip) (c : Fin 64) (k : Coach) : (m.setCoach c k).host = m.host := rfl
@[simp] theorem setCoach_sf (m : Chip) (c : Fin 64) (k : Coach) : (m.setCoach c k).sf = m.sf := rfl
@[simp] theorem setCoach_stg (m : Chip) (c : Fin 64) (k : Coach) : (m.setCoach c k).stg = m.stg := rfl
@[simp] theorem setCoach_pwr (m : Chip) (c : Fin 64) (k : Coach) : (m.setCoach c k).pwr = m.pwr := rfl
@[simp] theorem setCoach_mg (m : Chip) (c : Fin 64) (k : Coach) : (m.setCoach c k).mg = m.mg := rfl
@[simp] theorem setCoach_out (m : Chip) (c : Fin 64) (k : Coach) : (m.setCoach c k).out = m.out := rfl
@[simp] theorem setCoach_tick (m : Chip) (c : Fin 64) (k : Coach) : (m.setCoach c k).tick = m.tick := rfl

/-! ### `modCoach` -/

@[simp] theorem modCoach_board (m : Chip) (c : Fin 64) (f : Coach → Coach) : (m.modCoach c f).board = m.board := rfl
@[simp] theorem modCoach_dom (m : Chip) (c : Fin 64) (f : Coach → Coach) : (m.modCoach c f).dom = m.dom := rfl
@[simp] theorem modCoach_regs (m : Chip) (c : Fin 64) (f : Coach → Coach) : (m.modCoach c f).regs = m.regs := rfl
@[simp] theorem modCoach_staged (m : Chip) (c : Fin 64) (f : Coach → Coach) : (m.modCoach c f).staged = m.staged := rfl
@[simp] theorem modCoach_errq (m : Chip) (c : Fin 64) (f : Coach → Coach) : (m.modCoach c f).errq = m.errq := rfl
@[simp] theorem modCoach_chocks (m : Chip) (c : Fin 64) (f : Coach → Coach) : (m.modCoach c f).chocks = m.chocks := rfl
@[simp] theorem modCoach_mem (m : Chip) (c : Fin 64) (f : Coach → Coach) : (m.modCoach c f).mem = m.mem := rfl
@[simp] theorem modCoach_veils (m : Chip) (c : Fin 64) (f : Coach → Coach) : (m.modCoach c f).veils = m.veils := rfl
@[simp] theorem modCoach_slices (m : Chip) (c : Fin 64) (f : Coach → Coach) : (m.modCoach c f).slices = m.slices := rfl
@[simp] theorem modCoach_obuf (m : Chip) (c : Fin 64) (f : Coach → Coach) : (m.modCoach c f).obuf = m.obuf := rfl
@[simp] theorem modCoach_badCrc (m : Chip) (c : Fin 64) (f : Coach → Coach) : (m.modCoach c f).badCrc = m.badCrc := rfl
@[simp] theorem modCoach_crcHeld (m : Chip) (c : Fin 64) (f : Coach → Coach) : (m.modCoach c f).crcHeld = m.crcHeld := rfl
@[simp] theorem modCoach_cm (m : Chip) (c : Fin 64) (f : Coach → Coach) : (m.modCoach c f).cm = m.cm := rfl
@[simp] theorem modCoach_sends (m : Chip) (c : Fin 64) (f : Coach → Coach) : (m.modCoach c f).sends = m.sends := rfl
@[simp] theorem modCoach_posts (m : Chip) (c : Fin 64) (f : Coach → Coach) : (m.modCoach c f).posts = m.posts := rfl
@[simp] theorem modCoach_sh (m : Chip) (c : Fin 64) (f : Coach → Coach) : (m.modCoach c f).sh = m.sh := rfl
@[simp] theorem modCoach_xlat (m : Chip) (c : Fin 64) (f : Coach → Coach) : (m.modCoach c f).xlat = m.xlat := rfl
@[simp] theorem modCoach_host (m : Chip) (c : Fin 64) (f : Coach → Coach) : (m.modCoach c f).host = m.host := rfl
@[simp] theorem modCoach_sf (m : Chip) (c : Fin 64) (f : Coach → Coach) : (m.modCoach c f).sf = m.sf := rfl
@[simp] theorem modCoach_stg (m : Chip) (c : Fin 64) (f : Coach → Coach) : (m.modCoach c f).stg = m.stg := rfl
@[simp] theorem modCoach_pwr (m : Chip) (c : Fin 64) (f : Coach → Coach) : (m.modCoach c f).pwr = m.pwr := rfl
@[simp] theorem modCoach_mg (m : Chip) (c : Fin 64) (f : Coach → Coach) : (m.modCoach c f).mg = m.mg := rfl
@[simp] theorem modCoach_out (m : Chip) (c : Fin 64) (f : Coach → Coach) : (m.modCoach c f).out = m.out := rfl
@[simp] theorem modCoach_tick (m : Chip) (c : Fin 64) (f : Coach → Coach) : (m.modCoach c f).tick = m.tick := rfl

/-! ### `setCtx` -/

@[simp] theorem setCtx_board (m : Chip) (x : Ctx) (v : Context) : (m.setCtx x v).board = m.board := rfl
@[simp] theorem setCtx_dom (m : Chip) (x : Ctx) (v : Context) : (m.setCtx x v).dom = m.dom := rfl
@[simp] theorem setCtx_regs (m : Chip) (x : Ctx) (v : Context) : (m.setCtx x v).regs = m.regs := rfl
@[simp] theorem setCtx_staged (m : Chip) (x : Ctx) (v : Context) : (m.setCtx x v).staged = m.staged := rfl
@[simp] theorem setCtx_errq (m : Chip) (x : Ctx) (v : Context) : (m.setCtx x v).errq = m.errq := rfl
@[simp] theorem setCtx_chocks (m : Chip) (x : Ctx) (v : Context) : (m.setCtx x v).chocks = m.chocks := rfl
@[simp] theorem setCtx_mem (m : Chip) (x : Ctx) (v : Context) : (m.setCtx x v).mem = m.mem := rfl
@[simp] theorem setCtx_veils (m : Chip) (x : Ctx) (v : Context) : (m.setCtx x v).veils = m.veils := rfl
@[simp] theorem setCtx_slices (m : Chip) (x : Ctx) (v : Context) : (m.setCtx x v).slices = m.slices := rfl
@[simp] theorem setCtx_obuf (m : Chip) (x : Ctx) (v : Context) : (m.setCtx x v).obuf = m.obuf := rfl
@[simp] theorem setCtx_badCrc (m : Chip) (x : Ctx) (v : Context) : (m.setCtx x v).badCrc = m.badCrc := rfl
@[simp] theorem setCtx_crcHeld (m : Chip) (x : Ctx) (v : Context) : (m.setCtx x v).crcHeld = m.crcHeld := rfl
@[simp] theorem setCtx_cm (m : Chip) (x : Ctx) (v : Context) : (m.setCtx x v).cm = m.cm := rfl
@[simp] theorem setCtx_sends (m : Chip) (x : Ctx) (v : Context) : (m.setCtx x v).sends = m.sends := rfl
@[simp] theorem setCtx_posts (m : Chip) (x : Ctx) (v : Context) : (m.setCtx x v).posts = m.posts := rfl
@[simp] theorem setCtx_sh (m : Chip) (x : Ctx) (v : Context) : (m.setCtx x v).sh = m.sh := rfl
@[simp] theorem setCtx_xlat (m : Chip) (x : Ctx) (v : Context) : (m.setCtx x v).xlat = m.xlat := rfl
@[simp] theorem setCtx_host (m : Chip) (x : Ctx) (v : Context) : (m.setCtx x v).host = m.host := rfl
@[simp] theorem setCtx_sf (m : Chip) (x : Ctx) (v : Context) : (m.setCtx x v).sf = m.sf := rfl
@[simp] theorem setCtx_stg (m : Chip) (x : Ctx) (v : Context) : (m.setCtx x v).stg = m.stg := rfl
@[simp] theorem setCtx_pwr (m : Chip) (x : Ctx) (v : Context) : (m.setCtx x v).pwr = m.pwr := rfl
@[simp] theorem setCtx_mg (m : Chip) (x : Ctx) (v : Context) : (m.setCtx x v).mg = m.mg := rfl
@[simp] theorem setCtx_out (m : Chip) (x : Ctx) (v : Context) : (m.setCtx x v).out = m.out := rfl
@[simp] theorem setCtx_tick (m : Chip) (x : Ctx) (v : Context) : (m.setCtx x v).tick = m.tick := rfl

/-! ### `modCtx` -/

@[simp] theorem modCtx_board (m : Chip) (x : Ctx) (f : Context → Context) : (m.modCtx x f).board = m.board := rfl
@[simp] theorem modCtx_dom (m : Chip) (x : Ctx) (f : Context → Context) : (m.modCtx x f).dom = m.dom := rfl
@[simp] theorem modCtx_regs (m : Chip) (x : Ctx) (f : Context → Context) : (m.modCtx x f).regs = m.regs := rfl
@[simp] theorem modCtx_staged (m : Chip) (x : Ctx) (f : Context → Context) : (m.modCtx x f).staged = m.staged := rfl
@[simp] theorem modCtx_errq (m : Chip) (x : Ctx) (f : Context → Context) : (m.modCtx x f).errq = m.errq := rfl
@[simp] theorem modCtx_chocks (m : Chip) (x : Ctx) (f : Context → Context) : (m.modCtx x f).chocks = m.chocks := rfl
@[simp] theorem modCtx_mem (m : Chip) (x : Ctx) (f : Context → Context) : (m.modCtx x f).mem = m.mem := rfl
@[simp] theorem modCtx_veils (m : Chip) (x : Ctx) (f : Context → Context) : (m.modCtx x f).veils = m.veils := rfl
@[simp] theorem modCtx_slices (m : Chip) (x : Ctx) (f : Context → Context) : (m.modCtx x f).slices = m.slices := rfl
@[simp] theorem modCtx_obuf (m : Chip) (x : Ctx) (f : Context → Context) : (m.modCtx x f).obuf = m.obuf := rfl
@[simp] theorem modCtx_badCrc (m : Chip) (x : Ctx) (f : Context → Context) : (m.modCtx x f).badCrc = m.badCrc := rfl
@[simp] theorem modCtx_crcHeld (m : Chip) (x : Ctx) (f : Context → Context) : (m.modCtx x f).crcHeld = m.crcHeld := rfl
@[simp] theorem modCtx_cm (m : Chip) (x : Ctx) (f : Context → Context) : (m.modCtx x f).cm = m.cm := rfl
@[simp] theorem modCtx_sends (m : Chip) (x : Ctx) (f : Context → Context) : (m.modCtx x f).sends = m.sends := rfl
@[simp] theorem modCtx_posts (m : Chip) (x : Ctx) (f : Context → Context) : (m.modCtx x f).posts = m.posts := rfl
@[simp] theorem modCtx_sh (m : Chip) (x : Ctx) (f : Context → Context) : (m.modCtx x f).sh = m.sh := rfl
@[simp] theorem modCtx_xlat (m : Chip) (x : Ctx) (f : Context → Context) : (m.modCtx x f).xlat = m.xlat := rfl
@[simp] theorem modCtx_host (m : Chip) (x : Ctx) (f : Context → Context) : (m.modCtx x f).host = m.host := rfl
@[simp] theorem modCtx_sf (m : Chip) (x : Ctx) (f : Context → Context) : (m.modCtx x f).sf = m.sf := rfl
@[simp] theorem modCtx_stg (m : Chip) (x : Ctx) (f : Context → Context) : (m.modCtx x f).stg = m.stg := rfl
@[simp] theorem modCtx_pwr (m : Chip) (x : Ctx) (f : Context → Context) : (m.modCtx x f).pwr = m.pwr := rfl
@[simp] theorem modCtx_mg (m : Chip) (x : Ctx) (f : Context → Context) : (m.modCtx x f).mg = m.mg := rfl
@[simp] theorem modCtx_out (m : Chip) (x : Ctx) (f : Context → Context) : (m.modCtx x f).out = m.out := rfl
@[simp] theorem modCtx_tick (m : Chip) (x : Ctx) (f : Context → Context) : (m.modCtx x f).tick = m.tick := rfl

/-! ### `modVec` -/

@[simp] theorem modVec_board (m : Chip) (c : Fin 64) (f : VecEngine → VecEngine) : (m.modVec c f).board = m.board := rfl
@[simp] theorem modVec_dom (m : Chip) (c : Fin 64) (f : VecEngine → VecEngine) : (m.modVec c f).dom = m.dom := rfl
@[simp] theorem modVec_regs (m : Chip) (c : Fin 64) (f : VecEngine → VecEngine) : (m.modVec c f).regs = m.regs := rfl
@[simp] theorem modVec_staged (m : Chip) (c : Fin 64) (f : VecEngine → VecEngine) : (m.modVec c f).staged = m.staged := rfl
@[simp] theorem modVec_errq (m : Chip) (c : Fin 64) (f : VecEngine → VecEngine) : (m.modVec c f).errq = m.errq := rfl
@[simp] theorem modVec_chocks (m : Chip) (c : Fin 64) (f : VecEngine → VecEngine) : (m.modVec c f).chocks = m.chocks := rfl
@[simp] theorem modVec_mem (m : Chip) (c : Fin 64) (f : VecEngine → VecEngine) : (m.modVec c f).mem = m.mem := rfl
@[simp] theorem modVec_veils (m : Chip) (c : Fin 64) (f : VecEngine → VecEngine) : (m.modVec c f).veils = m.veils := rfl
@[simp] theorem modVec_slices (m : Chip) (c : Fin 64) (f : VecEngine → VecEngine) : (m.modVec c f).slices = m.slices := rfl
@[simp] theorem modVec_obuf (m : Chip) (c : Fin 64) (f : VecEngine → VecEngine) : (m.modVec c f).obuf = m.obuf := rfl
@[simp] theorem modVec_badCrc (m : Chip) (c : Fin 64) (f : VecEngine → VecEngine) : (m.modVec c f).badCrc = m.badCrc := rfl
@[simp] theorem modVec_crcHeld (m : Chip) (c : Fin 64) (f : VecEngine → VecEngine) : (m.modVec c f).crcHeld = m.crcHeld := rfl
@[simp] theorem modVec_cm (m : Chip) (c : Fin 64) (f : VecEngine → VecEngine) : (m.modVec c f).cm = m.cm := rfl
@[simp] theorem modVec_sends (m : Chip) (c : Fin 64) (f : VecEngine → VecEngine) : (m.modVec c f).sends = m.sends := rfl
@[simp] theorem modVec_posts (m : Chip) (c : Fin 64) (f : VecEngine → VecEngine) : (m.modVec c f).posts = m.posts := rfl
@[simp] theorem modVec_sh (m : Chip) (c : Fin 64) (f : VecEngine → VecEngine) : (m.modVec c f).sh = m.sh := rfl
@[simp] theorem modVec_xlat (m : Chip) (c : Fin 64) (f : VecEngine → VecEngine) : (m.modVec c f).xlat = m.xlat := rfl
@[simp] theorem modVec_host (m : Chip) (c : Fin 64) (f : VecEngine → VecEngine) : (m.modVec c f).host = m.host := rfl
@[simp] theorem modVec_sf (m : Chip) (c : Fin 64) (f : VecEngine → VecEngine) : (m.modVec c f).sf = m.sf := rfl
@[simp] theorem modVec_stg (m : Chip) (c : Fin 64) (f : VecEngine → VecEngine) : (m.modVec c f).stg = m.stg := rfl
@[simp] theorem modVec_pwr (m : Chip) (c : Fin 64) (f : VecEngine → VecEngine) : (m.modVec c f).pwr = m.pwr := rfl
@[simp] theorem modVec_mg (m : Chip) (c : Fin 64) (f : VecEngine → VecEngine) : (m.modVec c f).mg = m.mg := rfl
@[simp] theorem modVec_out (m : Chip) (c : Fin 64) (f : VecEngine → VecEngine) : (m.modVec c f).out = m.out := rfl
@[simp] theorem modVec_tick (m : Chip) (c : Fin 64) (f : VecEngine → VecEngine) : (m.modVec c f).tick = m.tick := rfl

/-! ### `modVown` -/

@[simp] theorem modVown_board (m : Chip) (c : Fin 64) (f : Vown → Vown) : (m.modVown c f).board = m.board := rfl
@[simp] theorem modVown_dom (m : Chip) (c : Fin 64) (f : Vown → Vown) : (m.modVown c f).dom = m.dom := rfl
@[simp] theorem modVown_regs (m : Chip) (c : Fin 64) (f : Vown → Vown) : (m.modVown c f).regs = m.regs := rfl
@[simp] theorem modVown_staged (m : Chip) (c : Fin 64) (f : Vown → Vown) : (m.modVown c f).staged = m.staged := rfl
@[simp] theorem modVown_errq (m : Chip) (c : Fin 64) (f : Vown → Vown) : (m.modVown c f).errq = m.errq := rfl
@[simp] theorem modVown_chocks (m : Chip) (c : Fin 64) (f : Vown → Vown) : (m.modVown c f).chocks = m.chocks := rfl
@[simp] theorem modVown_mem (m : Chip) (c : Fin 64) (f : Vown → Vown) : (m.modVown c f).mem = m.mem := rfl
@[simp] theorem modVown_veils (m : Chip) (c : Fin 64) (f : Vown → Vown) : (m.modVown c f).veils = m.veils := rfl
@[simp] theorem modVown_slices (m : Chip) (c : Fin 64) (f : Vown → Vown) : (m.modVown c f).slices = m.slices := rfl
@[simp] theorem modVown_obuf (m : Chip) (c : Fin 64) (f : Vown → Vown) : (m.modVown c f).obuf = m.obuf := rfl
@[simp] theorem modVown_badCrc (m : Chip) (c : Fin 64) (f : Vown → Vown) : (m.modVown c f).badCrc = m.badCrc := rfl
@[simp] theorem modVown_crcHeld (m : Chip) (c : Fin 64) (f : Vown → Vown) : (m.modVown c f).crcHeld = m.crcHeld := rfl
@[simp] theorem modVown_cm (m : Chip) (c : Fin 64) (f : Vown → Vown) : (m.modVown c f).cm = m.cm := rfl
@[simp] theorem modVown_sends (m : Chip) (c : Fin 64) (f : Vown → Vown) : (m.modVown c f).sends = m.sends := rfl
@[simp] theorem modVown_posts (m : Chip) (c : Fin 64) (f : Vown → Vown) : (m.modVown c f).posts = m.posts := rfl
@[simp] theorem modVown_sh (m : Chip) (c : Fin 64) (f : Vown → Vown) : (m.modVown c f).sh = m.sh := rfl
@[simp] theorem modVown_xlat (m : Chip) (c : Fin 64) (f : Vown → Vown) : (m.modVown c f).xlat = m.xlat := rfl
@[simp] theorem modVown_host (m : Chip) (c : Fin 64) (f : Vown → Vown) : (m.modVown c f).host = m.host := rfl
@[simp] theorem modVown_sf (m : Chip) (c : Fin 64) (f : Vown → Vown) : (m.modVown c f).sf = m.sf := rfl
@[simp] theorem modVown_stg (m : Chip) (c : Fin 64) (f : Vown → Vown) : (m.modVown c f).stg = m.stg := rfl
@[simp] theorem modVown_pwr (m : Chip) (c : Fin 64) (f : Vown → Vown) : (m.modVown c f).pwr = m.pwr := rfl
@[simp] theorem modVown_mg (m : Chip) (c : Fin 64) (f : Vown → Vown) : (m.modVown c f).mg = m.mg := rfl
@[simp] theorem modVown_out (m : Chip) (c : Fin 64) (f : Vown → Vown) : (m.modVown c f).out = m.out := rfl
@[simp] theorem modVown_tick (m : Chip) (c : Fin 64) (f : Vown → Vown) : (m.modVown c f).tick = m.tick := rfl

/-! ### `modMtx` -/

@[simp] theorem modMtx_board (m : Chip) (c : Fin 64) (f : MtxArray → MtxArray) : (m.modMtx c f).board = m.board := rfl
@[simp] theorem modMtx_dom (m : Chip) (c : Fin 64) (f : MtxArray → MtxArray) : (m.modMtx c f).dom = m.dom := rfl
@[simp] theorem modMtx_regs (m : Chip) (c : Fin 64) (f : MtxArray → MtxArray) : (m.modMtx c f).regs = m.regs := rfl
@[simp] theorem modMtx_staged (m : Chip) (c : Fin 64) (f : MtxArray → MtxArray) : (m.modMtx c f).staged = m.staged := rfl
@[simp] theorem modMtx_errq (m : Chip) (c : Fin 64) (f : MtxArray → MtxArray) : (m.modMtx c f).errq = m.errq := rfl
@[simp] theorem modMtx_chocks (m : Chip) (c : Fin 64) (f : MtxArray → MtxArray) : (m.modMtx c f).chocks = m.chocks := rfl
@[simp] theorem modMtx_mem (m : Chip) (c : Fin 64) (f : MtxArray → MtxArray) : (m.modMtx c f).mem = m.mem := rfl
@[simp] theorem modMtx_veils (m : Chip) (c : Fin 64) (f : MtxArray → MtxArray) : (m.modMtx c f).veils = m.veils := rfl
@[simp] theorem modMtx_slices (m : Chip) (c : Fin 64) (f : MtxArray → MtxArray) : (m.modMtx c f).slices = m.slices := rfl
@[simp] theorem modMtx_obuf (m : Chip) (c : Fin 64) (f : MtxArray → MtxArray) : (m.modMtx c f).obuf = m.obuf := rfl
@[simp] theorem modMtx_badCrc (m : Chip) (c : Fin 64) (f : MtxArray → MtxArray) : (m.modMtx c f).badCrc = m.badCrc := rfl
@[simp] theorem modMtx_crcHeld (m : Chip) (c : Fin 64) (f : MtxArray → MtxArray) : (m.modMtx c f).crcHeld = m.crcHeld := rfl
@[simp] theorem modMtx_cm (m : Chip) (c : Fin 64) (f : MtxArray → MtxArray) : (m.modMtx c f).cm = m.cm := rfl
@[simp] theorem modMtx_sends (m : Chip) (c : Fin 64) (f : MtxArray → MtxArray) : (m.modMtx c f).sends = m.sends := rfl
@[simp] theorem modMtx_posts (m : Chip) (c : Fin 64) (f : MtxArray → MtxArray) : (m.modMtx c f).posts = m.posts := rfl
@[simp] theorem modMtx_sh (m : Chip) (c : Fin 64) (f : MtxArray → MtxArray) : (m.modMtx c f).sh = m.sh := rfl
@[simp] theorem modMtx_xlat (m : Chip) (c : Fin 64) (f : MtxArray → MtxArray) : (m.modMtx c f).xlat = m.xlat := rfl
@[simp] theorem modMtx_host (m : Chip) (c : Fin 64) (f : MtxArray → MtxArray) : (m.modMtx c f).host = m.host := rfl
@[simp] theorem modMtx_sf (m : Chip) (c : Fin 64) (f : MtxArray → MtxArray) : (m.modMtx c f).sf = m.sf := rfl
@[simp] theorem modMtx_stg (m : Chip) (c : Fin 64) (f : MtxArray → MtxArray) : (m.modMtx c f).stg = m.stg := rfl
@[simp] theorem modMtx_pwr (m : Chip) (c : Fin 64) (f : MtxArray → MtxArray) : (m.modMtx c f).pwr = m.pwr := rfl
@[simp] theorem modMtx_mg (m : Chip) (c : Fin 64) (f : MtxArray → MtxArray) : (m.modMtx c f).mg = m.mg := rfl
@[simp] theorem modMtx_out (m : Chip) (c : Fin 64) (f : MtxArray → MtxArray) : (m.modMtx c f).out = m.out := rfl
@[simp] theorem modMtx_tick (m : Chip) (c : Fin 64) (f : MtxArray → MtxArray) : (m.modMtx c f).tick = m.tick := rfl

/-! ### `sendTo` -/

@[simp] theorem sendTo_board (m : Chip) (e : Send) : (m.sendTo e).board = m.board := rfl
@[simp] theorem sendTo_dom (m : Chip) (e : Send) : (m.sendTo e).dom = m.dom := rfl
@[simp] theorem sendTo_regs (m : Chip) (e : Send) : (m.sendTo e).regs = m.regs := rfl
@[simp] theorem sendTo_staged (m : Chip) (e : Send) : (m.sendTo e).staged = m.staged := rfl
@[simp] theorem sendTo_errq (m : Chip) (e : Send) : (m.sendTo e).errq = m.errq := rfl
@[simp] theorem sendTo_chocks (m : Chip) (e : Send) : (m.sendTo e).chocks = m.chocks := rfl
@[simp] theorem sendTo_mem (m : Chip) (e : Send) : (m.sendTo e).mem = m.mem := rfl
@[simp] theorem sendTo_veils (m : Chip) (e : Send) : (m.sendTo e).veils = m.veils := rfl
@[simp] theorem sendTo_slices (m : Chip) (e : Send) : (m.sendTo e).slices = m.slices := rfl
@[simp] theorem sendTo_obuf (m : Chip) (e : Send) : (m.sendTo e).obuf = m.obuf := rfl
@[simp] theorem sendTo_badCrc (m : Chip) (e : Send) : (m.sendTo e).badCrc = m.badCrc := rfl
@[simp] theorem sendTo_crcHeld (m : Chip) (e : Send) : (m.sendTo e).crcHeld = m.crcHeld := rfl
@[simp] theorem sendTo_coaches (m : Chip) (e : Send) : (m.sendTo e).coaches = m.coaches := rfl
@[simp] theorem sendTo_cm (m : Chip) (e : Send) : (m.sendTo e).cm = m.cm := rfl
@[simp] theorem sendTo_posts (m : Chip) (e : Send) : (m.sendTo e).posts = m.posts := rfl
@[simp] theorem sendTo_sh (m : Chip) (e : Send) : (m.sendTo e).sh = m.sh := rfl
@[simp] theorem sendTo_xlat (m : Chip) (e : Send) : (m.sendTo e).xlat = m.xlat := rfl
@[simp] theorem sendTo_host (m : Chip) (e : Send) : (m.sendTo e).host = m.host := rfl
@[simp] theorem sendTo_sf (m : Chip) (e : Send) : (m.sendTo e).sf = m.sf := rfl
@[simp] theorem sendTo_stg (m : Chip) (e : Send) : (m.sendTo e).stg = m.stg := rfl
@[simp] theorem sendTo_pwr (m : Chip) (e : Send) : (m.sendTo e).pwr = m.pwr := rfl
@[simp] theorem sendTo_mg (m : Chip) (e : Send) : (m.sendTo e).mg = m.mg := rfl
@[simp] theorem sendTo_out (m : Chip) (e : Send) : (m.sendTo e).out = m.out := rfl
@[simp] theorem sendTo_tick (m : Chip) (e : Send) : (m.sendTo e).tick = m.tick := rfl

/-! ### `report` -/

@[simp] theorem report_board (m : Chip) (e : RecEvent) : (m.report e).board = m.board := rfl
@[simp] theorem report_dom (m : Chip) (e : RecEvent) : (m.report e).dom = m.dom := rfl
@[simp] theorem report_regs (m : Chip) (e : RecEvent) : (m.report e).regs = m.regs := rfl
@[simp] theorem report_staged (m : Chip) (e : RecEvent) : (m.report e).staged = m.staged := rfl
@[simp] theorem report_errq (m : Chip) (e : RecEvent) : (m.report e).errq = m.errq := rfl
@[simp] theorem report_chocks (m : Chip) (e : RecEvent) : (m.report e).chocks = m.chocks := rfl
@[simp] theorem report_mem (m : Chip) (e : RecEvent) : (m.report e).mem = m.mem := rfl
@[simp] theorem report_veils (m : Chip) (e : RecEvent) : (m.report e).veils = m.veils := rfl
@[simp] theorem report_slices (m : Chip) (e : RecEvent) : (m.report e).slices = m.slices := rfl
@[simp] theorem report_obuf (m : Chip) (e : RecEvent) : (m.report e).obuf = m.obuf := rfl
@[simp] theorem report_badCrc (m : Chip) (e : RecEvent) : (m.report e).badCrc = m.badCrc := rfl
@[simp] theorem report_crcHeld (m : Chip) (e : RecEvent) : (m.report e).crcHeld = m.crcHeld := rfl
@[simp] theorem report_coaches (m : Chip) (e : RecEvent) : (m.report e).coaches = m.coaches := rfl
@[simp] theorem report_cm (m : Chip) (e : RecEvent) : (m.report e).cm = m.cm := rfl
@[simp] theorem report_sends (m : Chip) (e : RecEvent) : (m.report e).sends = m.sends := rfl
@[simp] theorem report_posts (m : Chip) (e : RecEvent) : (m.report e).posts = m.posts := rfl
@[simp] theorem report_sh (m : Chip) (e : RecEvent) : (m.report e).sh = m.sh := rfl
@[simp] theorem report_xlat (m : Chip) (e : RecEvent) : (m.report e).xlat = m.xlat := rfl
@[simp] theorem report_host (m : Chip) (e : RecEvent) : (m.report e).host = m.host := rfl
@[simp] theorem report_sf (m : Chip) (e : RecEvent) : (m.report e).sf = m.sf := rfl
@[simp] theorem report_pwr (m : Chip) (e : RecEvent) : (m.report e).pwr = m.pwr := rfl
@[simp] theorem report_mg (m : Chip) (e : RecEvent) : (m.report e).mg = m.mg := rfl
@[simp] theorem report_out (m : Chip) (e : RecEvent) : (m.report e).out = m.out := rfl
@[simp] theorem report_tick (m : Chip) (e : RecEvent) : (m.report e).tick = m.tick := rfl

/-! ### `modStg` -/

@[simp] theorem modStg_board (m : Chip) (f : StageCtl → StageCtl) : (m.modStg f).board = m.board := rfl
@[simp] theorem modStg_dom (m : Chip) (f : StageCtl → StageCtl) : (m.modStg f).dom = m.dom := rfl
@[simp] theorem modStg_regs (m : Chip) (f : StageCtl → StageCtl) : (m.modStg f).regs = m.regs := rfl
@[simp] theorem modStg_staged (m : Chip) (f : StageCtl → StageCtl) : (m.modStg f).staged = m.staged := rfl
@[simp] theorem modStg_errq (m : Chip) (f : StageCtl → StageCtl) : (m.modStg f).errq = m.errq := rfl
@[simp] theorem modStg_chocks (m : Chip) (f : StageCtl → StageCtl) : (m.modStg f).chocks = m.chocks := rfl
@[simp] theorem modStg_mem (m : Chip) (f : StageCtl → StageCtl) : (m.modStg f).mem = m.mem := rfl
@[simp] theorem modStg_veils (m : Chip) (f : StageCtl → StageCtl) : (m.modStg f).veils = m.veils := rfl
@[simp] theorem modStg_slices (m : Chip) (f : StageCtl → StageCtl) : (m.modStg f).slices = m.slices := rfl
@[simp] theorem modStg_obuf (m : Chip) (f : StageCtl → StageCtl) : (m.modStg f).obuf = m.obuf := rfl
@[simp] theorem modStg_badCrc (m : Chip) (f : StageCtl → StageCtl) : (m.modStg f).badCrc = m.badCrc := rfl
@[simp] theorem modStg_crcHeld (m : Chip) (f : StageCtl → StageCtl) : (m.modStg f).crcHeld = m.crcHeld := rfl
@[simp] theorem modStg_coaches (m : Chip) (f : StageCtl → StageCtl) : (m.modStg f).coaches = m.coaches := rfl
@[simp] theorem modStg_cm (m : Chip) (f : StageCtl → StageCtl) : (m.modStg f).cm = m.cm := rfl
@[simp] theorem modStg_sends (m : Chip) (f : StageCtl → StageCtl) : (m.modStg f).sends = m.sends := rfl
@[simp] theorem modStg_posts (m : Chip) (f : StageCtl → StageCtl) : (m.modStg f).posts = m.posts := rfl
@[simp] theorem modStg_sh (m : Chip) (f : StageCtl → StageCtl) : (m.modStg f).sh = m.sh := rfl
@[simp] theorem modStg_xlat (m : Chip) (f : StageCtl → StageCtl) : (m.modStg f).xlat = m.xlat := rfl
@[simp] theorem modStg_host (m : Chip) (f : StageCtl → StageCtl) : (m.modStg f).host = m.host := rfl
@[simp] theorem modStg_sf (m : Chip) (f : StageCtl → StageCtl) : (m.modStg f).sf = m.sf := rfl
@[simp] theorem modStg_pwr (m : Chip) (f : StageCtl → StageCtl) : (m.modStg f).pwr = m.pwr := rfl
@[simp] theorem modStg_mg (m : Chip) (f : StageCtl → StageCtl) : (m.modStg f).mg = m.mg := rfl
@[simp] theorem modStg_out (m : Chip) (f : StageCtl → StageCtl) : (m.modStg f).out = m.out := rfl
@[simp] theorem modStg_tick (m : Chip) (f : StageCtl → StageCtl) : (m.modStg f).tick = m.tick := rfl

/-! ### `modShunt` -/

@[simp] theorem modShunt_board (m : Chip) (f : Shunter → Shunter) : (m.modShunt f).board = m.board := rfl
@[simp] theorem modShunt_dom (m : Chip) (f : Shunter → Shunter) : (m.modShunt f).dom = m.dom := rfl
@[simp] theorem modShunt_regs (m : Chip) (f : Shunter → Shunter) : (m.modShunt f).regs = m.regs := rfl
@[simp] theorem modShunt_staged (m : Chip) (f : Shunter → Shunter) : (m.modShunt f).staged = m.staged := rfl
@[simp] theorem modShunt_errq (m : Chip) (f : Shunter → Shunter) : (m.modShunt f).errq = m.errq := rfl
@[simp] theorem modShunt_chocks (m : Chip) (f : Shunter → Shunter) : (m.modShunt f).chocks = m.chocks := rfl
@[simp] theorem modShunt_mem (m : Chip) (f : Shunter → Shunter) : (m.modShunt f).mem = m.mem := rfl
@[simp] theorem modShunt_veils (m : Chip) (f : Shunter → Shunter) : (m.modShunt f).veils = m.veils := rfl
@[simp] theorem modShunt_slices (m : Chip) (f : Shunter → Shunter) : (m.modShunt f).slices = m.slices := rfl
@[simp] theorem modShunt_obuf (m : Chip) (f : Shunter → Shunter) : (m.modShunt f).obuf = m.obuf := rfl
@[simp] theorem modShunt_badCrc (m : Chip) (f : Shunter → Shunter) : (m.modShunt f).badCrc = m.badCrc := rfl
@[simp] theorem modShunt_crcHeld (m : Chip) (f : Shunter → Shunter) : (m.modShunt f).crcHeld = m.crcHeld := rfl
@[simp] theorem modShunt_coaches (m : Chip) (f : Shunter → Shunter) : (m.modShunt f).coaches = m.coaches := rfl
@[simp] theorem modShunt_cm (m : Chip) (f : Shunter → Shunter) : (m.modShunt f).cm = m.cm := rfl
@[simp] theorem modShunt_sends (m : Chip) (f : Shunter → Shunter) : (m.modShunt f).sends = m.sends := rfl
@[simp] theorem modShunt_posts (m : Chip) (f : Shunter → Shunter) : (m.modShunt f).posts = m.posts := rfl
@[simp] theorem modShunt_xlat (m : Chip) (f : Shunter → Shunter) : (m.modShunt f).xlat = m.xlat := rfl
@[simp] theorem modShunt_host (m : Chip) (f : Shunter → Shunter) : (m.modShunt f).host = m.host := rfl
@[simp] theorem modShunt_sf (m : Chip) (f : Shunter → Shunter) : (m.modShunt f).sf = m.sf := rfl
@[simp] theorem modShunt_stg (m : Chip) (f : Shunter → Shunter) : (m.modShunt f).stg = m.stg := rfl
@[simp] theorem modShunt_pwr (m : Chip) (f : Shunter → Shunter) : (m.modShunt f).pwr = m.pwr := rfl
@[simp] theorem modShunt_mg (m : Chip) (f : Shunter → Shunter) : (m.modShunt f).mg = m.mg := rfl
@[simp] theorem modShunt_out (m : Chip) (f : Shunter → Shunter) : (m.modShunt f).out = m.out := rfl
@[simp] theorem modShunt_tick (m : Chip) (f : Shunter → Shunter) : (m.modShunt f).tick = m.tick := rfl

/-! ### `setXlat` -/

@[simp] theorem setXlat_board (m : Chip) (v : Xlat) : (m.setXlat v).board = m.board := rfl
@[simp] theorem setXlat_dom (m : Chip) (v : Xlat) : (m.setXlat v).dom = m.dom := rfl
@[simp] theorem setXlat_regs (m : Chip) (v : Xlat) : (m.setXlat v).regs = m.regs := rfl
@[simp] theorem setXlat_staged (m : Chip) (v : Xlat) : (m.setXlat v).staged = m.staged := rfl
@[simp] theorem setXlat_errq (m : Chip) (v : Xlat) : (m.setXlat v).errq = m.errq := rfl
@[simp] theorem setXlat_chocks (m : Chip) (v : Xlat) : (m.setXlat v).chocks = m.chocks := rfl
@[simp] theorem setXlat_mem (m : Chip) (v : Xlat) : (m.setXlat v).mem = m.mem := rfl
@[simp] theorem setXlat_veils (m : Chip) (v : Xlat) : (m.setXlat v).veils = m.veils := rfl
@[simp] theorem setXlat_slices (m : Chip) (v : Xlat) : (m.setXlat v).slices = m.slices := rfl
@[simp] theorem setXlat_obuf (m : Chip) (v : Xlat) : (m.setXlat v).obuf = m.obuf := rfl
@[simp] theorem setXlat_badCrc (m : Chip) (v : Xlat) : (m.setXlat v).badCrc = m.badCrc := rfl
@[simp] theorem setXlat_crcHeld (m : Chip) (v : Xlat) : (m.setXlat v).crcHeld = m.crcHeld := rfl
@[simp] theorem setXlat_coaches (m : Chip) (v : Xlat) : (m.setXlat v).coaches = m.coaches := rfl
@[simp] theorem setXlat_cm (m : Chip) (v : Xlat) : (m.setXlat v).cm = m.cm := rfl
@[simp] theorem setXlat_sends (m : Chip) (v : Xlat) : (m.setXlat v).sends = m.sends := rfl
@[simp] theorem setXlat_posts (m : Chip) (v : Xlat) : (m.setXlat v).posts = m.posts := rfl
@[simp] theorem setXlat_sh (m : Chip) (v : Xlat) : (m.setXlat v).sh = m.sh := rfl
@[simp] theorem setXlat_host (m : Chip) (v : Xlat) : (m.setXlat v).host = m.host := rfl
@[simp] theorem setXlat_sf (m : Chip) (v : Xlat) : (m.setXlat v).sf = m.sf := rfl
@[simp] theorem setXlat_stg (m : Chip) (v : Xlat) : (m.setXlat v).stg = m.stg := rfl
@[simp] theorem setXlat_pwr (m : Chip) (v : Xlat) : (m.setXlat v).pwr = m.pwr := rfl
@[simp] theorem setXlat_mg (m : Chip) (v : Xlat) : (m.setXlat v).mg = m.mg := rfl
@[simp] theorem setXlat_out (m : Chip) (v : Xlat) : (m.setXlat v).out = m.out := rfl
@[simp] theorem setXlat_tick (m : Chip) (v : Xlat) : (m.setXlat v).tick = m.tick := rfl

/-! ### `modTlb` -/

@[simp] theorem modTlb_board (m : Chip) (c : Fin 64) (f : List XLeaf → List XLeaf) : (m.modTlb c f).board = m.board := rfl
@[simp] theorem modTlb_dom (m : Chip) (c : Fin 64) (f : List XLeaf → List XLeaf) : (m.modTlb c f).dom = m.dom := rfl
@[simp] theorem modTlb_regs (m : Chip) (c : Fin 64) (f : List XLeaf → List XLeaf) : (m.modTlb c f).regs = m.regs := rfl
@[simp] theorem modTlb_staged (m : Chip) (c : Fin 64) (f : List XLeaf → List XLeaf) : (m.modTlb c f).staged = m.staged := rfl
@[simp] theorem modTlb_errq (m : Chip) (c : Fin 64) (f : List XLeaf → List XLeaf) : (m.modTlb c f).errq = m.errq := rfl
@[simp] theorem modTlb_chocks (m : Chip) (c : Fin 64) (f : List XLeaf → List XLeaf) : (m.modTlb c f).chocks = m.chocks := rfl
@[simp] theorem modTlb_mem (m : Chip) (c : Fin 64) (f : List XLeaf → List XLeaf) : (m.modTlb c f).mem = m.mem := rfl
@[simp] theorem modTlb_veils (m : Chip) (c : Fin 64) (f : List XLeaf → List XLeaf) : (m.modTlb c f).veils = m.veils := rfl
@[simp] theorem modTlb_slices (m : Chip) (c : Fin 64) (f : List XLeaf → List XLeaf) : (m.modTlb c f).slices = m.slices := rfl
@[simp] theorem modTlb_obuf (m : Chip) (c : Fin 64) (f : List XLeaf → List XLeaf) : (m.modTlb c f).obuf = m.obuf := rfl
@[simp] theorem modTlb_badCrc (m : Chip) (c : Fin 64) (f : List XLeaf → List XLeaf) : (m.modTlb c f).badCrc = m.badCrc := rfl
@[simp] theorem modTlb_crcHeld (m : Chip) (c : Fin 64) (f : List XLeaf → List XLeaf) : (m.modTlb c f).crcHeld = m.crcHeld := rfl
@[simp] theorem modTlb_coaches (m : Chip) (c : Fin 64) (f : List XLeaf → List XLeaf) : (m.modTlb c f).coaches = m.coaches := rfl
@[simp] theorem modTlb_cm (m : Chip) (c : Fin 64) (f : List XLeaf → List XLeaf) : (m.modTlb c f).cm = m.cm := rfl
@[simp] theorem modTlb_sends (m : Chip) (c : Fin 64) (f : List XLeaf → List XLeaf) : (m.modTlb c f).sends = m.sends := rfl
@[simp] theorem modTlb_posts (m : Chip) (c : Fin 64) (f : List XLeaf → List XLeaf) : (m.modTlb c f).posts = m.posts := rfl
@[simp] theorem modTlb_sh (m : Chip) (c : Fin 64) (f : List XLeaf → List XLeaf) : (m.modTlb c f).sh = m.sh := rfl
@[simp] theorem modTlb_host (m : Chip) (c : Fin 64) (f : List XLeaf → List XLeaf) : (m.modTlb c f).host = m.host := rfl
@[simp] theorem modTlb_sf (m : Chip) (c : Fin 64) (f : List XLeaf → List XLeaf) : (m.modTlb c f).sf = m.sf := rfl
@[simp] theorem modTlb_stg (m : Chip) (c : Fin 64) (f : List XLeaf → List XLeaf) : (m.modTlb c f).stg = m.stg := rfl
@[simp] theorem modTlb_pwr (m : Chip) (c : Fin 64) (f : List XLeaf → List XLeaf) : (m.modTlb c f).pwr = m.pwr := rfl
@[simp] theorem modTlb_mg (m : Chip) (c : Fin 64) (f : List XLeaf → List XLeaf) : (m.modTlb c f).mg = m.mg := rfl
@[simp] theorem modTlb_out (m : Chip) (c : Fin 64) (f : List XLeaf → List XLeaf) : (m.modTlb c f).out = m.out := rfl
@[simp] theorem modTlb_tick (m : Chip) (c : Fin 64) (f : List XLeaf → List XLeaf) : (m.modTlb c f).tick = m.tick := rfl

/-! ### `modRake` -/

@[simp] theorem modRake_board (m : Chip) (r : Nat) (f : XRake → XRake) : (m.modRake r f).board = m.board := rfl
@[simp] theorem modRake_dom (m : Chip) (r : Nat) (f : XRake → XRake) : (m.modRake r f).dom = m.dom := rfl
@[simp] theorem modRake_regs (m : Chip) (r : Nat) (f : XRake → XRake) : (m.modRake r f).regs = m.regs := rfl
@[simp] theorem modRake_staged (m : Chip) (r : Nat) (f : XRake → XRake) : (m.modRake r f).staged = m.staged := rfl
@[simp] theorem modRake_errq (m : Chip) (r : Nat) (f : XRake → XRake) : (m.modRake r f).errq = m.errq := rfl
@[simp] theorem modRake_chocks (m : Chip) (r : Nat) (f : XRake → XRake) : (m.modRake r f).chocks = m.chocks := rfl
@[simp] theorem modRake_mem (m : Chip) (r : Nat) (f : XRake → XRake) : (m.modRake r f).mem = m.mem := rfl
@[simp] theorem modRake_veils (m : Chip) (r : Nat) (f : XRake → XRake) : (m.modRake r f).veils = m.veils := rfl
@[simp] theorem modRake_slices (m : Chip) (r : Nat) (f : XRake → XRake) : (m.modRake r f).slices = m.slices := rfl
@[simp] theorem modRake_obuf (m : Chip) (r : Nat) (f : XRake → XRake) : (m.modRake r f).obuf = m.obuf := rfl
@[simp] theorem modRake_badCrc (m : Chip) (r : Nat) (f : XRake → XRake) : (m.modRake r f).badCrc = m.badCrc := rfl
@[simp] theorem modRake_crcHeld (m : Chip) (r : Nat) (f : XRake → XRake) : (m.modRake r f).crcHeld = m.crcHeld := rfl
@[simp] theorem modRake_coaches (m : Chip) (r : Nat) (f : XRake → XRake) : (m.modRake r f).coaches = m.coaches := rfl
@[simp] theorem modRake_cm (m : Chip) (r : Nat) (f : XRake → XRake) : (m.modRake r f).cm = m.cm := rfl
@[simp] theorem modRake_sends (m : Chip) (r : Nat) (f : XRake → XRake) : (m.modRake r f).sends = m.sends := rfl
@[simp] theorem modRake_posts (m : Chip) (r : Nat) (f : XRake → XRake) : (m.modRake r f).posts = m.posts := rfl
@[simp] theorem modRake_sh (m : Chip) (r : Nat) (f : XRake → XRake) : (m.modRake r f).sh = m.sh := rfl
@[simp] theorem modRake_host (m : Chip) (r : Nat) (f : XRake → XRake) : (m.modRake r f).host = m.host := rfl
@[simp] theorem modRake_sf (m : Chip) (r : Nat) (f : XRake → XRake) : (m.modRake r f).sf = m.sf := rfl
@[simp] theorem modRake_stg (m : Chip) (r : Nat) (f : XRake → XRake) : (m.modRake r f).stg = m.stg := rfl
@[simp] theorem modRake_pwr (m : Chip) (r : Nat) (f : XRake → XRake) : (m.modRake r f).pwr = m.pwr := rfl
@[simp] theorem modRake_mg (m : Chip) (r : Nat) (f : XRake → XRake) : (m.modRake r f).mg = m.mg := rfl
@[simp] theorem modRake_out (m : Chip) (r : Nat) (f : XRake → XRake) : (m.modRake r f).out = m.out := rfl
@[simp] theorem modRake_tick (m : Chip) (r : Nat) (f : XRake → XRake) : (m.modRake r f).tick = m.tick := rfl

/-! ### `setHost` -/

@[simp] theorem setHost_board (m : Chip) (h : HostIf) : (m.setHost h).board = m.board := rfl
@[simp] theorem setHost_dom (m : Chip) (h : HostIf) : (m.setHost h).dom = m.dom := rfl
@[simp] theorem setHost_regs (m : Chip) (h : HostIf) : (m.setHost h).regs = m.regs := rfl
@[simp] theorem setHost_staged (m : Chip) (h : HostIf) : (m.setHost h).staged = m.staged := rfl
@[simp] theorem setHost_errq (m : Chip) (h : HostIf) : (m.setHost h).errq = m.errq := rfl
@[simp] theorem setHost_chocks (m : Chip) (h : HostIf) : (m.setHost h).chocks = m.chocks := rfl
@[simp] theorem setHost_mem (m : Chip) (h : HostIf) : (m.setHost h).mem = m.mem := rfl
@[simp] theorem setHost_veils (m : Chip) (h : HostIf) : (m.setHost h).veils = m.veils := rfl
@[simp] theorem setHost_slices (m : Chip) (h : HostIf) : (m.setHost h).slices = m.slices := rfl
@[simp] theorem setHost_obuf (m : Chip) (h : HostIf) : (m.setHost h).obuf = m.obuf := rfl
@[simp] theorem setHost_badCrc (m : Chip) (h : HostIf) : (m.setHost h).badCrc = m.badCrc := rfl
@[simp] theorem setHost_crcHeld (m : Chip) (h : HostIf) : (m.setHost h).crcHeld = m.crcHeld := rfl
@[simp] theorem setHost_coaches (m : Chip) (h : HostIf) : (m.setHost h).coaches = m.coaches := rfl
@[simp] theorem setHost_cm (m : Chip) (h : HostIf) : (m.setHost h).cm = m.cm := rfl
@[simp] theorem setHost_sends (m : Chip) (h : HostIf) : (m.setHost h).sends = m.sends := rfl
@[simp] theorem setHost_posts (m : Chip) (h : HostIf) : (m.setHost h).posts = m.posts := rfl
@[simp] theorem setHost_sh (m : Chip) (h : HostIf) : (m.setHost h).sh = m.sh := rfl
@[simp] theorem setHost_xlat (m : Chip) (h : HostIf) : (m.setHost h).xlat = m.xlat := rfl
@[simp] theorem setHost_sf (m : Chip) (h : HostIf) : (m.setHost h).sf = m.sf := rfl
@[simp] theorem setHost_stg (m : Chip) (h : HostIf) : (m.setHost h).stg = m.stg := rfl
@[simp] theorem setHost_pwr (m : Chip) (h : HostIf) : (m.setHost h).pwr = m.pwr := rfl
@[simp] theorem setHost_mg (m : Chip) (h : HostIf) : (m.setHost h).mg = m.mg := rfl
@[simp] theorem setHost_out (m : Chip) (h : HostIf) : (m.setHost h).out = m.out := rfl
@[simp] theorem setHost_tick (m : Chip) (h : HostIf) : (m.setHost h).tick = m.tick := rfl

/-! ### `addOut` -/

@[simp] theorem addOut_board (m : Chip) (o : CplOut) : (m.addOut o).board = m.board := rfl
@[simp] theorem addOut_dom (m : Chip) (o : CplOut) : (m.addOut o).dom = m.dom := rfl
@[simp] theorem addOut_regs (m : Chip) (o : CplOut) : (m.addOut o).regs = m.regs := rfl
@[simp] theorem addOut_staged (m : Chip) (o : CplOut) : (m.addOut o).staged = m.staged := rfl
@[simp] theorem addOut_errq (m : Chip) (o : CplOut) : (m.addOut o).errq = m.errq := rfl
@[simp] theorem addOut_chocks (m : Chip) (o : CplOut) : (m.addOut o).chocks = m.chocks := rfl
@[simp] theorem addOut_mem (m : Chip) (o : CplOut) : (m.addOut o).mem = m.mem := rfl
@[simp] theorem addOut_veils (m : Chip) (o : CplOut) : (m.addOut o).veils = m.veils := rfl
@[simp] theorem addOut_slices (m : Chip) (o : CplOut) : (m.addOut o).slices = m.slices := rfl
@[simp] theorem addOut_obuf (m : Chip) (o : CplOut) : (m.addOut o).obuf = m.obuf := rfl
@[simp] theorem addOut_badCrc (m : Chip) (o : CplOut) : (m.addOut o).badCrc = m.badCrc := rfl
@[simp] theorem addOut_crcHeld (m : Chip) (o : CplOut) : (m.addOut o).crcHeld = m.crcHeld := rfl
@[simp] theorem addOut_coaches (m : Chip) (o : CplOut) : (m.addOut o).coaches = m.coaches := rfl
@[simp] theorem addOut_cm (m : Chip) (o : CplOut) : (m.addOut o).cm = m.cm := rfl
@[simp] theorem addOut_sends (m : Chip) (o : CplOut) : (m.addOut o).sends = m.sends := rfl
@[simp] theorem addOut_posts (m : Chip) (o : CplOut) : (m.addOut o).posts = m.posts := rfl
@[simp] theorem addOut_sh (m : Chip) (o : CplOut) : (m.addOut o).sh = m.sh := rfl
@[simp] theorem addOut_xlat (m : Chip) (o : CplOut) : (m.addOut o).xlat = m.xlat := rfl
@[simp] theorem addOut_host (m : Chip) (o : CplOut) : (m.addOut o).host = m.host := rfl
@[simp] theorem addOut_stg (m : Chip) (o : CplOut) : (m.addOut o).stg = m.stg := rfl
@[simp] theorem addOut_pwr (m : Chip) (o : CplOut) : (m.addOut o).pwr = m.pwr := rfl
@[simp] theorem addOut_mg (m : Chip) (o : CplOut) : (m.addOut o).mg = m.mg := rfl
@[simp] theorem addOut_out (m : Chip) (o : CplOut) : (m.addOut o).out = m.out := rfl
@[simp] theorem addOut_tick (m : Chip) (o : CplOut) : (m.addOut o).tick = m.tick := rfl

/-! ### `modPwr` -/

@[simp] theorem modPwr_board (m : Chip) (f : Power → Power) : (m.modPwr f).board = m.board := rfl
@[simp] theorem modPwr_dom (m : Chip) (f : Power → Power) : (m.modPwr f).dom = m.dom := rfl
@[simp] theorem modPwr_regs (m : Chip) (f : Power → Power) : (m.modPwr f).regs = m.regs := rfl
@[simp] theorem modPwr_staged (m : Chip) (f : Power → Power) : (m.modPwr f).staged = m.staged := rfl
@[simp] theorem modPwr_errq (m : Chip) (f : Power → Power) : (m.modPwr f).errq = m.errq := rfl
@[simp] theorem modPwr_chocks (m : Chip) (f : Power → Power) : (m.modPwr f).chocks = m.chocks := rfl
@[simp] theorem modPwr_mem (m : Chip) (f : Power → Power) : (m.modPwr f).mem = m.mem := rfl
@[simp] theorem modPwr_veils (m : Chip) (f : Power → Power) : (m.modPwr f).veils = m.veils := rfl
@[simp] theorem modPwr_slices (m : Chip) (f : Power → Power) : (m.modPwr f).slices = m.slices := rfl
@[simp] theorem modPwr_obuf (m : Chip) (f : Power → Power) : (m.modPwr f).obuf = m.obuf := rfl
@[simp] theorem modPwr_badCrc (m : Chip) (f : Power → Power) : (m.modPwr f).badCrc = m.badCrc := rfl
@[simp] theorem modPwr_crcHeld (m : Chip) (f : Power → Power) : (m.modPwr f).crcHeld = m.crcHeld := rfl
@[simp] theorem modPwr_coaches (m : Chip) (f : Power → Power) : (m.modPwr f).coaches = m.coaches := rfl
@[simp] theorem modPwr_cm (m : Chip) (f : Power → Power) : (m.modPwr f).cm = m.cm := rfl
@[simp] theorem modPwr_sends (m : Chip) (f : Power → Power) : (m.modPwr f).sends = m.sends := rfl
@[simp] theorem modPwr_posts (m : Chip) (f : Power → Power) : (m.modPwr f).posts = m.posts := rfl
@[simp] theorem modPwr_sh (m : Chip) (f : Power → Power) : (m.modPwr f).sh = m.sh := rfl
@[simp] theorem modPwr_xlat (m : Chip) (f : Power → Power) : (m.modPwr f).xlat = m.xlat := rfl
@[simp] theorem modPwr_host (m : Chip) (f : Power → Power) : (m.modPwr f).host = m.host := rfl
@[simp] theorem modPwr_sf (m : Chip) (f : Power → Power) : (m.modPwr f).sf = m.sf := rfl
@[simp] theorem modPwr_stg (m : Chip) (f : Power → Power) : (m.modPwr f).stg = m.stg := rfl
@[simp] theorem modPwr_mg (m : Chip) (f : Power → Power) : (m.modPwr f).mg = m.mg := rfl
@[simp] theorem modPwr_out (m : Chip) (f : Power → Power) : (m.modPwr f).out = m.out := rfl
@[simp] theorem modPwr_tick (m : Chip) (f : Power → Power) : (m.modPwr f).tick = m.tick := rfl

/-! ### `modMg` -/

@[simp] theorem modMg_board (m : Chip) (f : Ostler → Ostler) : (m.modMg f).board = m.board := rfl
@[simp] theorem modMg_dom (m : Chip) (f : Ostler → Ostler) : (m.modMg f).dom = m.dom := rfl
@[simp] theorem modMg_regs (m : Chip) (f : Ostler → Ostler) : (m.modMg f).regs = m.regs := rfl
@[simp] theorem modMg_staged (m : Chip) (f : Ostler → Ostler) : (m.modMg f).staged = m.staged := rfl
@[simp] theorem modMg_errq (m : Chip) (f : Ostler → Ostler) : (m.modMg f).errq = m.errq := rfl
@[simp] theorem modMg_chocks (m : Chip) (f : Ostler → Ostler) : (m.modMg f).chocks = m.chocks := rfl
@[simp] theorem modMg_mem (m : Chip) (f : Ostler → Ostler) : (m.modMg f).mem = m.mem := rfl
@[simp] theorem modMg_veils (m : Chip) (f : Ostler → Ostler) : (m.modMg f).veils = m.veils := rfl
@[simp] theorem modMg_slices (m : Chip) (f : Ostler → Ostler) : (m.modMg f).slices = m.slices := rfl
@[simp] theorem modMg_obuf (m : Chip) (f : Ostler → Ostler) : (m.modMg f).obuf = m.obuf := rfl
@[simp] theorem modMg_badCrc (m : Chip) (f : Ostler → Ostler) : (m.modMg f).badCrc = m.badCrc := rfl
@[simp] theorem modMg_crcHeld (m : Chip) (f : Ostler → Ostler) : (m.modMg f).crcHeld = m.crcHeld := rfl
@[simp] theorem modMg_coaches (m : Chip) (f : Ostler → Ostler) : (m.modMg f).coaches = m.coaches := rfl
@[simp] theorem modMg_cm (m : Chip) (f : Ostler → Ostler) : (m.modMg f).cm = m.cm := rfl
@[simp] theorem modMg_sends (m : Chip) (f : Ostler → Ostler) : (m.modMg f).sends = m.sends := rfl
@[simp] theorem modMg_posts (m : Chip) (f : Ostler → Ostler) : (m.modMg f).posts = m.posts := rfl
@[simp] theorem modMg_sh (m : Chip) (f : Ostler → Ostler) : (m.modMg f).sh = m.sh := rfl
@[simp] theorem modMg_xlat (m : Chip) (f : Ostler → Ostler) : (m.modMg f).xlat = m.xlat := rfl
@[simp] theorem modMg_host (m : Chip) (f : Ostler → Ostler) : (m.modMg f).host = m.host := rfl
@[simp] theorem modMg_sf (m : Chip) (f : Ostler → Ostler) : (m.modMg f).sf = m.sf := rfl
@[simp] theorem modMg_stg (m : Chip) (f : Ostler → Ostler) : (m.modMg f).stg = m.stg := rfl
@[simp] theorem modMg_pwr (m : Chip) (f : Ostler → Ostler) : (m.modMg f).pwr = m.pwr := rfl
@[simp] theorem modMg_out (m : Chip) (f : Ostler → Ostler) : (m.modMg f).out = m.out := rfl
@[simp] theorem modMg_tick (m : Chip) (f : Ostler → Ostler) : (m.modMg f).tick = m.tick := rfl

/-! ### `modBoard` -/

@[simp] theorem modBoard_dom (m : Chip) (f : Board → Board) : (m.modBoard f).dom = m.dom := rfl
@[simp] theorem modBoard_regs (m : Chip) (f : Board → Board) : (m.modBoard f).regs = m.regs := rfl
@[simp] theorem modBoard_staged (m : Chip) (f : Board → Board) : (m.modBoard f).staged = m.staged := rfl
@[simp] theorem modBoard_errq (m : Chip) (f : Board → Board) : (m.modBoard f).errq = m.errq := rfl
@[simp] theorem modBoard_chocks (m : Chip) (f : Board → Board) : (m.modBoard f).chocks = m.chocks := rfl
@[simp] theorem modBoard_mem (m : Chip) (f : Board → Board) : (m.modBoard f).mem = m.mem := rfl
@[simp] theorem modBoard_veils (m : Chip) (f : Board → Board) : (m.modBoard f).veils = m.veils := rfl
@[simp] theorem modBoard_slices (m : Chip) (f : Board → Board) : (m.modBoard f).slices = m.slices := rfl
@[simp] theorem modBoard_obuf (m : Chip) (f : Board → Board) : (m.modBoard f).obuf = m.obuf := rfl
@[simp] theorem modBoard_badCrc (m : Chip) (f : Board → Board) : (m.modBoard f).badCrc = m.badCrc := rfl
@[simp] theorem modBoard_crcHeld (m : Chip) (f : Board → Board) : (m.modBoard f).crcHeld = m.crcHeld := rfl
@[simp] theorem modBoard_coaches (m : Chip) (f : Board → Board) : (m.modBoard f).coaches = m.coaches := rfl
@[simp] theorem modBoard_cm (m : Chip) (f : Board → Board) : (m.modBoard f).cm = m.cm := rfl
@[simp] theorem modBoard_sends (m : Chip) (f : Board → Board) : (m.modBoard f).sends = m.sends := rfl
@[simp] theorem modBoard_posts (m : Chip) (f : Board → Board) : (m.modBoard f).posts = m.posts := rfl
@[simp] theorem modBoard_sh (m : Chip) (f : Board → Board) : (m.modBoard f).sh = m.sh := rfl
@[simp] theorem modBoard_xlat (m : Chip) (f : Board → Board) : (m.modBoard f).xlat = m.xlat := rfl
@[simp] theorem modBoard_host (m : Chip) (f : Board → Board) : (m.modBoard f).host = m.host := rfl
@[simp] theorem modBoard_sf (m : Chip) (f : Board → Board) : (m.modBoard f).sf = m.sf := rfl
@[simp] theorem modBoard_stg (m : Chip) (f : Board → Board) : (m.modBoard f).stg = m.stg := rfl
@[simp] theorem modBoard_pwr (m : Chip) (f : Board → Board) : (m.modBoard f).pwr = m.pwr := rfl
@[simp] theorem modBoard_mg (m : Chip) (f : Board → Board) : (m.modBoard f).mg = m.mg := rfl
@[simp] theorem modBoard_out (m : Chip) (f : Board → Board) : (m.modBoard f).out = m.out := rfl
@[simp] theorem modBoard_tick (m : Chip) (f : Board → Board) : (m.modBoard f).tick = m.tick := rfl

/-! ### What the written field holds -/

@[simp] theorem emit_out (m : Chip) (o : Output) : (m.emit o).out = o :: m.out := rfl
@[simp] theorem next_tick (m : Chip) : m.next.tick = m.tick + 1 := rfl
@[simp] theorem setXlat_xlat (m : Chip) (v : Xlat) : (m.setXlat v).xlat = v := rfl
@[simp] theorem setHost_host (m : Chip) (h : HostIf) : (m.setHost h).host = h := rfl
@[simp] theorem modStg_stg (m : Chip) (f : StageCtl → StageCtl) : (m.modStg f).stg = f m.stg := rfl
@[simp] theorem modShunt_sh (m : Chip) (f : Shunter → Shunter) : (m.modShunt f).sh = f m.sh := rfl
@[simp] theorem modPwr_pwr (m : Chip) (f : Power → Power) : (m.modPwr f).pwr = f m.pwr := rfl
@[simp] theorem modMg_mg (m : Chip) (f : Ostler → Ostler) : (m.modMg f).mg = f m.mg := rfl
@[simp] theorem modBoard_board (m : Chip) (f : Board → Board) : (m.modBoard f).board = f m.board := rfl
@[simp] theorem sendTo_sends (m : Chip) (e : Send) : (m.sendTo e).sends = m.sends ++ [e] := rfl
@[simp] theorem report_events (m : Chip) (e : RecEvent) : (m.report e).stg.events = m.stg.events ++ [e] := rfl

theorem setDom_other (m : Chip) (d : Nat) (f : Domain → Domain) : m.setDom d f = { m with dom := (m.setDom d f).dom } := by
  unfold Chip.setDom; split <;> rfl

/-! ### A coach and a context -/

@[simp] theorem coach_setCoach (m : Chip) (c : Fin 64) (k : Coach) : (m.setCoach c k).coach c = k := by
  unfold Chip.coach Chip.setCoach; simp

theorem coach_setCoach_ne (m : Chip) {c d : Fin 64} (k : Coach) (h : d ≠ c) : (m.setCoach c k).coach d = m.coach d := by
  have h' : c.val ≠ d.val := fun e => h (Fin.ext e.symm)
  unfold Chip.coach Chip.setCoach; simp [Vector.getElem_set_ne, h']

@[simp] theorem ctx_setCtx (m : Chip) (x : Ctx) (v : Context) : (m.setCtx x v).ctx x = v := by
  unfold Chip.ctx Chip.setCtx Chip.modCoach Coach.setSide Coach.side
  simp only [coach_setCoach]; cases x.aft <;> rfl

theorem ctx_setCtx_ne (m : Chip) {x y : Ctx} (v : Context) (h : y ≠ x) : (m.setCtx x v).ctx y = m.ctx y := by
  obtain ⟨cx, ax⟩ := x; obtain ⟨cy, ay⟩ := y
  unfold Chip.ctx Chip.setCtx Chip.modCoach Coach.setSide Coach.side; dsimp only
  by_cases hc : cy = cx
  · subst hc
    simp only [coach_setCoach]
    cases ax <;> cases ay <;> first | rfl | exact absurd rfl h
  · rw [coach_setCoach_ne _ _ hc]

@[simp] theorem ctx_modCtx (m : Chip) (x : Ctx) (f : Context → Context) : (m.modCtx x f).ctx x = f (m.ctx x) :=
  ctx_setCtx m x _

theorem ctx_modCtx_ne (m : Chip) {x y : Ctx} (f : Context → Context) (h : y ≠ x) : (m.modCtx x f).ctx y = m.ctx y :=
  ctx_setCtx_ne m _ h

end Sys2Proof.Machine
end

