-- ==== Sys2Proof/Laws/Carry.lean ====
section
/-! SUPPORT. What the operations that carry a command's effect answer: each always answers a next state, and which. -/
namespace Sys2Proof.Machine

theorem onChip_eq (f : Chip → Chip) (s : State) : onChip f s = .next (s.on (f s.chip)) := rfl

theorem onLog_eq (f : Chip → Chip) (s : State) : onLog f s = .next (s.settled s.nvm (f s.chip)) := rfl

theorem when_pos {m : Chip} {c : Bool} {f : Chip → Chip} (h : c = true) : m.when c f = f m := by subst h; rfl

theorem when_neg {m : Chip} {c : Bool} {f : Chip → Chip} (h : c = false) : m.when c f = m := by subst h; rfl

theorem onHbm_eq {f : Chip → Chip} {s : State} (h : s.chip.memUp = true) : onHbm f s = .next (s.on (f s.chip)) := by
  unfold onHbm; rw [onChip_eq]; simp [h]

theorem onCoach_eq {s : State} {c : Fin 64} {f : Chip → Chip} (h : s.chip.domRuns (coachDomain c.val) = true) :
    onCoach c f s = .next (s.onCoach c (f s.chip)) := by
  unfold onCoach onChip State.onCoach State.on; simp [h]

theorem onCoach_stopped {s : State} {c : Fin 64} {f : Chip → Chip} (h : s.chip.domRuns (coachDomain c.val) = false) :
    onCoach c f s = .next s := by
  unfold onCoach onChip; simp [h]

/-! ### Management messages -/

theorem takeMsg_heard {m : Chip} {k : Mctp} {l : Bool} (h : Heard m k l) (n : Nvm) (f : Nvm × Chip → Nvm × Chip) :
    takeMsg k l f (n, m) = f (n, m) := by
  unfold takeMsg; simp [h.hears, h.framed, h.order, Nat.not_lt.mpr h.short]

theorem askMsg_heard {s : State} {k : Mctp} {l : Bool} (h : Heard s.chip k l) (f : Nvm → Chip → MgmtCode × List Nat) :
    askMsg k l f s
      = .next (s.settled s.nvm (s.chip.emit (.mgmt k.t.val (f s.nvm s.chip).1 (f s.nvm s.chip).2))) := by
  unfold askMsg onBoth; simp only [takeMsg_heard h]; rfl

theorem onBoth_heard {s : State} {k : Mctp} {l : Bool} (h : Heard s.chip k l) (f : Nvm × Chip → Nvm × Chip) :
    onBoth (takeMsg k l f) s = .next (s.settled (f (s.nvm, s.chip)).1 (f (s.nvm, s.chip)).2) := by
  unfold onBoth; simp only [takeMsg_heard h]; rfl

/-! ### Entries of the work queues -/

theorem finish_ends {m : Chip} {e : SEntry} {a r : Nat} {b : Chip} (h : m.entryEnds e a r b) : m.finish e a r = b := by
  obtain ⟨c, h1, rfl⟩ := h; unfold Chip.finish; rw [h1]

/-! ### The Selfan link -/

theorem modPort_congr (m : Chip) (p : Fin 10) (f g : SfPort → SfPort) (h : f (m.sfPort p) = g (m.sfPort p)) :
    m.modPort p f = m.modPort p g := by
  unfold Chip.modPort; unfold Chip.sfPort at h
  split
  · rename_i hp; simp only [hp, dif_pos] at h; rw [h]
  · rfl

theorem flitRecv_lands {m : Chip} {p : Fin 10} {f : Flits} {k : Packet} (h : Lands m p f k) :
    m.flitRecv p f.lseq true k = (m.accepted p f.lseq k, true) := by
  unfold Chip.flitRecv LinkEnd.recv; simp only [h.order, if_true, Bool.not_true, Bool.false_eq_true, if_false]
  unfold Chip.accepted
  rw [modPort_congr m p
    (fun s => { s with flit := { (m.sfPort ↑p).flit with rx := (m.sfPort ↑p).flit.rx + 1, naked := false }, got := vinc s.got k.channel })
    (fun s => { s with flit := { s.flit with rx := s.flit.rx + 1, naked := false }, got := vinc s.got k.channel }) rfl]

/-! ### What the events of a page and the module's messages leave alone -/

theorem foldl_frame {α β γ : Type} (g : α → γ) (f : α → β → α) (l : List β) (h : ∀ a b, g (f a b) = g a) (a : α) :
    g (l.foldl f a) = g a := by
  induction l generalizing a with
  | nil => rfl
  | cons b t ih => simp [List.foldl, ih, h]

/-- Sending a platform event changes the record of outputs alone. -/
theorem sendPlat_frame (m : Chip) (e : PlatEvent) : { (m.sendPlat e).1 with out := m.out } = m := by
  unfold Chip.sendPlat
  refine foldl_frame (fun p : Chip × PlatEvent => ({ p.1 with out := m.out } : Chip)) (fun (p : Chip × PlatEvent) t =>
    if p.1.awaits p.2 t && p.1.reaches t then
      (p.1.emit (.plat t e.kind), { p.2 with taken := p.2.taken ||| BitVec.ofNat 4 (2 ^ t) })
    else p) _ (fun p t => ?_) (m, e)
  dsimp only
  split <;> rfl

/-- Sending what waits changes the record of outputs and the events that wait. -/
theorem sendEvents_frame (m : Chip) : { m.sendEvents with out := m.out, mg := m.mg } = m := by
  unfold Chip.sendEvents
  have key : ∀ (l : List PlatEvent) (a : Chip × List PlatEvent), { a.1 with out := m.out } = m →
      { (l.foldl (fun (a : Chip × List PlatEvent) e => let b := a.1.sendPlat e; (b.1, a.2 ++ [b.2])) a).1 with out := m.out } = m := by
    intro l
    induction l with
    | nil => exact fun _ h => h
    | cons e l ih =>
      intro a h
      refine ih _ ?_
      have := sendPlat_frame a.1 e
      show { (a.1.sendPlat e).1 with out := m.out } = m
      exact (congrArg (fun c : Chip => { c with out := m.out }) this).trans h
  have := key m.mg.events (m, []) rfl
  exact congrArg (fun c : Chip => { c with mg := m.mg }) this

theorem tellState_frame (m : Chip) : m.tellState.regs = m.regs ∧ m.tellState.coaches = m.coaches ∧ m.tellState.mem = m.mem
    ∧ m.tellState.board = m.board ∧ m.tellState.dom = m.dom := by
  unfold Chip.tellState Chip.platform; split <;> simp

theorem syncRun_frame (m : Chip) (p : PageId) : (m.syncRun p).coaches = m.coaches ∧ (m.syncRun p).mem = m.mem
    ∧ (m.syncRun p).board = m.board ∧ (m.syncRun p).dom = m.dom := by
  unfold Chip.syncRun; dsimp only; split <;> simp [Chip.bumpGen]

end Sys2Proof.Machine
end

