-- ==== Sys2Proof/Laws/Regs.lean ====
section
/-! SUPPORT. Registers and their fields: what reading gives after a write. -/
namespace Sys2Proof.Machine

/-- Reading a register after one has been set. -/
theorem reg_setReg (m : Chip) (a : Nat) (v : W64) (b : Nat) :
    (m.setReg a v).reg b = if b = a then v else m.reg b := by
  unfold Chip.reg Chip.setReg; exact smapGet_set ..

@[simp] theorem reg_setReg_same (m : Chip) (a : Nat) (v : W64) : (m.setReg a v).reg a = v := by
  rw [reg_setReg]; simp

theorem reg_setReg_ne (m : Chip) {a b : Nat} (v : W64) (h : b ≠ a) : (m.setReg a v).reg b = m.reg b := by
  rw [reg_setReg]; simp [h]

theorem reg_setFld (m : Chip) (a : Nat) (f : Fld) (v b : Nat) :
    (m.setFld a f v).reg b = if b = a then f.put (m.reg a) v else m.reg b := reg_setReg ..

theorem reg_setFld_ne (m : Chip) {a b : Nat} (f : Fld) (v : Nat) (h : b ≠ a) : (m.setFld a f v).reg b = m.reg b :=
  reg_setReg_ne _ _ h

theorem reg_count (m : Chip) (a n b : Nat) :
    (m.count a n).reg b = if b = a then m.reg a + BitVec.ofNat 64 n else m.reg b := reg_setReg ..

theorem fld_setReg_ne (m : Chip) {a b : Nat} (v : W64) (f : Fld) (h : b ≠ a) : (m.setReg a v).fld b f = m.fld b f := by
  unfold Chip.fld; rw [reg_setReg_ne _ _ h]

/-- Two fields share no bit. -/
def Fld.apart (f g : Fld) : Prop := f.lo + f.len ≤ g.lo ∨ g.lo + g.len ≤ f.lo

theorem Fld.mask_bit (f : Fld) (i : Nat) (hi : i < 64) : f.mask.getLsbD i = decide (f.lo ≤ i ∧ i < f.lo + f.len) := by
  unfold Fld.mask
  simp only [BitVec.getLsbD_ofNat, hi, decide_true, Bool.true_and, Nat.testBit_mul_two_pow, Nat.testBit_two_pow_sub_one]
  by_cases h : f.lo ≤ i <;> simp [h] <;> omega

theorem Fld.get_bit (f : Fld) (w : W64) (i : Nat) :
    (f.get w).testBit i = (decide (i < f.len) && w.getLsbD (f.lo + i)) := by
  unfold Fld.get
  rw [Nat.testBit_mod_two_pow, Nat.testBit_div_two_pow, BitVec.getLsbD, Nat.add_comm]

theorem Fld.put_bit (f : Fld) (w : W64) (v i : Nat) (hi : i < 64) :
    (f.put w v).getLsbD i = if f.lo ≤ i ∧ i < f.lo + f.len then v.testBit (i - f.lo) else w.getLsbD i := by
  unfold Fld.put
  simp only [BitVec.getLsbD_or, BitVec.getLsbD_and, BitVec.getLsbD_not, f.mask_bit i hi, hi, decide_true, Bool.true_and,
    BitVec.getLsbD_ofNat, Nat.testBit_mul_two_pow, Nat.testBit_mod_two_pow]
  by_cases h1 : f.lo ≤ i <;> by_cases h2 : i < f.lo + f.len <;> simp [h1, h2] <;> omega

/-- A field holds what was put there. -/
theorem Fld.get_put (f : Fld) (w : W64) (v : Nat) (h : f.lo + f.len ≤ 64) : f.get (f.put w v) = v % 2 ^ f.len := by
  apply Nat.eq_of_testBit_eq
  intro i
  rw [f.get_bit, Nat.testBit_mod_two_pow]
  by_cases hi : i < f.len
  · rw [f.put_bit w v _ (by omega)]
    simp [hi]
  · simp [hi]

/-- A field that shares no bit with it holds what it held. -/
theorem Fld.get_put_apart (f g : Fld) (w : W64) (v : Nat) (h : f.lo + f.len ≤ 64) (ha : f.apart g) :
    f.get (g.put w v) = f.get w := by
  apply Nat.eq_of_testBit_eq
  intro i
  rw [f.get_bit, f.get_bit]
  by_cases hi : i < f.len
  · rw [g.put_bit w v _ (by omega)]
    have : ¬ (g.lo ≤ f.lo + i ∧ f.lo + i < g.lo + g.len) := by unfold Fld.apart at ha; omega
    simp [this]
  · simp [hi]

theorem fld_setFld (m : Chip) (a : Nat) (f : Fld) (v : Nat) (h : f.lo + f.len ≤ 64) :
    (m.setFld a f v).fld a f = v % 2 ^ f.len := by
  unfold Chip.fld Chip.setFld; rw [reg_setReg_same, f.get_put _ _ h]

theorem fld_setFld_apart (m : Chip) (a : Nat) (f g : Fld) (v : Nat) (h : f.lo + f.len ≤ 64) (ha : f.apart g) :
    (m.setFld a g v).fld a f = m.fld a f := by
  unfold Chip.fld Chip.setFld; rw [reg_setReg_same, f.get_put_apart _ _ _ h ha]

theorem fld_setFld_ne (m : Chip) {a b : Nat} (f g : Fld) (v : Nat) (h : b ≠ a) : (m.setFld a g v).fld b f = m.fld b f := by
  unfold Chip.fld; rw [reg_setFld_ne _ _ _ h]

end Sys2Proof.Machine
end

