-- ==== Sys2Proof/Laws/Idle.lean ====
section
/-! SUPPORT. What an idle step leaves alone: all but clocks, the counts of waits and what running commands do. -/
namespace Sys2Proof.Machine

/-- The registers that an idle step counts in by itself: waits of streams and ports, and codewords. -/
def idleKey (a : Nat) : Prop :=
  (∃ c : Fin 64, a = K.drayCreditWait c ∨ a = K.drayFreightWait c ∨ a = K.tlbMissWait c ∨ a = K.cmemBankWait c) ∨
    (∃ p : Fin 10, a = K.linkCreditWait p ∨ a = K.linkFecCorr p ∨ a = K.linkFecUncorr p)

/-! ### The running commands -/

theorem pages_filter {α : Type} (f : Nat × W64 → Option α) (p : Nat → Bool) (l : SMap W64) (h : ∀ e : Nat × W64, p e.1 = true → f e = none) :
    (smapErase p l).filterMap f = l.filterMap f := by
  unfold smapErase
  induction l with
  | nil => rfl
  | cons e t ih =>
    cases hp : p e.1 with
    | true => rw [List.filter_cons_of_neg (by simp [hp]), List.filterMap_cons_none (h e hp), ih]
    | false =>
      rw [List.filter_cons_of_pos (by simp [hp])]
      cases he : f e with
      | none => rw [List.filterMap_cons_none he, List.filterMap_cons_none he, ih]
      | some a => rw [List.filterMap_cons_some he, List.filterMap_cons_some he, ih]

theorem pages_insert {α : Type} (f : Nat × W64 → Option α) (k : Nat) (v : W64) (l : SMap W64) (h : f (k, v) = none) :
    (smapInsert k v l).filterMap f = l.filterMap f := by
  induction l with
  | nil => simp [smapInsert, h]
  | cons e t ih =>
    unfold smapInsert; split
    · rw [List.filterMap_cons_none h]
    · cases he : f e with
      | none => rw [List.filterMap_cons_none he, List.filterMap_cons_none he, ih]
      | some a => rw [List.filterMap_cons_some he, List.filterMap_cons_some he, ih]

/-- No page has its PAGE_CMD_STAT at `k`. -/
def noStat (k : Nat) : Prop := ∀ p, pageAt k = some p → k ≠ K.pageCmdStat p.base

theorem busyPages_setReg (m : Chip) (k : Nat) (v : W64) (h : noStat k) : (m.setReg k v).busyPages = m.busyPages := by
  have hn : ∀ e : Nat × W64, e.1 = k → (match pageAt e.1 with
      | some p => if e.1 = K.pageCmdStat p.base ∧ F.pageCmdStatBusy.bit e.2 then some p else none
      | none => (none : Option PageId)) = none := by
    rintro ⟨a, w⟩ rfl; dsimp only
    cases hp : pageAt a with
    | none => rfl
    | some p => exact if_neg fun hh => h p hp hh.1
  unfold Chip.busyPages Chip.setReg; dsimp only
  unfold smapSet; dsimp only; split
  · exact pages_filter _ _ _ fun e he => hn e (by simpa using he)
  · rw [pages_insert _ _ _ _ (hn (k, v) rfl)]; exact pages_filter _ _ _ fun e he => hn e (by simpa using he)

theorem idleKey_noStat (k : Nat) (h : idleKey k) : noStat k := by
  have h1 : ∀ c : Fin 64, ∀ k ∈ [K.drayCreditWait c, K.drayFreightWait c, K.tlbMissWait c, K.cmemBankWait c],
      (match pageAt k with | some p => decide (k ≠ K.pageCmdStat p.base) | none => true) = true := by decide
  have h2 : ∀ c : Fin 10, ∀ k ∈ [K.linkCreditWait c, K.linkFecCorr c, K.linkFecUncorr c],
      (match pageAt k with | some p => decide (k ≠ K.pageCmdStat p.base) | none => true) = true := by decide
  have g : (match pageAt k with | some p => decide (k ≠ K.pageCmdStat p.base) | none => true) = true := by
    rcases h with ⟨c, h⟩ | ⟨c, h⟩
    · exact h1 c k (by simpa using h)
    · exact h2 c k (by simpa using h)
  intro p hp; rw [hp] at g; simpa using g

/-! ### The waits -/

/-- `a` is `m` but for the registers that an idle step counts in. -/
structure IdleEq (m a : Chip) : Prop where
  busy : a.busyPages = m.busyPages
  mem : a.mem = m.mem
  cm : a.cm = m.cm
  coaches : a.coaches = m.coaches
  board : a.board = m.board
  sh : a.sh = m.sh
  errq : a.errq = m.errq
  chocks : a.chocks = m.chocks
  dom : a.dom = m.dom
  mg : a.mg = m.mg
  sf : a.sf = m.sf
  xlat : a.xlat = m.xlat
  reg : ∀ k, ¬ idleKey k → a.reg k = m.reg k

theorem IdleEq.refl (m : Chip) : IdleEq m m := by constructor <;> (intros; rfl)

theorem IdleEq.trans {m a b : Chip} (h : IdleEq m a) (g : IdleEq a b) : IdleEq m b := by
  constructor
  · rw [g.busy, h.busy]
  · rw [g.mem, h.mem]
  · rw [g.cm, h.cm]
  · rw [g.coaches, h.coaches]
  · rw [g.board, h.board]
  · rw [g.sh, h.sh]
  · rw [g.errq, h.errq]
  · rw [g.chocks, h.chocks]
  · rw [g.dom, h.dom]
  · rw [g.mg, h.mg]
  · rw [g.sf, h.sf]
  · rw [g.xlat, h.xlat]
  · intro k hk; rw [g.reg k hk, h.reg k hk]

theorem IdleEq.count (m : Chip) (k n : Nat) (hk : idleKey k) : IdleEq m (m.count k n) := by
  constructor <;> try rfl
  · exact busyPages_setReg m k _ (idleKey_noStat k hk)
  intro j hj; rw [reg_count]; rw [if_neg]; rintro rfl; exact hj hk

theorem IdleEq.next (m : Chip) : IdleEq m m.next := by constructor <;> (intros; rfl)

theorem IdleEq.countIf (m : Chip) (b : Bool) (k n : Nat) (hk : idleKey k) : IdleEq m (m.countIf b k n) := by
  unfold Chip.countIf; split
  · exact .count m k n hk
  · exact .refl m

theorem IdleEq.coachWaits (m : Chip) (n : Nat) (c : Fin 64) : IdleEq m (m.coachWaits n c) := by
  unfold Chip.coachWaits; dsimp only
  exact ((IdleEq.countIf _ _ _ _ (.inl ⟨c, .inl rfl⟩)).trans (IdleEq.countIf _ _ _ _ (.inl ⟨c, .inr (.inl rfl)⟩))).trans (IdleEq.countIf _ _ _ _ (.inl ⟨c, .inr (.inr (.inl rfl))⟩))

theorem IdleEq.portWaits (m : Chip) (n : Nat) (p : Fin 10) : IdleEq m (m.portWaits n p) := by
  unfold Chip.portWaits; dsimp only
  have h1 := IdleEq.countIf m (m.creditShort p) (K.linkCreditWait p) n (.inr ⟨p, .inl rfl⟩)
  split
  · exact (((h1.trans (.next _)).trans (.next _)).trans (.count _ _ _ (.inr ⟨p, .inr (.inl rfl)⟩))).trans (.count _ _ _ (.inr ⟨p, .inr (.inr rfl)⟩))
  · exact h1

theorem IdleEq.bankWaits (m : Chip) (c : Fin 64) : IdleEq m (m.bankWaits c) := by
  unfold Chip.bankWaits; split
  · exact (IdleEq.next _).trans (.count _ _ _ (.inl ⟨c, .inr (.inr (.inr rfl))⟩))
  · exact .refl m

theorem IdleEq.foldl {α : Type} (f : Chip → α → Chip) (l : List α) (h : ∀ m, ∀ x ∈ l, IdleEq m (f m x)) (m : Chip) : IdleEq m (l.foldl f m) := by
  induction l generalizing m with
  | nil => exact .refl m
  | cons x t ih => exact (h m x (List.mem_cons_self)).trans (ih (fun m y hy => h m y (List.mem_cons_of_mem _ hy)) _)

theorem waited_idleEq (m : Chip) : IdleEq m (m.waited) := by
  unfold Chip.waited
  refine ((IdleEq.foldl _ _ (fun a c _ => .coachWaits a _ c) m).trans (IdleEq.foldl _ _ (fun a p hp => ?_) _)).trans (IdleEq.foldl _ _ (fun a c _ => .bankWaits a c) _)
  exact IdleEq.portWaits a _ ⟨p, by simpa using hp⟩

theorem working_quiet (m : Chip) (h : m.busyPages = []) : m.working = m := by
  unfold Chip.working; rw [h, List.foldl_nil]

theorem idle_eq (m w : Chip) (e : m.waited.working = w) :
    m.idle = Chip.next (Chip.sendEvents (Chip.stageTime { w with dom := m.clocksTick.dom } (m.counter 32))) := by
  subst e; rfl

theorem waited_quiet (m : Chip) (h : m.busyPages = []) : m.waited.working = m.waited :=
  working_quiet m.waited ((waited_idleEq m).busy.trans h)

/-- While no command runs, an idle step changes clocks, those counts, TIMER and the platform events that wait alone. -/
theorem idle_quiet (m : Chip) (h : m.busyPages = []) :
    m.idle = Chip.next (Chip.sendEvents (Chip.stageTime { m.waited with dom := m.clocksTick.dom } (m.counter 32))) :=
  idle_eq m m.waited (waited_quiet m h)

/-- Draining the event log changes the log of the flash and what waits for it alone. -/
theorem drainLog_cases (n : Nvm) (m : Chip) : ∃ (l : List EvtEntry) (w : List EvtEntry),
    drainLog n m = ({ n with log := l }, { m with mg := { m.mg with logWait := w } }) := by
  unfold drainLog; split
  · exact ⟨n.log, m.mg.logWait, rfl⟩
  · exact ⟨_, [], rfl⟩

theorem drainLog_frame (n : Nvm) (m : Chip) : (drainLog n m).1.arb = n.arb ∧ (drainLog n m).1.sig = n.sig
    ∧ (drainLog n m).2.dom = m.dom ∧ (drainLog n m).2.regs = m.regs ∧ (drainLog n m).2.mem = m.mem ∧ (drainLog n m).2.cm = m.cm
    ∧ (drainLog n m).2.coaches = m.coaches ∧ (drainLog n m).2.board = m.board ∧ (drainLog n m).2.sh = m.sh
    ∧ (drainLog n m).2.errq = m.errq ∧ (drainLog n m).2.chocks = m.chocks := by
  obtain ⟨l, w, e⟩ := drainLog_cases n m
  rw [e]; exact ⟨rfl, rfl, rfl, rfl, rfl, rfl, rfl, rfl, rfl, rfl, rfl⟩

end Sys2Proof.Machine
end

