-- ==== Sys2Proof/Laws/Insn.lean ====
section
/-! SUPPORT. One instruction of the Ongild core: when it is due its boundary is reached, its plan is that of its
semantic function, and carrying the plan out is the whole of the command. -/
namespace Sys2Proof.Machine

/-! ### An instruction boundary touches no coach and no control memory -/

theorem sendMsix_coaches (m : Chip) (f v : Nat) : (m.sendMsix f v).coaches = m.coaches := by
  unfold Chip.sendMsix; dsimp only; split <;> (try split) <;> (try split) <;> rfl
theorem sendMsix_cm (m : Chip) (f v : Nat) : (m.sendMsix f v).cm = m.cm := by
  unfold Chip.sendMsix; dsimp only; split <;> (try split) <;> (try split) <;> rfl
theorem pageMessage_coaches (m : Chip) (p : PageId) : (m.pageMessage p).coaches = m.coaches := by
  unfold Chip.pageMessage; dsimp only; split
  · unfold Chip.emit; dsimp only; rw [sendMsix_coaches]
  · rw [sendMsix_coaches]
theorem pageMessage_cm (m : Chip) (p : PageId) : (m.pageMessage p).cm = m.cm := by
  unfold Chip.pageMessage; dsimp only; split
  · unfold Chip.emit; dsimp only; rw [sendMsix_cm]
  · rw [sendMsix_cm]
theorem event_coaches (m : Chip) (p : PageId) (i : Nat) : (m.event p i).coaches = m.coaches := by
  unfold Chip.event; dsimp only; split
  · rfl
  · split
    · rw [pageMessage_coaches]; rfl
    · rfl
theorem event_cm (m : Chip) (p : PageId) (i : Nat) : (m.event p i).cm = m.cm := by
  unfold Chip.event; dsimp only; split
  · rfl
  · split
    · rw [pageMessage_cm]; rfl
    · rfl
theorem applyStaged_coaches (m : Chip) (p : PageId) : (m.applyStaged p).coaches = m.coaches := by
  unfold Chip.applyStaged; split
  · unfold Chip.bumpGen Chip.count; rw [setReg_coaches, event_coaches]
    exact foldl_frame (fun m : Chip => m.coaches) (fun (m : Chip) (e : Nat × W64) => m.setReg e.1 e.2) _ (fun _ _ => rfl) m
  · rfl
theorem applyStaged_cm (m : Chip) (p : PageId) : (m.applyStaged p).cm = m.cm := by
  unfold Chip.applyStaged; split
  · unfold Chip.bumpGen Chip.count; rw [setReg_cm, event_cm]
    exact foldl_frame (fun m : Chip => m.cm) (fun (m : Chip) (e : Nat × W64) => m.setReg e.1 e.2) _ (fun _ _ => rfl) m
  · rfl
theorem tally_ctx (m : Chip) (x : Ctx) (y : Ctx) : (m.tallyBoundary x).ctx y = m.ctx y := by
  unfold Chip.ctx Chip.coach Chip.tallyBoundary; rw [applyStaged_coaches]
theorem tally_fetch (m : Chip) (x : Ctx) (a : Nat) : (m.tallyBoundary x).fetchWord x a = m.fetchWord x a := by
  unfold Chip.fetchWord; rw [tally_ctx]; unfold Chip.cmWord Chip.tallyBoundary; rw [applyStaged_cm]

theorem insn_due {m : Chip} {x : Ctx} {o : Op} (h : Due m x o) (p : Op → Bool) (hp : p o = true) :
    insn x p m = m.execute x := by
  unfold insn; simp [h.running, h.clocked, h.free, h.word, hp]

theorem planOf_due {m : Chip} {x : Ctx} {o : Op} (h : Due m x o) (hs : ∀ n, o ≠ .syscall n) :
    (m.tallyBoundary x).planOf x = runOp o (m.tallyBoundary x) x := by
  unfold Chip.planOf; dsimp only; rw [tally_ctx, tally_fetch, h.word]
  have h1 := h.legal; have h2 := h.allowed
  simp only [h1, h2]
  cases o <;> first | exact absurd rfl (hs _) | rfl

theorem lenOf_due {m : Chip} {x : Ctx} {o : Op} (h : Due m x o) : (m.tallyBoundary x).lenOf x = o.len := by
  unfold Chip.lenOf; rw [tally_ctx, tally_fetch, h.word]

theorem withStacks_ok {m : Chip} {x : Ctx} {nd nr : Nat} {b : Bank} (h : m.filledTo x nd nr b) (f : Bank → Plan) :
    m.withStacks x nd nr f = f b := by
  obtain ⟨h1, h2, b1, h3, h4⟩ := h
  unfold Chip.withStacks; simp [Nat.not_lt.mpr h1, Nat.not_lt.mpr h2, h3, h4]

theorem execute_done {m : Chip} {x : Ctx} {o : Op} (h : Due m x o) (hs : ∀ n, o ≠ .syscall n) {b : Bank} {c : Bool} {upd : Chip → Chip} {nx : Next}
    (hp : runOp o (m.tallyBoundary x) x = .done b c upd nx) {m' : Chip}
    (hf : (m.tallyBoundary x).completed x b c upd o.len nx = some m') : m.execute x = m' := by
  unfold Chip.execute; dsimp only; rw [planOf_due h hs, hp]
  unfold Chip.carry; unfold Chip.completed at hf; dsimp only
  rw [lenOf_due h]
  split at hf
  · rename_i r hr; rw [hr]; simpa using hf
  · cases hf

theorem exec_done {s : State} {x : Ctx} {o : Op} {p : Op → Bool} (h : Due s.chip x o) (hp : p o = true)
    (hs : ∀ n, o ≠ .syscall n) {b : Bank} {c : Bool} {upd : Chip → Chip} {nx : Next}
    (hr : runOp o (s.chip.tallyBoundary x) x = .done b c upd nx) {m' : Chip}
    (hf : (s.chip.tallyBoundary x).completed x b c upd o.len nx = some m') :
    onChip (insn x p) s = .next { s with chip := m' } := by
  unfold onChip; rw [insn_due h p hp, execute_done h hs hr hf]

theorem completes {i : Sys2Proof.Instr} {s : State} {x : Ctx} {o : Op} {p : Op → Bool} {b : Bank} {c : Bool} {upd : Chip → Chip} {nx : Next} {len : Nat}
    (h : Due s.chip x o) (he : exec i s = onChip (insn x p) s) (hp : p o = true) (hs : ∀ n, o ≠ .syscall n)
    (hr : runOp o (s.chip.tallyBoundary x) x = .done b c upd nx) (hl : o.len = len) : Completes i s x b c upd len nx := by
  intro m' hf; rw [he]; subst hl; exact exec_done h hp hs hr hf

theorem starts {i : Sys2Proof.Instr} {s : State} {x : Ctx} {o : Op} {p : Op → Bool} {b : Bank} {upd : Chip → Chip}
    (h : Due s.chip x o) (he : exec i s = onCoach x.coach (insn x p) s) (hp : p o = true) (hs : ∀ n, o ≠ .syscall n)
    (hr : runOp o (s.chip.tallyBoundary x) x = .done b (s.chip.ctx x).status.c upd .seq) (hl : o.len = 1) : Starts i s x b upd := by
  intro m' hf; rw [he]; unfold onCoach onChip
  have hc : s.chip.domRuns (coachDomain x.coach.val) = true := h.clocked
  have := execute_done h hs hr (by rw [hl]; exact hf)
  simp only [hc, if_true, insn_due h p hp, this]; rfl

theorem goes {i : Sys2Proof.Instr} {s : State} {x : Ctx} {o : Op} {p : Op → Bool} {q : Plan}
    (h : Due s.chip x o) (he : exec i s = onChip (insn x p) s) (hp : p o = true) (hs : ∀ n, o ≠ .syscall n)
    (hr : runOp o (s.chip.tallyBoundary x) x = q) : exec i s = .next (s.on (((s.chip.tallyBoundary x).carry x q))) := by
  rw [he]; unfold onChip; rw [insn_due h p hp]; unfold Chip.execute; dsimp only; rw [planOf_due h hs, hr]; rfl

theorem goesCoach {i : Sys2Proof.Instr} {s : State} {x : Ctx} {o : Op} {p : Op → Bool} {q : Plan}
    (h : Due s.chip x o) (he : exec i s = onCoach x.coach (insn x p) s) (hp : p o = true) (hs : ∀ n, o ≠ .syscall n)
    (hr : runOp o (s.chip.tallyBoundary x) x = q) : exec i s = .next (s.on (((s.chip.tallyBoundary x).carry x q).syncCoach x.coach)) := by
  rw [he]; unfold onCoach onChip
  have hc : s.chip.domRuns (coachDomain x.coach.val) = true := h.clocked
  simp only [hc, if_true, insn_due h p hp]; unfold Chip.execute; dsimp only; rw [planOf_due h hs, hr]; rfl

end Sys2Proof.Machine
end

