-- ==== Sys2Proof/Tests/Slice0.lean ====
section
/-! SUPPORT. Small checks of the model: terms that the form check refuses, values that the spec gives worked out by hand,
and for every statement with hypotheses a state and operands that meet them. -/
set_option maxRecDepth 100000
namespace Sys2Proof.Tests
open Sys2Proof Sys2Proof.Machine

/-- A small state: the reset state with its chip changed. -/
def st (f : Chip → Chip) : State := { State.reset with chip := f Chip.reset }

/-- The chip after a command that answers a next state. -/
def after (o : Host.Outcome State Fault Refusal) : Chip :=
  match o with
  | .next t => t.chip
  | _ => Chip.reset

def brd (f : Board → Board) (m : Chip) : Chip := m.modBoard f

/-- Power is up, start-up stands at step `n`. -/
def atStep (n : Nat) (m : Chip) : Chip :=
  (m.modBoard fun b => { b with vstby33 := true, vin48 := true, mainGood := true, hubRails := decide (3 ≤ n), coreRails := decide (5 ≤ n), por := false }).setFld K.rstBootStat F.rstBootStatPhase n

/-- The module runs: every clock, every page, the ostler. -/
def up (m : Chip) : Chip :=
  let m1 := (atStep 8 m).setFld K.rstBootStat F.rstBootStatReady 1
  (m1.clocks (fun _ => true) true).modBoard fun b =>
    { b with ostlerUp := true, perst0N := true, coolLeakN := true, jtagTrstN := true }

/-- The first context of the machine and its coach. -/
def x0 : Ctx := ⟨0, false⟩

/-- Context 0 runs at supervisor level. -/
def live (m : Chip) : Chip := m.modCtx x0 fun k => { k with st := .running, status := { k.status with lvl := true } }

/-- A write of physical function 0. -/
def wr (off size : Nat) (v : W64) : Wr := ⟨0x1000, off, size, v, none⟩

def eight : List Byte := [1, 2, 3, 4, 5, 6, 7, 8]

def pkt (t : PktType) (n : Nat) (d : List Byte) : Packet := ⟨t, false, 1, 0, 0, 0, 0, 0, 0, 0, 0, n, d⟩

/-- Its words on a link, numbered 0. -/
def wire (t : PktType) (n : Nat) (d : List Byte) : Flits := (pkt t n d).flits 0

/-- A write passes every check of R71 on its page. -/
def taken (m : Chip) (w : Wr) (p : PageId) : Bool :=
  decide (pageAt w.off = some p) && decide (m.stalledLink w.m = none) && decide (m.judge w (m.heldChange w) = .accepted)

theorem taken_sound {m : Chip} {w : Wr} {p : PageId} (h : taken m w p = true) : Taken m w p := by
  simp only [taken, Bool.and_eq_true, decide_eq_true_eq] at h; exact ⟨h.1.1, h.1.2, h.2⟩

/-- A write by a master that may also be the debugger, the ostler, a stream or a context. -/
def wrBy (k : BitVec 16) (off size : Nat) (v : W64) (gen : Option W64) : Wr := ⟨k, off, size, v, gen⟩

/-- Context 0 about to run the words at address 0, at supervisor level. -/
def prog (l : List W16) (ds rs : List W16) : State :=
  st fun m => (live ((up m).setCms 0 0 l)).modCtx x0 fun k => k.setBank { k.bank with ds := ds, rs := rs }

/-- What `Due` asks. -/
def due (m : Chip) (x : Ctx) (o : Op) : Bool :=
  decide ((m.ctx x).st = .running) && m.coachOn x.coach && decide (m.boundary x = .go) &&
    decide (decodeOp (m.fetchWord x (m.ctx x).pc.toNat) = some o) && !((m.ctx x).status.shadow && o.engine) &&
    !(!(m.ctx x).status.lvl && o.priv)

theorem due_sound {m : Chip} {x : Ctx} {o : Op} (h : due m x o = true) : Due m x o := by
  simp only [due, Bool.and_eq_true, decide_eq_true_eq, Bool.not_eq_true'] at h
  obtain ⟨⟨⟨⟨⟨h1, h2⟩, h3⟩, h4⟩, h5⟩, h6⟩ := h
  exact ⟨h1, h2, h3, h4, h5, h6⟩

/-- What `Chip.filledTo` asks. -/
def filled (m : Chip) (x : Ctx) (nd nr : Nat) (b : Bank) : Bool :=
  decide (nd ≤ (m.ctx x).bank.depth) && decide (nr ≤ (m.ctx x).bank.rdepth) &&
    (match m.fillData x nd (m.ctx x).bank 5 with
     | .ok b1 => (match m.fillReturn x nr b1 5 with | .ok b2 => b2 == b | .error _ => false)
     | .error _ => false)

theorem filled_sound {m : Chip} {x : Ctx} {nd nr : Nat} {b : Bank} (h : filled m x nd nr b = true) : m.filledTo x nd nr b := by
  unfold filled at h; simp only [Bool.and_eq_true, decide_eq_true_eq] at h
  obtain ⟨⟨h1, h2⟩, h3⟩ := h
  refine ⟨h1, h2, ?_⟩
  split at h3
  · rename_i b1 e1
    split at h3
    · rename_i b2 e2; rw [beq_iff_eq] at h3; subst h3; exact ⟨b1, e1, e2⟩
    · simp at h3
  · simp at h3

/-- The stacks and C of context 0 after the instruction at its PC. -/
def ran (i : Sys2Proof.Instr) (s : State) : List W16 × List W16 × Bool × W16 :=
  let k := (after (exec i s)).ctx x0
  (k.bank.ds, k.bank.rs, k.status.c, k.pc)

def dueIn (o : Op) (extra ds rs : List W16) : Bool := due (prog (encodeOp o :: extra) ds rs).chip x0 o

/-- The same at user level, with words 0 to 15 in range. -/
def progU (l : List W16) (ds rs : List W16) : State :=
  let s := prog l ds rs;
  { s with chip := s.chip.modCtx x0 fun k => { k with status := { k.status with lvl := false }, clim := 15 } }

/-- The first context with a change. -/
def ctx0 (l : List W16) (f : Context → Context) : Chip := (prog l [] []).chip.modCtx x0 f

def atBoundary (m : Chip) (x : Ctx) : Bool :=
  decide ((m.ctx x).st = .running ∨ (m.ctx x).st = .waiting) && m.coachOn x.coach && decide ((m.ctx x).entering = none) && !(m.ctx x).hubDue &&
    (m.ctx x).inRange (m.ctx x).pc.toNat && (m.ctx x).inRange ((m.ctx x).pc + 1).toNat

theorem atBoundary_sound {m : Chip} {x : Ctx} (h : atBoundary m x = true) : AtBoundary m x := by
  simp only [atBoundary, Bool.and_eq_true, decide_eq_true_eq, Bool.not_eq_true'] at h
  obtain ⟨⟨⟨⟨⟨h1, h2⟩, h3⟩, h4⟩, h5⟩, h6⟩ := h
  exact ⟨h1, h2, h3, h4, h5, fun _ => h6⟩

/-- A command write of physical function 0. -/
def go (a : Nat) : Launch := ⟨0x1000, 7, BitVec.ofNat 48 a, none⟩

/-- A command's write passes the checks of R71. -/
def open' (m : Chip) (p : PageId) (code a : Nat) : Bool := decide (m.judge ((go a).wr p code) false = .accepted)

/-- Host link 0 is up. -/
def link0 (m : Chip) : Chip := (up m).setReg (K.hostifLinkStat 0) 1

def wTask : Vector W64 8 := #v[1, 0x1000, 0x12000FF0010, 0x80004000004000, 0xFFFFFFFFFFFFFFFF, 0, 0, 0]

def en (w : Vector W64 8) : SEntry := ⟨0, 0, 0, w, 0, false, 0⟩

/-- The shunter runs with these entries and tasks. -/
def shunt (es : List SEntry) (ts : List Task) (m : Chip) : Chip :=
  let m1 := (link0 m).setFld K.shuntShuntCtl F.shuntShuntCtlEn 1;
  (m1.setReg (K.doorbellQctl 0) 1).modShunt fun s => { s with entries := es, tasks := ts, last := 1023 }

def task (s : TaskState) (prio : Nat) : Task := { (up Chip.reset).taskOf (en wTask) 5 with st := s, prio := prio }

/-- Context 0 runs task 5 beside what `f` changes. -/
def taskRun (ts : List Task) (f : Context → Context) (m : Chip) : Chip :=
  (((shunt [] ts m).setReg (K.shuntCoachCfg 0) (F.shuntCoachCfgEn.put 0 1)).modCtx x0 fun k => f { k with st := .running, task := 5 })

/-- Port 0 is up and the couplings are on, with peer 0 enabled. -/
def port0 (m : Chip) : Chip :=
  ((((up m).setReg (K.linkPortStat 0) (F.linkPortStatUp.put 0 1)).setReg (K.coupleCplCfg 0) 1).setReg (K.couplePeerCtl 0 0) (F.couplePeerCtlV.put 0 1))

def stg (n : Nat) (f : StageCtl → StageCtl) (m : Chip) : Chip :=
  ((up m).setFld K.stageStageStat F.stageStageStatState n).modStg f

def ev0 (c : Nat) : RecEvent := (up Chip.reset).recEvent c 0x8005 0 32

/-- A message of one packet to this module on transport `t`. -/
def msg (t : Fin 4) : Mctp := ⟨t, if t.val < 2 then 0x58 else 8 * (t.val - 2), true, 64, 1, true⟩

/-! ### The form check refuses what no sender can send -/

theorem test_wf_refuses_registers :
    Instr.wf (.registerWrite (wr 0x08000000 8 0)) = false ∧ Instr.wf (.registerWrite (wr 0 0 0)) = false ∧
    Instr.wf (.registerWrite (wr 0 65 0)) = false ∧ Instr.wf (.readToClear 0x8005 0x08000000 8) = false ∧
    Instr.wf (.cmData (.read 0x8005 0x08000000 8)) = false ∧ Instr.wf (.vregData (.read 0x8005 0 0)) = false ∧
    Instr.wf (.obufData (.write (wr 0x08000000 8 0))) = false ∧ Instr.wf (.dbgAccess (.read 0x7000 0 65)) = false ∧
    Instr.wf (.commandEnd ⟨.coach, 64⟩) = false := by decide

theorem test_wf_refuses_register_rows :
    ([.evtEnableWrite, .errPop, .discard, .chockRelease, .evSet, .partWrite, .faultQEnable, .descIn, .doorbell, .qctlEnable,
      .ctxDone, .coupleEntryWrite] : List (Wr → Sys2Proof.Instr)).all (fun i => !(i (wr 0x08000000 8 0)).wf && (i (wr 0x0FFFFF8 8 0)).wf)
      = true := by decide

theorem test_wf_refuses_data :
    Instr.wf (.cmemFabricAccess 0x8005 3 0 8 (some [])) = false ∧ Instr.wf (.cmemFabricAccess 0x8005 0 0 8 none) = false ∧ Instr.wf (.depotAccess 0x8005 1 0 8 (some []) false false) = false ∧
    Instr.wf (.depotAccess 0x8005 0 0 8 none false false) = false ∧ Instr.wf (.depotAccess 0x8005 5 0 8 none false false) = false ∧
    Instr.wf (.hostBar2Access 0 0 8 (some [0])) = false ∧ Instr.wf (.hbmWrite 0x8005 0 (List.replicate 65 0) (0, 0)) = false ∧
    Instr.wf (.invalMulticast 0 0 (List.replicate 4097 0)) = false := by decide

theorem test_wf_refuses_links :
    Instr.wf (.hostLinkUp 0 0 16 false) = false ∧ Instr.wf (.hostLinkUp 0 7 3 true) = false ∧
    Instr.wf (.selfanWrite 0 (wire .read 8 [])) = false ∧ Instr.wf (.selfanWrite 0 (wire .write 8 [])) = false ∧
    Instr.wf (.selfanRead 0 (wire .read 8 [0])) = false ∧ Instr.wf (.selfanWriteRsp 0 (wire .writeRsp 0 [0])) = false ∧
    Instr.wf (.selfanReadRsp 0 (wire .readRsp 8 [])) = false ∧ Instr.wf (.selfanRead 0 (wire .writeRsp 8 [])) = false ∧
    Instr.wf (.getPldmVersion (msg 0) 64) = false ∧ Instr.wf (.getPldmCommands (msg 0) 64) = false := by decide

theorem test_wf_allows :
    Instr.wf (.registerWrite (wr 0x07FFFFF8 8 0)) = true ∧ Instr.wf (.selfanWrite 0 (wire .write 8 eight)) = true ∧
    Instr.wf (.hostLinkUp 1 6 16 true) = true ∧ Instr.wf (.depotAccess 0x8005 4 0 1 (some [0]) false false) = true ∧
    Instr.wf (.commandEnd ⟨.coach, 63⟩) = true ∧ Instr.wf (.getPldmVersion (msg 2) 63) = true := by decide

/-! ### Start-up: states that meet the hypotheses -/

theorem witness_IdleStepTicksTheClocks : State.reset.pending = [] := by decide

theorem witness_NonVolatileCountersNeverFall : ∃ t, step State.reset = .next t := ⟨_, rfl⟩

theorem witness_PowerOnResetClearsTheModule : (st (brd fun b => { b with vstby33 := false })).chip.board.vstby33 = false ∧ (st up).chip.board.vstby33 = true := by decide

theorem witness_PowerComesUp :
    (let b := (st (brd fun b => { b with vstby33 := true })).chip.board; b.vstby33 = true ∧ b.por = true) ∧
    (let b := (st (brd fun b => { b with vstby33 := true, por := false })).chip.board;
      b.vstby33 = true ∧ b.por = false ∧ b.mainGood = false ∧ b.inReset = false) ∧
    (let b := (st (brd fun b => { b with vstby33 := true, por := false, inReset := true })).chip.board;
      b.vstby33 = true ∧ b.por = false ∧ b.mainGood = false ∧ b.inReset = true) ∧ (40000 ≤ 44999 ∧ 44999 < 45000) ∧
    (let b := (brd (fun b => { b with coolLeakN := false }) Chip.reset).board; b.perst0N = false ∧ b.coolLeakN = false) ∧
    (let m := up Chip.reset; m.warnClears 21 44501 = true ∧ m.warnClears 21 44500 = false ∧ m.warnClears 18 769 = true ∧
      m.warnClears 18 768 = false) ∧
    (let b := (brd (fun b => { b with inReset := true, mainGood := true, coolLeakN := true }) Chip.reset).board;
      b.inReset = true ∧ b.causes = [] ∧ b.mainGood = true ∧ b.coolLeakN = true) := by decide

theorem witness_StartupStepsInOrder :
    (atStep 2 Chip.reset).atStep 2 = true ∧
    (let m := atStep 3 Chip.reset; m.atStep 3 = true ∧ m.board.ostlerUp = false ∧ m.board.straps.getLsbD 1 = false ∧
      m.flag K.rstBootStat F.rstBootStatBootFail = false) ∧
    (let m := brd (fun b => { b with straps := 2 }) (atStep 3 Chip.reset); m.atStep 3 = true ∧ m.board.ostlerUp = false ∧
      m.board.straps.getLsbD 1 = true ∧ m.flag K.rstBootStat F.rstBootStatBootFail = false) ∧
    ((⟨true⟩ : Verdict).intact = true ∧ Nvm.reset.goodA ∧ Nvm.reset.goodB) ∧ (⟨false⟩ : Verdict).intact = false ∧
    (let n : Nvm := { Nvm.reset with arb := 1 }; n.checkA.svn.val < n.arb) ∧
    (let m := (brd (fun b => { b with coolLeakN := true }) ((atStep 4 Chip.reset).setReg K.coolCoolStat (F.coolCoolStatCduOk.put (F.coolCoolStatTIn.put
        (F.coolCoolStatFlow.put 0 50) 400) 1))).modPwr fun q => { q with cduIn := true };
      m.atStep 4 = true ∧ m.pwr.cduIn = true ∧ m.board.ramping = false ∧ m.board.coolLeakN = true ∧ 50 ≤ m.fld K.coolCoolStat F.coolCoolStatFlow ∧
      m.flag K.coolCoolStat F.coolCoolStatCduOk = true ∧ (BitVec.ofNat 16 (m.fld K.coolCoolStat F.coolCoolStatTIn)).toInt = 400) ∧
    (let m := brd (fun b => { b with ramping := true }) (atStep 4 Chip.reset); m.atStep 4 = true ∧ m.board.ramping = true) ∧
    (atStep 5 Chip.reset).atStep 5 = true ∧ (atStep 5 Chip.reset).pwr.stops = [] ∧ (atStep 6 Chip.reset).atStep 6 = true ∧ (atStep 7 Chip.reset).atStep 7 = true := by
  unfold Nvm.goodA Nvm.goodB; refine ⟨by decide, by decide, by decide, by decide, by decide, by decide, ?_⟩; decide

theorem witness_StartupFailuresHold :
    (let m := brd (fun b => { b with coolLeakN := false }) ((atStep 4 Chip.reset).setFld K.rstBootStat F.rstBootStatCoolHold 1);
      m.atStep 4 = true ∧ m.flag K.rstBootStat F.rstBootStatCoolHold = true ∧ m.board.ramping = false ∧ m.board.coolLeakN = false) ∧
    (let m := brd (fun b => { b with ramping := true }) (atStep 4 Chip.reset); m.atStep 4 = true ∧ m.board.ramping = true) ∧
    (let m := atStep 2 Chip.reset; m.atStep 2 = true) ∧ (let m := atStep 5 Chip.reset; m.atStep 5 = true) ∧
    (let m := atStep 3 Chip.reset; m.atStep 3 = true ∧ m.board.ostlerUp = false ∧ m.board.straps.getLsbD 1 = false ∧
      m.flag K.rstBootStat F.rstBootStatBootFail = false) ∧
    F.rstBootStatBootFail ∈ [F.rstBootStatBootFail, F.rstBootStatRailFail, F.rstBootStatHbmFail, F.rstBootStatCoolFail] ∧
    ((⟨false⟩ : Verdict).intact = false) ∧ (atStep 5 Chip.reset).pwr.stops = [] ∧
    (let m := (atStep 4 Chip.reset).setReg K.coolCoolStat (F.coolCoolStatCduOk.put (F.coolCoolStatTIn.put (F.coolCoolStatFlow.put 0 50) 401) 1);
      m.board.ramping = false ∧ m.pwr.cduIn = false ∧ 400 < (BitVec.ofNat 16 (m.fld K.coolCoolStat F.coolCoolStatTIn)).toInt) ∧
    (let m := (atStep 4 Chip.reset).setReg K.coolCoolStat (F.coolCoolStatFlow.put 0 49);
      m.fld K.coolCoolStat F.coolCoolStatFlow < 50 ∧ m.flag K.coolCoolStat F.coolCoolStatCduOk = false) := by decide

/-- Temperatures with the hub at its trip limit. -/
def hotTemps : Temps := { die := Vector.replicate 4 400, hub := 1100, stack := Vector.replicate 16 400, inlet := 300, outlet := 300, body := 300 }

theorem witness_ModuleCausesEnterModuleReset :
    (let m := up Chip.reset; m.board.vstby33 = true ∧ m.board.por = false ∧ m.board.inReset = false ∧ m.board.perst0N = true ∧ m.board.vin48 = true ∧
      m.board.jtagTrstN = true ∧ m.watched 20 = true ∧ 100 * 1583 < 88 * m.setPoint 20) ∧
    (let m : Chip := { up Chip.reset with pwr := { Power.reset with stops := [.leak] } }; m.pwr.stops = [.leak] ∧ m.board.por = false) ∧
    (let m := ((up Chip.reset).setFld K.secSecStat F.secSecStatDbgUnlocked 1).setReg K.secSecStat 0xF; m.permitted 0 = true) ∧
    (let m := brd (fun b => { b with inReset := true, causes := [.sag48] }) (up Chip.reset); m.board.vstby33 = true ∧ m.board.por = false ∧ m.board.inReset = true ∧ m.board.perst0N = true ∧
      m.board.vin48 = true ∧ m.board.coolLeakN = true) ∧ 1100 ≤ hotTemps.hub := by decide

theorem witness_HostLinksComeAndGo :
    (let m := up Chip.reset; m.hasLink 0 = true ∧ m.domRuns 21 = true ∧ m.perstHigh 0 = true ∧ m.training 0 = false) ∧
    (let m := brd (fun b => { b with train0 := true }) (up Chip.reset); m.training 0 = true ∧ m.linkUp 0 = false ∧
      16 ∈ (if m.bifur then [1, 2, 4, 8] else [1, 2, 4, 8, 16])) ∧
    (let m := (up Chip.reset).setReg (K.hostifLinkStat 0) 1; m.hasLink 0 = true ∧ m.linkUp 0 = true) ∧
    (let m := up Chip.reset; m.board.perst1N = false ∧ m.bifur = false) ∧
    (let m := brd (fun b => { b with straps := 1 }) (up Chip.reset); m.board.perst1N = false ∧ m.bifur = true ∧ m.board.inReset = false) ∧
    (let m := brd (fun b => { b with straps := 1, perst1N := true }) (up Chip.reset); m.board.perst1N = true ∧ m.bifur = true) ∧
    (let m := up Chip.reset; m.board.por = false ∧ m.board.refclk.getLsbD 0 = false) ∧
    (let m := brd (fun b => { b with refclk := 15 }) (up Chip.reset); m.board.refclk.getLsbD 0 = true ∧ m.board.refclk.getLsbD 3 = true) := by
  decide

theorem witness_OstlerFallsAndBootsAgain :
    (let m := up Chip.reset; m.board.ostlerUp = true ∧ 6 ≤ m.phase) ∧
    (let m := brd (fun b => { b with ostlerUp := true }) (atStep 5 Chip.reset); m.board.ostlerUp = true ∧ m.phase < 6) ∧
    (let m := atStep 3 Chip.reset; m.atStep 3 = true ∧ m.phase < 6) ∧
    (let m := brd (fun b => { b with ostlerUp := false, ostlerBoot := true }) (up Chip.reset);
      m.board.ostlerBoot = true ∧ m.board.inReset = false ∧ m.board.por = false ∧ m.board.straps.getLsbD 1 = false ∧
      m.flag K.rstBootStat F.rstBootStatBootFail = false) ∧ Nvm.reset.goodA ∧ Nvm.reset.goodB := by
  unfold Nvm.goodA Nvm.goodB; decide

/-! ### Start-up: values -/

/-- R40: POR_RELEASE starts the always-on counter and latches the straps. -/
theorem test_por_release :
    let m := after (exec .porRelease (st (brd fun b => { b with vstby33 := true, strapBifur := true, strapRecN := true, strapAddr := 5 })));
    m.board.por = false ∧ m.board.straps = 0b10101 ∧ m.dom[33].run = true ∧ m.dom[32].run = false := by decide

/-- R33, R39: PERST0_ASSERT records bit [3] beside the POR bit, counts, and keeps the always-on counter. -/
theorem test_perst0_assert :
    let m := after (exec .perst0Assert (st up));
    m.board.inReset = true ∧ m.reg K.rstResetCause = 9 ∧ m.reg K.rstResetCount = 1 ∧ m.dom[33].run = true ∧ m.dom[32].run = false := by decide

/-- R47: a temperature above 40.0 degrees holds step 4. -/
theorem test_coolant_hold :
    (after (exec .coolantCheck (st fun m => (brd (fun b => { b with coolLeakN := true }) ((atStep 4 m).setReg K.coolCoolStat
      (F.coolCoolStatCduOk.put (F.coolCoolStatTIn.put (F.coolCoolStatFlow.put 0 50) 401) 1))).modPwr fun q => { q with cduIn := true }))).flag K.rstBootStat F.rstBootStatCoolHold = true := by decide

/-! ### Registers -/

theorem witness_PagesLieAtTheirBases : (0 : Nat) < pageCount .sec ∧ 1023 < pageCount .doorbell ∧ (0xFFF : Nat) < 0x1000 ∧
    pageAt (pageBase .doorbell 1023 + 0xFFF) = some ⟨.doorbell, 1023⟩ := by decide

theorem witness_RegisterHoldsWhatWasSet :
    F.pageCmdStatBusy.lo + F.pageCmdStatBusy.len ≤ 64 ∧ F.pageCmdStatErr.lo + F.pageCmdStatErr.len ≤ 64 ∧
    F.pageCmdStatBusy.lo + F.pageCmdStatBusy.len ≤ F.pageCmdStatErr.lo := by decide

/-- The outcomes of R71 in turn: behind a descriptor, chocked, wrong size, no right, busy, another's page, a stale ostler, held, taken. -/
theorem witness_WriteChecksInOrder :
    (let m := up Chip.reset; let m1 : Chip := { m with host := { m.host with behind := [(0, .reg (wr 0 8 0))] } };
      m1.stalledLink 0x1000 = some 0 ∧ m.stalledLink 0x1000 = none) ∧
    (let m := (up Chip.reset).chock ⟨.time, 0⟩ 0x1000 1 0 32; m.frozen 0x1000 = true ∧ m.stalledLink 0x1000 = none) ∧
    (let m := up Chip.reset; let w := wr (K.pageCmd 0x0) 4 0; pageAt w.off = some ⟨.glob, 0⟩ ∧ m.frozen w.m = false ∧ m.stalledLink w.m = none ∧
      m.served ⟨.glob, 0⟩ w.m = true ∧ w.reg = K.pageCmd (PageId.base ⟨.glob, 0⟩) ∧ w.size ≠ 8) ∧
    (let m := up Chip.reset; ([0x1001, 0x3000, 0x7000, 0x0001, 0x2000, 0x4000, 0x5000] : List (BitVec 16)).all fun k =>
      let w := wrBy k (K.timeEpoch 0) 8 0 none; !m.hasRight ⟨.time, 0⟩ w.m && !w.ctxDone && m.served ⟨.time, 0⟩ w.m && !m.frozen w.m && decide (m.stalledLink w.m = none)) ∧
    (let m := (up Chip.reset).beginCmd ⟨.time, 0⟩ 1 ⟨0x1000, 0, 0, none⟩; m.hasRight ⟨.time, 0⟩ 0x1000 = true ∧ m.busy ⟨.time, 0⟩ = true) ∧
    (let m := up Chip.reset; let w := wrBy 0x6000 (K.pageAccess (PageId.base ⟨.time, 0⟩)) 8 0 (some 0)
     m.hasRight ⟨.time, 0⟩ w.m = true ∧ w.ownerOnly ⟨.time, 0⟩ = true ∧ w.m.toNat ≠ m.owner ⟨.time, 0⟩) ∧
    (let m := up Chip.reset; let w := wrBy 0x6000 (K.coachEvSet 0) 8 0 (some 1)
     w.ownerOnly ⟨.coach, 0⟩ = false ∧ w.gen ≠ some (m.reg (K.pageGen (PageId.base ⟨.coach, 0⟩)))) ∧
    (let m := live (up Chip.reset); let w := wr (K.coachDraySide 0) 8 0x0F; let p : PageId := ⟨.coach, 0⟩
     m.hasRight p w.m = true ∧ m.busy p = false ∧ m.heldChange w = true ∧ m.running p = true ∧ m.frozen w.m = false ∧ m.served p w.m = true) ∧
    (let m := up Chip.reset; let w := wr ((K.globScratch 0)) 8 0
     m.busy ⟨.glob, 0⟩ = false ∧ m.heldChange w = false ∧ taken m w ⟨.glob, 0⟩ = true ∧ w.reg ≠ K.pageCmd (PageId.base ⟨.glob, 0⟩)) := by decide

theorem witness_PlainRegisterTakesTheWrite :
    (let m := up Chip.reset; let w := wr (K.globScratch 0) 4 5; taken m w ⟨.glob, 0⟩ = true ∧ 0x100 ≤ w.reg - PageId.base ⟨.glob, 0⟩ ∧
      (w.row ⟨.glob, 0⟩).any (fun r => r.staged == 0) = true) ∧
    (let m := up Chip.reset; let w := wr (K.mtxMtxCtl 0) 8 1; taken m w ⟨.mtx, 0⟩ = true ∧ 0x100 ≤ w.reg - PageId.base ⟨.mtx, 0⟩ ∧
      (w.row ⟨.mtx, 0⟩).any (fun r => r.staged &&& w.cover != 0) = true) ∧
    (let m : Chip := { up Chip.reset with staged := [(K.stageStageLen, 5)] }; let w := wr (K.stageStageLen + 4) 4 1; taken m w ⟨.stage, 0⟩ = true ∧
      (w.row ⟨.stage, 0⟩).any (fun r => r.staged != 0 && r.staged &&& w.cover == 0) = true ∧ m.staged.any (fun e => e.1 == w.reg) = true) := by
  decide

theorem witness_HeaderRegistersAct :
    (let m := up Chip.reset; let p : PageId := ⟨.time, 0⟩; let w := wr (p.base + 0x38) 8 1; taken m w p = true ∧ (w.row p).isSome = true) ∧
    (let m := ((up Chip.reset).record ⟨.time, 0⟩ 1 0x1000 (some 0) (some 0) 32); let p : PageId := ⟨.time, 0⟩; let w := wr (p.base + 0x40) 8 (BitVec.ofNat 64 (2 ^ F.pageErrHeadPop.lo));
      taken m w p = true ∧ (w.row p).isSome = true ∧ F.pageErrHeadPop.bit (w.data &&& w.cover) = true ∧ (m.errQ p).recs ≠ []) ∧
    (let m := up Chip.reset; let p : PageId := ⟨.mtx, 63⟩; let w := wr (p.base + 0x10) 8 (BitVec.ofNat 64 (2 ^ F.pageCtlDiscard.lo));
      taken m w p = true ∧ (w.row p).isSome = true ∧ F.pageCtlDiscard.bit (w.data &&& w.cover) = true) ∧
    (let m := (up Chip.reset).chock ⟨.time, 0⟩ 0x1003 1 0 32; let p : PageId := ⟨.time, 0⟩;
      let w := wr (p.base + 0x58) 8 (F.pageChockReleaseId.put (BitVec.ofNat 64 (2 ^ F.pageChockRelease.lo)) 0x1003);
      taken m w p = true ∧ (w.row p).isSome = true ∧ F.pageChockRelease.bit (w.data &&& w.cover) = true ∧
      F.pageChockReleaseId.get (w.data &&& w.cover) = 0x1003 ∧ m.chocks.any (fun k => k.master == 0x1003 && k.page == p) = true) := by decide

theorem witness_BlockRegistersAct :
    (let m := up Chip.reset; let ok (p : PageId) (w : Wr) : Bool := taken m w p && (match w.row p with | some r => r.staged == 0 | none => false);
      ok ⟨.coach, 63⟩ (wr (K.coachEvSet 63) 8 0x10800) = true ∧ ok ⟨.cmem, 0⟩ (wr (K.cmemPart 0 7) 8 0) = true ∧
      ok ⟨.fault, 0⟩ (wr K.faultQCtl 8 1) = true ∧ ok ⟨.inval, 0⟩ (wr (K.invalDescIn 3) 8 0) = true ∧
      ok ⟨.tlb, 0⟩ (wr (K.tlbOrBase 0 7) 8 0) = true ∧ ok ⟨.doorbell, 1023⟩ (wr (K.doorbellSqTail 1023) 8 0) = true ∧ ok ⟨.doorbell, 0⟩ (wr (K.doorbellQctl 0) 4 1) = true ∧
      ok ⟨.shunt, 0⟩ (wrBy 0x3000 K.shuntCtxDone 8 0 none) = true ∧ (wrBy 0x3000 K.shuntCtxDone 8 0 none).ctxDone = true ∧
      ok ⟨.couple, 0⟩ (wr (K.coupleWinBase 0 0) 8 0) = true ∧ m.badEntry ⟨.couple, 0⟩ (wr (K.coupleWinBase 0 0) 8 0) 0 = false ∧
      m.partCheck 0 0 0 0 = 0 ∧ m.partCheck 0 0 0 (F.cmemPartValid.put (F.cmemPartLim.put (F.cmemPartBase.put 0 1) 8191) 1) = 0x81 ∧
      (m.setReg (K.cmemQpwr 0) 0).partCheck 0 0 0 (F.cmemPartValid.put 0 1) = 0x82 ∧ F.faultQCtlEn.bit 1 = true ∧ m.flag K.faultQCtl F.faultQCtlEn = false ∧
      (wr (K.doorbellSqTail 1023) 8 0).cover &&& 0xFFFF ≠ 0 ∧ wr (K.coupleWinBase 0 0) 8 0 ≠ wr (K.coupleCplCfg 0) 8 0) ∧
    (let m := ((up Chip.reset).setReg (K.cmemPart 0 2) (F.cmemPartTask.put (F.cmemPartLim.put (F.cmemPartBase.put (F.cmemPartValid.put 0 1) 7) 9) 5)).modCtx
        x0 (fun k => { k with task := 5 });
      m.partition 0 5 = some (7, 9) ∧ (m.ctx x0).task ≠ 0 ∧ (m.ctx ⟨0, true⟩).task = 0) := by decide

theorem witness_CommandsBeginAndEnd : (1 : Nat) < 256 ∧ (0 : Nat) < pageCount .time ∧ PageKind.time ≠ .mbox ∧ 7 < (255 : Nat) ∧
    (⟨0x1000, 0, 1, none⟩ : Launch).arg ≠ 0 ∧ (9 : Nat) ∉ PageKind.time.codes ∧ (13 : Nat) ∉ PageKind.mbox.codes ∧
    (up Chip.reset).board.ostlerUp = true ∧ (brd (fun b => { b with romLoader := true }) (up Chip.reset)).board.romLoader = true := by decide

/-- One state for each command that leaves something at its end. -/
theorem witness_CommandsEndWithTheirEffect :
    ([(.time, 1), (.rst, 2), (.vec, 1), (.tally, 1), (.cmem, 2), (.cmem, 3), (.depot, 1), (.depot, 2), (.depot, 3), (.hbm, 1),
      (.shunt, 2)] : List (PageKind × Nat)).all (fun e => let m := (up Chip.reset).beginCmd ⟨e.1, 0⟩ e.2 ⟨0x1000, 0, 0, none⟩;
        m.busy ⟨e.1, 0⟩ && m.cmdCode ⟨e.1, 0⟩ == e.2 && decide (0 < pageCount e.1)) = true ∧ (up Chip.reset).memUp = true ∧
    (let m := brd (fun b => { b with snap := some ⟨Vector.replicate 34 9, 3, Vector.replicate 4 2, Vector.replicate 34 1000⟩ }) (up Chip.reset); m.board.snap.isSome = true) ∧
    (let m := (up Chip.reset).beginCmd ⟨.cmem, 63⟩ 2 (go 5); m.rowReady 63 (zeroRange (m.cmdArg ⟨.cmem, 63⟩)).1 = true ∧ 0 < (zeroRange (m.cmdArg ⟨.cmem, 63⟩)).2) ∧
    (let m := ((up Chip.reset).setFld (K.shuntCoachCfg 7) F.shuntCoachCfgFenced 1).beginCmd ⟨.shunt, 0⟩ 2 (go 7);
      m.shuntHold = false ∧ m.fencedOff 7 = false) ∧
    (let m := (((((up Chip.reset).setFld (K.shuntCoachCfg 7) F.shuntCoachCfgFenced 1).modCtx ⟨7, false⟩ fun k => { k with st := .fenced }).modCtx ⟨7, true⟩
        fun k => { k with st := .fenced })).beginCmd ⟨.shunt, 0⟩ 2 (go 7);
      m.shuntHold = false ∧ m.fencedOff 7 = true ∧ (m.relocateGo 7).residents 7 = []) := by decide

theorem witness_ReadsShowAndClear :
    (let m := up Chip.reset; K.clkRefclkLoss % 8 = 0 ∧ m.chocked 0x1000 = false ∧ pageAt K.clkRefclkLoss = some ⟨.clk, 0⟩ ∧
      m.served ⟨.clk, 0⟩ 0x1000 = true ∧ pageAt 0x07FFF000 = none ∧ ¬ (((2 : Nat) = 4 ∨ (2 : Nat) = 8) ∧ K.clkRefclkLoss % 2 = 0) ∧
      m.served ⟨.coach, 63⟩ 0x1000 = true ∧ m.served ⟨.vec, 63⟩ 0x1000 = true ∧ m.served ⟨.cmem, 63⟩ 0x1000 = true ∧
      K.coachCmData 63 % 8 = 0 ∧ K.vecVregData 63 % 8 = 0 ∧ K.cmemObufData 63 % 8 = 0 ∧
      taken m (wr (K.coachCmData 0) 8 0) ⟨.coach, 0⟩ = true ∧ taken m (wr (K.vecVregData 0) 8 0) ⟨.vec, 0⟩ = true ∧
      taken m (wr (K.cmemObufData 0) 8 0) ⟨.cmem, 0⟩ = true) ∧
    (let m := brd (fun b => { b with heldFail := true }) (up Chip.reset); m.served ⟨.clk, 0⟩ 0x1000 = false) := by decide

/-! ### Registers: values -/

/-- R59: a write to a page that PAGE_ACCESS does not open to function 1 chocks it and stores nothing. -/
theorem test_write_without_right :
    let m := after (exec (.registerWrite (wrBy 0x1001 (K.globScratch 0) 8 7 none)) (st up));
    m.reg (K.globScratch 0) = 0 ∧ m.chocked 0x1001 = true ∧ m.pageChocks ⟨.func, 1⟩ = [⟨⟨.func, 1⟩, 0x1001, 1, BitVec.ofNat 64 (K.globScratch 0), 0⟩] := by
  decide

/-- R56: a 4-byte write of the upper half leaves the lower half. -/
theorem test_write_half :
    (after (exec (.registerWrite (wr (K.globScratch 0 + 4) 4 0xFFFFFFFF)) (st fun m => (up m).setReg (K.globScratch 0) 5))).reg (K.globScratch 0)
      = 0xFFFFFFFF00000005 := by decide

/-- R39: REFCLK_LOSS reads its count once. -/
theorem test_read_clears :
    let m := after (exec (.readToClear 0x1000 K.clkRefclkLoss 8) (st fun m => (up m).setReg K.clkRefclkLoss 3));
    m.out.head? = some (.value 0x1000 K.clkRefclkLoss 3) ∧ m.reg K.clkRefclkLoss = 0 := by decide

/-! ### Instructions of the core -/

/-- For every row of R89 a state in which it is due, its entries are there and its result is defined. -/
theorem witness_StackInstructionsComplete :
    (stackMoves ++ stackSums ++ stackLogic ++ stackTests).all (fun e =>
      let s := prog [encodeOp e.op] [3, 2, 1, 9] [7, 6, 5]; let m := s.chip.tallyBoundary x0; let b := (m.ctx x0).bank;
      due s.chip x0 e.op && filled m x0 e.nd e.nr b && (e.res b false).isSome) = true := by decide

theorem witness_PushesComplete :
    dueIn (.lit 0x7FFF) [] [] [] = true ∧ dueIn .litw [5] [] [] = true ∧ dueIn .depth [] [] [] = true ∧ dueIn .rdepth [] [] [] = true ∧
    dueIn (.rdsr 0x7F) [] [] [] = true ∧ dueIn .pick [] [15, 0] [] = true ∧
    (let s := prog [encodeOp .litw, 5] [] []; let m := s.chip.tallyBoundary x0; filled m x0 0 0 (m.ctx x0).bank = true ∧
      (m.ctx x0).inRange ((m.ctx x0).pc + 1).toNat = true ∧ m.fetchWord x0 1 = 5) ∧
    (let s := prog [encodeOp .pick] (15 :: (List.range 15).map (BitVec.ofNat 16)) []; let m := s.chip.tallyBoundary x0;
      filled m x0 1 0 (m.ctx x0).bank = true ∧ (m.ctx x0).bank.ds.head? = some 15) := by decide

theorem witness_LoadsAndStoresComplete :
    ([.fetch, .fetchp, .fetch4] : List Op).all (fun o => dueIn o [] [0x100] [] && dueIn o [] [0xFFFF] []) = true ∧
    ([.store, .storep] : List Op).all (fun o => dueIn o [] [0x100, 8] []) = true ∧
    dueIn .store4 [] [0x100, 1, 2, 3, 4] [] = true ∧
    (let s := prog [encodeOp .fetch] [0x100] []; let m := s.chip.tallyBoundary x0; filled m x0 1 0 (m.ctx x0).bank = true ∧
      (m.ctx x0).inRange 0xFFFF = true ∧ m.loadWord x0 0x100 = 0) := by decide

theorem witness_LoadsAndStoresChock :
    ([.fetch, .fetchp, .fetch4] : List Op).all (fun o => let s := progU [encodeOp o] [16] [];
      due s.chip x0 o && !(s.chip.ctx x0).inRange 16 && (s.chip.ctx x0).inRange 15) = true ∧
    ([.store, .storep, .store4] : List Op).all (fun o => let s := progU [encodeOp o] [16, 1, 2, 3, 4] [];
      due s.chip x0 o && !(s.chip.ctx x0).inRange 16) = true := by decide

theorem witness_BranchesComplete :
    ([.br, .bz, .bnz, .call, .ret, .brx, .callx, .endloop] : List Op).all (fun o =>
      let s := prog [encodeOp o, 8] [0x20] [0x30]; let m := s.chip.tallyBoundary x0; let b := (m.ctx x0).bank;
      due s.chip x0 o && filled m x0 0 0 b && filled m x0 1 0 b && filled m x0 0 1 b && m.fetchWord x0 1 == 8) = true := by decide

theorem witness_LoopsRunTheirBody :
    (let s := prog [encodeOp .loop, 2] [3] []; due s.chip x0 .loop = true ∧ (s.chip.tallyBoundary x0).fetchWord x0 1 = 2 ∧
      filled (s.chip.tallyBoundary x0) x0 1 0 (s.chip.ctx x0).bank = true ∧ ((s.chip.ctx x0).pc + 2).toNat ≤ (2 : Nat)) ∧
    (let s := prog [encodeOp .loop, 1] [3] []; due s.chip x0 .loop = true ∧ (1 : Nat) < ((s.chip.ctx x0).pc + 2).toNat) := by decide

theorem witness_SpecialRegistersTakeWrites :
    ([0, 1, 9, 0x0A, 0x3F, 0x40, 0x49, 0x4E, 0x60, 0x62, 0x63, 0x67, 0x68, 0x6D, 0x6E, 0x7F] : List (BitVec 7)).all (fun n =>
      let s := prog [encodeOp (.wrsr n)] [0x1234] []; due s.chip x0 (.wrsr n) && filled (s.chip.tallyBoundary x0) x0 1 0 (s.chip.ctx x0).bank) = true ∧
    0x5F ∈ supervisorWritable ∧ 0x40 ∈ supervisorWritable := by decide

theorem witness_EventInstructionsComplete :
    ([.cnt, .evpeek, .waitev, .evpoll, .evclr, .waituntil, .sendev] : List Op).all (fun o =>
      let s := prog [encodeOp o] [0, 0, 0, 0, 1] []; let m := s.chip.tallyBoundary x0; let b := (m.ctx x0).bank;
      due s.chip x0 o && filled m x0 0 0 b && filled m x0 1 0 b && filled m x0 2 0 b && filled m x0 5 0 b && !m.reexec && !m.logStalls 0) = true ∧
    (let s := prog [encodeOp .sendev] [0x3FFF, 11] []; due s.chip x0 .sendev = true) ∧
    (let s := prog [encodeOp .sendev] [0x4007, 0] []; (s.chip.tallyBoundary x0).streamSide 0 3 = x0.aft) ∧
    (let m := (prog [] [] []).chip; m.reexec = false ∧ (m.ctx x0).events &&& 1 = 0) := by decide

theorem witness_takes : ∃ v upd, (prog [encodeOp .cnt] [] []).chip.takes x0 .cnt (some 5) v upd :=
  ⟨5, _, .inl ⟨.inl (by decide), rfl, by decide, rfl⟩⟩

theorem witness_ModeChangesComplete :
    ([.brake, .unbrake, .tstable, .syscall 15, .sysret, .tret] : List Op).all (fun o =>
      due (prog [encodeOp o] [] []).chip x0 o) = true ∧
    (let s := prog [encodeOp (.syscall 15)] [] []; (({ s.chip.ctx x0 with entryEn := 0x8000 } : Context).entryEn.getLsbD 15 = true)) ∧
    (let m := (prog [encodeOp (.syscall 15)] [] []).chip.modCtx x0 fun k => { k with entryEn := 0x8000, main := { k.main with lc := 2, le := 0, ls := 5 } };
      due m x0 (.syscall 15) = true ∧ (m.ctx x0).entryEn.getLsbD 15 = true ∧ (m.ctx x0).bank.lc ≠ 0 ∧ (m.ctx x0).pc = (m.ctx x0).bank.le ∧
      filled (m.tallyBoundary x0) x0 0 0 (m.ctx x0).bank = true) ∧
    (let m := (prog [encodeOp .tret] [] []).chip.modCtx x0 fun k => { k with status := { k.status with tp := true } };
      due m x0 .tret = true ∧ (m.ctx x0).status.df = false ∧ (m.ctx x0).status.tp = true) ∧
    (let m := (prog [encodeOp .tret] [] []).chip.modCtx x0 fun k => { k with status := { k.status with df := true } };
      due m x0 .tret = true ∧ (m.ctx x0).status.df = true) ∧
    ([0, 1, 2, 3] : List W16).all (fun w => let s := prog [encodeOp .setmode] [w] [];
      due s.chip x0 .setmode && filled (s.chip.tallyBoundary x0) x0 1 0 (s.chip.ctx x0).bank) = true ∧
    (let k := (prog [] [] []).chip.ctx x0; k.status.df = false ∧ k.status.tp = false ∧ k.status.shadow = false) := by decide

theorem witness_EngineInstructionsComplete :
    (let s := prog [encodeOp .mwait] [] []; due s.chip x0 .mwait = true ∧ s.chip.mtxCount x0 = 0) ∧
    (let s := prog [encodeOp .mstat] [] []; due s.chip x0 .mstat = true) ∧
    (let s := prog [encodeOp .vclaim] [] []; due s.chip x0 .vclaim = true ∧ s.chip.ownsVec x0 = false) ∧
    (let m := (prog [encodeOp .vclaim] [] []).chip.modVown 0 fun v => { v with owner := 1 }; due m x0 .vclaim = true ∧
      m.ownsVec x0 = true ∧ (x0.aft && (m.coach 0).vown.evict) = false ∧ (m.vec 0).q = []) ∧
    (let s := prog [encodeOp .vrel] [] []; due s.chip x0 .vrel = true) ∧
    (let s := prog [encodeOp .missue] [0x100] []; due s.chip x0 .missue = true ∧
      ((s.chip.mtx 0).queue.filter (·.aft == x0.aft)).length < 2) ∧
    (let s := prog [encodeOp .drgo] [3, 0x100] []; due s.chip x0 .drgo = true ∧ s.chip.streamSide 0 3 = x0.aft ∧
      (s.chip.stream 0 3).err = false ∧ (s.chip.stream 0 3).queued < 4) ∧
    (let s := prog [encodeOp .drwait] [3] []; due s.chip x0 .drwait = true ∧ (s.chip.stream 0 3).q = []) ∧
    (let s := prog [encodeOp .drstat] [3] []; due s.chip x0 .drstat = true) := by decide

theorem witness_VectorInstructionsComplete :
    (let m := (prog [encodeOp (.vec .vadd true)] [0x100, 1, 2, 3, 4] []).chip.modVown 0 fun v => { v with owner := 1 };
      (Op.vec .vadd true).wf = true ∧ due m x0 (.vec .vadd true) = true ∧ m.ownsVec x0 = true ∧ VOp.vadd.form true ≠ .vr ∧
      filled (m.tallyBoundary x0) x0 (VOp.vadd.form true).pops 0 (m.ctx x0).bank = true ∧ (m.vec 0).q.length < 8) ∧
    (let m := (prog [encodeOp (.vec .vrdcfg false)] [0x100] []).chip.modVown 0 fun v => { v with owner := 1 };
      due m x0 (.vec .vrdcfg false) = true ∧ VOp.vrdcfg.form false = .vr ∧ (m.vec 0).q = [] ∧
      filled (m.tallyBoundary x0) x0 (VOp.vrdcfg.form false).pops 0 (m.ctx x0).bank = true ∧
      (m.vecEntry x0 .vrdcfg false [0x100]).check (m.vec 0).cfg = none) ∧
    (let m := (prog [encodeOp (.vec .vmpop false)] [0xFFFF] []).chip.modVown 0 fun v => { v with owner := 1 };
      due m x0 (.vec .vmpop false) = true ∧ VOp.vmpop.form false = .vr ∧ (m.vec 0).q = [] ∧
      (m.vecEntry x0 .vmpop false [0xFFFF]).check (m.vec 0).cfg = some 7) ∧
    (let s (o : VOp) := (prog [encodeOp (.vec o false)] (List.replicate 9 0x10) []).chip.modVown 0 fun v => { v with owner := 1 };
      ([(.vsetvl, .c), (.vld, .vm), (.vlds, .vms), (.vslideup, .vx)] : List (VOp × VForm)).all (fun e =>
        due (s e.1) x0 (.vec e.1 false) && e.1.form false == e.2 && filled ((s e.1).tallyBoundary x0) x0 e.2.pops 0 ((s e.1).ctx x0).bank) = true) := by decide

theorem witness_OperationsEncodeAndDecode : (Op.lit 0x7FFF).wf = true ∧ (Op.vec .vext false).wf = true ∧
    decodeOp (encodeOp (.lit 0x7FFF)) = some (.lit 0x7FFF) := by decide

/-! ### Stacks, traps, waits -/

theorem witness_SpillsFollowTheirRule :
    (let m := (prog [] [] []).chip; let b := (m.ctx x0).bank; let l : List W16 := (List.range 17).map (BitVec.ofNat 16);
      b.ds.length ≤ 16 ∧ 16 < { b with ds := l }.ds.length ∧ 16 < { b with rs := l }.rs.length ∧
      { b with dsp := 0, dsl := 4 }.dsp.toNat + 4 ≤ { b with dsp := 0, dsl := 4 }.dsl.toNat ∧
      { b with dsp := 0, dsl := 3 }.dsl.toNat < { b with dsp := 0, dsl := 3 }.dsp.toNat + 4 ∧
      ([0, 1, 2, 3] : List Nat).all (fun i => (m.ctx x0).inRange ((0xFFFC : W16) + BitVec.ofNat 16 i).toNat) = true) ∧
    (let s := prog [encodeOp .add] [1] []; due s.chip x0 .add = true ∧ (s.chip.ctx x0).bank.depth < 2) ∧
    (let s := prog [encodeOp .fromr] [] []; due s.chip x0 .fromr = true ∧ (s.chip.ctx x0).bank.rdepth < 1) := by decide

theorem witness_StackInstructionFrame :
    (let m := (prog [encodeOp .nop] [] []).chip; (m.completed x0 (m.ctx x0).bank true id 1 .seq).isSome = true) ∧
    (let s := prog [encodeOp .add] [2, 3] []; let tm := s.chip.tallyBoundary x0; due s.chip x0 .add = true ∧
      filled tm x0 2 0 (s.chip.ctx x0).bank = true ∧ (tm.completed x0 { (s.chip.ctx x0).bank with ds := [5] } false id 1 .seq).isSome = true) := by decide

theorem witness_TrapEntryFollowsItsRule :
    (let c : Cause := ⟨63, .task, 255, Vector.replicate 4 0⟩; c.v < 64 ∧ c.detail < 256) ∧
    (let c : Cause := ⟨0x10, .supervisor, 0, Vector.replicate 4 0⟩; c.v < 64 ∧ c.cls = .supervisor) ∧
    (let k := (prog [] [] []).chip.ctx x0; k.status.stable = true ∧ k.status.df = false) ∧
    (let k := (ctx0 [] fun k => { k with status := { k.status with stable := false } }).ctx x0; k.status.stable = false ∧ k.status.df = false) ∧
    (let k := (ctx0 [] fun k => { k with status := { k.status with stable := false, df := true } }).ctx x0; k.status.stable = false ∧ k.status.df = true) := by decide

theorem witness_CausesAreTakenInOrder :
    (let m := (progU [] [] []).chip.modCtx x0 fun k => { k with pc := 16 }; (m.ctx x0).st = .running ∧ m.coachOn 0 = true ∧ (m.ctx x0).entering = none ∧
      (m.ctx x0).hubDue = false ∧ (m.ctx x0).inRange (m.ctx x0).pc.toNat = false) ∧
    (let m := (progU (List.replicate 15 0 ++ [encodeOp .litw]) [] []).chip.modCtx x0 fun k => { k with pc := 15 }; (m.ctx x0).st = .running ∧ m.coachOn 0 = true ∧
      (m.ctx x0).entering = none ∧ (m.ctx x0).hubDue = false ∧ (m.ctx x0).inRange (m.ctx x0).pc.toNat = true ∧ m.lenOf x0 = 2 ∧
      (m.ctx x0).inRange ((m.ctx x0).pc + 1).toNat = false) ∧
    (let m := ctx0 [] fun k => { k with defMtx := some ⟨1, Vector.replicate 4 0⟩ }; atBoundary m x0 = true ∧ (m.ctx x0).status.stable = true ∧
      (m.ctx x0).defMtx ≠ none) ∧
    (let m := ctx0 [] fun k => { k with defVec := some ⟨1, Vector.replicate 4 0⟩ }; atBoundary m x0 = true ∧ (m.ctx x0).defMtx = none) ∧
    (let m := ctx0 [] fun k => { k with defDray := [⟨7, Vector.replicate 4 0⟩] }; atBoundary m x0 = true ∧ (m.ctx x0).defVec = none) ∧
    (let m := ctx0 [] fun k => { k with intPend := 0x20, intEn := 0x20 }; let k := m.ctx x0; atBoundary m x0 = true ∧ k.defDray = [] ∧
      m.reexec = false ∧ k.status.brake = false ∧ m.logStalls 0 = false ∧ (m.vec 0).q = [] ∧ (m.mtx 0).arr = [] ∧
      (k.intPend.getLsbD 5 && k.intEn.getLsbD 5) = true ∧ ([0, 1, 2, 3, 4] : List Nat).all (fun j => !(k.intPend.getLsbD j && k.intEn.getLsbD j)) = true) ∧
    (let s := prog [18] [] []; atBoundary s.chip x0 = true ∧ (s.chip.ctx x0).intPend &&& (s.chip.ctx x0).intEn &&& 0x3F = 0) ∧
    decodeOp 18 = none ∧
    (let m := ctx0 [encodeOp (.vec .vadd false)] fun k => { k with status := { k.status with shadow := true } };
      atBoundary m x0 = true ∧ decodeOp (m.fetchWord x0 0) = some (.vec .vadd false) ∧ (Op.vec .vadd false).engine = true) ∧
    (let m := (progU [encodeOp .tret] [] []).chip; atBoundary m x0 = true ∧ decodeOp (m.fetchWord x0 0) = some .tret ∧ Op.tret.priv = true ∧
      (m.ctx x0).status.lvl = false) ∧
    (let m := (prog [encodeOp (.syscall 3)] [] []).chip; atBoundary m x0 = true ∧ decodeOp (m.fetchWord x0 0) = some (.syscall 3) ∧
      (m.ctx x0).entryEn.getLsbD 3 = false) := by decide

theorem witness_WaitsAndClaimsGoOn :
    (let m := (prog [encodeOp .evpeek] [] []).chip.modCtx x0 fun k => { k with st := .waiting }; (m.ctx x0).st = .waiting ∧ m.coachOn 0 = true ∧
      m.boundary x0 = .go) ∧
    (let m := (prog [encodeOp .waituntil] [0, 0, 0, 9, 0] []).chip.modCtx x0 fun k => { k with st := .waiting, wait := .waituntil };
      (m.ctx x0).st = .waiting ∧ (m.ctx x0).wait = .waituntil ∧ (match m.fillData x0 5 (m.ctx x0).bank 5 with | .ok b => b.ds == [0, 0, 0, 9, 0] | _ => false) = true) ∧
    (let m := (prog [] [] []).chip.modVown 0 fun v => { v with claimA := true }; (m.coach 0).vown.owner = 0 ∧
      ((m.coach 0).vown.claimF || (m.coach 0).vown.claimA) = true) ∧
    (let m := (prog [] [] []).chip.modVown 0 fun v => { v with claimA := true, owner := 1, capA := 1 }; let v := (m.coach 0).vown;
      m.coachOn 0 = true ∧ v.claimA = true ∧ v.owner = 1 ∧ v.limitA = false ∧ v.capA ≠ 0) ∧
    (let m := (prog [] [] []).chip.modVown 0 fun v => { v with claimF := true, owner := 2, capF := 1 }; let v := (m.coach 0).vown;
      v.claimF = true ∧ v.owner = 2 ∧ v.limitF = false ∧ v.capF ≠ 0 ∧ (m.vec 0).q = []) ∧
    (let m := ctx0 [] fun k => { k with stopReq := [.stop] }; m.coachOn 0 = true ∧ (m.ctx x0).st = .running ∧ (m.ctx x0).entering = none ∧ HubStop.stop ∈ (m.ctx x0).stopReq) := by decide

theorem witness_SourcesAndEventsArrive :
    (let m : Chip := { (prog [] [] []).chip with sends := [⟨x0, 11, 0, true, 0⟩, ⟨x0, 0, 1, false, 0⟩], posts := [(x0, 5)] };
      (m.sends[0]?).any (fun e => e.sup) = true ∧ (m.sends[1]?).any (fun e => !e.sup && decide ((m.ctx e.target).task = 0)) = true ∧
      m.posts[0]? = some (x0, 5)) ∧
    (let m := ctx0 [] fun k => { k with cmpArmed := true, cmp := 7 }; (m.ctx x0).cmpArmed = true ∧ m.domRuns (coachDomain 0) = true) ∧
    (let m := (ctx0 [] fun k => { k with intPend := 8 }).setFld K.shuntShuntCtl F.shuntShuntCtlEn 1; m.flag K.shuntShuntCtl F.shuntShuntCtlEn = true ∧
      (m.ctx x0).intPend.getLsbD 3 = true) ∧
    (let m := ctx0 [] fun k => { k with status := { k.status with brake := true }, limitNow := 1 }; let k := m.ctx x0;
      k.status.brake = true ∧ k.hangSent = false ∧ k.limitNow ≠ 0) := by decide

/-! ### Instructions: values worked out from R89 -/

theorem test_add_wraps : ran (.add x0) (prog [encodeOp .add] [2, 0xFFFF] []) = ([1], [], true, 1) := by decide
theorem test_sub_borrows : ran (.sub x0) (prog [encodeOp .sub] [3, 1] []) = ([0xFFFE], [], true, 1) := by decide
theorem test_swap2 : ran (.swap2 x0) (prog [encodeOp .swap2] [4, 3, 2, 1] []) = ([2, 1, 4, 3], [], false, 1) := by decide
theorem test_muls : ran (.muls x0) (prog [encodeOp .muls] [0xFFFF, 2] []) = ([0xFFFF, 0xFFFE], [], false, 1) := by decide
theorem test_udivmod_zero : ran (.udivmod x0) (prog [encodeOp .udivmod] [0, 7] []) = ([7, 0xFFFF], [], false, 1) := by decide
theorem test_sar : ran (.sar x0) (prog [encodeOp .sar] [0x11, 0x8000] []) = ([0xC000], [], false, 1) := by decide
theorem test_lts : ran (.lts x0) (prog [encodeOp .lts] [0, 0xFFFF] []) = ([0xFFFF], [], false, 1) := by decide
theorem test_litw : ran (.litw x0) (prog [encodeOp .litw, 0xBEEF] [] []) = ([0xBEEF], [], false, 2) := by decide
theorem test_call : ran (.call x0) (prog [encodeOp .call, 0x40] [] []) = ([], [2], false, 0x40) := by decide
theorem test_bz_taken : ran (.bz x0) (prog [encodeOp .bz, 0x40] [0] []) = ([], [], false, 0x40) := by decide
theorem test_pick : ran (.pick x0) (prog [encodeOp .pick] [1, 8, 9] []) = ([9, 8, 9], [], false, 1) := by decide
theorem test_row_not_due : ran (.sub x0) (prog [encodeOp .add] [2, 1] []) = ([2, 1], [], false, 0) := by decide

/-- R88: a fault of an underflow goes through the handler table at TRAP_BASE + 5. -/
theorem test_underflow_traps :
    let m := after (exec (.add x0) (st fun m => (live (((up m).setCms 0 0 [encodeOp .add]).setCms 0 0xFFC5 [0x77]))));
    (m.ctx x0).pc = 0x77 ∧ (m.ctx x0).cause = 5 ∧ (m.ctx x0).status.stable = false ∧ (m.ctx x0).status.shadow = true := by decide

/-! ### Page commands -/

theorem witness_RakeResetIsRefused :
    (let m := up Chip.reset; open' m ⟨.rst, 0⟩ 2 4 = true ∧ 4 ≤ (go 4).arg.toNat) ∧
    (let m := (up Chip.reset).setReg (K.cmemPart 63 7) (F.cmemPartValid.put 0 1); open' m ⟨.rst, 0⟩ 2 3 = true ∧
      (63 : Fin 64).val / 16 = (go 3).arg.toNat ∧ m.flag (K.shuntCoachCfg 63) F.shuntCoachCfgFenced = false ∧
      m.flag (K.cmemPart 63 7) F.cmemPartValid = true) := by decide

theorem witness_ModuleCommandsTakeEffect :
    (let m := up Chip.reset; open' m ⟨.time, 0⟩ 1 0 && open' m ⟨.rst, 0⟩ 1 0 && open' m ⟨.rst, 0⟩ 3 0 && open' m ⟨.rst, 0⟩ 2 3) = true ∧
    (go 0).arg = 0 ∧ (go 1).arg ≠ 0 ∧ (go 3).arg.toNat = (3 : Fin 4).val ∧ (up Chip.reset).dom[0].run = true ∧
    ¬ (∃ c : Fin 64, c.val / 16 = 3 ∧ (up Chip.reset).flag (K.shuntCoachCfg c) F.shuntCoachCfgFenced = false ∧
      ∃ i : Fin 8, (up Chip.reset).flag (K.cmemPart c i) F.cmemPartValid = true) := by decide

theorem witness_BlockCommandsTakeEffect :
    (let m := up Chip.reset;
      open' m ⟨.vec, 63⟩ 1 0 && open' m ⟨.cmem, 63⟩ 1 15 && open' m ⟨.cmem, 63⟩ 1 16 && open' m ⟨.cmem, 63⟩ 2 8191 && open' m ⟨.cmem, 63⟩ 3 0 &&
      open' m ⟨.tally, 127⟩ 1 0 && open' m ⟨.depot, 15⟩ 1 8 && open' m ⟨.depot, 15⟩ 1 9 && open' m ⟨.depot, 15⟩ 2 0 && open' m ⟨.depot, 15⟩ 3 0 &&
      open' m ⟨.hbm, 15⟩ 1 0 && open' m ⟨.link, 9⟩ 1 0 && open' m ⟨.link, 9⟩ 2 0) = true ∧
    ([0] : List Nat).any ((up Chip.reset).usedQuarters 0) = false ∧
    (let m := (up Chip.reset).setReg (K.cmemPart 63 0) (F.cmemPartValid.put 0 1); open' m ⟨.cmem, 63⟩ 1 14 = true ∧
      ([0] : List Nat).any (m.usedQuarters 63) = true) := by decide

theorem witness_ShunterAndCoachCommandsTakeEffect :
    (let m := up Chip.reset;
      open' m ⟨.coach, 63⟩ 1 1 && open' m ⟨.coach, 63⟩ 2 1 && open' m ⟨.coach, 63⟩ 3 1 && open' m ⟨.coach, 63⟩ 1 2 && open' m ⟨.fault, 0⟩ 1 (2 ^ 33) &&
      open' m ⟨.fault, 0⟩ 1 0 && open' m ⟨.shunt, 0⟩ 1 (2 ^ 16) && open' m ⟨.shunt, 0⟩ 2 63 && open' m ⟨.shunt, 0⟩ 2 64 && open' m ⟨.shunt, 0⟩ 3 63 &&
      (m.ctx ⟨63, true⟩).st == .held && (m.faultOf 0).isNone && !m.shuntHold && (m.task 0).isNone && (m.coach 63).vown.owner == 0 &&
      !m.flag (K.cmemPart 63 0) F.cmemPartValid) = true ∧
    (let m := live (up Chip.reset); open' m ⟨.coach, 0⟩ 2 0 = true ∧ open' m ⟨.coach, 0⟩ 1 0 = true ∧ (m.ctx x0).st = .running) ∧
    (let f : XFault := ⟨9, 1, 7, 1, 0, false, 0x70000, [(⟨0, 0⟩, 5)], 0, true⟩; let m : Chip := { up Chip.reset with xlat := { Xlat.reset with faults := [f] } };
      open' m ⟨.fault, 0⟩ 1 9 = true ∧ open' m ⟨.fault, 0⟩ 1 (2 ^ 32 + 9) = true ∧ m.faultOf 9 = some f ∧ m.faultOf 8 = none) ∧
    (let m := shunt [] [task .ready 0] Chip.reset; open' m ⟨.shunt, 0⟩ 1 5 = true ∧ (m.task 5).isSome = true ∧ m.shuntHold = false) ∧
    (let m := stg 1 (fun s => { s with post := .quiesce }) Chip.reset; open' m ⟨.shunt, 0⟩ 2 63 = true ∧ m.shuntHold = true) ∧
    (let m := (up Chip.reset).setReg (K.cmemPart 63 7) (F.cmemPartValid.put 0 1); open' m ⟨.shunt, 0⟩ 3 63 = true ∧
      m.flag (K.cmemPart 63 7) F.cmemPartValid = true) := by decide

theorem witness_StageCommandsTakeEffect :
    (let m := up Chip.reset;
      ([1, 2, 3, 4, 5, 6, 7] : List Nat).all (fun c => open' m ⟨.stage, 0⟩ c 0 && open' m ⟨.stage, 0⟩ c (2 ^ 26)) && !m.stg.armed && m.sh.tasks == []) = true ∧
    (let m := (up Chip.reset).setFld K.stageStageStat F.stageStageStatState 5; m.stageState = 5 ∧ open' m ⟨.stage, 0⟩ 5 0 = true) ∧
    (let m := (up Chip.reset).setFld K.stageStageStat F.stageStageStatState 1; m.stageState = 1 ∧ open' m ⟨.stage, 0⟩ 4 0 = true) ∧
    (let m := { up Chip.reset with stg := { StageCtl.reset with armed := true } }; m.stg.armed = true ∧ open' m ⟨.stage, 0⟩ 2 0 = true) ∧
    (let m := ((up Chip.reset).setReg K.stageGuard 0xFF).setFld K.stageImgBase F.stageImgBaseBase 16; m.areasOk = true ∧ m.guardsOk = true ∧
      open' m ⟨.stage, 0⟩ 1 0 = true) ∧
    (let m : Chip := { (up Chip.reset).setReg K.stageGuard 0 with stg := { StageCtl.reset with tags := [(0, 1)] } }; m.areasOk = false ∧ m.guardsOk = false ∧
      open' m ⟨.stage, 0⟩ 1 0 = true) ∧
    (let m := stg 5 id (shunt [] [task .ready 0] Chip.reset); m.stageState = 5 ∧ m.sh.tasks ≠ [] ∧ open' m ⟨.stage, 0⟩ 5 0 = true ∧ open' m ⟨.stage, 0⟩ 3 0 = true) ∧
    (let m := (up Chip.reset).setFld K.stageRegCtl F.stageRegCtlPages 1; m.fld K.stageRegCtl F.stageRegCtlPages ≠ 0 ∧
      granulesOk (m.fld K.stageRegDst F.stageRegDstAddr) (m.fld K.stageRegCtl F.stageRegCtlPages) = true ∧
      sourceOk (m.reg K.stageRegSrc) (m.flag K.stageRegCtl F.stageRegCtlPeer) = true ∧ open' m ⟨.stage, 0⟩ 6 0 = true) ∧
    (let r : Registration := ⟨7, 1, 0, false⟩; let m := stg 1 (fun s => { s with regist := [r] }) Chip.reset; open' m ⟨.stage, 0⟩ 7 7 = true ∧
      m.stg.regist.find? (fun r => r.first == 7) = some r) ∧ granulesOk 0 1 = true := by decide

/-- Mailbox command `c` with argument `a` runs. -/
def mboxAt (c a : Nat) : Chip := (up Chip.reset).beginCmd ⟨.mbox, 0⟩ c (go a)

/-- R502: without a nonce no token is good. -/
theorem no_nonce_no_token (m : Chip) (t : List Byte) (h : m.mg.nonce = none) : (m.token t).2 = false := by
  have : m.tokenGood t = false := by simp [Chip.tokenGood, h]
  simp [Chip.token, this]

theorem witness_MailboxCommandsTakeEffect :
    (let m := up Chip.reset; ([1, 2, 3, 4, 5, 6, 7, 8, 9, 10, 11, 12] : List Nat).all (fun c => open' m ⟨.mbox, 0⟩ c 0) && m.board.ostlerUp) = true ∧
    (let m := (up Chip.reset).modBoard fun b => { b with ostlerUp := false, romLoader := true }; open' m ⟨.mbox, 0⟩ 9 0 = true ∧ m.board.ostlerUp = false ∧
      m.board.romLoader = true ∧ (5 : Nat) < 9) ∧
    (let b := (up Chip.reset).beginCmd ⟨.mbox, 0⟩ 2 (go 64); b.mboxErr Nvm.reset 2 = 0 ∧ (b.setUpd (some ⟨false, .ready, 64, [], none⟩)).mg.upd.isSome = true) ∧
    (let b := (mboxAt 3 0).setUpd (some ⟨false, .ready, 64, [], none⟩); b.mboxErr Nvm.reset 3 = 0 ∧ b.cmdCode ⟨.mbox, 0⟩ = 3 ∧
      b.mboxUpd = some ⟨false, .ready, 64, [], none⟩) ∧
    (let b := (mboxAt 4 0).setUpd (some ⟨false, .ready, 64, [0], none⟩); b.mboxErr Nvm.reset 4 = 0 ∧ b.mg.upd = some ⟨false, .ready, 64, [0], none⟩ ∧
      Nvm.reset.codeA = 0 ∧ ({ Nvm.reset with aCut := true } : Nvm).codeA ≠ 0) ∧
    (([0, 1] : List Nat).all fun a => ((mboxAt 5 a).setUpd (some ⟨false, .ready, 64, [0], some 0⟩)).mboxErr Nvm.reset 5 == 0) = true ∧
    (let b := (mboxAt 6 1).modMg fun g => { g with runSvn := some 9 }; b.mboxErr Nvm.reset 6 = 0 ∧ b.mg.runSvn = some 9) ∧
    (let b := (mboxAt 8 1).setReg K.mboxMbArg 9; b.mboxErr Nvm.reset 8 = 0) ∧
    (let n : Nvm := { Nvm.reset with log := [⟨0, .dbgLock⟩] }; (mboxAt 9 0).mboxErr n 9 = 0 ∧ n.log[0 + 0]? = some ⟨0, .dbgLock⟩) ∧
    (([10, 11, 12] : List Nat).all fun c => (mboxAt c 0).mboxErr Nvm.reset c == 0 && (mboxAt c 0).busy ⟨.mbox, 0⟩ && (mboxAt c 0).cmdCode ⟨.mbox, 0⟩ == c) = true ∧
    (let b := (up Chip.reset).beginCmd ⟨.mbox, 0⟩ 1 (go 0); b.busy ⟨.mbox, 0⟩ = true ∧ b.cmdCode ⟨.mbox, 0⟩ = 1 ∧ b.mboxErr Nvm.reset 1 = 0) ∧
    (let b := (up Chip.reset).beginCmd ⟨.mbox, 0⟩ 7 (go 0); b.mboxErr Nvm.reset 7 = 0) ∧
    (let b := (up Chip.reset).beginCmd ⟨.mbox, 0⟩ 8 (go 2); b.mboxErr Nvm.reset 8 = 2) := by decide

/-- R61: an unknown code ends at once with BAD_CODE. -/
theorem test_bad_code :
    let m := after (exec (.registerWrite (wr (K.pageCmd (PageId.base ⟨.time, 0⟩)) 8 0x09)) (st up));
    m.busy ⟨.time, 0⟩ = false ∧ m.fld (K.pageCmdStat (PageId.base ⟨.time, 0⟩)) F.pageCmdStatErr = 1 := by decide

/-- R33: RAKE_RESET 0 stops the clock of rake 0 until it ends, and counts the epoch. -/
theorem test_rake_reset :
    let m := after (exec (.rakeReset (go 0)) (st up));
    m.dom[0].run = false ∧ m.dom[1].run = true ∧ m.reg (K.timeEpoch 0) = 1 ∧ (after (exec (.commandEnd ⟨.rst, 0⟩) { State.reset with chip := m })).dom[0].run = true := by
  decide

/-! ### Engines -/

/-- A vector entry at supervisor level of context 0, and the engine that has it at its head. -/
def vE (o : VOp) (sc : Bool) (desc : W16) : VEntry :=
  ⟨encodeOp (.vec o sc), desc, 0, 0, 0, 0, 0, false, true, none, false, false, none, 0, [], false⟩

/-- Context 0 runs and owns the engine, with 4 elements of format `f`. -/
def vecOn (f : W16) (e : VEntry) (m : Chip) : Chip :=
  ((live (up m)).modVown 0 fun v => { v with owner := 1 }).modVec 0 fun k => { k with q := [e], vtype := f, vl := 4 }

def vcfg (f : W16) : VCfg := ⟨4, f, 0⟩

theorem witness_VectorEntriesRun :
    (let m := vecOn 1 (vE .vadd false 0) Chip.reset; m.coachOn 0 = true ∧ (m.vec 0).q = [vE .vadd false 0] ∧ m.vecGoes x0 false = true ∧
      (vE .vadd false 0).check (m.vec 0).cfg = some 1 ∧ (vE .vadd false 0).op.1.memPipe = false) ∧
    (let e := vE .vadd false 0; let m := vecOn 0x21 e Chip.reset; e.check (m.vec 0).cfg = none ∧ e.op.1.fam ≠ .mem ∧ e.op.1.fam ≠ .row ∧ e.cfg = none) ∧
    (let e := { vE .vldr false 0 with a := 8191 }; let m := vecOn 0x61 e Chip.reset; e.check (m.vec 0).cfg = none ∧ e.op.1.fam = .row ∧
      m.vecRows x0 e (m.vec 0).cfg = none) ∧
    (let e := vE .vld false 0; let m := vecOn 1 e Chip.reset; e.check (m.vec 0).cfg = none ∧ e.op.1.fam = .mem ∧ (m.vec 0).vresume.getLsbD 17 = false) ∧
    (let e := { vE .vld false 0 with started := true, cfg := some (vcfg 1), next := 4, flight := [] }; e.started = true ∧ e.done = false ∧
      e.halt = false ∧ (vcfg 1).vl.toNat ≤ e.next) ∧
    (let g : XSeg := ⟨.dev 0, none, 4, 0⟩; let e := { vE .vld false 0 with started := true, cfg := some (vcfg 1), next := 4, flight := [⟨3, [g], []⟩] };
      let m := vecOn 1 e Chip.reset; e.flight.find? (·.ix == 3) = some ⟨3, [g], []⟩ ∧ g.isDev = true ∧ e.op.1.loads = true ∧
      m.segsHeld (e.cls (vcfg 1)) (!e.op.1.loads) false [g] = false) ∧
    (let g : XSeg := ⟨.dev 0, none, 4, 0⟩; let e := { vE .vst false 0 with started := true, cfg := some (vcfg 1), next := 4, flight := [⟨3, [g], []⟩] };
      let m := vecOn 1 e Chip.reset; e.flight.find? (·.ix == 3) = some ⟨3, [g], []⟩ ∧ e.op.1.loads = false ∧ m.vecRemoteDone 0 3 [g] = true ∧
      m.segsHeld (e.cls (vcfg 1)) (!e.op.1.loads) false [g] = false ∧ ([⟨3, [g], []⟩] : List VFlight).all (fun h => decide (3 ≤ h.ix)) = true) ∧
    (let e := { vE .vldr false 0 with started := true, cfg := some (vcfg 0x61) }; e.started = true ∧ e.done = false ∧ e.op.1.fam = .row) ∧
    (let e := { vE .vadd false 0 with started := true }; e.started = true ∧ e.done = false ∧ e.op.1.memPipe = false) := by decide

theorem witness_IntegerVectorResults :
    (let k := (vecOn 0x23 (vE .vadd false 0) Chip.reset).vec 0; let e := vE .vadd false 0; k.cfg.fmt = .sint 8 ∧ e.check k.cfg = none ∧
      k.vl.toNat ≤ vlMax k.cfg.fmt k.cfg.group) ∧ (∀ a b, intResult .vadd 8 a b = some ((a + b) % 2 ^ 8)) :=
  ⟨by decide, fun _ _ => rfl⟩

/-- A matrix entry of context 0: FP32 operands, no C, a 1 by 1 tile in FP32 at row 0, K = 1. -/
def mE (w : Vector W16 8) : MEntry :=
  ⟨0, false, 0, 0, w, true, 0, .queued, false, [], 0, 0, none, false, 0, .empty, .empty, 0, none, none, [], false, false, 0, 0, false, false, false⟩

def mOk : MEntry := mE #v[4, 0x41, 1, 0, 0, 0, 0, 0]

def mtxOn (q a : List MEntry) (m : Chip) : Chip := (live (up m)).modMtx 0 fun k => { k with queue := q, arr := a }

def cellBig : MCell := ⟨2 ^ 159, false, false, false, false⟩

theorem witness_MatrixEntriesRun :
    (let m := mtxOn [mOk] [] Chip.reset; m.coachOn 0 = true ∧ m.pend ⟨.mtx, 0⟩ = false ∧ (m.mtx 0).stop0 = false ∧ m.bufZeroing 0 = false ∧
      m.mtxSide 0 false = some false ∧ (m.mtx 0).head false = some mOk ∧ m.mtxCheck 0 mOk = none ∧ m.mtxBeyond 0 mOk = none ∧ (m.mtx 0).arr = [] ∧
      (m.mtx 0).full false = false) ∧
    (let e := mE #v[8, 0x41, 1, 0, 0, 0, 0, 0]; let m := mtxOn [e] [] Chip.reset; m.mtxCheck 0 e = some 2 ∧ (m.mtx 0).head false = some e) ∧
    (let e := { mOk with sup := false }; let m := mtxOn [e] [] Chip.reset; m.mtxCheck 0 e = none ∧ m.mtxBeyond 0 e = some 0) ∧
    (let e := { mOk with stage := .waiting }; let m := mtxOn [] [e] Chip.reset;
      ((m.mtx 0).pipe false).find? (·.stage == .waiting) = some e ∧ m.mtxBlockers 0 e = []) ∧
    (let e := { mOk with stage := .filling }; ((mtxOn [] [e] Chip.reset).mtx 0).fills false = some e ∧ e.cyc < 128) ∧
    (let e := { mOk with stage := .filled, replays := 2 }; ((mtxOn [] [e] Chip.reset).mtx 0).front false = some e ∧ e.fwd = none ∧ 2 ≤ e.replays ∧
      ∀ q ∈ e.withC.cells, q.overflows = false) ∧
    (let e := { mOk with stage := .filled, cells := [cellBig] }; (∃ q ∈ e.withC.cells, q.overflows = true) ∧
      (mtxOn [] [e] Chip.reset).mtxSaturates 0 e = false ∧ e.rescaled = false) ∧
    (let e := { mOk with stage := .filled, cells := [cellBig], rescaled := true }; (∃ q ∈ e.withC.cells, q.overflows = true) ∧ e.rescaled = true) ∧
    (let e := { mOk with stage := .closed }; ((mtxOn [] [e] Chip.reset).mtx 0).pipe false = [e] ∧ e.replays < 2) ∧
    (let e := { mOk with stage := .closed, replays := 2 }; ((mtxOn [] [e] Chip.reset).mtx 0).pipe false = [e] ∧ 2 ≤ e.replays) ∧
    ((1 : Nat) * 2 ^ 158 < 2 ^ 159) := by decide

/-- A descriptor of context 0: FILL of one row of 512 bytes from core row 0. -/
def dE (w : Vector W16 16) : DDesc := ⟨w, 0, 0, false, true, 0, 0⟩

def dFill : DDesc := dE #v[2, 8, 0, 0, 0, 0, 0, 0, 0, 0, 0, 0, 511, 0, 0, 0]

def dOn (f : DStream → DStream) (m : Chip) : Chip := (live (up m)).modStream 0 0 f

/-- COPY of one row of 512 bytes, source kind `k` at row 0, to core row 0. -/
def dCopy (k : W16) (hi : W16) (sup : Bool) : DDesc :=
  ⟨#v[0, k + 8, 0, 0, 0, 0, 0, hi, 0, 0, 0, 0, 511, 0, 0, 0], 0, 0, false, sup, 0, 0⟩

def pieceAt (n : Nat) (st : BurstSt) (g : Option XSeg) : DPiece := ⟨0, n, st, g, []⟩

def unitOf (rd wr : List DPiece) (writing : Bool) : DUnit := ⟨3, 0, 0, 256, rd, wr, writing, [], none, false⟩

/-- The stream reads the unit of descriptor `e` at its first piece. -/
def dRead (e : DDesc) (m : Chip) : Chip :=
  dOn (fun t => { t with q := [e], begun := true, active := true, units := [unitOf [pieceAt 256 .planned none] [] false] }) m

theorem witness_DrayDescriptorsRun :
    (let m := dOn (fun t => { t with q := [dFill] }) Chip.reset; m.coachOn 0 = true ∧ (m.stream 0 0).q = [dFill] ∧ (m.stream 0 0).active = false ∧
      (m.stream 0 0).begun = false ∧ m.drayGoes 0 0 dFill false = true ∧ m.bufZeroing 0 = false ∧ dFill.check = none ∧ dFill.gate = false) ∧
    (let e := dE #v[3, 0, 0, 0, 0, 0, 0, 0, 0, 0, 0, 0, 511, 0, 0, 0]; e.check = some 3) ∧
    (let m := dOn (fun t => { t with q := [dFill], begun := true }) Chip.reset; (m.stream 0 0).begun = true ∧ (m.stream 0 0).active = false ∧
      m.drayGoes 0 0 dFill true = true) ∧
    (let m := dOn (fun t => { t with q := [dFill], begun := true, active := true }) Chip.reset; m.streamChocked 0 0 = false ∧
      (m.stream 0 0).row < dFill.rows ∧ (m.stream 0 0).stopping = false ∧ dFill.op = opFill ∧ ((m.stream 0 0).open' false)[0]? = none) ∧
    (let e := dCopy 1 0 true; let m := dRead e Chip.reset;
      (((m.stream 0 0).open' false)[0]?).any (fun p => p.2.1 == 0 && p.2.2 == pieceAt 256 .planned none) = true ∧ m.maySend 0 0 3 0 = true ∧ m.hasCredit 0 0 = true ∧
      (match (m.burstSeg 0 0 e false 0 256).2 with | .ok g => g.isDev | _ => false) = true) ∧
    (let e := dCopy 1 0 false; (match ((dRead e Chip.reset).burstSeg 0 0 e false (-8) 256).2 with | .chock _ => true | _ => false) = true) ∧
    (let e := dCopy 0 0x8000 true; ((dRead e Chip.reset).burstSeg 0 0 e false (2 ^ 63) 256).2 = .fail) ∧
    (let u := unitOf [] [pieceAt 8 .planned none] true; let m := dOn (fun t => { t with q := [dFill], active := true, units := [u] }) Chip.reset;
      ((m.stream 0 0).open' true)[0]? = some (u, 0, pieceAt 8 .planned none) ∧ m.maySend 0 0 3 0 = true) ∧
    (let m := dOn (fun t => { t with units := [unitOf (List.replicate 144 (pieceAt 8 .sent none)) [] false] }) Chip.reset; m.hasCredit 0 0 = false) ∧
    (dE #v[2, 16, 0, 0, 0, 0, 0, 0, 0, 0, 0, 0, 511, 0, 0, 0]).dkind = kObuf ∧
    (let u := unitOf [] [pieceAt 8 .sent none] true; let m := dOn (fun t => { t with q := [dFill], active := true, units := [u] }) Chip.reset;
      (m.stream 0 0).units.find? (·.id == 3) = some u ∧ u.wr[0]? = some (pieceAt 8 .sent none)) ∧
    (let g : XSeg := ⟨.dev 0, none, 8, 0⟩; let u := unitOf [pieceAt 8 .sent (some g)] [] false;
      let m := dOn (fun t => { t with q := [dCopy 3 0 true], active := true, units := [u] }) Chip.reset;
      (m.stream 0 0).units.find? (·.id == 3) = some u ∧ u.rd[0]? = some (pieceAt 8 .sent (some g)) ∧ m.segsHeld (dCopy 3 0 true).cls false false [g] = false ∧
      regionOf 0 = .hbm) ∧
    (let g : XSeg := ⟨.dev 0, none, 8, 0⟩; let u := unitOf [] [pieceAt 8 .sent (some g)] true;
      let m := dOn (fun t => { t with q := [dFill], active := true, units := [u] }) Chip.reset;
      (m.stream 0 0).units.find? (·.id == 3) = some u ∧ u.wr[0]? = some (pieceAt 8 .sent (some g)) ∧ m.segsHeld dFill.cls true dFill.noalloc [g] = false) ∧
    (let m := dOn (fun t => { t with q := [dFill], active := true, row := 1 }) Chip.reset; (m.stream 0 0).units = [] ∧ dFill.rows ≤ (m.stream 0 0).row ∧
      (m.stream 0 0).again = none) := by decide

/-! ### Engines: values -/

/-- R197: 8-bit VADD of a register to itself wraps element by element. -/
theorem test_vadd_wraps :
    let k : VecEngine := { ((vecOn 0x2B (vE .vadd false 0) Chip.reset).vec 0) with v := (Vector.replicate 32 0).set 1 0x0101FF };
    (k.exec (vE .vadd false 0x0421) 0).eng.elem (.uint 8) 1 0 = 0xFE ∧ (k.exec (vE .vadd false 0x0421) 0).eng.elem (.uint 8) 1 2 = 2 := by decide

/-- R239: an exact sum of a product and a value below it. -/
theorem test_cell_add : (MCell.add ⟨5, false, false, false, false⟩ 0 true 3 2).1.acc = -7 := by decide

/-! ### Memory and translation -/

theorem witness_MemoryAccessesAreServed :
    (let m := up Chip.reset; m.memUp = true ∧ regionOf 0x200003FFE00 = .core 0 8191 0 ∧ (512 : Nat) % 8 = 0 ∧ m.rowReady 0 8191 = true ∧
      (m.setReg (K.cmemQpwr 0) 0).rowReady 0 8191 = false) ∧
    (let m := ((up Chip.reset).setFld (K.cmemQpwr 63) F.cmemQpwrOn 8).setFld (K.cmemQpwr 63) F.cmemQpwrReady 0; let on := m.fld (K.cmemQpwr 63) F.cmemQpwrOn;
      on.testBit 3 = true ∧ (m.fld (K.cmemQpwr 63) F.cmemQpwrReady).testBit 3 = false ∧
      (m.setFld (K.cmemQpwr 63) F.cmemQpwrOn 12).fld (K.cmemQpwr 63) F.cmemQpwrReady + 2 ^ 3 ≠ 12) ∧
    (let m := up Chip.reset; regionOf 0x10001FFFF00 = .depot 0 0x1FFFF00 ∧ m.busy ⟨.depot, 0⟩ = false ∧ m.splitHeld 3 0x10001FFFF00 256 = false ∧ idKind 0x1000 ≠ 2 ∧
      0x1FFFF00 + 256 ≤ (m.setFld (K.depotSplit 0) F.depotSplitA 8).eighths 0 * 0x400000 ∧
      (m.setFld (K.depotSplit 0) F.depotSplitA 7).eighths 0 * 0x400000 < 0x1FFFF00 + 8) ∧
    (let m := (up Chip.reset).modSlice 0 fun k => { k with fetch := [⟨5, false, false, 3, 0x8000, false, false⟩] }; m.memUp = true ∧ m.badBlocks (m.hbmAddr 0 (5 * 256)) 256 = [] ∧
      (m.slice 0).fetch.find? (fun e => e.line == 5) = some ⟨5, false, false, 3, 0x8000, false, false⟩) ∧
    (([(false, true, false), (false, false, true), (true, false, false), (false, false, false)] : List (Bool × Bool × Bool)).all fun v =>
      let f : DFetch := ⟨5, false, v.1, 3, 0x8000, v.2.1, v.2.2⟩; let m : Chip := { (up Chip.reset).modSlice 0 fun k => { k with fetch := [f] } with badCrc := [20] };
      (m.slice 0).fetch.find? (fun e => e.line == 5) == some f && m.badBlocks (m.hbmAddr 0 (5 * 256)) 256 != []) = true ∧
    (let m := up Chip.reset; m.stackOf 0x1001 = (0, 0x1001) ∧ m.badBlocks 0x1001 3 = [] ∧ 0x1001 / 64 = (0x1001 + 3 - 1) / 64 ∧ m.inMirror 0x1001 = false) ∧
    (let m := (up Chip.reset).askJob (.reload 3) 0x8005 1; (m.nextJob.map (·.work)) = some (.reload 3)) ∧
    (let m := up Chip.reset; m.stackOf 0xFFFFFFFFC0 = (15, 0xFFFFFFFC0) ∧ 0xFFFFFFFFC0 + 64 ≤ 0x10000000000 ∧ m.badBlocks 0xFFFFFFFFC0 64 = [] ∧
      m.inMirror 0xFFFFFFFFC0 = false) ∧
    (let m := (up Chip.reset).beginCmd ⟨.hbm, 15⟩ 1 (go 0); m.busy ⟨.hbm, 15⟩ = true ∧ m.fld (K.hbmScrubPos 15) F.hbmScrubPosAddr ≤ 0) ∧
    (let m := (up Chip.reset).askJob (.xfer 3) 0x8000 3; m.nextJob.isSome = true) ∧
    (let m : Chip := { up Chip.reset with host := { HostIf.reset with jobs := [⟨9, .xfer 3, 0, 3, true, 0, 0⟩] } };
      m.host.jobs.find? (fun k => k.id == 9 && k.granted) = some ⟨9, .xfer 3, 0, 3, true, 0, 0⟩) ∧
    (let m := (up Chip.reset).beginCmd ⟨.depot, 15⟩ 1 (go 0); m.busy ⟨.depot, 15⟩ = true) ∧
    (let m := (up Chip.reset).setFld (K.hbmScrubCtl 15) F.hbmScrubCtlPatrol 1; m.flag (K.hbmScrubCtl 15) F.hbmScrubCtlPatrol = true ∧
      m.busy ⟨.hbm, 15⟩ = false ∧ 8 ≤ m.phase) := by decide

def walkOf (lvl : Nat) : XWalk := ⟨4, 1, 7, lvl, false, 0x1000, true, none, false⟩

def xl (f : Xlat → Xlat) (m : Chip) : Chip := { up m with xlat := f (up m).xlat }

theorem witness_WalksRunAndFaultsAreWritten :
    (let q : XMiss := ⟨⟨0, 0⟩, 1, 0x10000, false, false, 1⟩; let m := xl (fun x => { x with miss := [q] }) Chip.reset;
      (m.xrake 0).walks.length < 4 ∧ m.unwalked 0 = [q] ∧
      (let far (d : XMiss) : Nat := (d.req.coach.val % 16 + 15 - (m.xrake 0).last.val) % 16;
        (m.unwalked 0).find? (fun d => (m.unwalked 0).all fun g => decide (far d ≤ far g)) = some q)) ∧
    (let m := (up Chip.reset).modRake 0 fun k => { k with walks := [walkOf 1] }; (m.xrake 0).walks.find? (·.id == 4) = some (walkOf 1) ∧
      m.devHeld 1 false false 0x1000 8 = false ∧ (walkOf 1).host = false ∧ (walkOf 1).again = false ∧ (m.devRead (hubId .xlat) 1 0x1000 8 false).2 = some (List.replicate 8 0)) ∧
    ((1 : W64).getLsbD 0 = true ∧ malformed 1 1 = false ∧ malformed 3 1 = false ∧ malformed 3 2 = true ∧ (3 : W64).getLsbD 1 = true) ∧
    (([0, 2, 3, 4] : List Nat).all fun l => ((((up Chip.reset).modRake 0 fun k => { k with walks := [walkOf l] }).xrake 0).walks.find? (·.id == 4)) == some (walkOf l)) = true ∧
    (let w := { walkOf 1 with addr := 2 ^ 45 }; let m := (up Chip.reset).modRake 0 fun k => { k with walks := [w] }; (m.xrake 0).walks.find? (·.id == 4) = some w ∧
      m.devHeld 1 false false w.addr 8 = false ∧ (m.devRead (hubId .xlat) 1 w.addr 8 false).2 = none) ∧
    (let m := (up Chip.reset).wrBytes 0x1000 [1]; (m.devRead (hubId .xlat) 1 0x1000 8 false).2 = some [1, 0, 0, 0, 0, 0, 0, 0] ∧ asidMalformed (2 ^ 63) = true) ∧
    (let h : XAhead := ⟨0, 0, 1, 0, false, [(7, 0)], []⟩; let m := live (xl (fun x => { x with ahead := [h] }) Chip.reset);
      m.xlat.ahead.find? (fun h => h.coach == 0 && h.stream == 0) = some h ∧ (m.ctx ⟨0, m.streamSide 0 0⟩).st = .running ∧ (m.ctx ⟨0, m.streamSide 0 0⟩).task = h.task ∧ m.unwalked 0 = [] ∧
      (m.xrake 0).walks = [] ∧ (m.xrake 0).tc.any (·.maps 1 7) = false) ∧
    (let f : XFault := ⟨0, 1, 7, 1, 0, false, 0x70000, [], 0, false⟩; let m := (xl (fun x => { x with faults := [f] }) Chip.reset).setFld K.faultQCtl F.faultQCtlEn 1;
      m.xlat.faults.find? (!·.written) = some f ∧ m.flag K.faultQCtl F.faultQCtlEn = true ∧
      (m.fld K.faultQTail F.faultQTailIndex + 1) % 2 ^ m.fld K.faultQCtl F.faultQCtlLog2size ≠ m.fld K.faultQHead F.faultQHeadIndex ∧ m.faultSlotHeld = false) ∧
    (let m := ((up Chip.reset).setFld K.faultQTail F.faultQTailIndex 63).setFld K.faultQCtl F.faultQCtlEn 1;
      (m.fld K.faultQTail F.faultQTailIndex + 1) % 2 ^ m.fld K.faultQCtl F.faultQCtlLog2size =
        m.fld K.faultQHead F.faultQHeadIndex % 2 ^ m.fld K.faultQCtl F.faultQCtlLog2size) := by decide

def desc0 : InvDesc := ⟨Vector.replicate 4 0, 0⟩

theorem witness_InvalidationDrainsAndCompletes :
    (let m : Chip := { link0 Chip.reset with host := { HostIf.reset with mcBase := #v[0x1000, 0], mcSize := #v[0x100, 0], mcRecv := #v[1, 0] } };
      m.linkUp 0 = true ∧ m.inMulticast 0 0x10FF = true ∧ m.inMulticast 0 0x1100 = false ∧ m.linkStalled 0 = false ∧ (0x1000 : Nat) % 32 = 0) ∧
    (let m := xl (fun x => { x with fifo := [desc0] }) Chip.reset; m.xlat.fifo = [desc0]) ∧
    (desc0.bad = false ∧ (⟨#v[1, 0, 0, 0], 0⟩ : InvDesc).bad = true) ∧
    (let m := xl (fun x => { x with drains := [⟨desc0, false, 0, 0, false⟩] }) Chip.reset; m.undrained 0 = false ∧ m.linkUp 0 = false) ∧
    (let m := { link0 Chip.reset with xlat := { Xlat.reset with drains := [⟨desc0, false, 0, 0, false⟩] } }; m.undrained 0 = false ∧ m.linkUp 0 = true) ∧
    (0x1008 : Nat) % 32 ≠ 0 := by decide

/-- R278: a fabric write of part of a row is refused with ROW_SHAPE, DETAIL 1, and stores nothing. -/
theorem test_core_part_row :
    let m := after (exec (.cmemFabricAccess 0x8000 3 0x20000000200 8 (some (List.replicate 8 7))) (st up));
    m.mem = [] ∧ m.reg (K.cmemRowsWr 0) = 0 ∧ ((m.errQ ⟨.cmem, 0⟩).recs.map fun r => (r.code, r.detail)) = [(0x85, 1)] := by decide

/-! ### The shunter -/

theorem witness_EntriesAndTasksGoOn :
    (let m := (((shunt [] [] Chip.reset).setReg (K.doorbellSqTail 0) 1).setFld (K.funcFstat 0) F.funcFstatBme 1); m.shuntGoes = true ∧ m.reexec = false ∧ badHeader wTask = false ∧
      m.mayTake 0 = true ∧ m.nextQueue false = some 0 ∧ m.nextQueue true = some 0 ∧ m.tasksHeld < 2048 ∧ m.linkUp (m.hostRoute 0).1 = true ∧ m.logStalls 64 = false ∧
      m.bme 0 = true ∧ m.readsOut 0 + (m.readParts 0 0 64).length ≤ 768 ∧ entryType wTask[0] = 1) ∧
    (let m := shunt [en wTask] [] Chip.reset; m.shuntHold = false ∧ m.nextEntry 1 (fun _ => true) = some (en wTask) ∧
      badTask (m.taskOf (en wTask) 5) = false ∧ m.asidOk 0 0 = true ∧ m.task 5 = none ∧ m.handleFits (en wTask) 5 = true ∧ m.asidOk 0 1 = false) ∧
    (let e := en #v[2, 0, 0, 0, 0, 0, 0, 0]; let m := shunt [e] [] Chip.reset; m.nextEntry 2 (fun f => !f.started) = some e ∧ m.privOk 0 = false) ∧
    (let e := en #v[2, 0, 0x1000, 0x100000001, 0, 0, 0, 0]; let m := (shunt [e] [] Chip.reset).setFld (K.doorbellQctl 0) F.doorbellQctlPriv 1;
      m.nextEntry 2 (fun f => !f.started) = some e ∧ m.privOk 0 = true ∧ (xferOf e m.sh.nextXfer).isSome = true) ∧
    (let e := en #v[0x10, 0, 0x10000, 0x100000001, 0, 0, 0, 0]; let m := (shunt [e] [] Chip.reset).setFld (K.doorbellQctl 0) F.doorbellQctlPriv 1;
      m.nextEntry 0x10 (fun f => !f.started) = some e ∧ (migrateOf e m.sh.nextXfer).isSome = true) ∧
    (let e := en #v[3, 0, 0, 0, 0, 0, 0, 0]; let m := shunt [e] [] Chip.reset; m.nextEntry 3 (fun _ => true) = some e ∧ m.taskByTag 0 e.words = none) ∧
    (let e := en #v[3, 0, 0, 0, 0, 0, 0, 0]; let t := task .ready 0; let m := shunt [e] [t] Chip.reset; m.taskByTag 0 e.words = some t) ∧
    (let e := { en #v[4, 0, 0, 0, 0, 0, 0, 0] with started := true, aim := 5 }; let m := shunt [e] [] Chip.reset;
      m.nextEntry 4 (fun f => f.started && (m.task f.aim).isNone) = some e) ∧
    (let e := en #v[4, 0, 0, 0, 0, 0, 0, 0]; let t := task .ready 0; let m := shunt [e] [t] Chip.reset; m.nextEntry 4 (fun f => !f.started) = some e ∧
      m.nextEntry 4 (fun f => f.started && (m.task f.aim).isNone) = none ∧ m.taskByTag 0 e.words = some t) ∧
    (let e := en #v[0x11, 0, 1, 4, 0, 0, 0, 0]; let m := shunt [e] [] Chip.reset; m.nextEntry 0x11 (fun _ => true) = some e ∧
      (adviseOf e.words).any (fun a => a.attr == 4 && m.asidOk 0 a.asid.toNat) = true ∧ m.xlat.advice.length < 256 ∧
      adviseOf #v[0x11, 0, 0, 4, 0, 0, 0, 0] = none) := by decide

theorem witness_TasksArePlacedAndSwitched :
    (let t := task .waiting 0; let m := ((shunt [] [t] Chip.reset).setReg (K.shuntCoachCfg 0) (F.shuntCoachCfgRowLo.put (F.shuntCoachCfgEn.put 0 1) 16)).setReg (K.shuntCoachCfg 0) (F.shuntCoachCfgEn.put 0 1);
      (∀ u ∈ m.sh.tasks, m.placeStep u = false) ∧ m.waitingTasks = [t] ∧ m.memUp = true ∧ m.shuntGoes = true) ∧
    (let t := task .waiting 0; let m := (shunt [] [t] Chip.reset).setReg (K.shuntCoachCfg 0) (F.shuntCoachCfgRowLo.put (F.shuntCoachCfgEn.put 0 1) 16); let n := m.endFenced;
      n.waitingTasks = [t] ∧ (n.placeOf t).isSome = true ∧ (∀ u ∈ n.sh.tasks, n.placeStep u = false) ∧ m.memUp = true) ∧
    (let u := task .running 0; let t := { task .ready 0 with handle := 6, side := some false }; let m := (taskRun [u, t] id Chip.reset).setFld K.shuntShuntCtl F.shuntShuntCtlSlice 5;
      m.fld K.shuntShuntCtl F.shuntShuntCtlSlice ≠ 0 ∧ m.task (m.ctx x0).task = some u ∧ u.st = .running ∧ u.ending = none ∧
      bestTask ((m.readyFor x0).filter fun t => t.prio == u.prio) = some t) ∧
    (let u := { task .running 0 with side := some true }; let t := { task .ready 0 with handle := 6, side := some true };
      let m := (((taskRun [u, t] id Chip.reset).modCtx x0 fun k => { k with task := 0, st := .idle }).modCtx ⟨0, true⟩ fun k => { k with st := .running, task := 5 }).modVown 0
        fun v => { v with claimA := true, limitA := true };
      m.task (m.ctx ⟨0, true⟩).task = some u ∧ u.st = .running ∧ u.ending = none ∧ (m.coach 0).vown.claimA = true ∧ (m.coach 0).vown.limitA = true ∧
      bestTask (m.readyFor ⟨0, true⟩) = some t) ∧
    (let t := task .ready 0; let m := taskRun [t] (fun k => { k with st := .idle, task := 0 }) Chip.reset; m.shuntGoes = true ∧ (m.ctx x0).st = .idle ∧
      bestTask (m.readyFor x0) = some t ∧ t.forTask = none) ∧
    (let u := task .running 3; let t := { task .ready 0 with handle := 6, side := some false }; let m := taskRun [u, t] id Chip.reset;
      m.victimOf t = some (x0, u) ∧ m.wantsSwitch t = true) ∧
    (let u := task .running 0; let t := { task .ready 0 with handle := 6, side := some false }; let m := (taskRun [u, t] id Chip.reset).setFld K.shuntShuntCtl F.shuntShuntCtlSlice 0;
      m.task (m.ctx x0).task = some u ∧ u.ending = none) ∧
    (let u := { task .running 0 with side := some true }; let t := { task .ready 0 with handle := 6, side := some true }; let m := ((taskRun [u, t] id Chip.reset).modCtx x0 fun k => { k with task := 0, st := .idle }).modCtx ⟨0, true⟩ fun k => { k with st := .running, task := 5 };
      m.task (m.ctx ⟨0, true⟩).task = some u ∧ bestTask (m.readyFor ⟨0, true⟩) = some t) ∧
    (let u := task .running 0; let m := { taskRun [u] id Chip.reset with xlat := { Xlat.reset with toSide := [(⟨0, 0⟩, 5)] } }; m.shuntHold = false ∧ m.task 5 = some u ∧
      m.ctxOf 5 = some x0) ∧
    (let u := task .ready 0; let f : XFault := ⟨0, 1, 7, 1, 0, false, 0x70000, [(⟨0, 0⟩, 5)], 0, false⟩;
      let m := { shunt [] [u] Chip.reset with xlat := { Xlat.reset with toSide := [(⟨0, 0⟩, 5)], faults := [f] } }; m.shuntHold = false ∧ m.task 5 = some u ∧
      m.ctxOf 5 = none ∧ m.taskHeld 5 = true) ∧
    (let u := { task .ready 0 with ending := some (4, 0) }; let m := shunt [] [u] Chip.reset; m.task 5 = some u ∧ m.ctxOf 5 = none ∧ m.stg.rb = .none) ∧
    (let u := task .ready 0; let m := (shunt [] [u] Chip.reset).beginCmd ⟨.shunt, 0⟩ 1 (go 5); m.busy ⟨.shunt, 0⟩ = true ∧ m.cmdCode ⟨.shunt, 0⟩ = 1 ∧
      m.cmdArg ⟨.shunt, 0⟩ = 5 ∧ m.shuntHold = false) ∧
    (let u := { task .stranded 0 with side := some false }; let m := (((shunt [] [u] Chip.reset).setReg (K.shuntCoachCfg 0) (F.shuntCoachCfgFenced.put 0 1)).modCtx x0 fun k => { k with st := .fenced }).modCtx ⟨0, true⟩ fun k => { k with st := .fenced };
      let n := (m.setReg (K.shuntCoachCfg 63) (F.shuntCoachCfgEn.put 0 1)).modCtx ⟨63, false⟩ fun k => { k with st := .idle };
      let n1 := n.modCtx ⟨63, true⟩ fun k => { k with st := .idle };
      n1.fencedOff 0 = true ∧ n1.endFenced.strandedOf 0 = [u] ∧ u.solo = false ∧ n1.endFenced.noCoach u = false ∧ (n1.coach 0).vown.dirty = false ∧
      n1.endFenced.targetFor [u] = some 63) := by
  decide

/-! ### Host and peers -/

theorem witness_HostAccessesAreServed :
    (let m := link0 Chip.reset; m.linkUp (m.linkOf 0) = true ∧ m.cfgOpen = true ∧ m.ready = true ∧ m.present 0 = true ∧ m.present 1 = false ∧
      m.chocked (funcId 0) = false ∧ m.memUp = true ∧ tableShape 0x6000 8 = true ∧ m.stalledLink (funcId 0) = none ∧ m.logStalls 8 = false ∧
      m.devHeld 3 false false 0 8 = false ∧ m.devHeld 3 true false 0 8 = false ∧ m.waitsTurn = false ∧ m.inWindow 0 (2 ^ 60) 8 = false) ∧
    (let m := (link0 Chip.reset).setFld K.rstBootStat F.rstBootStatReady 0; m.ready = false ∧ m.cfgOpen = false) ∧
    (let m := (link0 Chip.reset).chock ⟨.func, 0⟩ 0x1000 1 0 32; m.chocked (funcId 0) = true) ∧
    (let m := (link0 Chip.reset).setReg (K.funcMemWin 0) (F.funcMemWinEn.put 0 1); m.inWindow 0 0 8 = true ∧
      (m.landWrite (funcId 0) 3 0 eight none).2 = true) ∧
    (let m := (((link0 Chip.reset).setReg (K.funcMemWin 0) (F.funcMemWinEn.put 0 1)).setFld (K.funcMemLim 0) F.funcMemLimLim (2 ^ 26 - 1)).setReg K.stageGuard 0xFF; let a := m.hbmAddr 8 mirrorSplit;
      m.inMirror a = true ∧ m.inWindow 0 a 8 = true ∧ (m.landWrite (funcId 0) 3 a eight none).2 = false) ∧
    (let m := (stg 4 id Chip.reset).setReg (K.funcMemWin 0) (F.funcMemWinEn.put 0 1); m.waitsTurn = true ∧ m.inWindow 0 0 8 = true ∧ m.logStalls 8 = false) ∧
    (let r : HostRead := ⟨3, 0, 0, 0, 4, 0x3000, 0, 0, .dray 0 0 0 0, true, [], 0⟩; let m := { link0 Chip.reset with host := { HostIf.reset with reads := [r] } };
      m.host.reads.find? (fun r => r.id == 3) = some r ∧ m.linkUp r.link = true ∧ m.memUp = true ∧ ([1, 2, 3, 4] : List Byte).length = r.len) ∧
    (let r : HostRead := ⟨3, 0, 0, 0, 4, 0x3000, 0, 0, .dray 0 0 0 0, false, [], 0⟩; let m := { link0 Chip.reset with host := { HostIf.reset with reads := [r] } };
      m.host.reads.find? (fun r => r.id == 3) = some r ∧ m.bme 0 = false ∧ m.readsFromLog r.master = false) ∧
    (let w : HeldWrite := ⟨0, 0, 0, [], 0, .record⟩; let m := { up Chip.reset with host := { HostIf.reset with held := [w] } }; m.host.held = [w] ∧ m.linkUp 0 = false) := by decide

/-- A write that arrives at port 0. -/
def inW : Flits := wire .write 8 eight

theorem inW_good : inW.good = true ∧ inW.packet = some (pkt .write 8 eight) ∧ inW.lseq = 0 := by decide

/-- Its LCRC does not match. -/
def inBad : Flits := { inW with w3 := inW.w3 + 0x100000000 }

theorem inBad_bad : inBad.good = false := by decide

def inbound : Inbound := ⟨6, 0, 0, { pkt .write 8 eight with notify := true, tag := 1 }, 0x1000, 0, 0, 0, 0, true⟩

def cplOut : CplOut := ⟨0, 0, true, 7, 0, 0, 8, 0x3000, 0, 0, none, 0, 0, 5, 0, true, none⟩

theorem witness_PeersAndPortsAreServed :
    (let m := port0 Chip.reset; m.portUp 0 = true ∧ m.portEth 0 = false ∧ (0 : BitVec 12) = (m.sfPort 0).flit.rx ∧ (pkt .write 8 eight).dst = m.ownAddr ∧
      m.arrivalStalls (pkt .write 8 eight) = false ∧ (pkt .read 8 []).dst = m.ownAddr) ∧
    (let m := (port0 Chip.reset).accepted 0 0 (pkt .write 8 eight); m.cplOn = true ∧ m.stageState ≠ 5 ∧ m.chocked (peerId 0) = false ∧
      m.peerOf 0 = some 0 ∧ m.peerOf 9 = none ∧ m.osnFar 0 257 = true ∧ m.osnFar 0 256 = false ∧ m.osnDup 0 0 = true ∧ m.osnDup 0 1 = false ∧
      m.windowOk 0 (pkt .write 8 eight) = false ∧
      (((m.setReg (K.coupleWinCtl 0 0) (F.coupleWinCtlW.put (F.coupleWinCtlV.put 0 1) 1)).setFld (K.coupleWinSize 0 0) F.coupleWinSizePages 1).windowOk 0
        (pkt .write 8 eight)) = true ∧ ((m.chock ⟨.couple, 0⟩ (peerId 0) 4 0 32).chocked (peerId 0)) = true) ∧
    (let m := (up Chip.reset).accepted 0 0 (pkt .write 8 eight); m.cplOn = false) ∧
    (let k := pkt .writeRsp 0 []; let m := { port0 Chip.reset with sf := { (port0 Chip.reset).sf with out := [cplOut] } }; m.portUp 0 = true ∧ m.arrivalStalls k = false ∧
      (((m.accepted 0 0 k).slotDone 0 k).outFrom k.src true 7) = some cplOut ∧ ((m.accepted 0 0 k).slotDone 0 k).outFrom 1 true 7 = none) ∧
    (let m := (port0 Chip.reset).modPort 0 fun s => { s with flit := { s.flit with replay := [⟨0, pkt .write 8 eight, none, none, 0⟩] } };
      (m.sfPort 0).flit.replay ≠ [] ∧ (m.sfPort 0).flit.tries < 16) ∧
    (let m := ((port0 Chip.reset).setReg (K.linkPortCfg 0) 1).setFld (K.linkPortCfg 0) F.linkPortCfgPfc 1; m.flag (K.linkPortCfg 0) F.linkPortCfgPfc = true ∧
      m.portEth 0 = true ∧ m.ethPeer 0 = some 0) ∧
    (let m := port0 Chip.reset; (5 : BitVec 12) ≠ (m.sfPort 0).flit.rx ∧ (m.sfPort 0).flit.naked = false) ∧
    (let m := (port0 Chip.reset).modPort 0 fun s => { s with flit := { s.flit with replay := [⟨0, pkt .write 8 eight, none, none, 0⟩], tries := 16 } };
      (m.sfPort 0).flit.replay ≠ [] ∧ 16 ≤ (m.sfPort 0).flit.tries) ∧
    (let m := (port0 Chip.reset).setReg (K.linkPortCfg 0) 1; m.portUp 0 = true ∧ m.portEth 0 = true ∧ m.peerOf 0 = some 0 ∧
      (m.fld (K.coupleCplCfg 0) F.coupleCplCfgEtype ≠ 0x88B5)) ∧
    (let m := (up Chip.reset).setFld (K.linkPortStat 9) F.linkPortStatTraining 1; m.flag (K.linkPortStat 9) F.linkPortStatTraining = true) ∧
    (let e : LinkEnd := { LinkEnd.reset with replay := [⟨0, pkt .write 8 eight, none, none, 0⟩] };
      let m := ((port0 Chip.reset).setReg (K.linkPortCfg 0) 1).setReg (K.couplePeerCtl 0 0) (F.couplePeerCtlPorts.put (F.couplePeerCtlEth.put (F.couplePeerCtlV.put 0 1) 1) 1);
      let n := m.setEth 0 e; F.couplePeerCtlEth.bit (n.peerCtl 0) = true ∧ (n.ethEnd 0).replay ≠ [] ∧ (n.choosePort 0 (n.peerCtl 0)).isSome = true) ∧
    (let m := { port0 Chip.reset with sf := { (port0 Chip.reset).sf with out := [cplOut] } }; m.outOf 0 true 7 = some cplOut ∧ cplOut.port ≠ noPort ∧ m.outStalls cplOut = false) ∧
    (let m := { port0 Chip.reset with sf := { (port0 Chip.reset).sf with inb := [inbound] }, host := { HostIf.reset with jobs := [⟨9, .inbound 6, 0, 3, true, 0, 0⟩] } };
      m.memUp = true ∧ m.sf.inb.find? (·.id == 6) = some inbound ∧ m.hasJob (.inbound 6) = true ∧ m.devHeld 1 true false 0x1000 8 = false ∧
      m.osnAhead 0 1 = 1 ∧ m.osnDup 0 1 = false ∧ m.targetFails 0x1000 8 true = false ∧ m.logStalls 8 = false ∧ m.waitsTurn = false) := by decide

/-- R420: a packet with a bad LCRC is counted and refused. -/
theorem test_bad_lcrc :
    let m := after (exec (.selfanWrite 0 inBad) (st port0));
    m.reg (K.linkCrcErr 0) = 1 ∧ (m.sfPort 0).flit.naked = true := by decide

/-! ### The stage -/

theorem witness_PostsRunThroughTheirPhases :
    (let m := stg 1 (fun s => { s with armed := true }) Chip.reset; m.stg.armed = true ∧ m.stageState = 1 ∧ m.stg.post = .none ∧
      m.fld K.stageTimer F.stageTimerMs ≤ max 250 (min 60000 (m.fld K.stageStageLen F.stageStageLenMs))) ∧
    (let m := (stg 3 id Chip.reset).setFld K.stageStageStat F.stageStageStatPostPend 1; m.flag K.stageStageStat F.stageStageStatPostPend = true ∧ m.stageState < 4 ∧
      m.stg.rb = .none ∧ m.stg.postCmd ≠ 4) ∧
    (let m := stg 1 (fun s => { s with post := .quiesce }) Chip.reset; m.stg.post = .quiesce ∧ m.quiesced = true ∧ m.memUp = true ∧ m.saveAllVec.postImages = false) ∧
    (let m := stg 1 (fun s => { s with post := .quiesce, armed := true }) Chip.reset; m.stg.post = .quiesce ∧ m.quiesced = true ∧ m.saveAllVec.postImages = true) ∧
    (let m := (live (stg 1 (fun s => { s with post := .quiesce }) Chip.reset)); m.stg.post = .quiesce ∧ m.quiesced = false ∧ m.stg.deferred = [] ∧
      (m.ctx x0).st.going = true ∧ (m.ctx x0).stopReq.elem .side = false) ∧
    (let m := stg 1 (fun s => { s with post := .mirror }) Chip.reset; m.stg.post = .mirror ∧ m.memUp = true ∧ m.mirrorFails = false ∧ m.stg.deferred = []) ∧
    (let m := stg 1 (fun s => { s with post := .retry }) Chip.reset; m.stg.post = .retry) ∧
    (let m := (stg 1 (fun s => { s with armed := true }) Chip.reset).setFld K.stageStageStat F.stageStageStatFull 1; m.logging = true ∧
      m.flag K.stageStageStat F.stageStageStatFull = true) := by decide

theorem witness_RecoveryRollsBackAndRunsAgain :
    (let m := stg 1 (fun s => { s with events := [ev0 2] }) Chip.reset; m.stg.events = [ev0 2] ∧ m.stageState ≠ 5 ∧ m.stg.rb = .none ∧ m.stg.current = none) ∧
    (let m := stg 1 (fun s => { s with armed := true }) Chip.reset; m.stg.mirrorBad = false ∧ m.fld K.stageStageStat F.stageStageStatBcount < 2 ∧
      (m.levelOf (ev0 5)).2 = .b ∧ ((up Chip.reset).levelOf (ev0 5)).2 = .c ∧ (m.levelOf (ev0 1)).2 = .a) ∧
    (let m := (stg 1 (fun s => { s with armed := true }) Chip.reset).setFld K.stageStageStat F.stageStageStatBcount 2; m.stg.armed = true ∧ m.stg.mirrorBad = false ∧
      2 ≤ m.fld K.stageStageStat F.stageStageStatBcount) ∧
    (let m := stg 1 (fun s => { s with written := [(0, true)], tags := [(0, 1)] }) Chip.reset; let e : RecEvent := { ev0 3 with addr := BitVec.ofNat 64 (m.hbmAddr 8 mirrorSplit) };
      (m.levelOf e).2 = .none ∧ e.cause = 3) ∧
    (let e : RecEvent := { ev0 6 with task := 5, retired := 9 }; let b := stg 4 (fun s => { s with third := [(5, 9)], events := [e] }) Chip.reset;
      let m : Chip := { b with stg := { b.stg with image := some b.imageOf } };
      (m.levelOf e).2 = .none ∧ e.cause = 6 ∧ m.stg.events = [e] ∧ m.stg.image.isSome = true ∧ m.stg.rb = .none ∧ m.stageState ≠ 5) ∧
    (let m := stg 1 (fun s => { s with tags := [(0, 2)], regist := [⟨0, 1, 0, false⟩], events := [ev0 2] }) Chip.reset; (m.levelOf (ev0 2)).2 = .a ∧ m.tag ((ev0 2).addr.toNat / 65536) = 2 ∧
      m.stg.current = none) ∧
    (let b := stg 3 (fun s => { s with rb := .stopped }) Chip.reset; let i := b.imageOf; i.sh.tasks = [] ∧ b.sh.tasks = [] ∧ b.crcHeld = []) ∧
    (let b := (stg 1 id Chip.reset).setReg K.stageGuard 0xFF; b.mirrorOf (0 * 65536) ≠ none) ∧
    (let m := (stg 1 (fun s => { s with current := some (ev0 2), tags := [(0, 1)] }) Chip.reset).setReg K.stageGuard 0xFF; m.memUp = true ∧
      m.stg.current = some (ev0 2) ∧ (ev0 2).cause = 2 ∧ m.tag 0 = 1 ∧ (m.mirrorOf 0).isSome = true ∧ m.badCrc = []) ∧
    (let m := stg 1 (fun s => { s with rb := .begun }) Chip.reset; m.stg.rb = .begun) ∧
    (let m := stg 1 (fun s => { s with rb := .stopped }) Chip.reset; m.stg.rb = .stopped ∧ m.depotWorks = false ∧ m.memUp = true) ∧
    (let m := stg 1 (fun s => { s with rb := .restored }) Chip.reset; m.stg.rb = .restored ∧ m.stg.rbFence = none ∧ ∀ c : Fin 64, m.flag (K.shuntCoachCfg c) F.shuntCoachCfgFenced = false) ∧
    (let r : LogRec := ⟨.bar2Write, 0x1000, 0, 0, 0, [7], none, false⟩; let m := stg 4 (fun s => { s with log := [r] }) Chip.reset; m.reexec = true ∧ m.logHead = some r ∧
      m.memUp = true ∧ m.stg.deferred = [] ∧ m.logReach.devHeld 3 true false 0 1 = false) ∧
    (let m := stg 4 (fun s => { s with diverged := [5] }) Chip.reset; m.reexec = true ∧ 5 ∈ m.stg.diverged) ∧
    (let m := stg 4 id Chip.reset; m.reexec = true ∧ m.logHead = none) := by decide

/-! ### Power, coolant, management -/

theorem witness_PowerAndCoolingFollowTheirLoops :
    (let m := up Chip.reset; m.governed = true ∧ m.board.inReset = false ∧ m.board.por = false ∧ m.watched (0 : Fin 22).val = true ∧ m.warns 0 (m.setPoint 0 * 94 / 100 - 1) = true ∧
      m.warns 0 (m.setPoint 0) = false ∧ m.watched (21 : Fin 22).val = true ∧ m.warns 21 41999 = true ∧ m.warns 21 46000 = false ∧
      m.flag K.pwrPwrStat F.pwrPwrStatSag = false ∧ m.board.coolLeakN = true ∧ m.cooled = true ∧ m.cduUp = true) ∧
    (let m := (up Chip.reset).setFld K.pwrPwrStat F.pwrPwrStatSag 1; m.watched (0 : Fin 22).val = true ∧ m.warns 0 0 = true ∧
      m.flag K.pwrPwrStat F.pwrPwrStatSag = true ∧ m.reg K.pwrRailWarn = 0) ∧
    (let m := (up Chip.reset).modBoard fun b => { b with causes := [.cmd], inReset := true }; m.board.inReset = true ∧ m.board.coolLeakN = true ∧ m.board.por = false) ∧
    (let m := atStep 4 Chip.reset; m.cooled = true ∧ m.phase < 7) ∧
    (let m := up Chip.reset; m.pwr.stretch = false ∧ nextPoint m.pwr.point[0] 1000000 100000 ≠ m.pwr.point[0] ∧ nextPoint m.pwr.point[0] 96 100 = m.pwr.point[0]) ∧
    (let m : Chip := { up Chip.reset with pwr := { Power.reset with stretch := true } }; m.governed = true ∧ m.pwr.stretch = true) ∧
    (let m := ((up Chip.reset).setFld K.pwrPwrStat F.pwrPwrStatSag 0).modBoard id; m.flag K.pwrPwrStat F.pwrPwrStatSag = false ∧ m.board.inReset = false) ∧
    (let b := (up Chip.reset).cduTold false; b.flag K.coolCoolStat F.coolCoolStatCduOk = (up Chip.reset).flag K.coolCoolStat F.coolCoolStatCduOk) ∧
    (let b := ((up Chip.reset).setFld K.coolCoolStat F.coolCoolStatCduOk 1).cduTold false; b.flag K.coolCoolStat F.coolCoolStatCduOk = true) ∧
    (let b := ((up Chip.reset).setFld K.coolCoolStat F.coolCoolStatFlow 300).setFld K.pwrPModule F.pwrPModulePIn 2601; b.limitBinds = true ∧ b.pLim = 2600) ∧
    (let b := ((up Chip.reset).setFld K.coolCoolStat F.coolCoolStatFlow 100).setFld K.pwrPModule F.pwrPModulePIn 2000; b.limitBinds = true ∧ b.pLim ≠ 2600 ∧
      b.coolLimits = true) ∧
    (let b : Chip := { (up Chip.reset).setFld K.coolCoolStat F.coolCoolStatFlow 300 with pwr := { Power.reset with hot := 1 } }; b.limitBinds = false ∧ b.pwr.hot ≠ 0) ∧
    (let b : Chip := { (up Chip.reset).setFld K.coolCoolStat F.coolCoolStatFlow 300 with pwr := { Power.reset with point := Vector.replicate 4 18 } };
      (∀ r : Fin 4, 18 ≤ b.pwr.point[r]) ∧ b.pIn ≤ b.pLim ∧ b.pwr.hot = 0) ∧
    (let b := up Chip.reset; b.pwr.stops.elem .therm = false ∧ b.board.por = false ∧ b.board.inReset = false) := by decide

/-- R467: the loop lowers by 1, 2 or 4 points and raises by 1. -/
theorem test_points : [nextPoint 10 100 100, nextPoint 10 101 100, nextPoint 10 111 100, nextPoint 10 126 100, nextPoint 10 94 100,
    nextPoint 18 94 100, nextPoint 1 126 100] = [10, 9, 8, 6, 11, 18, 0] := by decide

/-- R473: vin48 below 40.0 V is a MODULE reset with cause SAG48. -/
theorem test_supply_reset :
    (after (exec (.supplyReset 21 39999) (st up))).board.causes = [.sag48] ∧
    (after (exec (.supplyReset 21 40000) (st up))).board.causes = [] := by decide

/-- The update that runs. -/
def upd (u : Update) : Chip := (up Chip.reset).setUpd (some u)

/-- R496: a slot that an update left partly written never verifies as good. -/
theorem cut_image_is_bad (n : Nvm) (h : n.aCut = true) : n.codeA ≠ 0 := by
  unfold Nvm.codeA imageCode; rw [h]; split <;> (try split) <;> simp

theorem witness_ManagementMessagesAreAnswered :
    (let m := up Chip.reset; m.hears (msg 0) true = true ∧ m.hears (msg 0) false = true ∧ (msg 0).framed = true ∧ (msg 0).len ≤ 4096 ∧ (msg 0).inSeq = true ∧ m.mg.upd = none ∧ m.busy ⟨.mbox, 0⟩ = false ∧
      m.pldmUpd = none ∧ m.board.ostlerUp = true ∧ m.mg.i3cDyn = none ∧ (1 ≤ (1 : Byte).toNat ∧ (1 : Byte).toNat ≤ 254) ∧
      (regWrite (m.capWrite 600 0) (State.reset.nvm, m)).2 = .accepted ∧ (regWrite (m.capWrite 2600 0) (State.reset.nvm, m)).2 = .accepted ∧ m.mg.spdm[(msg 0).t] < 3) ∧
    (let u : Update := ⟨true, .learn, 0, [], none⟩; (upd u).mg.upd = some u ∧ u.pldm = true ∧ u.fd = .learn ∧ (upd u).mg.upd.isSome = true) ∧
    (let u : Update := ⟨true, .ready, 0, [], none⟩; (upd u).mg.upd = some u ∧ u.fd = .ready ∧ u.fd ≠ .learn ∧ 0 < 2 ^ 24 ∧ 2 ^ 24 ≤ (2 : Nat) ^ 24) ∧
    (let u : Update := ⟨true, .download, 3, [], none⟩; let r := fwPut u u.nextOff [1, 2, 3] (State.reset.nvm, upd u); (upd u).mg.upd = some u ∧ u.fd = .download ∧
      [1, 2, 3].length = min 2048 (u.len - u.nextOff) ∧ r.2.pldmUpd = some { u with got := [0] } ∧ ({ u with got := [0] } : Update).whole = true) ∧
    (({ len := 4096, got := [0], pldm := true, fd := .download, verdict := none } : Update).whole = false) ∧
    (let u : Update := ⟨true, .verify, 3, [0], none⟩; (upd u).mg.upd = some u ∧ u.fd = .verify ∧ u.verdict = none ∧ (upd u).board.ostlerUp = true) ∧
    (let u : Update := ⟨true, .ready, 3, [0], some 0⟩; (upd u).mg.upd = some u ∧ u.fd = .ready ∧ u.verdict = some 0) ∧
    (let m := ((up Chip.reset).setPhaseSpdm (msg 0) 3).modMg fun g => { g with trees := [0] }; 3 ≤ m.mg.spdm[(msg 0).t] ∧ State.reset.nvm.sig + 1 < 966367642 ∧
      State.reset.nvm.sig / 1024 ∈ m.mg.trees ∧ measured State.reset.nvm m 0 = some [5]) ∧
    (let k : Mctp := { msg 0 with len := 4097 }; (up Chip.reset).hears k true = true ∧ k.framed = true ∧ 4096 < k.len ∧ ({ msg 0 with inSeq := false } : Mctp).inSeq = false) ∧
    (let k : Mctp := { msg 0 with pkt := 65 }; (up Chip.reset).hears k true = true ∧ k.framed = false) ∧
    (let k : Mctp := { msg 0 with pecOk := false }; (up Chip.reset).hears k true = true ∧ k.framed = false) ∧
    (let m := ((link0 Chip.reset)); m.hears (msg 2) true = true ∧ m.hears (msg 1) false = true ∧ m.hears { msg 1 with addr := 9 } true = false) ∧
    ((7 : Nat) ∉ (pldmCommands 2).getD []) ∧
    (let u : Update := ⟨true, .verify, 3, [0], none⟩; u.pldm = true ∧ State.reset.nvm.codeA = 0 ∧ ({ State.reset.nvm with aCut := true } : Nvm).codeA ≠ 0) ∧
    (let m := (up Chip.reset).beginCmd ⟨.mbox, 0⟩ 2 (go 64); m.busy ⟨.mbox, 0⟩ = true ∧ m.cmdCode ⟨.mbox, 0⟩ = 2) ∧
    (let m := (up Chip.reset).setPhaseSpdm (msg 0) 1; 1 ≤ m.mg.spdm[(msg 0).t] ∧ 2 ≤ (m.setPhaseSpdm (msg 0) 2).mg.spdm[(msg 0).t]) ∧
    (let m := (up Chip.reset).modBoard fun b => { b with ostlerUp := false, vin48 := false }; m.hears (msg 0) true = false ∧ m.board.vstby33 = true ∧
      m.board.por = false ∧ m.board.vin48 = false ∧ (msg 0).t.val < 2 ∧ m.addressed (msg 0) = true) := 
  ⟨by decide, by decide, by decide, by decide, by decide, by decide, by decide, by decide, by decide, by decide⟩

theorem witness_TapInstructionsAct :
    (let m := up Chip.reset; m.board.jtagTrstN = true ∧ m.board.por = false ∧ m.board.ostlerUp = true ∧ m.permitted 0 = false ∧
      ¬ (m.permitted 2 = true ∨ m.board.inReset = true ∨ m.board.heldFail = true)) ∧
    (let m := (up Chip.reset).setReg K.secSecStat (F.secSecStatDbgPerm.put (F.secSecStatDbgUnlocked.put 0 1) 15); m.permitted 0 = true ∧ m.permitted 2 = true) ∧
    (let m := (up Chip.reset).modBoard fun b => { b with causes := [.cmd], inReset := true }; m.permitted 2 = false ∧ m.board.inReset = true) := by decide

/-- R503: IDCODE shifts out 0x16416793. -/
theorem test_idcode : (after (exec .idcode (st up))).out.getLast? = some (.tap 0x16416793) := by decide

/-- R488: an endpoint takes its ID and no message is counted as discarded. -/
theorem test_endpoint_id :
    let m := after (exec (.setEndpointId (msg 0) 9) (st up));
    m.mg.eid[0] = 9 ∧ m.reg K.mboxMbStat = 0 := by decide

/-! ### What every step keeps -/

theorem reset_bank_fits : Context.reset.stacksFit := by
  unfold Context.stacksFit Bank.fits; decide

theorem witness_StepKeepsFormsAndBounds : State.reset.Kept ∧ ∃ t, step State.reset = .next t := by
  refine ⟨⟨by decide, ?_, by decide, ?_, ?_, ?_⟩, ?_⟩
  · intro e h; revert e; decide
  · intro c
    have : Chip.reset.coach c = Coach.reset := by simp [Chip.coach, Chip.reset]
    show (Chip.reset.coach c).fits
    rw [this]; exact ⟨⟨reset_bank_fits, rfl⟩, reset_bank_fits, rfl⟩
  · intro t h; simp [State.reset, Chip.reset, Shunter.reset] at h
  · intro i h; rcases h with h | h <;> simp [State.reset, Chip.reset, StageCtl.reset] at h
  · exact ⟨_, rfl⟩

end Sys2Proof.Tests
end

/-! PROOFS. What the guards of a row leave of its meaning, and steps that change registers alone. -/
namespace Sys2Proof.Machine

theorem onChip_when {s : State} {c : Chip → Bool} {f : Chip → Chip → Chip} (h : c s.chip = true) :
    onChip (fun m => m.when (c m) (f m)) s = .next (s.on (f s.chip s.chip)) := by
  rw [onChip_eq, when_pos h]

theorem onChipWith_when {s : State} {c : Chip → Bool} {f : Nvm → Chip → Chip → Chip} (h : c s.chip = true) :
    onChipWith (fun n m => m.when (c m) (f n m)) s = .next (s.settled s.nvm (f s.nvm s.chip s.chip)) := by
  have : onChipWith (fun n m => m.when (c m) (f n m)) s =
      .next (s.settled s.nvm (s.chip.when (c s.chip) (f s.nvm s.chip))) := rfl
  rw [this, when_pos h]

/-! ### Steps that change registers alone -/

/-- `a` is `m` but for registers that satisfy `P`. -/
structure RegStep (P : Nat → Prop) (m a : Chip) : Prop where
  rest : a = { m with regs := a.regs }
  reg : ∀ k, ¬ P k → a.reg k = m.reg k

namespace RegStep

variable {P Q : Nat → Prop} {m a b : Chip}

theorem refl (m : Chip) : RegStep P m m := ⟨rfl, fun _ _ => rfl⟩

theorem trans (h : RegStep P m a) (g : RegStep P a b) : RegStep P m b where
  rest := by rw [g.rest, h.rest]
  reg k hk := (g.reg k hk).trans (h.reg k hk)

theorem mono (h : RegStep P m a) (hpq : ∀ k, P k → Q k) : RegStep Q m a :=
  ⟨h.rest, fun k hk => h.reg k fun hp => hk (hpq k hp)⟩

/-- Whatever does not look at the registers is as before. -/
theorem keeps {β : Type} (h : RegStep P m a) (g : Chip → β) (hg : ∀ r, g { m with regs := r } = g m) : g a = g m :=
  (congrArg g h.rest).trans (hg _)

theorem fld (h : RegStep P m a) {k : Nat} (hk : ¬ P k) (f : Fld) : a.fld k f = m.fld k f :=
  congrArg f.get (h.reg k hk)

theorem setReg (m : Chip) {k : Nat} (v : W64) (hk : P k) : RegStep P m (m.setReg k v) :=
  ⟨rfl, fun _ hj => reg_setReg_ne m v fun h => hj (h ▸ hk)⟩

theorem setFld (m : Chip) {k : Nat} (f : Fld) (v : Nat) (hk : P k) : RegStep P m (m.setFld k f v) := setReg m _ hk

theorem count (m : Chip) {k : Nat} (n : Nat) (hk : P k) : RegStep P m (m.count k n) := setReg m _ hk

theorem foldl {α : Type} (f : Chip → α → Chip) (l : List α) (h : ∀ m, ∀ x ∈ l, RegStep P m (f m x)) (m : Chip) :
    RegStep P m (l.foldl f m) := by
  induction l generalizing m with
  | nil => exact refl m
  | cons x t ih => exact (h m x List.mem_cons_self).trans (ih (fun m y hy => h m y (List.mem_cons_of_mem _ hy)) _)

end RegStep

/-- The registers in which RUN of page `p` is kept. -/
def runKey (p : PageId) (k : Nat) : Prop := k = K.pageStat p.base ∨ k = K.pageGen p.base

theorem syncRun_regStep (m : Chip) (p : PageId) : RegStep (runKey p) m (m.syncRun p) := by
  unfold Chip.syncRun
  dsimp only
  split
  · exact .refl m
  · exact (RegStep.setFld m _ _ (.inl rfl)).trans (.count _ _ (.inr rfl))


end Sys2Proof.Machine

/-! PROOFS. Power-on reset, power and start-up (chapter 1: R13 to R52). -/
namespace Sys2Proof.Machine

/-! ### Power-on reset and power -/

theorem ctx_reset_stacksFit : Context.reset.stacksFit := by
  unfold Context.stacksFit Bank.fits; decide

theorem coach_reset_fits : Coach.reset.fits :=
  ⟨⟨ctx_reset_stacksFit, rfl⟩, ctx_reset_stacksFit, rfl⟩

theorem state_reset_kept : State.reset.Kept where
  mem := by decide
  errq e h := nomatch (h : e ∈ ([] : SMap ErrQ))
  log := by decide
  coaches c := by
    have h : State.reset.chip.coach c = Coach.reset := by simp [Chip.coach, State.reset, Chip.reset]
    rw [h]; exact coach_reset_fits
  tasks t h := nomatch (h : t ∈ ([] : List Task))
  images i h := by
    rcases h with h | h
    · exact nomatch (h : none = some i)
    · exact nomatch (h : none = some i)

/-- Settles O5: both rows put `Chip.powerOn` in place of the chip. -/
theorem powerOnResetClearsTheModule : Obligations.PowerOnResetClearsTheModule := by
  intro s
  refine ⟨fun h => ⟨s.on (s.chip.powerOn true), ?_, ?_⟩, fun h => ⟨s.on (s.chip.powerOn false), ?_, ?_⟩, state_reset_kept⟩
  · exact onChip_when (c := fun m => !m.board.vstby33) (f := fun _ m => m.powerOn true) (by simp [h])
  · exact ⟨rfl, rfl, rfl, rfl, rfl, rfl, rfl, rfl, rfl, rfl⟩
  · exact onChip_when (c := fun m => m.board.vstby33) (f := fun _ m => m.powerOn false) h
  · exact ⟨rfl, rfl, rfl, rfl, rfl, rfl, rfl, rfl, rfl, rfl⟩

/-- Settles O6, row by row. -/
theorem powerComesUp : Obligations.PowerComesUp := by
  intro s
  refine ⟨fun hv hp => ?_, fun hv hp hg => ⟨fun mv h1 h2 => ?_, fun mv h1 => ?_⟩, fun h => ?_, fun h => ?_,
    fun n mv h => ?_, fun hr hc hg hl => ?_⟩
  · show execPorRelease s = _
    rw [execPorRelease, onChip_when (by simp [hv, hp])]; rfl
  · show execMainPowerGood mv s = _
    rw [execMainPowerGood, onChip_when (by simp [hv, hp, hg, h1]), if_pos h2]; rfl
  · show execMainPowerGood mv s = _
    have h40 : 40000 ≤ mv := by omega
    rw [execMainPowerGood, onChip_when (by simp [hv, hp, hg, h40]), if_neg (Nat.not_lt.mpr h1)]; rfl
  · show execPerst0Deassert s = _
    rw [execPerst0Deassert, onChip_when (by simp [h])]; rfl
  · show execLeakClear s = _
    rw [execLeakClear, onChip_when (by simp [h])]; rfl
  · show execSupplyWarningClears n mv s = _
    rw [execSupplyWarningClears, onChip_when h]
  · show execModuleResetRelease s = _
    rw [execModuleResetRelease, onChip_when (by simp [hr, hc, hg, hl])]; rfl

/-- Settles O10: the row's meaning is this update of the board. -/
theorem jtagTrstResetsOnlyTheTap : Obligations.JtagTrstResetsOnlyTheTap := fun _ _ => rfl

/-! ### The ostler's images -/

theorem imageCode_eq_zero {arb : Nat} {whole : Bool} {c : ImageCheck} : imageCode arb whole c = 0 ↔
    whole = true ∧ c.keyOk = true ∧ c.sigOk = true ∧ c.bodyOk = true ∧ arb ≤ c.svn.val := by
  unfold imageCode
  cases c.keyOk <;> cases c.sigOk <;> cases c.bodyOk <;> cases whole <;> simp

theorem codeA_eq_zero {n : Nvm} : n.codeA = 0 ↔ n.goodA := by
  unfold Nvm.codeA Nvm.goodA; rw [imageCode_eq_zero, Bool.not_eq_true']

theorem codeB_eq_zero {n : Nvm} : n.codeB = 0 ↔ n.goodB := by
  unfold Nvm.codeB Nvm.goodB; rw [imageCode_eq_zero]; simp

section
variable {n : Nvm} {m : Chip} {a b : Verdict} (hf : m.flag K.rstBootStat F.rstBootStatBootFail = false)
include hf

theorem ostlerStart_recovery (hs : m.board.straps.getLsbD 1 = true) :
    m.ostlerStart n a b = ((m.setFld K.rstBootStat F.rstBootStatRecovery 1).ostlerRuns n none, false) := by
  rw [Chip.ostlerStart, if_neg (by simp [hf]), if_pos hs]

variable (hs : m.board.straps.getLsbD 1 = false)
include hs

theorem ostlerStart_slotA (ha : a.intact = true) (hg : n.goodA) :
    m.ostlerStart n a b = ((m.setFld K.rstBootStat F.rstBootStatImage 0).ostlerRuns n n.imageA, true) := by
  rw [Chip.ostlerStart, if_neg (by simp [hf]), if_neg (by simp only [hs]; decide), if_pos (by simp [ha, codeA_eq_zero, hg])]
  rfl

theorem ostlerStart_slotB (ha : a.intact = false ∨ ¬ n.goodA) (hb : b.intact = true) (hg : n.goodB) :
    m.ostlerStart n a b = ((m.setFld K.rstBootStat F.rstBootStatImage 1).ostlerRuns n n.imageB, true) := by
  have hna : ¬ (a.intact = true ∧ n.goodA) := by rcases ha with h | h <;> simp [h]
  rw [Chip.ostlerStart, if_neg (by simp [hf]), if_neg (by simp only [hs]; decide), if_neg (by simpa [codeA_eq_zero] using hna),
    if_pos (by simp [hb, codeB_eq_zero, hg])]
  rfl

theorem ostlerStart_neither (ha : a.intact = false ∨ ¬ n.goodA) (hb : b.intact = false ∨ ¬ n.goodB) :
    m.ostlerStart n a b = ((m.ostlerRuns n none).holdFailure F.rstBootStatBootFail 0, false) := by
  have hna : ¬ (a.intact = true ∧ n.goodA) := by rcases ha with h | h <;> simp [h]
  have hnb : ¬ (b.intact = true ∧ n.goodB) := by rcases hb with h | h <;> simp [h]
  rw [Chip.ostlerStart, if_neg (by simp [hf]), if_neg (by simp only [hs]; decide), if_neg (by simpa [codeA_eq_zero] using hna),
    if_neg (by simpa [codeB_eq_zero] using hnb)]

end

/-! ### The held failure state (R48) -/

theorem tellState_eq (m : Chip) : m.tellState = { m with mg := m.tellState.mg } := by
  unfold Chip.tellState Chip.platform; split <;> rfl

theorem logEvent_eq (m : Chip) (c : LogCode) : m.logEvent c = { m with mg := { m.mg with logWait := (m.logEvent c).mg.logWait } } := by
  unfold Chip.logEvent; dsimp only; split <;> rfl

theorem reg_congr {m a : Chip} (h : a.regs = m.regs) (k : Nat) : a.reg k = m.reg k := by
  unfold Chip.reg; rw [h]

theorem holdFailure_regs (m : Chip) (f : Fld) (u : Nat) : (m.holdFailure f u).regs =
    (((m.setFld K.rstBootStat f 1).setFld K.rstBootStat F.rstBootStatFailUnit u).setFld K.rstBootStat F.rstBootStatReady 0).regs := by
  unfold Chip.holdFailure; dsimp only
  rw [(tellState_frame _).1]; rfl

/-- The failure state sets its bit, FAIL_UNIT and READY in BOOT_STAT. -/
theorem holdFailure_bootStat (m : Chip) (f : Fld) (u : Nat) : (m.holdFailure f u).reg K.rstBootStat =
    F.rstBootStatReady.put (F.rstBootStatFailUnit.put (f.put (m.reg K.rstBootStat) 1) u) 0 := by
  rw [reg_congr (holdFailure_regs m f u)]
  simp only [reg_setFld, if_pos]

theorem holdFailure_reg_ne (m : Chip) (f : Fld) (u : Nat) {a : Nat} (h : a ≠ K.rstBootStat) :
    (m.holdFailure f u).reg a = m.reg a := by
  rw [reg_congr (holdFailure_regs m f u), reg_setFld_ne _ _ _ h, reg_setFld_ne _ _ _ h, reg_setFld_ne _ _ _ h]

theorem holdFailure_dom (m : Chip) (f : Fld) (u : Nat) (d : Fin 34) : (m.holdFailure f u).dom[d] =
    if d.val ≤ 3 ∨ (5 ≤ d.val ∧ d.val ≤ 20) then { m.dom[d] with run := false } else m.dom[d] := by
  unfold Chip.holdFailure; dsimp only
  rw [tellState_eq]
  simp [Chip.clocks, Chip.modBoard, Chip.setFld, Chip.setReg]

theorem holdFailure_board (m : Chip) (f : Fld) (u : Nat) : (m.holdFailure f u).board =
    { m.board with heldFail := true, ramping := false, coreRails := false } := by
  unfold Chip.holdFailure; dsimp only
  rw [tellState_eq]; rfl

theorem holdFailure_coaches (m : Chip) (f : Fld) (u : Nat) : (m.holdFailure f u).coaches = m.coaches := by
  unfold Chip.holdFailure; dsimp only
  rw [tellState_eq]; rfl

theorem flag_eq_true {m : Chip} {a : Nat} {f : Fld} : m.flag a f = true ↔ m.fld a f ≠ 0 := by simp [Chip.flag]

theorem flag_eq_false {m : Chip} {a : Nat} {f : Fld} : m.flag a f = false ↔ m.fld a f = 0 := by simp [Chip.flag]

/-- What the failure state shows, whichever bit `f` it sets apart from the other fields of BOOT_STAT. -/
theorem holdFailure_shows (m : Chip) {f : Fld} {u : Nat} (hu : u < 16) (h1 : f.len = 1) (h8 : 8 ≤ f.lo) (h12 : f.lo < 12) :
    (m.holdFailure f u).flag K.rstBootStat f = true ∧ (m.holdFailure f u).fld K.rstBootStat F.rstBootStatFailUnit = u ∧
      (m.holdFailure f u).ready = false ∧ (m.holdFailure f u).phase = m.phase := by
  refine ⟨flag_eq_true.mpr ?_, ?_, flag_eq_false.mpr ?_, ?_⟩ <;>
    (try unfold Chip.phase) <;> unfold Chip.fld <;> rw [holdFailure_bootStat]
  · rw [Fld.get_put_apart _ _ _ _ (by omega) (.inr (by simp; omega)), Fld.get_put_apart _ _ _ _ (by omega) (.inl (by simp; omega)),
      Fld.get_put _ _ _ (by omega), h1]
    decide
  · rw [Fld.get_put_apart _ _ _ _ (by decide) (.inr (by decide)), Fld.get_put _ _ _ (by decide)]
    exact Nat.mod_eq_of_lt hu
  · rw [Fld.get_put _ _ _ (by decide)]; rfl
  · rw [Fld.get_put_apart _ _ _ _ (by decide) (.inl (by decide)), Fld.get_put_apart _ _ _ _ (by decide) (.inl (by decide)),
      Fld.get_put_apart _ _ _ _ (by decide) (.inl (by simp; omega))]

/-- Settles O8: each failing row ends in `Chip.holdFailure`, which the lemmas above describe. -/
theorem startupFailuresHold : Obligations.StartupFailuresHold := by
  intro s m
  refine ⟨fun h => ?_, fun a b h hu hs hf ha hb => ?_, fun h hc => ?_, fun r h hr => ?_, fun k h hp => ?_, fun h hr hc => ?_,
    fun f u hf hu => ?_⟩
  · show execHubRailsUp true s = _
    rw [execHubRailsUp, onChip_when h]; rfl
  · show execOstlerImageVerify a b s = _
    rw [execOstlerImageVerify, onChipWith_when (by simp [m, h, hu]), ostlerStart_neither hf hs ha hb]; rfl
  · show execCoolFail s = _
    rw [execCoolFail, onChip_when (by simp [m, h, hc])]
  · show execRailRampDone (some r) s = _
    rw [execRailRampDone, onChip_when (by simp [m, h, hr])]
    have : railGroup r.val = if r.val < 8 then 2 else if r.val = 8 then 0 else if r.val < 17 then 1 else 3 := by
      unfold railGroup; split_ifs <;> omega
    simp only [this]; rfl
  · show execHbmTrainingDone (some k) s = _
    rw [execHbmTrainingDone, onChipWith_when (by simp [m, h, hp])]
  · show execCoolantCheck s = _
    have hno : m.coolantOk = false := by
      simp only [Chip.coolantOk, Bool.and_eq_false_iff, decide_eq_false_iff_not, Nat.not_le, Int.not_le]
      tauto
    rw [execCoolantCheck, onChip_when (by simp [m, h, hr]), hno]; rfl
  · have hlo : f.len = 1 ∧ 8 ≤ f.lo ∧ f.lo < 12 := by
      revert hf; revert f; decide
    obtain ⟨h1, h8, h12⟩ := hlo
    obtain ⟨hbit, hunit, hready, hphase⟩ := holdFailure_shows m hu h1 h8 h12
    have hb := holdFailure_board m f u
    exact ⟨congrArg Board.heldFail hb, congrArg Board.ramping hb, congrArg Board.coreRails hb, hbit, hunit, hready, hphase,
      holdFailure_dom m f u, holdFailure_coaches m f u, fun a => holdFailure_reg_ne m f u⟩

/-! ### The ostler comes up and falls -/

/-- Coming up changes MB_STAT.RECOVERY, the board's flags of the ostler, what it runs, what waits for the event log, and RUN of the mailbox. -/
theorem ostlerRuns_eq (n : Nvm) (m : Chip) (g : Option (Nat × SMap Byte)) : ∃ w : List EvtEntry,
    m.ostlerRuns n g = Chip.syncRun { m.setFld K.mboxMbStat F.mboxMbStatRecovery (b2n g.isNone) with
      board := { m.board with ostlerUp := true, ostlerBoot := false, romLoader := g.isNone, unlogged := 0 },
      mg := { m.mg with runSvn := g.map Prod.fst, runImage := (g.map Prod.snd).getD [], trees := [n.sig / 1024], logWait := w } }
      ⟨.mbox, 0⟩ := by
  unfold Chip.ostlerRuns; dsimp only
  rw [logEvent_eq]
  exact ⟨_, rfl⟩

theorem ostlerRuns_fields (n : Nvm) (m : Chip) (g : Option (Nat × SMap Byte)) : let r := m.ostlerRuns n g
    r.board = { m.board with ostlerUp := true, ostlerBoot := false, romLoader := g.isNone, unlogged := 0 } ∧
    r.mg.runSvn = g.map Prod.fst ∧ r.mg.runImage = (g.map Prod.snd).getD [] ∧ r.mg.trees = [n.sig / 1024] ∧
    r.coaches = m.coaches ∧ r.mem = m.mem ∧ r.dom = m.dom ∧ r.sh = m.sh ∧ r.stg = m.stg ∧ r.xlat = m.xlat := by
  obtain ⟨w, h⟩ := ostlerRuns_eq n m g
  have hr := syncRun_regStep { m.setFld K.mboxMbStat F.mboxMbStatRecovery (b2n g.isNone) with
      board := { m.board with ostlerUp := true, ostlerBoot := false, romLoader := g.isNone, unlogged := 0 },
      mg := { m.mg with runSvn := g.map Prod.fst, runImage := (g.map Prod.snd).getD [], trees := [n.sig / 1024], logWait := w } } ⟨.mbox, 0⟩
  rw [h]
  exact ⟨hr.keeps (·.board) fun _ => rfl, hr.keeps (·.mg.runSvn) fun _ => rfl, hr.keeps (·.mg.runImage) fun _ => rfl,
    hr.keeps (·.mg.trees) fun _ => rfl, hr.keeps (·.coaches) fun _ => rfl, hr.keeps (·.mem) fun _ => rfl, hr.keeps (·.dom) fun _ => rfl,
    hr.keeps (·.sh) fun _ => rfl, hr.keeps (·.stg) fun _ => rfl, hr.keeps (·.xlat) fun _ => rfl⟩

theorem ostlerRuns_reg (n : Nvm) (m : Chip) (g : Option (Nat × SMap Byte)) {a : Nat} (ha : a ≠ K.pageStat 0x1000) (hb : a ≠ K.pageGen 0x1000) :
    (m.ostlerRuns n g).reg a = (m.setFld K.mboxMbStat F.mboxMbStatRecovery (b2n g.isNone)).reg a := by
  obtain ⟨w, h⟩ := ostlerRuns_eq n m g
  rw [h, (syncRun_regStep _ _).reg a (by rintro (rfl | rfl) <;> contradiction)]
  rfl

theorem reg_resetPages (m : Chip) (lo hi a : Nat) : (m.resetPages lo hi).reg a = if lo ≤ a ∧ a < hi then regReset a else m.reg a := by
  unfold Chip.reg Chip.resetPages
  rw [smapGet_erase]
  simp

/-- Settles O12: the ostler falls by `Chip.ostlerFalls`, and boots by the image that `Chip.ostlerStart` chooses. -/
theorem ostlerFallsAndBootsAgain : Obligations.OstlerFallsAndBootsAgain := by
  intro s m
  have hup : m.board.ostlerUp = true ∨ m.board.ostlerBoot = true ∨ m.atStep 3 = true →
      (m.board.ostlerUp || m.board.ostlerBoot || m.atStep 3) = true := by simp [or_assoc]
  refine ⟨fun h hp => ?_, fun h hp => ?_, fun a b hb hr hpor hs hf => ⟨fun ha hg => ?_, fun ha hb hg => ?_, fun ha hb => ?_⟩, fun g => ?_, ?_⟩
  · show execOstlerWatchdog s = _
    rw [execOstlerWatchdog, onChip_when (hup h), if_neg (Nat.not_lt.mpr hp)]; rfl
  · show execOstlerWatchdog s = _
    rw [execOstlerWatchdog, onChip_when (hup h), if_pos hp]
  · show execOstlerBoot a b s = _
    rw [execOstlerBoot, onChipWith_when (by simp [m, hb, hr, hpor]), ostlerStart_slotA hf hs ha hg]
  · show execOstlerBoot a b s = _
    rw [execOstlerBoot, onChipWith_when (by simp [m, *]), ostlerStart_slotB hf hs ha hb hg]
  · show execOstlerBoot a b s = _
    rw [execOstlerBoot, onChipWith_when (by simp [m, *]), ostlerStart_neither hf hs ha hb]
  · obtain ⟨hboard, hsvn, himg, htree, hc, hm, hd, hsh, hstg, hx⟩ := ostlerRuns_fields s.nvm m g
    refine ⟨hboard, hsvn, himg, htree, ?_, hc, hm, hd, hsh, hstg, hx, fun a ha => ?_⟩
    · unfold Chip.flag Chip.fld
      rw [ostlerRuns_reg _ _ _ (by decide) (by decide), reg_setFld, if_pos rfl, Fld.get_put _ _ _ (by decide)]
      cases g <;> rfl
    · have h1 : a ≠ K.pageStat 0x1000 := by rintro rfl; exact ha (by decide)
      have h2 : a ≠ K.pageGen 0x1000 := by rintro rfl; exact ha (by decide)
      have h3 : a ≠ K.mboxMbStat := by rintro rfl; exact ha (by decide)
      rw [ostlerRuns_reg _ _ _ h1 h2, reg_setFld_ne _ _ _ h3]
  · refine ⟨rfl, rfl, rfl, rfl, rfl, rfl, fun a ha hc => ?_⟩
    have h : m.ostlerFalls.reg a = ((m.setFld K.rstResetCause F.rstResetCauseOstler 1).resetPages 0x1000 0x2000).reg a := rfl
    rw [h, reg_resetPages, if_neg ha, reg_setFld_ne _ _ _ hc]

/-! ### Start-up from step 5 on -/

theorem settled_chip (s : State) (n : Nvm) (m : Chip) : (s.settled n m).chip = { m with mg := (s.settled n m).chip.mg } := by
  obtain ⟨l, w, h⟩ := drainLog_cases n m
  unfold State.settled; rw [h]

theorem settled_reg (s : State) (n : Nvm) (m : Chip) (a : Nat) : (s.settled n m).chip.reg a = m.reg a := by
  rw [settled_chip]; rfl

/-- A field that is put in one register of each `x` of a list. -/
theorem fld_foldl_setFld {α : Type} (key : α → Nat) (f : Fld) (v : Nat) (hf : f.lo + f.len ≤ 64) (l : List α) (m : Chip) (a : Nat) :
    (l.foldl (fun m x => m.setFld (key x) f v) m).fld a f = if a ∈ l.map key then v % 2 ^ f.len else m.fld a f := by
  induction l generalizing m with
  | nil => rfl
  | cons x t ih =>
    rw [List.foldl_cons, ih]
    by_cases hx : a = key x
    · subst hx; simp [fld_setFld _ _ _ _ hf]
    · simp [hx, fld_setFld_ne _ _ _ _ hx]

/-- The registers in which RUN of the pages that step 6 starts is kept. -/
def stepSixKey (k : Nat) : Prop := runKey ⟨.pwr, 0⟩ k ∨ ∃ i < 16, runKey ⟨.depot, i⟩ k ∨ runKey ⟨.hbm, i⟩ k

theorem bootStat_not_stepSixKey : ¬ stepSixKey K.rstBootStat := by
  simp only [stepSixKey, runKey, K.pageStat, K.pageGen, PageId.base, pageBase, K.rstBootStat]; omega

theorem hbmCfg_not_stepSixKey (j : Fin 16) : ¬ stepSixKey (K.hbmHbmCfg j) := by
  simp only [stepSixKey, runKey, K.pageStat, K.pageGen, PageId.base, pageBase, K.hbmHbmCfg]; omega

/-- RUN of those pages follows. -/
def Chip.stepSix (m : Chip) : Chip :=
  (List.range 16).foldl (fun (m : Chip) i => (m.syncRun ⟨.depot, i⟩).syncRun ⟨.hbm, i⟩) (m.syncRun ⟨.pwr, 0⟩)

theorem stepSix_regStep (m : Chip) : RegStep stepSixKey m m.stepSix := by
  refine ((syncRun_regStep m _).mono fun _ h => .inl h).trans (.foldl _ _ (fun m i hi => ?_) _)
  have hi := List.mem_range.mp hi
  exact ((syncRun_regStep m _).mono fun _ h => .inr ⟨i, hi, .inl h⟩).trans ((syncRun_regStep _ _).mono fun _ h => .inr ⟨i, hi, .inr h⟩)

/-- Memory as step 5 leaves it (R40, R315). -/
def Chip.cleared (m : Chip) : Chip :=
  { m with mem := [], veils := [], obuf := [], badCrc := [], slices := Vector.replicate 16 Slice.reset }

/-- The interleave of the configuration goes to every stack. -/
def Chip.interleaved (m : Chip) (ilv : Nat) : Chip :=
  (List.range 16).foldl (fun (m : Chip) s => m.setFld (K.hbmHbmCfg s) F.hbmHbmCfgIlv (ilv % 2)) m

theorem interleaved_regStep (m : Chip) (ilv : Nat) : RegStep (fun k => ∃ i < 16, k = K.hbmHbmCfg i) m (m.interleaved ilv) :=
  .foldl _ _ (fun m i hi => .setFld m _ _ ⟨i, List.mem_range.mp hi, rfl⟩) m

/-- The interleave that each stack shows, and the step. -/
theorem hbmTrainingDone_trained (s : State) (h : s.chip.atStep 5 = true) (hp : s.chip.pwr.stops = []) : ∃ t,
    exec (.hbmTrainingDone none) s = .next t ∧ t.chip.phase = 6 ∧ t.chip.mem = [] ∧ t.chip.veils = [] ∧
      t.chip.obuf = [] ∧ t.chip.badCrc = [] ∧ t.chip.slices = Vector.replicate 16 Slice.reset ∧
      (∀ k : Fin 16, t.chip.fld (K.hbmHbmCfg k) F.hbmHbmCfgIlv = s.nvm.ilv % 2) ∧
      t.chip.coaches = s.chip.coaches ∧ t.chip.board = s.chip.board ∧ t.chip.dom = s.chip.dom := by
  have hrun := stepSix_regStep ((s.chip.cleared.setPhase 6).interleaved s.nvm.ilv)
  have hilv := interleaved_regStep (s.chip.cleared.setPhase 6) s.nvm.ilv
  generalize ha : ((s.chip.cleared.setPhase 6).interleaved s.nvm.ilv).stepSix = a at hrun
  have hexec : exec (.hbmTrainingDone none) s = .next (s.settled s.nvm a) := by
    show execHbmTrainingDone none s = _
    rw [execHbmTrainingDone, onChipWith_when (by simp [h, hp]), ← ha]; rfl
  have hkeep : ∀ {β : Type} (g : Chip → β), (∀ m r, g { m with regs := r } = g m) → (∀ m w, g { m with mg := w } = g m) →
      g (s.settled s.nvm a).chip = g s.chip.cleared := by
    intro β g hg hmg
    rw [settled_chip, hmg, hrun.keeps g (hg _), hilv.keeps g (hg _)]
    exact hg _ _
  have hfld : ∀ k f, (s.settled s.nvm a).chip.fld k f = a.fld k f := fun k f => congrArg f.get (settled_reg s s.nvm a k)
  refine ⟨_, hexec, ?_, hkeep (·.mem) (fun _ _ => rfl) fun _ _ => rfl, hkeep (·.veils) (fun _ _ => rfl) fun _ _ => rfl,
    hkeep (·.obuf) (fun _ _ => rfl) fun _ _ => rfl, hkeep (·.badCrc) (fun _ _ => rfl) fun _ _ => rfl,
    hkeep (·.slices) (fun _ _ => rfl) fun _ _ => rfl, fun k => ?_, hkeep (·.coaches) (fun _ _ => rfl) fun _ _ => rfl,
    hkeep (·.board) (fun _ _ => rfl) fun _ _ => rfl, hkeep (·.dom) (fun _ _ => rfl) fun _ _ => rfl⟩
  · rw [Chip.phase, hfld, hrun.fld bootStat_not_stepSixKey, hilv.fld]
    · exact fld_setFld _ _ _ _ (by decide)
    · simp only [pageBase, K.hbmHbmCfg, K.rstBootStat]; omega
  · have hmem : K.hbmHbmCfg k ∈ (List.range 16).map K.hbmHbmCfg := List.mem_map.mpr ⟨k.val, List.mem_range.mpr k.isLt, rfl⟩
    rw [hfld, hrun.fld (hbmCfg_not_stepSixKey k), Chip.interleaved, fld_foldl_setFld _ _ _ (by decide), if_pos hmem]
    exact Nat.mod_mod _ _

/-- Settles O7, row by row in the order of start-up. -/
theorem startupStepsInOrder : Obligations.StartupStepsInOrder := by
  intro s m n
  refine ⟨fun h => ?_, fun a b h hu hs hf ha hg => ?_, fun a b h hu hs hf ha hb hg => ?_, fun a b h hu hs hf => ?_,
    fun h hr hl hfl hcdu hin ht => ?_, fun h hr => ?_, hbmTrainingDone_trained s, fun h hp => ?_, fun h => ?_⟩
  · show execHubRailsUp false s = _
    rw [execHubRailsUp, onChip_when h]; rfl
  · show execOstlerImageVerify a b s = _
    rw [execOstlerImageVerify, onChipWith_when (by simp [m, h, hu]), ostlerStart_slotA hf hs ha hg]; rfl
  · show execOstlerImageVerify a b s = _
    rw [execOstlerImageVerify, onChipWith_when (by simp [m, h, hu]), ostlerStart_slotB hf hs ha hb hg]; rfl
  · show execOstlerImageVerify a b s = _
    rw [execOstlerImageVerify, onChipWith_when (by simp [m, h, hu]), ostlerStart_recovery hf hs]; rfl
  · show execCoolantCheck s = _
    have hok : m.coolantOk = true := by simp [Chip.coolantOk, hl, hfl, hcdu, hin, ht]
    rw [execCoolantCheck, onChip_when (by simp [m, h, hr]), if_pos hok]
  · show execRailRampDone none s = _
    rw [execRailRampDone, onChip_when (by simp [m, h, hr])]
  · show execRakeRelease s = _
    rw [execRakeRelease, onChipWith_when (by simp [m, h, hp])]
  · have hexec : exec .moduleReady s = .next (s.on (m.setReg K.rstBootStat (F.rstBootStatReadyMs.put (F.rstBootStatReady.put
        (F.rstBootStatPhase.put (m.reg K.rstBootStat) 8) 1) ((m.counter 33 - m.board.t0).toNat / 25000))).tellState) := by
      show execModuleReady s = _
      rw [execModuleReady, onChip_when h]
    obtain ⟨hregs, hc, hm, hb, hd⟩ := tellState_frame (m.setReg K.rstBootStat (F.rstBootStatReadyMs.put (F.rstBootStatReady.put
        (F.rstBootStatPhase.put (m.reg K.rstBootStat) 8) 1) ((m.counter 33 - m.board.t0).toNat / 25000)))
    refine ⟨_, hexec, ?_, flag_eq_true.mpr ?_, ?_, fun a ha => ?_, hc, hb, hd, hm⟩
    · rw [Chip.phase, Chip.fld, State.on, reg_congr hregs, reg_setReg_same, Fld.get_put_apart _ _ _ _ (by decide) (.inl (by decide)),
        Fld.get_put_apart _ _ _ _ (by decide) (.inl (by decide)), Fld.get_put _ _ _ (by decide)]; rfl
    · rw [Chip.fld, State.on, reg_congr hregs, reg_setReg_same, Fld.get_put_apart _ _ _ _ (by decide) (.inl (by decide)),
        Fld.get_put _ _ _ (by decide)]; decide
    · rw [Chip.fld, State.on, reg_congr hregs, reg_setReg_same, Fld.get_put _ _ _ (by decide)]
    · rw [State.on, reg_congr hregs, reg_setReg_ne _ _ ha]

end Sys2Proof.Machine

/-! PROOFS. MODULE resets (R33 to R37, R39). -/
namespace Sys2Proof.Machine

/-! ### A MODULE cause is recorded -/

/-- The causes `l` are recorded in turn. -/
abbrev Chip.addCauses (m : Chip) (l : List ModCause) : Chip := l.foldl Chip.addCause m

theorem ModCause.lasts_congr {b d : Board} (c : ModCause) (h1 : d.vin48 = b.vin48) (h2 : d.perst0N = b.perst0N)
    (h3 : d.coolLeakN = b.coolLeakN) : c.lasts d = c.lasts b := by
  cases c <;> simp [ModCause.lasts, *]

/-- Recording causes changes RESET_CAUSE and, of the board, what is unlogged, the causes that last and the hub rails. -/
theorem addCauses_rest (m : Chip) (l : List ModCause) : m.addCauses l = { m with
    regs := (m.addCauses l).regs
    board := { m.board with unlogged := (m.addCauses l).board.unlogged, causes := (m.addCauses l).board.causes,
                            hubRails := (m.addCauses l).board.hubRails } } := by
  induction l generalizing m with
  | nil => rfl
  | cons c t ih => exact ih (m.addCause c)

theorem addCauses_keeps {β : Type} (m : Chip) (l : List ModCause) (g : Chip → β)
    (hg : ∀ r b, g { m with regs := r, board := b } = g m) : g (m.addCauses l) = g m :=
  (congrArg g (addCauses_rest m l)).trans (hg _ _)

theorem addCauses_inReset (m : Chip) (l : List ModCause) : (m.addCauses l).board.inReset = m.board.inReset :=
  congrArg (·.board.inReset) (addCauses_rest m l)

theorem addCauses_reg (m : Chip) (l : List ModCause) (a : Nat) : (m.addCauses l).reg a =
    if a = K.rstResetCause then l.foldl causeWord (m.reg K.rstResetCause) else m.reg a := by
  induction l generalizing m with
  | nil =>
    by_cases h : a = K.rstResetCause
    · rw [if_pos h, h]; rfl
    · rw [if_neg h]; rfl
  | cons c t ih =>
    have hr : ∀ k, (m.addCause c).reg k = if k = K.rstResetCause then causeWord (m.reg K.rstResetCause) c else m.reg k :=
      reg_setReg m _ _
    rw [Chip.addCauses, List.foldl_cons]
    refine (ih (m.addCause c)).trans ?_
    rw [hr, hr, if_pos rfl]
    split <;> rfl

theorem addCauses_hubRails (m : Chip) (l : List ModCause) :
    (m.addCauses l).board.hubRails = (m.board.hubRails && !l.any ModCause.sags) := by
  induction l generalizing m with
  | nil => simp
  | cons c t ih =>
    refine (ih (m.addCause c)).trans ?_
    show (m.board.hubRails && !c.sags && !t.any ModCause.sags) = _
    rw [List.any_cons, Bool.not_or, Bool.and_assoc]

theorem addCause_causes (m : Chip) (c k : ModCause) :
    k ∈ (m.addCause c).board.causes ↔ k ∈ m.board.causes ∨ (k = c ∧ k.lasts m.board = true) := by
  show k ∈ (if (c.lasts m.board && !m.board.causes.elem c) = true then m.board.causes ++ [c] else m.board.causes) ↔ _
  by_cases hk : k = c
  · subst hk
    by_cases hl : k.lasts m.board = true <;> by_cases hc : k ∈ m.board.causes <;> simp [hl, hc]
  · split <;> simp [hk]

theorem addCauses_causes (m : Chip) (l : List ModCause) (k : ModCause) :
    k ∈ (m.addCauses l).board.causes ↔ k ∈ m.board.causes ∨ (k ∈ l ∧ k.lasts m.board = true) := by
  induction l generalizing m with
  | nil => simp
  | cons c t ih =>
    have hl : k.lasts (m.addCause c).board = k.lasts m.board := k.lasts_congr rfl rfl rfl
    refine (ih (m.addCause c)).trans ?_
    rw [addCause_causes, hl, List.mem_cons]
    tauto

/-! ### The MODULE reset -/

theorem moduleState_reg (m : Chip) (a : Nat) : m.moduleState.reg a =
    if a = K.rstResetCause ∨ a = K.rstResetCount ∨ a = K.rstLastResetStamp then m.reg a else regReset a := by
  have h : m.moduleState.regs =
      smapErase (fun k => !(k == K.rstResetCause || k == K.rstResetCount || k == K.rstLastResetStamp)) m.regs := by
    unfold smapErase; simp only [Bool.not_not]; rfl
  unfold Chip.reg
  rw [h, smapGet_erase]
  by_cases h1 : a = K.rstResetCause <;> by_cases h2 : a = K.rstResetCount <;> by_cases h3 : a = K.rstLastResetStamp <;>
    simp [h1, h2, h3]

section
variable {m : Chip} (hv : m.board.vstby33 = true) (hp : m.board.por = false)
include hv hp

/-- Outside a MODULE reset it is entered, counted and stamped. -/
theorem moduleEnter_enters (hr : m.board.inReset = false) (c : ModCause) : m.moduleEnter c =
    let m2 := (m.moduleState.addCauses (c :: m.pwr.stops)).count K.rstResetCount 1
    m2.setReg K.rstLastResetStamp (m2.stamp 33) := by
  unfold Chip.moduleEnter; simp [hv, hp, hr]

/-- Within one the cause is recorded alone. -/
theorem moduleEnter_records (hr : m.board.inReset = true) (c : ModCause) : m.moduleEnter c = m.addCause c := by
  unfold Chip.moduleEnter; simp [hv, hp, hr]

/-- What looks at neither the registers nor the board finds the state after the reset. -/
theorem moduleEnter_keeps {β : Type} (hr : m.board.inReset = false) (c : ModCause) (g : Chip → β)
    (hg : ∀ a r b, g { a with regs := r, board := b } = g a) : g (m.moduleEnter c) = g m.moduleState := by
  rw [moduleEnter_enters hv hp hr]
  exact ((hg _ _ _).trans (hg (m.moduleState.addCauses _) _ _)).trans (addCauses_keeps _ _ g (hg _))

theorem moduleEnter_board (hr : m.board.inReset = false) (c : ModCause) :
    (m.moduleEnter c).board = (m.moduleState.addCauses (c :: m.pwr.stops)).board := by
  rw [moduleEnter_enters hv hp hr]; rfl

theorem moduleEnter_reg (hr : m.board.inReset = false) (c : ModCause) (a : Nat) : (m.moduleEnter c).reg a =
    if a = K.rstLastResetStamp then BitVec.ofNat 64 (33 * 2 ^ 58 + (m.counter 33).toNat % 2 ^ 58)
    else if a = K.rstResetCount then m.reg K.rstResetCount + 1
    else if a = K.rstResetCause then (c :: m.pwr.stops).foldl causeWord (m.reg K.rstResetCause) else regReset a := by
  have hcnt : m.moduleState.counter 33 = m.counter 33 := by simp [Chip.counter, Chip.moduleState]
  have hstamp : ((m.moduleState.addCauses (c :: m.pwr.stops)).count K.rstResetCount 1).stamp 33 =
      BitVec.ofNat 64 (33 * 2 ^ 58 + (m.counter 33).toNat % 2 ^ 58) := by
    rw [← hcnt, ← addCauses_keeps m.moduleState (c :: m.pwr.stops) (·.counter 33) fun _ _ => rfl]; rfl
  have hne : K.rstResetCount ≠ K.rstResetCause := by decide
  rw [moduleEnter_enters hv hp hr]
  dsimp only
  rw [reg_setReg, reg_count, addCauses_reg, addCauses_reg, if_neg hne, moduleState_reg, moduleState_reg, moduleState_reg, hstamp]
  by_cases h1 : a = K.rstLastResetStamp
  · rw [if_pos h1, if_pos h1]
  by_cases h2 : a = K.rstResetCount
  · rw [if_neg h1, if_neg h1, if_pos h2, if_pos h2, if_pos (Or.inr (Or.inl rfl))]; rfl
  rw [if_neg h1, if_neg h1, if_neg h2, if_neg h2]
  by_cases h3 : a = K.rstResetCause
  · rw [if_pos h3, if_pos h3, if_pos (Or.inl rfl)]
  · rw [if_neg h3, if_neg h3, if_neg (by simp only [h1, h2, h3, or_self, not_false_eq_true])]

/-- The causes that hold the reset: this one and those of the stops, as long as they last. -/
theorem moduleEnter_causes (hr : m.board.inReset = false) (c k : ModCause) :
    k ∈ (m.moduleEnter c).board.causes ↔ k ∈ c :: m.pwr.stops ∧ k.lasts m.board = true := by
  have hl : k.lasts m.moduleState.board = k.lasts m.board := k.lasts_congr rfl rfl rfl
  rw [moduleEnter_board hv hp hr, addCauses_causes, hl]
  exact or_iff_right (List.not_mem_nil (a := k))

end

theorem foldl_max_le {l : List Int} {a b : Int} (h : b ≤ a ∨ ∃ x ∈ l, b ≤ x) : b ≤ l.foldl max a := by
  induction l generalizing a with
  | nil => simpa using h
  | cons x t ih =>
    refine ih ?_
    rcases h with h | ⟨y, hy, h⟩
    · exact .inl (le_max_of_le_left h)
    · rcases List.mem_cons.mp hy with rfl | hy
      · exact .inl (le_max_of_le_right h)
      · exact .inr ⟨y, hy, h⟩

/-- A trip's temperature within a MODULE reset (R37, R474). -/
theorem thermal_trips {m : Chip} {t : Temps} (hp : m.board.por = false) (hr : m.board.inReset = true)
    (h : 1100 ≤ t.hub ∨ (∃ r : Fin 4, 1100 ≤ t.die[r]) ∨ (∃ k : Fin 16, 1050 ≤ t.stack[k]) ∨ 700 ≤ t.outlet) :
    m.thermal t = (m.modBoard fun b => { b with thermTripN := false }).addCause .therm := by
  have htrip : 1100 ≤ t.die.toList.foldl max t.hub ∨ 1050 ≤ t.stack.toList.foldl max t.stack[0] ∨ 700 ≤ t.outlet := by
    rcases h with h | ⟨r, h⟩ | ⟨k, h⟩ | h
    · exact .inl (foldl_max_le (.inl h))
    · exact .inl (foldl_max_le (.inr ⟨_, by simp, h⟩))
    · exact .inr (.inl (foldl_max_le (.inr ⟨_, by simp, h⟩)))
    · exact .inr (.inr h)
  unfold Chip.thermal
  dsimp only
  rw [if_neg (by simp [hp]), if_pos hr, if_neg]
  intro h0
  split_ifs at h0
  omega

/-- Settles O9: each row is `Chip.moduleEnter` of its cause, which the lemmas above describe. -/
theorem moduleCausesEnterModuleReset : Obligations.ModuleCausesEnterModuleReset := by
  intro s hv hp
  have hperst : s.chip.board.perst0N = true → exec .perst0Assert s = .next (s.on ((s.chip.modBoard fun b =>
      { b with perst0N := false }).moduleEnter .perst)) := fun h => by
    show execPerst0Assert s = _
    rw [execPerst0Assert, onChip_when h]
  have hsag : ∀ mv : Nat, s.chip.board.vin48 = true → mv < 40000 → exec (.supplyReset 21 mv) s = .next (s.on
      ((s.chip.modBoard fun b => { b with vin48 := false, mainGood := false }).moduleEnter .sag48)) := fun mv h hmv => by
    show execSupplyReset 21 mv s = _
    rw [execSupplyReset, onChip_when (by simp [Chip.watched, Chip.resets, hp, h, hmv])]; rfl
  refine ⟨fun hr => ⟨hperst, hsag, fun r mv h21 hw hmv => ?_, fun c t hc => ?_, fun hj hperm => ?_, fun c => ?_⟩,
    fun hr => ⟨hperst, hsag, fun hl => ?_, fun t ht => ?_, fun c => ?_⟩⟩
  · show execSupplyReset r mv s = _
    have hne : r.val ≠ 21 := by omega
    rw [execSupplyReset, onChip_when (by simp [hw, Chip.resets, hne, hmv]), if_neg hne]
  · show execStopReset s = _
    rw [execStopReset, onLog_eq, hc]
  · show execDbgReset s = _
    have hperm' : s.chip.permitted 0 = true := hperm
    simp only [execDbgReset, tapRow, onBoth, Chip.tapLive, hj, hp, hperm']
    rfl
  · have hreg := moduleEnter_reg hv hp hr c
    have hdom : (s.chip.moduleEnter c).dom = s.chip.moduleState.dom := moduleEnter_keeps hv hp hr c (·.dom) fun _ _ _ => rfl
    have keep : ∀ {β : Type} (g : Chip → β), (∀ a r b, g { a with regs := r, board := b } = g a) →
        g (s.chip.moduleEnter c) = g s.chip.moduleState := fun g hg => moduleEnter_keeps hv hp hr c g hg
    refine ⟨?_, moduleEnter_causes hv hp hr c, ?_, ?_, ?_, ?_, fun a h1 h2 h3 => ?_, ?_, fun d => ?_,
      keep (·.mem) fun _ _ _ => rfl, keep (·.coaches) fun _ _ _ => rfl, keep (·.cm) fun _ _ _ => rfl,
      keep (·.slices) fun _ _ _ => rfl, keep (·.obuf) fun _ _ _ => rfl, keep (·.errq) fun _ _ _ => rfl,
      keep (·.chocks) fun _ _ _ => rfl, keep (·.staged) fun _ _ _ => rfl, keep (·.stg) fun _ _ _ => rfl,
      keep (·.sh) fun _ _ _ => rfl, keep (·.xlat) fun _ _ _ => rfl, keep (·.host) fun _ _ _ => rfl,
      keep (·.sf) fun _ _ _ => rfl, keep (·.pwr) fun _ _ _ => rfl, keep (·.mg) fun _ _ _ => rfl⟩
    · rw [moduleEnter_board hv hp hr, addCauses_inReset]; rfl
    · rw [moduleEnter_board hv hp hr, addCauses_hubRails]; rfl
    · rw [hreg, if_neg (by decide), if_neg (by decide), if_pos rfl]
    · rw [hreg, if_neg (by decide), if_pos rfl]
    · rw [hreg, if_pos rfl]
    · rw [hreg, if_neg h3, if_neg h2, if_neg h1]
    · rw [hdom]; simp [Chip.moduleState]
    · rw [hdom]; simp [Chip.moduleState, d.isLt.ne]
  · show execLeakStop s = _
    rw [execLeakStop, onLog_eq, when_pos hl]
    simp [Chip.modBoard, hr]
  · show execThermalSample t s = _
    rw [execThermalSample, onLog_eq, thermal_trips hp hr ht, moduleEnter_records (m := s.chip.modBoard fun b => { b with thermTripN := false }) hv hp hr]
  · rw [moduleEnter_records hv hp hr]
    unfold Chip.addCause Chip.modBoard
    simp only [Bool.and_eq_true, Bool.not_eq_true', List.elem_eq_mem, decide_eq_false_iff_not]
    rfl

end Sys2Proof.Machine

/-! PROOFS. Events, and the beginning and the end of a page's command (R58, R61). -/
namespace Sys2Proof.Machine

/-! ### Steps that change registers, the record of outputs and the messages that wait -/

/-- `a` is `m` but for registers that satisfy `P`, what has been sent, and the MSI-X messages that wait. -/
structure EvtStep (P : Nat → Prop) (m a : Chip) : Prop where
  rest : a = { m with regs := a.regs, out := a.out, host := { m.host with msixPend := a.host.msixPend } }
  reg : ∀ k, ¬ P k → a.reg k = m.reg k

namespace EvtStep

variable {P Q : Nat → Prop} {m a b : Chip}

theorem refl (m : Chip) : EvtStep P m m := ⟨rfl, fun _ _ => rfl⟩

theorem trans (h : EvtStep P m a) (g : EvtStep P a b) : EvtStep P m b where
  rest := by rw [g.rest, h.rest]
  reg k hk := (g.reg k hk).trans (h.reg k hk)

theorem mono (h : EvtStep P m a) (hpq : ∀ k, P k → Q k) : EvtStep Q m a :=
  ⟨h.rest, fun k hk => h.reg k fun hp => hk (hpq k hp)⟩

/-- What looks at none of these is as before. -/
theorem keeps {β : Type} (h : EvtStep P m a) (g : Chip → β)
    (hg : ∀ r o p, g { m with regs := r, out := o, host := { m.host with msixPend := p } } = g m) : g a = g m :=
  (congrArg g h.rest).trans (hg _ _ _)

theorem fld (h : EvtStep P m a) {k : Nat} (hk : ¬ P k) (f : Fld) : a.fld k f = m.fld k f := congrArg f.get (h.reg k hk)

theorem setReg (m : Chip) {k : Nat} (v : W64) (hk : P k) : EvtStep P m (m.setReg k v) :=
  ⟨rfl, fun _ hj => reg_setReg_ne m v fun h => hj (h ▸ hk)⟩

theorem emit (m : Chip) (o : Output) : EvtStep P m (m.emit o) := ⟨rfl, fun _ _ => rfl⟩

end EvtStep

theorem RegStep.evt {P : Nat → Prop} {m a : Chip} (h : RegStep P m a) : EvtStep P m a :=
  ⟨by rw [h.rest], h.reg⟩

theorem sendMsix_step (m : Chip) (f v : Nat) : EvtStep (· = K.hostifMsixDrop) m (m.sendMsix f v) := by
  unfold Chip.sendMsix
  dsimp only
  split
  · exact .setReg m _ rfl
  split
  · exact .emit m _
  split
  · exact .refl m
  · exact ⟨rfl, fun _ _ => rfl⟩

theorem pageMessage_step (m : Chip) (p : PageId) : EvtStep (· = K.hostifMsixDrop) m (m.pageMessage p) := by
  unfold Chip.pageMessage
  dsimp only
  split
  · exact (sendMsix_step m _ _).trans (.emit _ _)
  · exact sendMsix_step m _ _

/-- The registers that an event of page `p` changes. -/
def evtKey (p : PageId) (k : Nat) : Prop := k = K.pageEvt p.base ∨ k = K.hostifMsixDrop

theorem event_step (m : Chip) (p : PageId) (i : Nat) : EvtStep (evtKey p) m (m.event p i) := by
  unfold Chip.event
  dsimp only
  split
  · exact .refl m
  split
  · exact (EvtStep.setReg m _ (.inl rfl)).trans ((pageMessage_step _ p).mono fun _ h => .inr h)
  · exact .setReg m _ (.inl rfl)

/-- Every page lies at a multiple of its size. -/
theorem base_mod (p : PageId) : p.base % 0x1000 = 0 := by
  obtain ⟨k, i⟩ := p
  unfold PageId.base
  cases k <;> simp only [pageBase] <;> omega

theorem evt_ne_msixDrop (p : PageId) : K.pageEvt p.base ≠ K.hostifMsixDrop := by
  have := base_mod p
  simp only [K.pageEvt, K.hostifMsixDrop, pageBase]; omega

theorem event_sets (m : Chip) (p : PageId) {i : Nat} (hi : i < 64) : ((m.event p i).reg (K.pageEvt p.base)).getLsbD i = true := by
  have hset : ((m.setReg (K.pageEvt p.base) (m.reg (K.pageEvt p.base) ||| BitVec.ofNat 64 (2 ^ i))).reg (K.pageEvt p.base)).getLsbD i
      = true := by
    rw [reg_setReg_same, BitVec.getLsbD_or, BitVec.getLsbD_ofNat, Nat.testBit_two_pow_self]
    simp [hi]
  unfold Chip.event
  dsimp only
  split
  · assumption
  split
  · rwa [(pageMessage_step _ p).reg _ (evt_ne_msixDrop p)]
  · exact hset

/-! ### Commands -/

/-- The registers that the beginning of a command of page `p` changes. -/
def beginKey (p : PageId) (k : Nat) : Prop := k = K.pageCmd p.base ∨ k = K.pageCmdStat p.base ∨ k = K.pageGen p.base

theorem beginCmd_step (m : Chip) (p : PageId) (code : Nat) (l : Launch) : RegStep (beginKey p) m (m.beginCmd p code l) :=
  ((RegStep.setReg m _ (.inl rfl)).trans (.setReg _ _ (.inr (.inl rfl)))).trans (.count _ _ (.inr (.inr rfl)))

theorem beginCmd_busy (m : Chip) (p : PageId) (code : Nat) (l : Launch) : (m.beginCmd p code l).busy p = true := by
  unfold Chip.busy Chip.beginCmd Chip.bumpGen
  dsimp only
  refine flag_eq_true.mpr ?_
  rw [Chip.fld, reg_count, if_neg (by simp), reg_setReg_same, Fld.get, BitVec.toNat_ofNat]
  dsimp only
  omega

/-- The registers that the end of a command of page `p` changes. -/
def endKey (p : PageId) (k : Nat) : Prop := k = K.pageCmdStat p.base ∨ k = K.pageGen p.base ∨ evtKey p k

theorem endCmd_step (m : Chip) (p : PageId) (err : Nat) : EvtStep (endKey p) m (m.endCmd p err) :=
  ((EvtStep.setReg m _ (.inl rfl)).trans (.setReg _ _ (.inr (.inl rfl)))).trans
    ((event_step _ p _).mono fun _ h => .inr (.inr h))

theorem endCmd_stat (m : Chip) (p : PageId) (err : Nat) : (m.endCmd p err).reg (K.pageCmdStat p.base) =
    F.pageCmdStatProgress.put (F.pageCmdStatErr.put (F.pageCmdStatDone.put
      (F.pageCmdStatBusy.put (m.reg (K.pageCmdStat p.base)) 0) 1) err) 1000 := by
  have hk : ¬ evtKey p (K.pageCmdStat p.base) := by
    have := base_mod p
    simp only [evtKey, K.pageEvt, K.pageCmdStat, K.hostifMsixDrop, pageBase]; omega
  unfold Chip.endCmd
  dsimp only
  rw [(event_step _ p _).reg _ hk, Chip.bumpGen, reg_count, if_neg (by simp), reg_setReg_same]

theorem endCmd_busy (m : Chip) (p : PageId) (err : Nat) : (m.endCmd p err).busy p = false := by
  refine flag_eq_false.mpr ?_
  rw [Chip.fld, endCmd_stat, Fld.get_put_apart _ _ _ _ (by decide) (.inl (by decide)),
    Fld.get_put_apart _ _ _ _ (by decide) (.inl (by decide)), Fld.get_put_apart _ _ _ _ (by decide) (.inl (by decide)),
    Fld.get_put _ _ _ (by decide)]
  rfl

theorem endCmd_err (m : Chip) (p : PageId) {err : Nat} (h : err < 256) :
    (m.endCmd p err).fld (K.pageCmdStat p.base) F.pageCmdStatErr = err := by
  rw [Chip.fld, endCmd_stat, Fld.get_put_apart _ _ _ _ (by decide) (.inl (by decide)), Fld.get_put _ _ _ (by decide)]
  exact Nat.mod_eq_of_lt h

/-- A command that ends without an error (R61). -/
theorem endCmd_ended (m : Chip) (p : PageId) : Ended (m.endCmd p 0) p where
  busy := endCmd_busy m p 0
  done := by
    rw [Chip.fld, endCmd_stat, Fld.get_put_apart _ _ _ _ (by decide) (.inl (by decide)),
      Fld.get_put_apart _ _ _ _ (by decide) (.inl (by decide)), Fld.get_put _ _ _ (by decide)]; rfl
  ok := endCmd_err m p (by decide)
  progress := by rw [Chip.fld, endCmd_stat, Fld.get_put _ _ _ (by decide)]; rfl
  event := event_sets _ p (by decide)

/-- A command that the checks of R71 accept is launched. -/
theorem issue_accepted {m : Chip} {p : PageId} {code : Nat} {l : Launch} (run : Launch → Chip → Chip)
    (h1 : m.stalledLink l.m = none) (h2 : m.judge (l.wr p code) false = .accepted) :
    m.issue p code l run = (run l (m.beginCmd p code l)).answer l.m 0 := by
  unfold Chip.issue
  dsimp only
  rw [h1, h2]

/-- A row that issues a command launches it. -/
theorem launches_issue {i : Sys2Proof.Instr} {s : State} {p : PageId} {code : Nat} {l : Launch} {run : Launch → Chip → Chip}
    {f : Chip → Chip} (he : exec i s = .next (s.on (s.chip.issue p code l run)))
    (hf : run l (s.chip.beginCmd p code l) = f (s.chip.beginCmd p code l)) : Launches i s p code l f := fun h1 h2 => by
  rw [he, issue_accepted _ h1 h2, hf]

theorem noArg_zero {m : Chip} {p : PageId} {l : Launch} (f : Chip → Chip) (h : l.arg = 0) : m.noArg p l f = f m := if_pos h

theorem noArg_bad {m : Chip} {p : PageId} {l : Launch} (f : Chip → Chip) (h : l.arg ≠ 0) : m.noArg p l f = m.endCmd p 0x02 :=
  if_neg h

/-! ### RAKE_RESET (R36) -/

theorem rakeInUse_iff {m : Chip} {r : Nat} : m.rakeInUse r = true ↔ m.rakeHolds r := by
  simp only [Chip.rakeInUse, rakeCoaches, Chip.rakeHolds, List.any_eq_true, List.mem_filter, List.mem_finRange, true_and,
    beq_iff_eq, Bool.and_eq_true, Bool.not_eq_true', List.mem_range]
  constructor
  · rintro ⟨c, hc, hf, i, hi, hv⟩
    exact ⟨c, hc, hf, ⟨i, hi⟩, hv⟩
  · rintro ⟨c, hc, hf, i, hv⟩
    exact ⟨c, hc, hf, i, i.isLt, hv⟩

/-- The launch of a command of RST leaves what R36 asks. -/
theorem rakeHolds_beginCmd {m : Chip} {code r : Nat} {l : Launch} : (m.beginCmd rstPage code l).rakeHolds r ↔ m.rakeHolds r := by
  have hs := beginCmd_step m rstPage code l
  have h1 : ∀ c : Fin 64, ¬ beginKey rstPage (K.shuntCoachCfg c) := fun c => by
    simp only [beginKey, K.pageCmd, K.pageCmdStat, K.pageGen, K.shuntCoachCfg, PageId.base, pageBase]; omega
  have h2 : ∀ (c : Fin 64) (i : Fin 8), ¬ beginKey rstPage (K.cmemPart c i) := fun c i => by
    simp only [beginKey, K.pageCmd, K.pageCmdStat, K.pageGen, K.cmemPart, PageId.base, pageBase]; omega
  simp only [Chip.rakeHolds, Chip.flag, hs.fld (h1 _), hs.fld (h2 _ _)]

/-- Settles O39: both refusals end the command at once, so that BUSY is 0 and the error code is shown. -/
theorem rakeResetIsRefused : Obligations.RakeResetIsRefused := by
  intro s l hlink hjudge hbad
  have hexec : exec (.rakeReset l) s =
      .next (s.settled s.nvm (((s.chip.beginCmd rstPage 2 l).rakeReset l).answer l.m 0)) := by
    show execRakeReset l s = _
    rw [execRakeReset, onLog_eq, issue_accepted _ hlink hjudge]
  have hend : (s.chip.beginCmd rstPage 2 l).rakeReset l =
      (s.chip.beginCmd rstPage 2 l).endCmd rstPage (if 4 ≤ l.arg.toNat then 0x02 else 0x03) := by
    unfold Chip.rakeReset
    by_cases h4 : 4 ≤ l.arg.toNat
    · rw [dif_neg (Nat.not_lt.mpr h4), if_pos h4]
    · have huse := rakeInUse_iff.mpr ((rakeHolds_beginCmd (code := 2) (l := l)).mpr (hbad.resolve_left h4))
      rw [dif_pos (Nat.not_le.mp h4), if_neg h4, if_pos huse]
  refine ⟨_, hexec, ?_⟩
  rw [hend]
  have hb := beginCmd_step s.chip rstPage 2 l
  generalize s.chip.beginCmd rstPage 2 l = b at hb
  have he : EvtStep (fun k => beginKey rstPage k ∨ endKey rstPage k) s.chip (b.endCmd rstPage (if 4 ≤ l.arg.toNat then 0x02 else 0x03)) :=
    (hb.evt.mono fun _ => .inl).trans ((endCmd_step b rstPage _).mono fun _ => .inr)
  exact ⟨endCmd_err _ rstPage (by split <;> decide), endCmd_busy _ rstPage _, he.keeps (·.coaches) fun _ _ _ => rfl,
    he.keeps (·.mem) fun _ _ _ => rfl, he.keeps (·.cm) fun _ _ _ => rfl, he.keeps (·.dom) fun _ _ _ => rfl⟩

end Sys2Proof.Machine

/-! PROOFS. SNAP, MODULE_RESET, OSTLER_RESET and RAKE_RESET when they are accepted (R29 to R36). -/
namespace Sys2Proof.Machine

/-! ### Sources that a warning holds (R129) -/

/-- The context without its interrupt sources. -/
def Context.unposted (k : Context) : Context := { k with intPend := 0, intStamp := Context.reset.intStamp }

/-- The coach without the interrupt sources of its contexts. -/
def Coach.unposted (k : Coach) : Coach := { k with fore := k.fore.unposted, aft := k.aft.unposted }

theorem setPend_coach_ne (m : Chip) (x : Ctx) (b : Nat) {c : Fin 64} (h : c ≠ x.coach) : (m.setPend x b).coach c = m.coach c :=
  coach_setCoach_ne m _ h

theorem modCtx_unposted (m : Chip) (x : Ctx) {f : Context → Context} (hf : ∀ k, (f k).unposted = k.unposted) (c : Fin 64) :
    ((m.modCtx x f).coach c).unposted = (m.coach c).unposted := by
  by_cases h : c = x.coach
  · obtain ⟨d, aft⟩ := x
    subst h
    unfold Chip.modCtx Chip.setCtx Chip.modCoach Chip.ctx
    rw [coach_setCoach]
    cases aft
    · exact congrArg (fun k => { (m.coach c).unposted with fore := k }) (hf (m.coach c).fore)
    · exact congrArg (fun k => { (m.coach c).unposted with aft := k }) (hf (m.coach c).aft)
  · exact congrArg Coach.unposted (coach_setCoach_ne m _ h)

theorem setPend_unposted (m : Chip) (x : Ctx) (b : Nat) (c : Fin 64) :
    ((m.setPend x b).coach c).unposted = (m.coach c).unposted :=
  modCtx_unposted m x (fun k => by split <;> rfl) c

theorem setPend_intPend (m : Chip) (x : Ctx) {b : Nat} (hb : b < 16) (y : Ctx) (i : Nat) :
    ((m.setPend x b).ctx y).intPend.getLsbD i = ((m.ctx y).intPend.getLsbD i || (decide (y = x) && decide (i = b))) := by
  unfold Chip.setPend
  by_cases h : y = x
  · subst h
    rw [ctx_modCtx]
    by_cases hset : (m.ctx y).intPend.getLsbD b = true
    · rw [if_pos hset]
      by_cases hi : i = b
      · rw [hi, hset]; rfl
      · simp [hi]
    · rw [if_neg hset]
      simp only [BitVec.getLsbD_or, BitVec.getLsbD_ofNat, Nat.testBit_two_pow]
      by_cases hi : i = b
      · simp [hi, hb]
      · simp [hi, Ne.symm hi]
  · rw [ctx_modCtx_ne _ _ h]; simp [h]

theorem holdSources_eq (m : Chip) (x : Ctx) : m.holdSources x =
    (let a := if m.sourceHolds srcSag then m.setPend x srcSag else m
     if m.sourceHolds srcThermal then a.setPend x srcThermal else a) := by
  unfold Chip.holdSources
  simp only [List.foldl_cons, List.foldl_nil]
  by_cases h : m.sourceHolds srcSag = true
  · have : (m.setPend x srcSag).sourceHolds srcThermal = m.sourceHolds srcThermal := rfl
    simp only [h, if_true, this]
  · simp only [h]; rfl

theorem holdSources_rest (m : Chip) (x : Ctx) : m.holdSources x = { m with coaches := (m.holdSources x).coaches } := by
  rw [holdSources_eq]; dsimp only; split <;> split <;> rfl

theorem holdSources_coach_ne (m : Chip) (x : Ctx) {c : Fin 64} (h : c ≠ x.coach) : (m.holdSources x).coach c = m.coach c := by
  rw [holdSources_eq]; dsimp only; split <;> split <;> simp [setPend_coach_ne _ x _ h]

theorem holdSources_unposted (m : Chip) (x : Ctx) (c : Fin 64) : ((m.holdSources x).coach c).unposted = (m.coach c).unposted := by
  rw [holdSources_eq]; dsimp only; split <;> split <;> simp [setPend_unposted]

/-- No source but the two that warnings hold is ever held. -/
theorem sourceHolds_eq (m : Chip) (i : Nat) : m.sourceHolds i =
    ((decide (i = srcSag) && m.sourceHolds srcSag) || (decide (i = srcThermal) && m.sourceHolds srcThermal)) := by
  by_cases h0 : i = srcSag
  · subst h0; simp
  by_cases h1 : i = srcThermal
  · subst h1; simp
  simp [Chip.sourceHolds, h0, h1]

theorem holdSources_intPend (m : Chip) (x y : Ctx) (i : Nat) : ((m.holdSources x).ctx y).intPend.getLsbD i =
    ((m.ctx y).intPend.getLsbD i || (decide (y = x) && m.sourceHolds i)) := by
  rw [holdSources_eq, sourceHolds_eq m i]
  dsimp only
  cases m.sourceHolds srcSag <;> cases m.sourceHolds srcThermal <;>
    simp [setPend_intPend, -BitVec.getLsbD_eq_getElem, Bool.or_assoc, Bool.and_or_distrib_left]

/-! ### A coach that a RAKE reset drops (R36) -/

/-- Offset `k` lies outside the pages of coach `c`. -/
def outside (c : Fin 64) (k : Nat) : Prop := k < pageBase .coach c ∨ pageBase .coach c + 0x10000 ≤ k

/-- `a` is `m` after the coaches `l` have been dropped. -/
structure Dropped (l : List (Fin 64)) (m a : Chip) : Prop where
  rest : a = { m with
    regs := a.regs, staged := a.staged, errq := a.errq, chocks := a.chocks, mem := a.mem, obuf := a.obuf, crcSeen := a.crcSeen,
    coaches := a.coaches, cm := a.cm, sends := a.sends, posts := a.posts, xlat := a.xlat }
  reg : ∀ k, (∀ c ∈ l, outside c k) → a.reg k = m.reg k
  unposted : ∀ c ∈ l, (a.coach c).unposted = Coach.reset
  sources : ∀ c ∈ l, ∀ s i, (a.ctx ⟨c, s⟩).intPend.getLsbD i = m.sourceHolds i
  cleared : ∀ c ∈ l, ∀ k, a.cmWord c k = 0
  coach : ∀ c ∉ l, a.coach c = m.coach c
  cm : ∀ c ∉ l, ∀ k, a.cmWord c k = m.cmWord c k

theorem Dropped.nil (m : Chip) : Dropped [] m m where
  rest := rfl
  reg _ _ := rfl
  unposted _ h := nomatch h
  sources _ h := nomatch h
  cleared _ h := nomatch h
  coach _ _ := rfl
  cm _ _ _ := rfl

/-- The registers that tell whether a warning is in force lie in no coach. -/
theorem pwrStat_outside (c : Fin 64) : outside c K.pwrPwrStat := by
  simp only [outside, K.pwrPwrStat, pageBase]; omega

theorem sourceHolds_congr {m a : Chip} (h : a.reg K.pwrPwrStat = m.reg K.pwrPwrStat) (i : Nat) : a.sourceHolds i = m.sourceHolds i := by
  unfold Chip.sourceHolds Chip.flag Chip.fld; rw [h]

theorem Dropped.cons {c : Fin 64} {l : List (Fin 64)} {m a b : Chip} (h : Dropped [c] m a) (g : Dropped l a b) :
    Dropped (c :: l) m b := by
  have hsrc : ∀ i, a.sourceHolds i = m.sourceHolds i :=
    sourceHolds_congr (h.reg _ fun d _ => pwrStat_outside d)
  have hd : ∀ d, d ∉ c :: l → d ∉ [c] ∧ d ∉ l := by simp
  refine ⟨by rw [g.rest, h.rest], fun k hk => ?_, fun d hdl => ?_, fun d hdl s i => ?_,
    fun d hdl k => ?_, fun d hdl => ?_, fun d hdl k => ?_⟩
  · rw [g.reg k fun d hd => hk d (List.mem_cons_of_mem _ hd), h.reg k fun d hd => hk d (by simp at hd; simp [hd])]
  · by_cases hl : d ∈ l
    · exact g.unposted d hl
    · rw [g.coach d hl]; exact h.unposted d (by simpa [hl] using hdl)
  · by_cases hl : d ∈ l
    · rw [g.sources d hl, hsrc]
    · rw [Chip.ctx, g.coach d hl]; exact h.sources d (by simpa [hl] using hdl) s i
  · by_cases hl : d ∈ l
    · exact g.cleared d hl k
    · rw [g.cm d hl]; exact h.cleared d (by simpa [hl] using hdl) k
  · rw [g.coach d (hd d hdl).2, h.coach d (hd d hdl).1]
  · rw [g.cm d (hd d hdl).2, h.cm d (hd d hdl).1]

/-- The coach before the sources that a warning holds are set again. -/
def Chip.dropCoachBare (m : Chip) (c : Fin 64) : Chip :=
  let lo := pageBase .coach c.val
  let mine (w : BitVec 16) : Bool :=
    (idKind w == 2 && idIndex w / 2 == c.val) || (idKind w == 3 && idIndex w / 8 == c.val)
  let m1 := (m.modCoach c fun _ => Coach.reset).resetPages lo (lo + 0x10000)
  let m2 := (m1.zeroMem (coreBase + c.val * 0x400000) 0x400000)
  let m3 := (List.range 9).foldl (fun (m : Chip) e => m.dropMisses ⟨c, e⟩) m2
  { m3 with
    cm := smapErase (fun k => k / 65536 == c.val) m3.cm
    obuf := smapErase (fun k => k / 2 ^ 20 == c.val) m3.obuf
    chocks := m3.chocks.filter fun h => !mine h.master
    sends := m3.sends.filter fun e => e.target.coach != c
    posts := m3.posts.filter fun e => e.1.coach != c
    crcSeen := m3.crcSeen.filter fun e => !mine e.1
    xlat := { m3.xlat with tlb := m3.xlat.tlb.set c.val [] } }

theorem dropCoach_eq (m : Chip) (c : Fin 64) :
    m.dropCoach c = ((m.dropCoachBare c).holdSources ⟨c, false⟩).holdSources ⟨c, true⟩ := rfl

theorem setCells_rest (m : Chip) (lo n : Nat) (f : Nat → MByte) : m.setCells lo n f = { m with mem := (m.setCells lo n f).mem } := by
  unfold Chip.setCells
  generalize List.range n = l
  induction l generalizing m with
  | nil => rfl
  | cons i t ih => exact ih _

theorem zeroMem_rest (m : Chip) (lo n : Nat) : m.zeroMem lo n = { m with mem := (m.zeroMem lo n).mem } := by
  unfold Chip.zeroMem
  split
  · exact setCells_rest m _ _ _
  · rfl

/-- What looks at neither memory nor translation, streams' bookkeeping nor the coach itself is as before. -/
theorem dropCoachBare_keeps {β : Type} (m : Chip) (c : Fin 64) (g : Chip → β)
    (hmem : ∀ a v, g { a with mem := v } = g a) (hx : ∀ a v, g { a with xlat := v } = g a)
    (hrest : ∀ (a : Chip) cm ob ch se po cr x, g { a with cm := cm, obuf := ob, chocks := ch, sends := se, posts := po, crcSeen := cr, xlat := x } = g a) :
    g (m.dropCoachBare c) = g ((m.modCoach c fun _ => Coach.reset).resetPages (pageBase .coach c) (pageBase .coach c + 0x10000)) := by
  have hfold : ∀ a : Chip, g ((List.range 9).foldl (fun (m : Chip) e => m.dropMisses ⟨c, e⟩) a) = g a :=
    foldl_frame g _ _ fun a e => hx a _
  refine (hrest _ _ _ _ _ _ _ _).trans ((hfold _).trans ?_)
  rw [zeroMem_rest]
  exact hmem _ _

theorem dropMisses_foldl_rest (m : Chip) (c : Fin 64) (l : List Nat) :
    l.foldl (fun (m : Chip) e => m.dropMisses ⟨c, e⟩) m =
      { m with xlat := (l.foldl (fun (m : Chip) e => m.dropMisses ⟨c, e⟩) m).xlat } := by
  induction l generalizing m with
  | nil => rfl
  | cons e t ih => exact ih _

theorem dropCoachBare_rest (m : Chip) (c : Fin 64) : m.dropCoachBare c = { m with
    regs := (m.dropCoachBare c).regs, staged := (m.dropCoachBare c).staged, errq := (m.dropCoachBare c).errq,
    chocks := (m.dropCoachBare c).chocks, mem := (m.dropCoachBare c).mem, obuf := (m.dropCoachBare c).obuf,
    crcSeen := (m.dropCoachBare c).crcSeen, coaches := (m.dropCoachBare c).coaches, cm := (m.dropCoachBare c).cm,
    sends := (m.dropCoachBare c).sends, posts := (m.dropCoachBare c).posts, xlat := (m.dropCoachBare c).xlat } := by
  unfold Chip.dropCoachBare
  dsimp only
  rw [dropMisses_foldl_rest, zeroMem_rest]
  rfl

theorem cmWord_eq_smapGet (m : Chip) (c : Fin 64) (k : Nat) : m.cmWord c k = smapGet (fun _ => 0) m.cm (c.val * 65536 + k % 65536) := rfl

theorem dropCoachBare_cm (m : Chip) (c : Fin 64) : (m.dropCoachBare c).cm = smapErase (fun k => k / 65536 == c.val) m.cm := by
  have hfold : ∀ a : Chip, ((List.range 9).foldl (fun (m : Chip) e => m.dropMisses ⟨c, e⟩) a).cm = a.cm :=
    foldl_frame Chip.cm _ _ fun _ _ => rfl
  unfold Chip.dropCoachBare
  dsimp only
  rw [hfold, zeroMem_rest]; rfl

theorem dropCoachBare_cmWord (m : Chip) (c d : Fin 64) (k : Nat) :
    (m.dropCoachBare c).cmWord d k = if d = c then 0 else m.cmWord d k := by
  have hdiv : (d.val * 65536 + k % 65536) / 65536 = d.val := by omega
  rw [cmWord_eq_smapGet, dropCoachBare_cm, smapGet_erase, hdiv]
  simp [Fin.ext_iff, cmWord_eq_smapGet]

theorem dropCoachBare_coach (m : Chip) (c d : Fin 64) :
    (m.dropCoachBare c).coach d = if d = c then Coach.reset else m.coach d := by
  have h := dropCoachBare_keeps m c (·.coach d) (fun _ _ => rfl) (fun _ _ => rfl) fun _ _ _ _ _ _ _ _ => rfl
  refine h.trans ?_
  show (m.setCoach c Coach.reset).coach d = _
  by_cases hd : d = c
  · subst hd; rw [coach_setCoach, if_pos rfl]
  · rw [coach_setCoach_ne _ _ hd, if_neg hd]

theorem dropCoachBare_reg (m : Chip) (c : Fin 64) {k : Nat} (hk : outside c k) : (m.dropCoachBare c).reg k = m.reg k := by
  have h := dropCoachBare_keeps m c (·.reg k) (fun _ _ => rfl) (fun _ _ => rfl) fun _ _ _ _ _ _ _ _ => rfl
  refine h.trans ?_
  rw [reg_resetPages, if_neg (by unfold outside at hk; omega)]; rfl

/-- Sources change the coaches alone. -/
theorem holdSources_keeps {β : Type} (m : Chip) (x : Ctx) (g : Chip → β) (hg : ∀ a v, g { a with coaches := v } = g a) :
    g (m.holdSources x) = g m := (congrArg g (holdSources_rest m x)).trans (hg _ _)

theorem dropCoach_keeps {β : Type} (m : Chip) (c : Fin 64) (g : Chip → β) (hg : ∀ a v, g { a with coaches := v } = g a) :
    g (m.dropCoach c) = g (m.dropCoachBare c) := by
  rw [dropCoach_eq]
  exact (holdSources_keeps _ _ g hg).trans (holdSources_keeps _ _ g hg)

theorem dropCoach_dropped (m : Chip) (c : Fin 64) : Dropped [c] m (m.dropCoach c) where
  rest := by rw [dropCoach_eq, holdSources_rest, holdSources_rest, dropCoachBare_rest]
  reg k hk := (dropCoach_keeps m c (·.reg k) fun _ _ => rfl).trans (dropCoachBare_reg m c (hk c (List.mem_singleton.mpr rfl)))
  unposted d hd := by
    rw [List.mem_singleton.mp hd, dropCoach_eq, holdSources_unposted, holdSources_unposted, dropCoachBare_coach, if_pos rfl]; rfl
  sources d hd s i := by
    have hreset : ((m.dropCoachBare c).ctx ⟨c, s⟩).intPend = 0 := by
      rw [Chip.ctx, dropCoachBare_coach, if_pos rfl]; cases s <;> rfl
    have hsrc : ∀ a, (m.dropCoachBare c).sourceHolds a = m.sourceHolds a :=
      sourceHolds_congr (dropCoachBare_reg m c (pwrStat_outside c))
    have hsrc2 : ∀ a, ((m.dropCoachBare c).holdSources ⟨c, false⟩).sourceHolds a = m.sourceHolds a := fun a =>
      (sourceHolds_congr (holdSources_keeps _ _ (·.reg K.pwrPwrStat) fun _ _ => rfl) a).trans (hsrc a)
    rw [List.mem_singleton.mp hd, dropCoach_eq, holdSources_intPend, holdSources_intPend, hreset, hsrc, hsrc2]
    cases s <;> simp
  cleared d hd k := by
    rw [List.mem_singleton.mp hd]
    exact (dropCoach_keeps m c (·.cmWord c k) fun _ _ => rfl).trans ((dropCoachBare_cmWord m c c k).trans (if_pos rfl))
  coach d hd := by
    have hne : d ≠ c := fun h => hd (List.mem_singleton.mpr h)
    rw [dropCoach_eq, holdSources_coach_ne _ _ hne, holdSources_coach_ne _ _ hne, dropCoachBare_coach, if_neg hne]
  cm d hd k := by
    have hne : d ≠ c := fun h => hd (List.mem_singleton.mpr h)
    exact (dropCoach_keeps m c (·.cmWord d k) fun _ _ => rfl).trans ((dropCoachBare_cmWord m c d k).trans (if_neg hne))

theorem dropCoaches_dropped (l : List (Fin 64)) (m : Chip) : Dropped l m (l.foldl Chip.dropCoach m) := by
  induction l generalizing m with
  | nil => exact .nil m
  | cons c t ih => exact (dropCoach_dropped m c).cons (ih _)

/-! ### RAKE_RESET (R36) -/

theorem mem_rakeCoaches {r : Nat} {c : Fin 64} : c ∈ rakeCoaches r ↔ c.val / 16 = r := by
  simp [rakeCoaches]

/-- The rake's clock stands, its counter is at 0. -/
theorem rakeClockStops (m : Chip) (r : Fin 4) (d : Fin 34) : let t := (m.clearDoms (· == r.val)).rakePeriod r
    if d.val = r then t.dom[d].run = false ∧ t.dom[d].count = 0 else t.dom[d] = m.dom[d] := by
  have hr : r.val < 34 := by omega
  simp only [Chip.rakePeriod, Chip.setDom, hr, dif_pos, Chip.clearDoms, Fin.getElem_fin, Vector.getElem_set, Vector.getElem_mapIdx,
    beq_iff_eq]
  by_cases h : d.val = r.val
  · simp [h, Domain.reset]
  · simp [h, Ne.symm h]

/-- What RAKE_RESET records in RESET_CAUSE. -/
def rakeCause (r : Fin 4) (w : W64) : W64 := F.rstResetCauseRakeId.put (F.rstResetCauseRake.put w 1) r.val

/-- RAKE_RESET of a rake that nothing uses: its coaches dropped, its clock stopped, its epoch counted, the cause recorded and logged. -/
theorem rakeReset_eq {m : Chip} {l : Launch} {r : Fin 4} (hr : l.arg.toNat = r) (hfree : ¬ m.rakeHolds r) :
    let m2 := ((((rakeCoaches r).foldl Chip.dropCoach m).clearDoms (· == r.val)).rakePeriod r).count (K.timeEpoch r) 1
    m.rakeReset l = (m2.setReg K.rstResetCause (rakeCause r (m2.reg K.rstResetCause))).logEvent (.reset (rakeCause r 0)) := by
  have hlt : l.arg.toNat < 4 := by omega
  obtain rfl : r = ⟨l.arg.toNat, hlt⟩ := Fin.ext hr.symm
  unfold Chip.rakeReset
  rw [dif_pos hlt]
  exact if_neg fun h => hfree (rakeInUse_iff.mp h)

theorem rakePeriod_rest (m : Chip) (r : Fin 4) : m.rakePeriod r = { m with dom := (m.rakePeriod r).dom } := setDom_other m _ _

theorem logEvent_keeps {β : Type} (m : Chip) (c : LogCode) (g : Chip → β) (hg : ∀ a v, g { a with mg := v } = g a) :
    g (m.logEvent c) = g m := (congrArg g (logEvent_eq m c)).trans (hg _ _)

section
variable {m : Chip} {l : Launch} {r : Fin 4} (hr : l.arg.toNat = r) (hfree : ¬ m.rakeHolds r)
include hr hfree

/-- What looks at neither registers nor the event log finds the coaches dropped and the rake's clock stopped. -/
theorem rakeReset_keeps {β : Type} (g : Chip → β) (h1 : ∀ a v, g { a with mg := v } = g a) (h2 : ∀ a v, g { a with regs := v } = g a) :
    g (m.rakeReset l) = g ((((rakeCoaches r).foldl Chip.dropCoach m).clearDoms (· == r.val)).rakePeriod r) := by
  rw [rakeReset_eq hr hfree]
  exact ((logEvent_keeps _ _ g h1).trans (h2 _ _)).trans (h2 _ _)

/-- What looks at no clock either finds the coaches dropped. -/
theorem rakeReset_drops {β : Type} (g : Chip → β) (h1 : ∀ a v, g { a with mg := v } = g a) (h2 : ∀ a v, g { a with regs := v } = g a)
    (h3 : ∀ a v, g { a with dom := v } = g a) : g (m.rakeReset l) = g ((rakeCoaches r).foldl Chip.dropCoach m) := by
  rw [rakeReset_keeps hr hfree g h1 h2, rakePeriod_rest]
  exact (h3 _ _).trans (h3 _ _)

theorem rakeReset_reg (k : Nat) : (m.rakeReset l).reg k =
    if k = K.rstResetCause then rakeCause r (((rakeCoaches r).foldl Chip.dropCoach m).reg K.rstResetCause)
    else ((rakeCoaches r).foldl Chip.dropCoach m).reg k + if k = K.timeEpoch r then 1 else 0 := by
  have hbase : ∀ (a : Chip) k, ((a.clearDoms (· == r.val)).rakePeriod r).reg k = a.reg k := fun a k => by rw [rakePeriod_rest]; rfl
  have hne : K.rstResetCause ≠ K.timeEpoch r := by simp only [K.rstResetCause, K.timeEpoch, pageBase]; omega
  rw [rakeReset_eq hr hfree, logEvent_keeps _ _ (·.reg k) fun _ _ => rfl, reg_setReg, reg_count, reg_count, if_neg hne, hbase, hbase, hbase]
  by_cases h : k = K.timeEpoch r
  · rw [if_pos h, if_pos h, h]; rfl
  · rw [if_neg h, if_neg h, add_zero]

theorem rakeReset_coach (c : Fin 64) : let t := m.rakeReset l
    if c.val / 16 = r then (t.coach c).unposted = Coach.reset ∧
      (∀ a i, (t.ctx ⟨c, a⟩).intPend.getLsbD i = m.sourceHolds i) ∧ ∀ a < 65536, t.cmWord c a = 0
    else t.coach c = m.coach c ∧ ∀ a, t.cmWord c a = m.cmWord c a := by
  have hd := dropCoaches_dropped (rakeCoaches r) m
  have hc : (m.rakeReset l).coach c = _ := rakeReset_drops hr hfree (·.coach c) (fun _ _ => rfl) (fun _ _ => rfl) fun _ _ => rfl
  have hcm : ∀ a, (m.rakeReset l).cmWord c a = _ := fun a =>
    rakeReset_drops hr hfree (·.cmWord c a) (fun _ _ => rfl) (fun _ _ => rfl) fun _ _ => rfl
  dsimp only
  split
  · have hmem := mem_rakeCoaches.mpr ‹c.val / 16 = r›
    refine ⟨by rw [hc]; exact hd.unposted c hmem, fun a i => ?_, fun a _ => by rw [hcm]; exact hd.cleared c hmem a⟩
    rw [Chip.ctx, hc]; exact hd.sources c hmem a i
  · have hmem : c ∉ rakeCoaches r := fun h => ‹¬ c.val / 16 = r› (mem_rakeCoaches.mp h)
    exact ⟨by rw [hc, hd.coach c hmem], fun a => by rw [hcm, hd.cm c hmem]⟩

/-- What RAKE_RESET shows in the registers of TIME and RST. -/
theorem rakeReset_shows : let t := m.rakeReset l
    t.reg (K.timeEpoch r) = m.reg (K.timeEpoch r) + 1 ∧ t.flag K.rstResetCause F.rstResetCauseRake = true ∧
    t.fld K.rstResetCause F.rstResetCauseRakeId = r ∧ t.busy rstPage = m.busy rstPage := by
  have hd := dropCoaches_dropped (rakeCoaches r) m
  refine ⟨?_, flag_eq_true.mpr ?_, ?_, ?_⟩
  · have hout : ∀ c, outside c (K.timeEpoch r) := fun c => by simp only [outside, K.timeEpoch, pageBase]; omega
    have hne : K.timeEpoch r ≠ K.rstResetCause := by simp only [K.rstResetCause, K.timeEpoch, pageBase]; omega
    rw [rakeReset_reg hr hfree, if_neg hne, if_pos rfl, hd.reg _ fun c _ => hout c]
  · rw [Chip.fld, rakeReset_reg hr hfree, if_pos rfl, rakeCause, Fld.get_put_apart _ _ _ _ (by decide) (.inl (by decide)),
      Fld.get_put _ _ _ (by decide)]
    decide
  · rw [Chip.fld, rakeReset_reg hr hfree, if_pos rfl, rakeCause, Fld.get_put _ _ _ (by decide)]
    exact Nat.mod_eq_of_lt r.isLt
  · have hout : ∀ c, outside c (K.pageCmdStat rstPage.base) := fun c => by
      simp only [outside, K.pageCmdStat, PageId.base, pageBase]; omega
    have hne1 : K.pageCmdStat rstPage.base ≠ K.rstResetCause := by decide
    have hne2 : K.pageCmdStat rstPage.base ≠ K.timeEpoch r := by
      simp only [K.pageCmdStat, PageId.base, K.timeEpoch, pageBase]; omega
    unfold Chip.busy Chip.flag Chip.fld
    rw [rakeReset_reg hr hfree, if_neg hne1, if_neg hne2, hd.reg _ fun c _ => hout c]
    exact congrArg (fun w => F.pageCmdStatBusy.get w != 0) (add_zero _)

theorem rakeReset_dom (d : Fin 34) : let t := m.rakeReset l
    if d.val = r then t.dom[d].run = false ∧ t.dom[d].count = 0 else t.dom[d] = m.dom[d] := by
  have hdom : ((rakeCoaches r).foldl Chip.dropCoach m).dom = m.dom := by rw [(dropCoaches_dropped _ m).rest]
  have h := rakeClockStops ((rakeCoaches r).foldl Chip.dropCoach m) r d
  rw [hdom] at h
  dsimp only
  rwa [rakeReset_keeps hr hfree (·.dom) (fun _ _ => rfl) fun _ _ => rfl]

theorem rakeReset_frame : let t := m.rakeReset l
    t.sh = m.sh ∧ t.stg = m.stg ∧ t.host = m.host ∧ t.sf = m.sf := by
  have hm : let a := (rakeCoaches r).foldl Chip.dropCoach m
      a.sh = m.sh ∧ a.stg = m.stg ∧ a.host = m.host ∧ a.sf = m.sf := by
    rw [(dropCoaches_dropped _ m).rest]; exact ⟨rfl, rfl, rfl, rfl⟩
  obtain ⟨hsh, hstg, hhost, hsf⟩ := hm
  exact ⟨(rakeReset_drops hr hfree (·.sh) (fun _ _ => rfl) (fun _ _ => rfl) fun _ _ => rfl).trans hsh,
    (rakeReset_drops hr hfree (·.stg) (fun _ _ => rfl) (fun _ _ => rfl) fun _ _ => rfl).trans hstg,
    (rakeReset_drops hr hfree (·.host) (fun _ _ => rfl) (fun _ _ => rfl) fun _ _ => rfl).trans hhost,
    (rakeReset_drops hr hfree (·.sf) (fun _ _ => rfl) (fun _ _ => rfl) fun _ _ => rfl).trans hsf⟩

end

/-! ### SNAP (R29 to R31) -/

/-- The sum of the bits of `f` below `n`. -/
theorem bits_lt (f : Nat → Bool) (n : Nat) : (List.range n).foldl (fun w d => w + b2n (f d) * 2 ^ d) 0 < 2 ^ n := by
  induction n with
  | zero => exact Nat.one_pos
  | succ n ih =>
    rw [List.range_succ, List.foldl_append, pow_succ]
    have : b2n (f n) * 2 ^ n ≤ 2 ^ n := by cases f n <;> simp [b2n]
    simp only [List.foldl_cons, List.foldl_nil]; omega

theorem bits_testBit (f : Nat → Bool) (n : Nat) {i : Nat} (hi : i < n) :
    ((List.range n).foldl (fun w d => w + b2n (f d) * 2 ^ d) 0).testBit i = f i := by
  induction n with
  | zero => omega
  | succ n ih =>
    have hlt := bits_lt f n
    rw [List.range_succ, List.foldl_append]
    simp only [List.foldl_cons, List.foldl_nil]
    rw [Nat.add_comm, Nat.mul_comm, Nat.testBit_two_pow_mul_add _ hlt]
    by_cases h : i < n
    · rw [if_pos h, ih h]
    · obtain rfl : i = n := by omega
      rw [if_neg h]; cases f i <;> simp [b2n]

/-- The run bits of a snapshot. -/
theorem runBits_getLsbD (m : Chip) (d : Fin 34) : (BitVec.ofNat 34 ((List.finRange 34).foldl (fun (w : Nat) d =>
    w + b2n m.dom[d].run * 2 ^ d.val) 0)).getLsbD d = m.dom[d].run := by
  have hsum : (List.finRange 34).foldl (fun (w : Nat) d => w + b2n m.dom[d].run * 2 ^ d.val) 0 =
      (List.range 34).foldl (fun w d => w + b2n (m.domRuns d) * 2 ^ d) 0 := by
    rw [← List.map_coe_finRange_eq_range, List.foldl_map]
    congr 1
    funext w d
    simp [Chip.domRuns]
  rw [hsum, BitVec.getLsbD_ofNat, bits_testBit _ _ d.isLt]
  simp [Chip.domRuns]

/-- The skew of a capture keeps it within a cycle of the common instant (R30). -/
theorem snapStart_eq {m : Chip} {l : Launch} (h : l.arg = 0) : ∃ sn : Snap, m.snapStart l = m.next.modBoard (fun x => { x with snap := some sn }) ∧
    (∀ d : Fin 34, (m.dom[d].run = false → sn.cnt[d] = m.dom[d].count) ∧
      (m.dom[d].run = true → ∃ k : Fin 3, sn.cnt[d] = m.dom[d].count + BitVec.ofNat 64 (latCyc d + k) - 1) ∧
      sn.run.getLsbD d = m.dom[d].run ∧ sn.period[d] = m.dom[d].period) ∧
    ∀ r : Fin 4, sn.epoch[r] = m.reg (K.timeEpoch r) := by
  refine ⟨_, noArg_zero _ h, fun d => ⟨fun hd => ?_, fun hd => ⟨Config.snapSkew d m.tick, ?_⟩, runBits_getLsbD m d, ?_⟩, fun r => ?_⟩
  · have hd' : m.dom[d.val].run = false := hd
    simp [hd']
  · have hd' : m.dom[d.val].run = true := hd
    simp [hd']
  · simp
  · simp

theorem ostlerReset_eq (m : Chip) : m.ostlerReset = m.ostlerFalls := rfl

/-- Settles O40: each row launches its command, and the lemmas above say what the launch leaves. -/
theorem moduleCommandsTakeEffect : Obligations.ModuleCommandsTakeEffect := by
  intro s l m
  refine ⟨fun h => ?_, fun h => ?_, fun h => ?_, fun h => ⟨?_, ?_, ?_⟩, fun r hr hfree => ?_⟩
  · have hb := beginCmd_step m timePage 1 l
    have hd : (m.beginCmd timePage 1 l).dom = m.dom := hb.keeps (·.dom) fun _ => rfl
    obtain ⟨sn, heq, hdom, hepoch⟩ := snapStart_eq (m := m.beginCmd timePage 1 l) h
    rw [hd] at hdom
    refine ⟨sn, launches_issue (run := fun l m => m.snapStart l) rfl heq, hdom, fun r => ?_⟩
    rw [hepoch, hb.reg]
    simp only [beginKey, K.pageCmd, K.pageCmdStat, K.pageGen, K.timeEpoch, PageId.base, pageBase]; omega
  · exact launches_issue (run := fun l m => m.noArg rstPage l fun m => m.moduleEnter .cmd) rfl (noArg_zero _ h)
  · exact launches_issue (run := fun l m => m.noArg rstPage l fun m => m.ostlerReset.endCmd rstPage cmdOk) rfl
      ((noArg_zero _ h).trans (by rw [ostlerReset_eq]))
  · exact launches_issue (run := fun l m => m.snapStart l) rfl (noArg_bad _ h)
  · exact launches_issue (run := fun l m => m.noArg rstPage l fun m => m.moduleEnter .cmd) rfl (noArg_bad _ h)
  · exact launches_issue (run := fun l m => m.noArg rstPage l fun m => m.ostlerReset.endCmd rstPage cmdOk) rfl (noArg_bad _ h)
  · have hfree' : ¬ (m.beginCmd rstPage 2 l).rakeHolds r := fun h => hfree (rakeHolds_beginCmd.mp h)
    have hb := beginCmd_step m rstPage 2 l
    have hsrc : ∀ i, (m.beginCmd rstPage 2 l).sourceHolds i = m.sourceHolds i := sourceHolds_congr (hb.reg _ (by
      simp only [beginKey, K.pageCmd, K.pageCmdStat, K.pageGen, K.pwrPwrStat, PageId.base, pageBase]; omega))
    have hd : (m.beginCmd rstPage 2 l).dom = m.dom := hb.keeps (·.dom) fun _ => rfl
    have hcoach : ∀ c, (m.beginCmd rstPage 2 l).coach c = m.coach c := fun c => hb.keeps (·.coach c) fun _ => rfl
    have hcm : ∀ c a, (m.beginCmd rstPage 2 l).cmWord c a = m.cmWord c a := fun c a => hb.keeps (·.cmWord c a) fun _ => rfl
    obtain ⟨hepoch, hflag, hid, hbusy⟩ := rakeReset_shows hr hfree'
    obtain ⟨hsh, hstg, hhost, hsf⟩ := rakeReset_frame hr hfree'
    refine ⟨fun b => b.rakeReset l, fun hk hj => ?_, fun c => ?_, fun d => ?_, hepoch, hflag, hid,
      hbusy.trans (beginCmd_busy m rstPage 2 l), hsh.trans (hb.keeps (·.sh) fun _ => rfl), hstg.trans (hb.keeps (·.stg) fun _ => rfl),
      hhost.trans (hb.keeps (·.host) fun _ => rfl), hsf.trans (hb.keeps (·.sf) fun _ => rfl)⟩
    · show execRakeReset l s = _
      rw [execRakeReset, onLog_eq, issue_accepted _ hk hj]
    · have h := rakeReset_coach hr hfree' c
      simp only [hsrc, hcoach, hcm] at h
      exact h
    · have h := rakeReset_dom hr hfree' d
      rwa [hd] at h

end Sys2Proof.Machine

/-! PROOFS. An idle step (R26; log entry 2). -/
namespace Sys2Proof.Machine

/-- What looks at neither the outputs nor the platform events finds them unsent. -/
theorem sendEvents_keeps {β : Type} (m : Chip) (g : Chip → β) (hg : ∀ a o v, g { a with out := o, mg := v } = g a) :
    g m.sendEvents = g m := (hg m.sendEvents m.out m.mg).symm.trans (congrArg g (sendEvents_frame m))

theorem stageTime_regStep (m : Chip) (was : W64) : RegStep (· = K.stageTimer) m (m.stageTime was) := by
  unfold Chip.stageTime Chip.when
  split
  · exact .setFld m _ _ rfl
  · exact .refl m

/-- What time does to the stage, the platform events and the clocks, after waits and running commands. -/
theorem idle_keeps {β : Type} (m : Chip) (g : Chip → β) (h1 : ∀ a o v, g { a with out := o, mg := v } = g a)
    (h2 : ∀ a n, g { a with tick := n } = g a) (h3 : ∀ a r, g { a with regs := r } = g a) :
    g m.idle = g { m.waited.working with dom := m.clocksTick.dom } :=
  (h2 _ _).trans ((sendEvents_keeps _ g h1).trans ((stageTime_regStep _ _).keeps g (h3 _)))

theorem idle_dom (m : Chip) : m.idle.dom = m.clocksTick.dom := idle_keeps m (·.dom) (fun _ _ _ => rfl) (fun _ _ => rfl) fun _ _ => rfl

theorem idle_reg (m : Chip) {a : Nat} (ha : a ≠ K.stageTimer) : m.idle.reg a = m.waited.working.reg a := by
  have hdom : ∀ (b : Chip) d, ({ b with dom := d } : Chip).reg a = b.reg a := fun _ _ => rfl
  have hnext : ∀ b : Chip, b.next.reg a = b.reg a := fun _ => rfl
  rw [idle_eq m _ rfl, hnext, sendEvents_keeps _ (·.reg a) fun _ _ _ => rfl, (stageTime_regStep _ _).reg a ha, hdom]

/-- Settles O2: the clocks by `idle_dom`; the frame from what waits leave alone, since no running command goes on. -/
theorem idleStepTicksTheClocks : Obligations.IdleStepTicksTheClocks := by
  intro s hp
  obtain ⟨harb, hsig, hdom, hregs, hmem, hcm, hcoach, hboard, hsh, herrq, hchocks⟩ := drainLog_frame s.nvm s.chip.idle
  have hstep : step s = .next { s with nvm := (drainLog s.nvm s.chip.idle).1, chip := (drainLog s.nvm s.chip.idle).2 } := by
    unfold step; rw [hp]
  generalize drainLog s.nvm s.chip.idle = d at harb hsig hdom hregs hmem hcm hcoach hboard hsh herrq hchocks hstep
  refine ⟨_, hstep, hp, fun d => ?_, harb, hsig, fun hq => ?_⟩
  · dsimp only
    rw [hdom, idle_dom]
    simp [Chip.clocksTick]
  · have hw := waited_idleEq s.chip
    have keep : ∀ {β : Type} (g : Chip → β), (∀ a o v, g { a with out := o, mg := v } = g a) → (∀ a n, g { a with tick := n } = g a) →
        (∀ a r, g { a with regs := r } = g a) → (∀ a d, g { a with dom := d } = g a) → g s.chip.idle = g s.chip.waited :=
      fun g h1 h2 h3 h4 => by rw [idle_keeps _ g h1 h2 h3, h4, waited_quiet _ hq]
    refine ⟨hmem.trans ?_, hcm.trans ?_, hcoach.trans ?_, hboard.trans ?_, hsh.trans ?_, herrq.trans ?_, hchocks.trans ?_, fun a h1 h2 h3 => ?_⟩
    · exact (keep (·.mem) (fun _ _ _ => rfl) (fun _ _ => rfl) (fun _ _ => rfl) fun _ _ => rfl).trans hw.mem
    · exact (keep (·.cm) (fun _ _ _ => rfl) (fun _ _ => rfl) (fun _ _ => rfl) fun _ _ => rfl).trans hw.cm
    · exact (keep (·.coaches) (fun _ _ _ => rfl) (fun _ _ => rfl) (fun _ _ => rfl) fun _ _ => rfl).trans hw.coaches
    · exact (keep (·.board) (fun _ _ _ => rfl) (fun _ _ => rfl) (fun _ _ => rfl) fun _ _ => rfl).trans hw.board
    · exact (keep (·.sh) (fun _ _ _ => rfl) (fun _ _ => rfl) (fun _ _ => rfl) fun _ _ => rfl).trans hw.sh
    · exact (keep (·.errq) (fun _ _ _ => rfl) (fun _ _ => rfl) (fun _ _ => rfl) fun _ _ => rfl).trans hw.errq
    · exact (keep (·.chocks) (fun _ _ _ => rfl) (fun _ _ => rfl) (fun _ _ => rfl) fun _ _ => rfl).trans hw.chocks
    · have hk : ¬ idleKey a := by
        rintro (⟨c, hc⟩ | ⟨p, hc⟩)
        · have := h2 c; tauto
        · have := h3 p; tauto
      rw [reg_congr hregs, idle_reg _ h1, waited_quiet _ hq, hw.reg a hk]

end Sys2Proof.Machine

/-! PROOFS. Sends, interrupt sources, compares and the brake limit (R98 to R101, R128 to R130). -/
namespace Sys2Proof.Machine

/-- A source with its stamp, unless it is pending. -/
theorem setPend_fin (m : Chip) (x : Ctx) (i : Fin 6) : m.setPend x i = m.modCtx x fun k => if k.intPend.getLsbD i then k else
    { k with intPend := k.intPend ||| BitVec.ofNat 16 (2 ^ i.val), intStamp := k.intStamp.set i (m.stamp (coachDomain x.coach.val)) } := by
  unfold Chip.setPend
  simp only [i.isLt, dif_pos]

theorem deliverEvent_some {m : Chip} {n : Nat} {e : Send} (h : m.sends[n]? = some e) : m.deliverEvent n =
    if m.sendReaches e then Chip.setEvents { m with sends := m.sends.eraseIdx n } e.target (BitVec.ofNat 16 (2 ^ e.event))
    else Chip.countFld { m with sends := m.sends.eraseIdx n } (K.coachEvDrop e.drop.val) F.coachEvDropCount 1 := by
  unfold Chip.deliverEvent; rw [h]

theorem sendReaches_iff {m : Chip} {e : Send} :
    m.sendReaches e = true ↔ e.sup = true ∨ ((m.ctx e.target).task ≠ 0 ∧ (m.ctx e.target).asid = e.asid) := by
  simp [Chip.sendReaches]

theorem counter_setDom (m : Chip) {d : Nat} (hd : d < 34) (f : Domain → Domain) : (m.setDom d f).counter d = (f m.dom[d]).count := by
  simp [Chip.counter, Chip.setDom, hd]

/-- CMP_MATCH of an armed compare in a domain that runs (R130). -/
theorem cmpMatch_armed {m : Chip} {x : Ctx} (ha : (m.ctx x).cmpArmed = true) (hr : m.domRuns (coachDomain x.coach.val) = true) :
    ((m.cmpMatch x).ctx x).cmpArmed = false ∧ ((m.cmpMatch x).ctx x).intPend = (m.ctx x).intPend ||| 0x20 ∧
    (m.ctx x).cmp.toNat ≤ ((m.cmpMatch x).cycle x.coach).toNat ∧ (m.cmpMatch x).regs = m.regs ∧ (m.cmpMatch x).mem = m.mem := by
  have hd : coachDomain x.coach.val < 34 := by unfold coachDomain; omega
  have heq : m.cmpMatch x = ((m.setDom (coachDomain x.coach.val) fun d =>
      { d with count := if d.count.toNat < (m.ctx x).cmp.toNat then (m.ctx x).cmp else d.count }).modCtx x
        fun k => { k with cmpArmed := false }).setPend x srcCmp := by
    unfold Chip.cmpMatch; simp [ha, hr]
  have hctx : ∀ f, (m.setDom (coachDomain x.coach.val) f).ctx x = m.ctx x := fun f => by rw [setDom_other]; rfl
  have hk : (((m.cmpMatch x).ctx x).cmpArmed = false) ∧ ((m.cmpMatch x).ctx x).intPend = (m.ctx x).intPend ||| 0x20 := by
    rw [heq, Chip.setPend, ctx_modCtx, ctx_modCtx, hctx]
    dsimp only
    split
    · refine ⟨rfl, ?_⟩
      rename_i h5
      refine BitVec.eq_of_getLsbD_eq fun i hi => ?_
      rw [BitVec.getLsbD_or, show (0x20 : BitVec 16) = BitVec.ofNat 16 (2 ^ 5) from rfl, BitVec.getLsbD_ofNat, Nat.testBit_two_pow]
      by_cases h : 5 = i
      · subst h; exact h5.trans (by simp)
      · simp [h]
    · exact ⟨rfl, rfl⟩
  refine ⟨hk.1, hk.2, ?_, ?_, ?_⟩
  · have hcyc : (m.cmpMatch x).cycle x.coach = (m.setDom (coachDomain x.coach.val) fun d =>
      { d with count := if d.count.toNat < (m.ctx x).cmp.toNat then (m.ctx x).cmp else d.count }).counter (coachDomain x.coach.val) := by
      rw [heq]; rfl
    rw [hcyc, counter_setDom _ hd]
    dsimp only
    split <;> omega
  · rw [heq, setDom_other]; rfl
  · rw [heq, setDom_other]; rfl

/-- Settles O38: each row is one update of the chip; that of a compare is `cmpMatch_armed`. -/
theorem sourcesAndEventsArrive : Obligations.SourcesAndEventsArrive := by
  intro s m
  refine ⟨fun n e he => ⟨fun h => ?_, fun hs h => ?_⟩, fun n x i h => ?_, fun x h => ?_, fun x ha hr => ?_, fun x hb hh hl => ?_⟩
  · show execEventDeliver n s = _
    rw [execEventDeliver, onChip_eq, deliverEvent_some he, if_pos (sendReaches_iff.mpr h)]; rfl
  · show execEventDeliver n s = _
    have hno : ¬ s.chip.sendReaches e = true := by
      rw [sendReaches_iff, hs]
      rcases h with h | h <;> simp [m] at h <;> simp [h]
    rw [execEventDeliver, onChip_eq, deliverEvent_some he, if_neg hno]
  · show execIntPendSet (.posted n) s = _
    have hp : s.chip.pendSet (.posted n) = Chip.setPend { s.chip with posts := s.chip.posts.eraseIdx n } x i.val := by
      simp only [Chip.pendSet, show s.chip.posts[n]? = some (x, i.val) from h]
    rw [execIntPendSet, onChip_eq, hp, setPend_fin]; rfl
  · show execIntPendSet (.shunt x) s = _
    have hp : s.chip.pendSet (.shunt x) = s.chip.setPend x (3 : Fin 6) := if_pos h
    rw [execIntPendSet, onChip_eq, hp, setPend_fin]; rfl
  · exact ⟨m.cmpMatch x, rfl, cmpMatch_armed ha hr⟩
  · show execBrakeLimitExpire x s = _
    have hdue : ((s.chip.ctx x).status.brake && !(s.chip.ctx x).hangSent && (s.chip.ctx x).limitNow != 0) = true := by
      simp_all [m]
    rw [execBrakeLimitExpire, onChip_eq, Chip.brakeExpire]
    dsimp only
    rw [if_pos hdue]
    simp only [Nat.mul_comm (2 ^ _), Nat.mul_comm 64]
    rfl

end Sys2Proof.Machine

/-! PROOFS. The host links and the reference clocks (R13, R21, R39, R41, R405, R413). -/
namespace Sys2Proof.Machine

/-- What each step of a fold over `l` establishes for its element and keeps for the others. -/
theorem foldl_establishes {α β : Type} {P : α → β → Prop} {f : β → α → β} {l : List α} (hself : ∀ x ∈ l, ∀ b, P x (f b x))
    (hkeep : ∀ x ∈ l, ∀ y b, P y b → P y (f b x)) (b : β) : ∀ x ∈ l, P x (l.foldl f b) := by
  have keep : ∀ t : List α, (∀ x ∈ t, x ∈ l) → ∀ y b, P y b → P y (t.foldl f b) := fun t ht y b h => by
    induction t generalizing b with
    | nil => exact h
    | cons x t ih => exact ih (fun z hz => ht z (List.mem_cons_of_mem _ hz)) _ (hkeep x (ht x List.mem_cons_self) y b h)
  intro x hx
  obtain ⟨t, u, rfl⟩ := List.append_of_mem hx
  rw [List.foldl_append, List.foldl_cons]
  exact keep u (fun z hz => by simp [hz]) x _ (hself x hx _)

/-! ### What a LINK reset does to the host interface and to the registers -/

/-- A LINK reset before it writes registers (R413). -/
def Chip.linkFalls (m0 : Chip) (l : Fin 2) : Chip :=
  let m := m0.dropReceived l
  let fs := m.linkFuncs l.val
  { m with host := { m.host with
    cfg := m.host.cfg.mapIdx fun i c => if fs.any (·.val == i) then FuncCfg.reset else c
    mcBase := m.host.mcBase.set l.val 0, mcSize := m.host.mcSize.set l.val 0, mcRecv := m.host.mcRecv.set l.val 0
    msix := smapErase (fun k => fs.any fun f => k / 2048 == f.val) m.host.msix
    msixPend := m.host.msixPend.filter fun e => !(fs.any (·.val == e.1))
    held := m.host.held.filter fun w => !(w.kind == .inval && w.link == l.val)
    reads := m.host.reads.map fun r => if r.link = l.val then { r with sent := false, tags := [] } else r } }

/-- The functions of the link lose Bus Master Enable, its virtual functions go away. -/
def Chip.funcsDown (m : Chip) (l : Fin 2) : Chip :=
  ((m.linkFuncs l.val).foldl (fun (m : Chip) f => m.setFld (K.funcFstat f.val) F.funcFstatBme 0) m).setNumVfs l.val 0

/-- How many invalidation completions are lost. -/
def Chip.lostCpls (m : Chip) (l : Fin 2) : Nat := (m.host.held.filter fun w => w.kind == .inval && w.link == l.val).length

/-- The registers that a LINK reset of link `l` writes before it logs itself. -/
def Chip.linkRegs (m : Chip) (l : Fin 2) : Chip :=
  ((((m.linkFalls l).count K.invalLostCpl (m.lostCpls l)).funcsDown l).setReg (K.hostifLinkStat l.val) 0).setFld K.rstResetCause F.rstResetCauseLink 1

theorem linkReset_eq (m : Chip) (l : Fin 2) : m.linkReset l = ((m.linkRegs l).logEvent (.reset (F.rstResetCauseLink.put 0 1))).syncHeld := rfl

/-- A register in the page of one of the functions `fs`. -/
def funcsKey (fs : List (Fin 16)) (k : Nat) : Prop := ∃ f ∈ fs, pageBase .func f ≤ k ∧ k < pageBase .func f + 0x1000

theorem funcFstat_funcsKey {fs : List (Fin 16)} {f : Fin 16} (h : f ∈ fs) : funcsKey fs (K.funcFstat f.val) :=
  ⟨f, h, by simp only [K.funcFstat]; omega, by simp only [K.funcFstat]; omega⟩

theorem runKey_funcsKey {fs : List (Fin 16)} {f : Fin 16} (h : f ∈ fs) (k : Nat) (hk : runKey ⟨.func, f.val⟩ k) : funcsKey fs k :=
  ⟨f, h, by simp only [runKey, K.pageStat, K.pageGen, PageId.base] at hk; omega⟩

theorem funcFstat_not_runKey (f g : Fin 16) : ¬ runKey ⟨.func, g.val⟩ (K.funcFstat f.val) := by
  simp only [runKey, K.pageStat, K.pageGen, PageId.base, pageBase, K.funcFstat]; omega

theorem mem_of_mem_linkVfs {m : Chip} {l : Nat} {f : Fin 16} (h : f ∈ m.linkVfs l) : f ∈ m.linkFuncs l := (List.mem_filter.mp h).1

theorem setNumVfs_step (m : Chip) (l n : Nat) : RegStep (funcsKey (m.linkFuncs l)) m (m.setNumVfs l n) :=
  .foldl _ _ (fun a e he => by
    have hf := mem_of_mem_linkVfs (List.fst_mem_of_mem_zipIdx he)
    exact (RegStep.setFld a _ _ (funcFstat_funcsKey hf)).trans ((syncRun_regStep _ _).mono (runKey_funcsKey hf))) m

/-- Bus Master Enable does not follow NumVFs. -/
theorem setNumVfs_bme (m : Chip) (l n : Nat) (f : Fin 16) :
    (m.setNumVfs l n).fld (K.funcFstat f.val) F.funcFstatBme = m.fld (K.funcFstat f.val) F.funcFstatBme := by
  unfold Chip.setNumVfs
  generalize (m.linkVfs l).zipIdx = es
  induction es generalizing m with
  | nil => rfl
  | cons e t ih =>
    rw [List.foldl_cons, ih, (syncRun_regStep _ _).fld (funcFstat_not_runKey f e.1)]
    by_cases h : K.funcFstat f.val = K.funcFstat e.1.val
    · rw [h, fld_setFld_apart _ _ _ _ _ (by decide) (.inl (by decide))]
    · exact fld_setFld_ne m _ _ _ h

theorem setNumVfs_absent (m : Chip) (l : Nat) {f : Fin 16} (hf : f ∈ m.linkVfs l) :
    (m.setNumVfs l 0).fld (K.funcFstat f.val) F.funcFstatPresent = 0 := by
  obtain ⟨i, hi, rfl⟩ := List.getElem_of_mem hf
  refine foldl_establishes (P := fun (e : Fin 16 × Nat) (m : Chip) => m.fld (K.funcFstat e.1.val) F.funcFstatPresent = 0)
    (fun e _ b => ?_) (fun e _ y b h => ?_) m (_, i) (List.mem_zipIdx_iff_getElem?.mpr (List.getElem?_eq_getElem hi))
  · rw [(syncRun_regStep _ _).fld (funcFstat_not_runKey _ _), fld_setFld _ _ _ _ (by decide)]; rfl
  · rw [(syncRun_regStep _ _).fld (funcFstat_not_runKey _ _)]
    by_cases hk : K.funcFstat y.1.val = K.funcFstat e.1.val
    · rw [hk, fld_setFld _ _ _ _ (by decide)]; rfl
    · rw [fld_setFld_ne b _ _ _ hk, h]

theorem linkFuncs_congr {m a : Chip} (h : a.board = m.board) (l : Nat) : a.linkFuncs l = m.linkFuncs l :=
  congrArg (fun b : Board => ({ m with board := b } : Chip).linkFuncs l) h

theorem linkVfs_congr {m a : Chip} (h : a.board = m.board) (l : Nat) : a.linkVfs l = m.linkVfs l :=
  congrArg (fun b : Board => ({ m with board := b } : Chip).linkVfs l) h

theorem busMasters_step (m : Chip) (fs : List (Fin 16)) :
    RegStep (funcsKey fs) m (fs.foldl (fun (m : Chip) f => m.setFld (K.funcFstat f.val) F.funcFstatBme 0) m) :=
  .foldl _ _ (fun a _ hf => .setFld a _ _ (funcFstat_funcsKey hf)) m

theorem funcsDown_step (m : Chip) (l : Fin 2) : RegStep (funcsKey (m.linkFuncs l.val)) m (m.funcsDown l) := by
  have h := busMasters_step m (m.linkFuncs l.val)
  have hn := setNumVfs_step ((m.linkFuncs l.val).foldl (fun (m : Chip) f => m.setFld (K.funcFstat f.val) F.funcFstatBme 0) m) l.val 0
  rw [linkFuncs_congr (h.keeps (·.board) fun _ => rfl)] at hn
  exact h.trans hn

theorem funcsDown_bme (m : Chip) (l : Fin 2) {f : Fin 16} (hf : f ∈ m.linkFuncs l.val) :
    (m.funcsDown l).fld (K.funcFstat f.val) F.funcFstatBme = 0 := by
  rw [Chip.funcsDown, setNumVfs_bme, fld_foldl_setFld (fun f : Fin 16 => K.funcFstat f.val) _ _ (by decide),
    if_pos (List.mem_map_of_mem hf)]; simp

theorem funcsDown_absent (m : Chip) (l : Fin 2) {f : Fin 16} (hf : f ∈ m.linkVfs l.val) :
    (m.funcsDown l).fld (K.funcFstat f.val) F.funcFstatPresent = 0 := by
  refine setNumVfs_absent _ _ ?_
  rwa [linkVfs_congr ((busMasters_step m _).keeps (·.board) fun _ => rfl)]

/-- The registers that a LINK reset writes before it logs itself. -/
def linkKey (m : Chip) (l : Fin 2) (k : Nat) : Prop :=
  funcsKey (m.linkFuncs l.val) k ∨ k = K.hostifLinkStat l.val ∨ k = K.rstResetCause ∨ k = K.invalLostCpl

theorem resetCause_not_funcsKey (fs : List (Fin 16)) : ¬ funcsKey fs K.rstResetCause := by
  rintro ⟨f, -, h⟩; simp only [pageBase, K.rstResetCause] at h; omega

theorem linkRegs_step (m : Chip) (l : Fin 2) : RegStep (linkKey m l) (m.linkFalls l) (m.linkRegs l) := by
  have h1 : RegStep (linkKey m l) (m.linkFalls l) ((m.linkFalls l).count K.invalLostCpl (m.lostCpls l)) := .count _ _ (.inr (.inr (.inr rfl)))
  exact ((h1.trans ((funcsDown_step _ l).mono fun _ => .inl)).trans (.setReg _ _ (.inr (.inl rfl)))).trans (.setFld _ _ _ (.inr (.inr (.inl rfl))))

theorem funcFstat_not_linkKey_rest (f : Fin 16) (l : Fin 2) : K.funcFstat f.val ≠ K.hostifLinkStat l.val ∧ K.funcFstat f.val ≠ K.rstResetCause ∧
    K.funcFstat f.val ≠ K.hostifHeld := by
  simp only [K.funcFstat, K.hostifLinkStat, K.rstResetCause, K.hostifHeld, pageBase]; omega

theorem linkRegs_fstat (m : Chip) (l : Fin 2) (f : Fin 16) (g : Fld) : (m.linkRegs l).fld (K.funcFstat f.val) g =
    (((m.linkFalls l).count K.invalLostCpl (m.lostCpls l)).funcsDown l).fld (K.funcFstat f.val) g := by
  obtain ⟨h1, h2, -⟩ := funcFstat_not_linkKey_rest f l
  rw [Chip.linkRegs, fld_setFld_ne _ _ _ _ h2]
  exact congrArg g.get (reg_setReg_ne _ _ h1)

theorem linkRegs_resetCause (m : Chip) (l : Fin 2) : (m.linkRegs l).reg K.rstResetCause = F.rstResetCauseLink.put (m.reg K.rstResetCause) 1 := by
  have hne : K.rstResetCause ≠ K.hostifLinkStat l.val := by simp only [K.hostifLinkStat, K.rstResetCause, pageBase]; omega
  have h : (((((m.linkFalls l).count K.invalLostCpl (m.lostCpls l)).funcsDown l).setReg (K.hostifLinkStat l.val) 0)).reg K.rstResetCause =
      m.reg K.rstResetCause := by
    rw [reg_setReg_ne _ _ hne, (funcsDown_step _ l).reg _ (resetCause_not_funcsKey _), Chip.count, reg_setReg_ne _ _ (by decide)]
    rfl
  rw [Chip.linkRegs, Chip.setFld, reg_setReg_same, h]

theorem linkRegs_linkStat (m : Chip) (l : Fin 2) : (m.linkRegs l).reg (K.hostifLinkStat l.val) = 0 := by
  have hne : K.hostifLinkStat l.val ≠ K.rstResetCause := by simp only [K.hostifLinkStat, K.rstResetCause, pageBase]; omega
  rw [Chip.linkRegs, Chip.setFld, reg_setReg_ne _ _ hne, reg_setReg_same]

theorem linkReset_reg (m : Chip) (l : Fin 2) {k : Nat} (h : k ≠ K.hostifHeld) : (m.linkReset l).reg k = (m.linkRegs l).reg k := by
  rw [linkReset_eq, Chip.syncHeld, Chip.setFld, reg_setReg_ne _ _ h]
  exact logEvent_keeps _ _ (·.reg k) fun _ _ => rfl

/-- What looks at neither registers nor the event log finds the link down. -/
theorem linkReset_keeps {β : Type} (m : Chip) (l : Fin 2) (g : Chip → β) (h1 : ∀ a v, g { a with mg := v } = g a)
    (h2 : ∀ a v, g { a with regs := v } = g a) : g (m.linkReset l) = g (m.linkFalls l) := by
  rw [linkReset_eq, Chip.syncHeld, show ∀ a : Chip, ∀ v, g (a.setFld K.hostifHeld F.hostifHeldCount v) = g a from fun a v => h2 a _,
    logEvent_keeps _ _ g h1]
  exact (linkRegs_step m l).keeps g fun v => h2 _ v

/-- The ranges of `linkKey` in the form in which a statement names them. -/
theorem not_linkKey {m : Chip} {l : Fin 2} {a : Nat} (hf : ∀ f ∈ m.linkFuncs l.val, a < pageBase .func f ∨ pageBase .func f + 0x1000 ≤ a)
    (h1 : a ≠ K.hostifLinkStat l.val) (h2 : a ≠ K.rstResetCause) (h3 : a ≠ K.invalLostCpl) : ¬ linkKey m l a := by
  rintro (⟨f, hm, hl, hr⟩ | h | h | h)
  · have := hf f hm; omega
  all_goals contradiction

/-- What a LINK reset leaves of every part that its statement names. -/
theorem linkReset_shows (m : Chip) (l : Fin 2) : let r := m.linkReset l
    r.reg (K.hostifLinkStat l) = 0 ∧ r.reg K.rstResetCause = F.rstResetCauseLink.put (m.reg K.rstResetCause) 1 ∧
    (∀ f ∈ m.linkFuncs l, r.fld (K.funcFstat f.val) F.funcFstatBme = 0) ∧
    (∀ f ∈ m.linkVfs l, r.fld (K.funcFstat f.val) F.funcFstatPresent = 0) ∧
    ∀ a, (∀ f ∈ m.linkFuncs l, a < pageBase .func f ∨ pageBase .func f + 0x1000 ≤ a) → a ≠ K.hostifLinkStat l → a ≠ K.rstResetCause →
        a ≠ K.invalLostCpl → a ≠ K.hostifHeld → r.reg a = m.reg a := by
  have hstat : ∀ (f : Fin 16) (g : Fld), (m.linkReset l).fld (K.funcFstat f.val) g =
      (((m.linkFalls l).count K.invalLostCpl (m.lostCpls l)).funcsDown l).fld (K.funcFstat f.val) g := fun f g =>
    (congrArg g.get (linkReset_reg m l (funcFstat_not_linkKey_rest f l).2.2)).trans (linkRegs_fstat m l f g)
  have hls : K.hostifLinkStat l.val ≠ K.hostifHeld := by simp only [K.hostifLinkStat, K.hostifHeld]; omega
  refine ⟨?_, ?_, fun f hf => ?_, fun f hf => ?_, fun a hf h1 h2 h3 h4 => ?_⟩
  · rw [linkReset_reg m l hls, linkRegs_linkStat]
  · rw [linkReset_reg m l (by decide), linkRegs_resetCause]
  · rw [hstat]; exact funcsDown_bme _ l hf
  · rw [hstat]; exact funcsDown_absent _ l hf
  · rw [linkReset_reg m l h4, (linkRegs_step m l).reg a (not_linkKey hf h1 h2 h3)]
    rfl

theorem linkFalls_host (m : Chip) (l : Fin 2) : let r := m.linkFalls l
    (∀ f : Fin 16, r.host.cfg[f] = if f ∈ m.linkFuncs l then FuncCfg.reset else m.host.cfg[f]) ∧
    (∀ f ∈ m.linkFuncs l, ∀ e ∈ r.host.msixPend, e.1 ≠ f.val) ∧
    (∀ k : Fin 2, r.host.mcBase[k] = (if k = l then 0 else m.host.mcBase[k]) ∧ r.host.mcSize[k] = (if k = l then 0 else m.host.mcSize[k]) ∧
      r.host.mcRecv[k] = if k = l then 0 else m.host.mcRecv[k]) := by
  have hfs : (m.dropReceived l).linkFuncs l.val = m.linkFuncs l.val := rfl
  have hset : ∀ {α : Type} (v : Vector α 2) (x : α) (k : Fin 2), (v.set l.val x)[k] = if k = l then x else v[k] := fun v x k => by
    simp [Vector.getElem_set, Fin.ext_iff, eq_comm]
  refine ⟨fun f => ?_, fun f hf e he h => ?_, fun k => ⟨hset _ _ k, hset _ _ k, hset _ _ k⟩⟩
  · simp only [Chip.linkFalls, hfs, Fin.getElem_fin, Vector.getElem_mapIdx, List.any_eq_true, beq_iff_eq, Fin.val_inj, exists_eq_right]
    rfl
  · have hno := (List.mem_filter.mp he).2
    rw [hfs] at hno
    simp only [Bool.not_eq_true', List.any_eq_false, beq_iff_eq] at hno
    exact hno f hf h.symm

theorem dropReceived_host (m : Chip) (l : Fin 2) : (∀ e ∈ (m.linkFalls l).host.behind, e.1 ≠ l) ∧ ∀ d ∈ (m.linkFalls l).xlat.stalled, d.link ≠ l :=
  ⟨fun _ he => by simpa using (List.mem_filter.mp he).2, fun _ hd => by simpa using (List.mem_filter.mp hd).2⟩

/-! ### Reference clocks -/

theorem refclkSet_lost {m : Chip} {i : Fin 4} (h : m.board.refclk.getLsbD i = true) : m.refclkSet i false =
    let w := m.board.refclk &&& ~~~ (BitVec.ofNat 4 (2 ^ i.val))
    let sel := if w.getLsbD 0 || w.getLsbD 1 then m.bifur && !w.getLsbD 0 && w.getLsbD 1 else m.board.refSel1
    ({ m with board := { m.board with refclk := w, refSel1 := sel } } : Chip).count K.clkRefclkLoss 1 := by
  unfold Chip.refclkSet
  dsimp only
  rw [if_neg (by rw [h]; decide)]
  rfl

theorem refclkSet_back {m : Chip} {i : Fin 4} (h : m.board.refclk.getLsbD i = false) : m.refclkSet i true =
    let w := m.board.refclk ||| BitVec.ofNat 4 (2 ^ i.val)
    let sel := if w.getLsbD 0 || w.getLsbD 1 then m.bifur && !w.getLsbD 0 && w.getLsbD 1 else m.board.refSel1
    let back : Chip := { m with board := { m.board with refclk := w, refSel1 := sel } }
    if sel = m.board.refSel1 then back else back.count K.clkRefclkLoss 1 := by
  unfold Chip.refclkSet
  dsimp only
  rw [if_neg (by rw [h]; decide), if_pos rfl]
  simp only [Bool.not_true, Bool.false_or, bne_iff_ne, ite_not]
  rfl

/-! ### The rows of the host links -/

theorem exec_hostLinkTrain {s : State} {l : Fin 2} (h1 : s.chip.hasLink l.val = true) (h2 : s.chip.domRuns 21 = true)
    (h3 : s.chip.perstHigh l = true) (h4 : s.chip.training l = false) : exec (.hostLinkTrain l) s =
      .next (s.on ({ s.chip with board := { s.chip.board with
        train0 := s.chip.board.train0 || decide (l = 0), train1 := s.chip.board.train1 || decide (l = 1) } })) := by
  show execHostLinkTrain l s = _
  rw [execHostLinkTrain, onChip_when (c := fun m => m.hasLink l.val && m.domRuns 21 && m.perstHigh l && !m.training l) (by rw [h1, h2, h3, h4]; rfl)]
  have hl : l = 0 ∨ l = 1 := by omega
  rcases hl with rfl | rfl <;> simp [Chip.modBoard]

theorem exec_hostLinkUp {s : State} {l : Fin 2} {gen width : Nat} {flit : Bool} (h1 : s.chip.hasLink l.val = true)
    (h2 : s.chip.training l = true) (h3 : s.chip.linkUp l.val = false) (h4 : 3 ≤ gen) (h5 : gen ≤ 6)
    (h6 : width ∈ (if s.chip.bifur then [1, 2, 4, 8] else [1, 2, 4, 8, 16])) (h7 : gen = 6 → flit = true) :
    exec (.hostLinkUp l gen width flit) s = .next (s.on (((s.chip.setReg (K.hostifLinkStat l)
      (BitVec.ofNat 64 (1 + gen * 2 + width * 16 + b2n flit * 512))).pumpLink l).sendEvents)) := by
  have h7' : (flit || decide (gen ≠ 6)) = true := by
    by_cases h : gen = 6
    · rw [h7 h]; rfl
    · rw [decide_eq_true h, Bool.or_true]
  show execHostLinkUp l gen width flit s = _
  exact onChip_when (s := s) (c := fun m => m.hasLink l.val && m.training l && !m.linkUp l.val && decide (3 ≤ gen ∧ gen ≤ 6) &&
    (if m.bifur then [1, 2, 4, 8] else [1, 2, 4, 8, 16] : List Nat).elem width && (flit || decide (gen ≠ 6)))
    (by rw [h1, h2, h3, h7', List.elem_eq_true_of_mem h6, decide_eq_true ⟨h4, h5⟩]; rfl)

/-- PERST1_CHANGE that moves the land (R13, R33). -/
theorem exec_perst1Change {s : State} {high : Bool} (h : s.chip.board.perst1N = !high) : exec (.perst1Change high) s = .next (s.on (
      let moved : Chip := { s.chip with board := { s.chip.board with perst1N := high } }
      if !s.chip.bifur || s.chip.board.por then moved
      else if high then { moved with board := { moved.board with link1Held := false } }
      else
        let held : Chip := { moved with board := { moved.board with link1Held := true, train1 := false } }
        if s.chip.board.inReset then held.setFld K.rstResetCause F.rstResetCauseLink 1 else held.linkReset 1)) := by
  show execPerst1Change high s = _
  rw [execPerst1Change, onChip_when (c := fun m => m.board.perst1N != high) (by rw [h]; cases high <;> rfl)]
  rfl

/-- Settles O11: the rows one by one; what a LINK reset leaves is `linkReset_shows`, and `linkReset_keeps` with `Chip.linkFalls` for the rest. -/
theorem hostLinksComeAndGo : Obligations.HostLinksComeAndGo := by
  intro s l m
  obtain ⟨hls, hrc, hbme, hvf, hreg⟩ := linkReset_shows m l
  obtain ⟨hcfg, hmsix, hmc⟩ := linkFalls_host m l
  obtain ⟨hbehind, hstall⟩ := dropReceived_host m l
  have keep : ∀ {β : Type} (g : Chip → β), (∀ a v, g { a with mg := v } = g a) → (∀ a v, g { a with regs := v } = g a) →
      g (m.linkReset l) = g (m.linkFalls l) := fun g h1 h2 => linkReset_keeps m l g h1 h2
  have hhost := keep (·.host) (fun _ _ => rfl) (fun _ _ => rfl)
  have hxlat := keep (·.xlat) (fun _ _ => rfl) (fun _ _ => rfl)
  refine ⟨exec_hostLinkTrain, fun _ _ _ => exec_hostLinkUp, fun h1 h2 => ?_, ?_, fun high h1 h2 => ?_, fun h1 h2 h3 => ?_, fun h1 h2 h3 => ?_,
    fun i hp hi => ⟨fun h0 => ?_, fun k hk => ?_⟩, fun i hp hi => ⟨fun h0 => ?_, fun k hk => ?_⟩⟩
  · show execLinkReset l s = _
    rw [execLinkReset, onChip_when (c := fun m => m.hasLink l.val && m.linkUp l.val) (by rw [h1, h2]; rfl)]
  · exact ⟨hls, hrc, fun f => by rw [hhost]; exact hcfg f, fun f hf => ⟨hbme f hf, by rw [hhost]; exact hmsix f hf⟩, hvf,
      fun k => by rw [hhost]; exact hmc k, by rw [hhost]; rfl, by rw [hhost]; rfl, by rw [hhost]; exact hbehind,
      by rw [hxlat]; exact hstall, by rw [hhost]; rfl,
      keep (·.board) (fun _ _ => rfl) fun _ _ => rfl, keep (·.dom) (fun _ _ => rfl) fun _ _ => rfl,
      keep (·.mem) (fun _ _ => rfl) fun _ _ => rfl, keep (·.cm) (fun _ _ => rfl) fun _ _ => rfl,
      keep (·.coaches) (fun _ _ => rfl) fun _ _ => rfl, keep (·.sh) (fun _ _ => rfl) fun _ _ => rfl,
      keep (·.stg) (fun _ _ => rfl) fun _ _ => rfl, keep (·.pwr) (fun _ _ => rfl) fun _ _ => rfl,
      keep (·.sf) (fun _ _ => rfl) fun _ _ => rfl, keep (·.errq) (fun _ _ => rfl) fun _ _ => rfl,
      keep (·.chocks) (fun _ _ => rfl) fun _ _ => rfl, keep (·.staged) (fun _ _ => rfl) fun _ _ => rfl, hreg⟩
  · have hno : (!m.bifur || m.board.por) = true := by
      rcases h2 with h | h
      · rw [h]; rfl
      · rw [h, Bool.or_true]
    exact (exec_perst1Change h1).trans (congrArg (fun c => Host.Outcome.next (s.on c)) (if_pos hno))
  · have hyes : ¬ (!m.bifur || m.board.por) = true := by rw [h2, h3]; decide
    exact (exec_perst1Change h1).trans (congrArg (fun c => Host.Outcome.next (s.on c)) (if_neg hyes))
  · have hyes : ¬ (!m.bifur || m.board.por) = true := by rw [h2, h3]; decide
    exact (exec_perst1Change h1).trans (congrArg (fun c => Host.Outcome.next (s.on c)) (if_neg hyes))
  · subst h0
    show execRefclkSwitch false s = _
    rw [execRefclkSwitch, onChip_when (c := fun m => !m.board.por) (by rw [hp]; rfl), ← refclkSet_lost hi]
    rfl
  · show execRefclkLoss k false s = _
    rw [execRefclkLoss, onChip_when (c := fun m => !m.board.por) (by rw [hp]; rfl), ← refclkSet_lost hi, ← hk]
  · subst h0
    show execRefclkSwitch true s = _
    rw [execRefclkSwitch, onChip_when (c := fun m => !m.board.por) (by rw [hp]; rfl), ← refclkSet_back hi]
    rfl
  · show execRefclkLoss k true s = _
    rw [execRefclkLoss, onChip_when (c := fun m => !m.board.por) (by rw [hp]; rfl), ← refclkSet_back hi, ← hk]

end Sys2Proof.Machine

/-! PROOFS. What the host link is served (R42, R406, R408, R410, R413). -/
namespace Sys2Proof.Machine

/-- The bytes of a BAR2 access: those of a write, or the `n` that a read names. -/
def bar2Len (n : Nat) : Option (List Byte) → Nat
  | some l => l.length
  | none => n

section
variable {m : Chip} {f : Fin 16} (hup : m.linkUp (m.linkOf f.val) = true)
include hup

/-- A configuration request that is no access to BAR4/5. -/
theorem configRequest_eq {w : CfgAccess} (hr : ∀ off n, w ≠ .tableRead off n) (hw : ∀ off l, w ≠ .tableWrite off l) :
    m.configRequest f w = if !m.cfgOpen then m.emit (.config f.val true []) else
      if !m.present f.val || (m.isVf f.val && !m.ready) then m.emit (.unsupported (funcId f.val) 0) else
      let r := (m.cfgWrite f w).emit (.config f.val false (m.cfgValue f w))
      if w = .other then r.next else r := by
  unfold Chip.configRequest
  rw [if_neg (by rw [hup]; decide)]
  split
  · exact absurd rfl (hr _ _)
  · exact absurd rfl (hw _ _)
  · rfl

theorem configRequest_tableRead {off n : Nat} (hp : m.present f.val = true) (hr : m.ready = true) (ht : tableShape off n = true) :
    m.configRequest f (.tableRead off n) =
      m.emit (.access (funcId f.val) off (some ((List.range n).map fun i => m.msixByte f.val (off + i)))) := by
  unfold Chip.configRequest
  rw [if_neg (by rw [hup]; decide)]
  exact if_pos (by rw [hp, hr, ht]; rfl)

theorem configRequest_tableWrite {off : Nat} {l : List Byte} (hp : m.present f.val = true) (hr : m.ready = true) :
    m.configRequest f (.tableWrite off l) = m.tableWrite f.val off l := by
  unfold Chip.configRequest
  rw [if_neg (by rw [hup]; decide)]
  exact when_pos (by rw [hp, hr]; rfl)

/-! ### BAR2 (R408) -/

variable {a n : Nat}

/-- What a function that is away, chocked, or met before the module is ready gets. -/
theorem bar2_shut {d : Option (List Byte)} (hn : 0 < bar2Len n d)
    (hc : m.present f.val = false ∨ m.ready = false ∨ m.chocked (funcId f.val) = true) :
    m.bar2 f a n d = if d.isNone then (m.aerNote f.val 20).emit (.unsupported (funcId f.val) a) else m := by
  have hc : (!m.present f.val || !m.ready || m.chocked (funcId f.val)) = true := by
    rcases hc with h | h | h <;> simp [h]
  have hlen : ¬ (!m.linkUp (m.linkOf f.val) || decide (bar2Len n d = 0)) = true := by simp [hup]; omega
  exact (if_neg hlen).trans (if_pos hc)

variable (hp : m.present f.val = true) (hr : m.ready = true) (hc : m.chocked (funcId f.val) = false)
include hp hr hc

theorem bar2_outside {d : Option (List Byte)} (hn : 0 < bar2Len n d)
    (hw : m.inWindow f.val a (bar2Len n d) = false) : m.bar2 f a n d =
      if d.isNone then ((m.count (K.funcMemDeny f.val) 1).aerNote f.val 20).emit (.unsupported (funcId f.val) a)
      else m.count (K.funcMemDeny f.val) 1 := by
  have hlen : ¬ (!m.linkUp (m.linkOf f.val) || decide (bar2Len n d = 0)) = true := by simp [hup]; omega
  have hopen : ¬ (!m.present f.val || !m.ready || m.chocked (funcId f.val)) = true := by simp [hp, hr, hc]
  exact (if_neg hlen).trans ((if_neg hopen).trans (if_pos (show (!m.inWindow f.val a (bar2Len n d)) = true by rw [hw]; rfl)))

theorem bar2_read (hn : 0 < n) (hw : m.inWindow f.val a n = true) (hh : m.devHeld 3 false false a n = false) : m.bar2 f a n none =
      let r := m.landRead (funcId f.val) 3 a n
      match r.2 with
      | some l => r.1.emit (.access (funcId f.val) a (some (m.overDeferred a l)))
      | none => (r.1.aerNote f.val 20).emit (.unsupported (funcId f.val) a) := by
  have hlen : ¬ (!m.linkUp (m.linkOf f.val) || decide (n = 0)) = true := by simp [hup]; omega
  have hopen : ¬ (!m.present f.val || !m.ready || m.chocked (funcId f.val)) = true := by simp [hp, hr, hc]
  have hin : ¬ (!m.inWindow f.val a n) = true := by rw [hw]; decide
  have hheld : ¬ m.devHeld 3 (none : Option (List Byte)).isSome false a n = true := by rw [Option.isSome_none, hh]; decide
  exact (if_neg hlen).trans ((if_neg hopen).trans ((if_neg hin).trans (if_neg hheld)))

theorem bar2_write {d : List Byte} (hn : 0 < d.length) (hw : m.inWindow f.val a d.length = true) (hh : m.devHeld 3 true false a d.length = false)
    (hs : m.stalledLink (funcId f.val) = none) (hl : m.logStalls d.length = false) : m.bar2 f a n (some d) =
      let e := dataRec .bar2Write (funcId f.val) 0 a d (some ⟨3, none, none⟩)
      if m.waitsTurn && !m.inMirror a then (m.logPut e).deferWrite ⟨e, .write⟩ else
      let u := m.landWrite (funcId f.val) 3 a d none
      if u.2 then u.1.logRec e else (u.1.aerNote f.val 20).emit (.unsupported (funcId f.val) a) := by
  unfold Chip.bar2
  dsimp only
  rw [if_neg (by simp [hup]; exact List.ne_nil_of_length_pos hn), if_neg (by simp [hp, hr, hc]), if_neg (by rw [hw]; decide),
    if_neg (show ¬ m.devHeld 3 (some d).isSome false a d.length = true by rw [Option.isSome_some, hh]; decide), if_neg (by rw [hs]; decide), if_neg (by rw [hl]; decide)]
  rfl

end

/-! ### What waits for a link (R413) -/

/-- A function that cannot send: its link is down, or it is no bus master. -/
theorem cannotSend {m : Chip} {l f : Nat} (h : m.linkUp l = false ∨ m.bme f = false) : (!(m.linkUp l && m.bme f)) = true := by
  rcases h with h | h <;> simp [h]

theorem holdExpire_write {m : Chip} {l : Fin 2} {w : HeldWrite} {t : List HeldWrite} (hh : m.host.held = w :: t) (hl : w.link = l.val)
    (h : m.linkUp l.val = false ∨ m.bme w.func = false) :
    m.holdExpire l none = Chip.pumpHeld { m with host := { m.host with held := t } } l.val := by
  have hf : (w :: t).find? (fun w => w.link == l.val && !(m.linkUp l.val && m.bme w.func)) = some w :=
    List.find?_cons_of_pos (by rw [hl, cannotSend h]; simp)
  unfold Chip.holdExpire
  dsimp only
  rw [hh, hf]
  simp only [List.erase_cons_head]

theorem holdExpire_read {m : Chip} {l : Fin 2} {id : Nat} {r : HostRead} (hr : m.readById id = some r) (hl : r.link = l.val)
    (hs : r.sent = false) (h : m.linkUp l.val = false ∨ m.bme r.func = false) (hg : m.logged r = false ∨ m.readsFromLog r.master = false) :
    m.holdExpire l (some id) = m.readDeliver r [] true := by
  have hg : (!(m.logged r && m.readsFromLog r.master)) = true := by rcases hg with h | h <;> simp [h]
  unfold Chip.holdExpire
  dsimp only
  rw [hr]
  exact if_pos (by rw [hl, hs, cannotSend h, hg]; simp)

theorem hostCompletion_eq {m : Chip} {id : Nat} {r : HostRead} {d : List Byte} {err : Bool} (hr : m.readById id = some r) (hs : r.sent = true)
    (hup : m.linkUp r.link = true) (hd : err = true ∨ d.length = r.len) : m.hostCompletion id d err = m.readDeliver r d err := by
  unfold Chip.hostCompletion
  rw [hr]
  exact if_pos (by rcases hd with h | h <;> simp [hs, hup, h])

theorem exec_bar2 {s : State} (h : s.chip.memUp = true) (f : Fin 16) (a n : Nat) (d : Option (List Byte)) :
    exec (.hostBar2Access f a n d) s = .next (s.on (s.chip.bar2 f a n d)) := by
  show execHostBar2Access f a n d s = _
  rw [execHostBar2Access, onHbm_eq h]

theorem exec_hostCompletion {s : State} (h : s.chip.memUp = true) (id : Nat) (d : List Byte) (err : Bool) :
    exec (.hostCompletion id d err) s = .next (s.on (s.chip.hostCompletion id d err)) := by
  show execHostCompletion id d err s = _
  rw [execHostCompletion, onHbm_eq h]

/-- Settles O53: each case names the branch of `configRequest`, `bar2`, `hostCompletion` or `holdExpire` that serves the access. -/
theorem hostAccessesAreServed : Obligations.HostAccessesAreServed := by
  intro s m
  refine ⟨fun f w hup hr hw => ?_, fun f off n l hup hp hr => ⟨fun ht => ?_, ?_⟩, fun f a n d hmem hup => ⟨fun hn hc => ?_, fun hn hc => ?_,
    fun hp hr hc => ⟨fun hn hw => ?_, fun hn hw => ?_, fun hn hw hh => ?_, fun hn hw hh hs hl => ⟨fun ht => ?_, fun ht hm => ?_⟩⟩⟩,
    fun id r l hf => ⟨fun d err hmem hs hup hd => ?_, fun hs => ?_, fun hl hs h hg => ?_⟩, fun l w t hh hl h => ?_⟩
  · have h := configRequest_eq hup hr hw
    have he : exec (.configRequest f w) s = .next (s.on (m.configRequest f w)) := rfl
    refine ⟨fun ho => ?_, fun hrd hp => ?_, fun ho hp => ?_⟩
    · rw [he, h, if_pos (by rw [ho]; rfl)]
    · have ho : m.cfgOpen = true := by simp [Chip.cfgOpen, hrd]
      rw [he, h, if_neg (by rw [ho]; decide), if_neg (by rw [hp, hrd]; simp)]
    · rw [he, h, if_neg (by rw [ho]; decide), if_pos (by rw [hp]; rfl)]
  · exact congrArg (fun c => Host.Outcome.next (s.on c)) (configRequest_tableRead hup hp hr ht)
  · exact congrArg (fun c => Host.Outcome.next (s.on c)) (configRequest_tableWrite hup hp hr)
  · exact (exec_bar2 hmem f a n _).trans (congrArg (fun c => Host.Outcome.next (s.on c)) (bar2_shut (d := none) hup hn hc))
  · exact (exec_bar2 hmem f a n _).trans (congrArg (fun c => Host.Outcome.next (s.on c)) (bar2_shut (d := some d) hup hn hc))
  · exact (exec_bar2 hmem f a n _).trans (congrArg (fun c => Host.Outcome.next (s.on c)) (bar2_outside (d := none) hup hp hr hc hn hw))
  · exact (exec_bar2 hmem f a n _).trans (congrArg (fun c => Host.Outcome.next (s.on c)) (bar2_outside (d := some d) hup hp hr hc hn hw))
  · exact (exec_bar2 hmem f a n _).trans (congrArg (fun c => Host.Outcome.next (s.on c)) (bar2_read hup hp hr hc hn hw hh))
  · have he : exec (.hostBar2Access f a n (some d)) s = .next (s.on (m.bar2 f a n (some d))) := exec_bar2 hmem f a n _
    have hno : ¬ (m.waitsTurn && !m.inMirror a) = true := by rcases ht with h | h <;> simp [h]
    refine ⟨fun hu => ?_, fun hu => ?_⟩
    · rw [he, bar2_write hup hp hr hc hn hw hh hs hl]; dsimp only; rw [if_neg hno, if_pos hu]
    · rw [he, bar2_write hup hp hr hc hn hw hh hs hl]; dsimp only; rw [if_neg hno, if_neg (by rw [hu]; decide)]
  · have he : exec (.hostBar2Access f a n (some d)) s = .next (s.on (m.bar2 f a n (some d))) := exec_bar2 hmem f a n _
    rw [he, bar2_write hup hp hr hc hn hw hh hs hl]; dsimp only; rw [if_pos (by rw [ht, hm]; rfl)]
  · exact (exec_hostCompletion hmem id d err).trans (congrArg (fun c => Host.Outcome.next (s.on c)) (hostCompletion_eq hf hs hup hd))
  · show execHostCompletionTimeout id s = _
    rw [execHostCompletionTimeout, onChip_eq, show s.chip.readById id = some r from hf]
    dsimp only
    rw [if_pos hs]
  · exact congrArg (fun c => Host.Outcome.next (s.on c)) (holdExpire_read hf hl hs h hg)
  · exact congrArg (fun c => Host.Outcome.next (s.on c)) (holdExpire_write hh hl h)

end Sys2Proof.Machine

/-! PROOFS. Memory that becomes zero, and what the walks of a slice and of a stack leave (R286, R299, R301, R318). -/
namespace Sys2Proof.Machine

/-! ### Memory -/

theorem memCell_setCell (m : Chip) (a : Nat) (v : MByte) (b : Nat) : (m.setCell a v).memCell b = if b = a then v else m.memCell b :=
  smapGet_set _ _ _ _ _

theorem memCell_setCells (m : Chip) (lo n : Nat) (v : MByte) (a : Nat) :
    (m.setCells lo n fun _ => v).memCell a = if lo ≤ a ∧ a < lo + n then v else m.memCell a := by
  unfold Chip.setCells
  induction n with
  | zero => rw [if_neg (by omega)]; rfl
  | succ n ih =>
    rw [List.range_succ, List.foldl_append, List.foldl_cons, List.foldl_nil, memCell_setCell, ih]
    by_cases h : a = lo + n
    · rw [if_pos h, if_pos (by omega)]
    · rw [if_neg h]
      exact if_congr (by omega) rfl rfl

/-- Where no area is left open, an unlisted byte is zero. -/
theorem memDef_unveiled {m : Chip} {lo n a : Nat} (h : m.veiled lo n = false) (ha : lo ≤ a ∧ a < lo + n) : memDef m.veils a = .val 0 := by
  unfold memDef
  rw [List.find?_eq_none.mpr fun v hv => ?_]
  have := List.any_eq_false.mp h v hv
  simp only [decide_eq_true_eq] at this ⊢
  omega

theorem rdByte_zeroMem (m : Chip) (lo n a : Nat) : (m.zeroMem lo n).rdByte a = if lo ≤ a ∧ a < lo + n then 0 else m.rdByte a := by
  have hcell : (m.zeroMem lo n).memCell a = if lo ≤ a ∧ a < lo + n then .val 0 else m.memCell a := by
    unfold Chip.zeroMem
    split
    · exact memCell_setCells m lo n _ a
    · rename_i hv
      change smapGet (memDef m.veils) (smapErase (fun k => decide (lo ≤ k ∧ k < lo + n)) m.mem) a = _
      rw [smapGet_erase]
      by_cases ha : lo ≤ a ∧ a < lo + n
      · rw [if_pos (decide_eq_true ha), if_pos ha, memDef_unveiled (by simpa using hv) ha]
      · rw [if_neg (by simpa using ha), if_neg ha]; rfl
  unfold Chip.rdByte
  rw [hcell]
  split <;> rfl

/-! ### Rows that become zero (R286) -/

theorem zeroRows_succ (m : Chip) (c first n : Nat) : m.zeroRows c first (n + 1) =
    if (m.zeroRows c first n).rowReady c (first + n) then
      ((m.zeroRows c first n).zeroMem (rowAddr c (first + n)) 512).count (K.cmemRowsWr c) 1 else m.zeroRows c first n := by
  unfold Chip.zeroRows
  rw [List.range_succ, List.foldl_append, List.foldl_cons, List.foldl_nil]

theorem zeroRows_rest (m : Chip) (c first n : Nat) :
    m.zeroRows c first n = { m with mem := (m.zeroRows c first n).mem, regs := (m.zeroRows c first n).regs } := by
  induction n with
  | zero => rfl
  | succ n ih =>
    rw [zeroRows_succ]
    split
    · rw [zeroMem_rest, ih]; rfl
    · exact ih

theorem zeroRows_reg (m : Chip) (c first n : Nat) {k : Nat} (hk : k ≠ K.cmemRowsWr c) : (m.zeroRows c first n).reg k = m.reg k := by
  induction n with
  | zero => rfl
  | succ n ih =>
    rw [zeroRows_succ]
    split
    · rw [Chip.count, reg_setReg_ne _ _ hk, zeroMem_rest]; exact ih
    · exact ih

theorem zeroRows_rowReady (m : Chip) (c first n p : Nat) : (m.zeroRows c first n).rowReady c p = m.rowReady c p := by
  have hk : K.cmemQpwr c ≠ K.cmemRowsWr c := by simp only [K.cmemQpwr, K.cmemRowsWr]; omega
  unfold Chip.rowReady
  rw [zeroRows_reg m c first n hk]

/-- A byte of one of the ready rows among the `n` from `first` on. -/
def inReadyRow (m : Chip) (c first n a : Nat) : Prop :=
  ∃ i < n, m.rowReady c (first + i) = true ∧ rowAddr c (first + i) ≤ a ∧ a < rowAddr c (first + i) + 512

theorem zeroRows_zero (m : Chip) (c first : Nat) {n a : Nat} (h : inReadyRow m c first n a) : (m.zeroRows c first n).rdByte a = 0 := by
  induction n with
  | zero => obtain ⟨i, hi, -⟩ := h; omega
  | succ n ih =>
    obtain ⟨i, hi, hready, ha⟩ := h
    have hcount : ∀ x : Chip, (x.count (K.cmemRowsWr c) 1).rdByte a = x.rdByte a := fun _ => rfl
    rw [zeroRows_succ, zeroRows_rowReady]
    rcases Nat.lt_succ_iff_lt_or_eq.mp hi with hi | rfl
    · have hz := ih ⟨i, hi, hready, ha⟩
      split
      · rw [hcount, rdByte_zeroMem, hz, ite_self]
      · exact hz
    · rw [if_pos hready, hcount, rdByte_zeroMem, if_pos ha]

theorem zeroRows_apart (m : Chip) (c first : Nat) {n a : Nat}
    (h : ∀ i < n, a < rowAddr c (first + i) ∨ rowAddr c (first + i) + 512 ≤ a) : (m.zeroRows c first n).rdByte a = m.rdByte a := by
  induction n with
  | zero => rfl
  | succ n ih =>
    have hcount : ∀ x : Chip, (x.count (K.cmemRowsWr c) 1).rdByte a = x.rdByte a := fun _ => rfl
    have hn := h n (Nat.lt_succ_self n)
    have hz := ih fun i hi => h i (Nat.lt_succ_of_lt hi)
    rw [zeroRows_succ]
    split
    · rw [hcount, rdByte_zeroMem, if_neg (by omega), hz]
    · exact hz

/-! ### The walk of a slice (R299, R301) -/

theorem slice_modSlice (m : Chip) {i : Nat} (h : i < 16) (f : Slice → Slice) : (m.modSlice i f).slice i = f (m.slice i) := by
  simp [Chip.slice, Chip.modSlice, h]

theorem modSlice_rest (m : Chip) (i : Nat) (f : Slice → Slice) : m.modSlice i f = { m with slices := (m.modSlice i f).slices } := by
  unfold Chip.modSlice
  split <;> rfl

/-- Lines that are written back change the blocks with a bad CRC and registers alone. -/
theorem writeBacks_keeps {α β : Type} (line : α → Nat) (s : Nat) (l : List α) (m : Chip) (g : Chip → β)
    (hg : ∀ a b r, g { a with badCrc := b, regs := r } = g a) : g (l.foldl (fun m d => m.writeBack s (line d)) m) = g m := by
  have hcount : ∀ (a : Chip) k n, g (a.count k n) = g a := fun a k n => hg a a.badCrc _
  have hback : ∀ (a : Chip) n, g (a.writeBack s n) = g a := fun a n => by
    unfold Chip.writeBack
    dsimp only
    rw [hcount, hcount]
    exact hg a _ a.regs
  induction l generalizing m with
  | nil => rfl
  | cons d t ih => rw [List.foldl_cons, ih, hback]

/-- What the walk up to the last set leaves of a slice. -/
def Chip.walked (m : Chip) (s : Nat) (k : Slice) : Slice :=
  { k with
    lines := k.lines.filterMap fun d => if decide ((m.slice s).walk ≤ lineSet d.line ∧ lineSet d.line < min 8192 8192) then m.walkLine s d else some d
    walk := max k.walk (min 8192 8192) }

theorem walkTo_keeps {β : Type} (m : Chip) (s : Nat) (g : Chip → β) (hg : ∀ a b r, g { a with badCrc := b, regs := r } = g a) :
    g (m.walkTo s 8192) = g (m.modSlice s (m.walked s)) := by
  have hset : ∀ (a : Chip) k f v, g (a.setFld k f v) = g a := fun a k f v => hg a a.badCrc _
  exact (hset _ _ _ _).trans (writeBacks_keeps (fun d : DLine => d.line) s _ _ g hg)

theorem walkTo_slice (m : Chip) {s : Nat} (h : s < 16) : (m.walkTo s 8192).slice s = m.walked s (m.slice s) := by
  rw [walkTo_keeps m s (·.slice s) fun _ _ _ => rfl, slice_modSlice m h]

/-- Neither memory nor what it is made of knows of the walk. -/
theorem walkTo_rdByte (m : Chip) (s a : Nat) : (m.walkTo s 8192).rdByte a = m.rdByte a := by
  rw [walkTo_keeps m s (·.rdByte a) fun _ _ _ => rfl, modSlice_rest]
  rfl

/-- A line that the walk still met is as the walk leaves it. -/
theorem mem_walked {m : Chip} {s : Nat} {d : DLine} (h : d ∈ (m.walked s (m.slice s)).lines) (hd : (m.slice s).walk ≤ d.line % 8192) :
    ∃ d0, m.walkLine s d0 = some d := by
  obtain ⟨d0, -, hw⟩ := List.mem_filterMap.mp h
  split at hw
  · exact ⟨d0, hw⟩
  · rename_i hno
    have hlt : lineSet d.line < 8192 := Nat.mod_lt _ (by decide)
    obtain rfl := Option.some.inj hw
    exact absurd (decide_eq_true ⟨hd, by simpa using hlt⟩) hno

theorem walkLine_split {m : Chip} {s : Nat} {d0 d : DLine} (hc : m.cmdCode (depotPage s) = 1) (h : m.walkLine s d0 = some d) :
    d.way < 16 - 2 * m.pendEighths s := by
  simp only [Chip.walkLine, hc] at h
  split at h
  · contradiction
  · obtain rfl := Option.some.inj h; omega

theorem walkLine_flush {m : Chip} {s : Nat} {d0 d : DLine} {inval : Bool} (hc : m.cmdCode (depotPage s) = if inval then 3 else 2)
    (h : m.walkLine s d0 = some d) : inval = false ∧ d.dirty = false := by
  cases inval with
  | true => simp [Chip.walkLine, hc] at h
  | false =>
    simp only [Chip.walkLine, hc, Bool.false_eq_true, if_false, Option.some.injEq] at h
    exact ⟨rfl, h ▸ rfl⟩

/-! ### A pass over a stack (R318) -/

theorem record_reg (m : Chip) (p : PageId) (code : Nat) (w : BitVec 16) (detail addr : Option Nat) (d : Nat) {k : Nat} (hk : ¬ evtKey p k) :
    (m.record p code w detail addr d).reg k = m.reg k := by
  unfold Chip.record
  dsimp only
  split <;> split
  · rfl
  · rfl
  · rw [(event_step _ p _).reg k hk]; rfl
  · rw [(event_step _ p _).reg k hk]; rfl

theorem record_mem (m : Chip) (p : PageId) (code : Nat) (w : BitVec 16) (detail addr : Option Nat) (d : Nat) :
    (m.record p code w detail addr d).mem = m.mem := by
  unfold Chip.record
  dsimp only
  split <;> split
  · rfl
  · rfl
  · exact (event_step _ p _).keeps (·.mem) fun _ _ _ => rfl
  · exact (event_step _ p _).keeps (·.mem) fun _ _ _ => rfl

/-- The registers that a CRC error of a stack changes. -/
def crcKey (k : Nat) : Prop := ∃ s < 16, k = K.hbmCrcErr s ∨ evtKey (hbmPage s) k

theorem stackOf_lt (m : Chip) (a : Nat) : (m.stackOf a).1 < 16 := by
  unfold Chip.stackOf
  split <;> dsimp only <;> omega

theorem crcError_reg (m : Chip) (a detail : Nat) (w : BitVec 16) {k : Nat} (hk : ¬ crcKey k) : (m.crcError a detail w).reg k = m.reg k := by
  have hs := stackOf_lt m a
  have hevt : ¬ evtKey (hbmPage (m.stackOf a).1) k := fun h => hk ⟨_, hs, .inr h⟩
  show (m.crcRecord a detail w).reg k = _
  unfold Chip.crcRecord
  dsimp only
  rw [(event_step _ _ _).reg k hevt, record_reg _ _ _ _ _ _ _ hevt, Chip.count, reg_setReg_ne _ _ fun h => hk ⟨_, hs, .inl h⟩]

theorem crcError_mem (m : Chip) (a detail : Nat) (w : BitVec 16) : (m.crcError a detail w).mem = m.mem := by
  show (m.crcRecord a detail w).mem = _
  unfold Chip.crcRecord
  exact ((event_step _ _ _).keeps (·.mem) fun _ _ _ => rfl).trans (record_mem _ _ _ _ _ _ _)

/-- What every step of a fold keeps. -/
theorem foldl_keeps {α β : Type} (g : Chip → β) {f : Chip → α → Chip} (h : ∀ m x, g (f m x) = g m) (l : List α) (m : Chip) :
    g (l.foldl f m) = g m := by
  induction l generalizing m with
  | nil => rfl
  | cons x t ih => exact (ih _).trans (h m x)

theorem scrubTo_mem (m : Chip) (s hi : Nat) : (m.scrubTo s hi).mem = m.mem := by
  unfold Chip.scrubTo
  dsimp only
  split
  · rfl
  · exact foldl_keeps (·.mem) (fun m b => crcError_mem m (b * 64) 2 _) _ _

/-- The registers that a pass changes. -/
def scrubKey (s k : Nat) : Prop := crcKey k ∨ k = K.hbmRdBytes s ∨ k = K.hbmScrubPos s ∨ k = K.pageCmdStat (hbmPage s).base

theorem scrubTo_reg (m : Chip) (s hi : Nat) {k : Nat} (hk : ¬ scrubKey s k) : (m.scrubTo s hi).reg k = m.reg k := by
  unfold scrubKey at hk
  push Not at hk
  obtain ⟨hcrc, hrd, hpos, hstat⟩ := hk
  unfold Chip.scrubTo
  dsimp only
  split
  · rfl
  · rw [reg_setFld_ne _ _ _ hstat, reg_setFld_ne _ _ _ hpos,
      foldl_keeps (·.reg k) (fun m b => crcError_reg m (b * 64) 2 _ hcrc), Chip.count, reg_setReg_ne _ _ hrd]

end Sys2Proof.Machine

/-! PROOFS. What the commands of the pages leave at their end (R29, R33, R61, R180, R220, R284, R299, R301, R310, R318, R398). -/
namespace Sys2Proof.Machine

/-! ### The row -/

theorem commandEnd_eq {p : PageId} {n : Nvm} {m : Chip} (hi : p.inst < pageCount p.kind) (hb : m.busy p = true) (hk : p.kind ≠ .mbox)
    (hm : p.kind = .depot ∨ p.kind = .hbm → m.memUp = true) : commandEnd p (n, m) = (n, (m.cmdEnd p).syncRun p) := by
  have hup : ((p.kind == .depot || p.kind == .hbm) && !m.memUp) = false := by
    by_cases h : p.kind = .depot ∨ p.kind = .hbm
    · simp [hm h]
    · simp only [not_or] at h; simp [h]
  unfold commandEnd
  rw [if_neg (by simp [hb, hup]; omega), if_neg hk]

theorem exec_commandEnd {s : State} {p : PageId} (hi : p.inst < pageCount p.kind) (hb : s.chip.busy p = true) (hk : p.kind ≠ .mbox)
    (hm : p.kind = .depot ∨ p.kind = .hbm → s.chip.memUp = true) :
    exec (.commandEnd p) s = .next (s.settled s.nvm ((s.chip.cmdEnd p).syncRun p)) := by
  show onBoth (commandEnd p) s = _
  unfold onBoth
  dsimp only
  rw [commandEnd_eq hi hb hk hm]
  rfl

/-! ### SNAP (R29, R32) -/

/-- The registers that the counts and the periods of a snapshot fill. -/
def snapKey (k : Nat) : Prop := ∃ d < 34, k = K.timeSnapCnt d ∨ k = K.timeSnapLat d

/-- The count and the period of one domain reach their registers. -/
def Chip.snapPut (m : Chip) (s : Snap) (d : Fin 34) : Chip :=
  (m.setFld (K.timeSnapCnt d.val) F.timeSnapCntCount s.cnt[d].toNat).setFld (K.timeSnapLat d.val) F.timeSnapLatPeriodPs s.period[d]

/-- Those of every domain do. -/
def Chip.snapCounts (m : Chip) (s : Snap) : Chip := (List.finRange 34).foldl (fun (m : Chip) d => m.snapPut s d) m

/-- Then the epochs. -/
def Chip.snapEpochs (m : Chip) (s : Snap) : Chip := (List.finRange 4).foldl (fun (m : Chip) r => m.setReg (K.timeSnapEpoch r.val) s.epoch[r]) m

theorem snapEnd_eq {m : Chip} {s : Snap} (h : m.board.snap = some s) : m.snapEnd =
    (((((m.snapCounts s).snapEpochs s).setReg K.timeSnapRun (s.run.zeroExtend 64)).count K.timeSnapSeq 1).modBoard fun b =>
      { b with snap := none }).endCmd timePage 0 := by
  unfold Chip.snapEnd; rw [h]; rfl

theorem snapCounts_step (m : Chip) (s : Snap) : RegStep snapKey m (m.snapCounts s) :=
  .foldl _ _ (fun a d _ => (RegStep.setFld a _ _ ⟨d, d.isLt, .inl rfl⟩).trans (.setFld _ _ _ ⟨d, d.isLt, .inr rfl⟩)) m

theorem snapEpochs_step (m : Chip) (s : Snap) : RegStep (fun k => ∃ r < 4, k = K.timeSnapEpoch r) m (m.snapEpochs s) :=
  .foldl _ _ (fun a r _ => .setReg a _ ⟨r, r.isLt, rfl⟩) m

/-- The registers of domain `d` hold what the snapshot has of it. -/
def Chip.showsDom (m : Chip) (s : Snap) (d : Fin 34) : Prop :=
  m.fld (K.timeSnapCnt d.val) F.timeSnapCntCount = s.cnt[d].toNat % 2 ^ 58 ∧
  m.fld (K.timeSnapLat d.val) F.timeSnapLatPeriodPs = s.period[d] % 2 ^ 24

theorem snapCnt_ne_snapLat (a b : Fin 34) : K.timeSnapCnt a.val ≠ K.timeSnapLat b.val := by
  simp only [K.timeSnapCnt, K.timeSnapLat]; omega

theorem snapCnt_ne {a b : Fin 34} (h : a ≠ b) : K.timeSnapCnt a.val ≠ K.timeSnapCnt b.val := by
  simp only [K.timeSnapCnt]; omega

theorem snapLat_ne {a b : Fin 34} (h : a ≠ b) : K.timeSnapLat a.val ≠ K.timeSnapLat b.val := by
  simp only [K.timeSnapLat]; omega

theorem snapPut_shows (m : Chip) (s : Snap) (d : Fin 34) : (m.snapPut s d).showsDom s d :=
  ⟨(fld_setFld_ne _ _ _ _ (snapCnt_ne_snapLat d d)).trans (fld_setFld _ _ _ _ (by decide)), fld_setFld _ _ _ _ (by decide)⟩

theorem snapPut_keeps {m : Chip} {s : Snap} (x : Fin 34) {d : Fin 34} (h : m.showsDom s d) : (m.snapPut s x).showsDom s d := by
  by_cases hx : d = x
  · subst hx; exact snapPut_shows m s d
  exact ⟨((fld_setFld_ne _ _ _ _ (snapCnt_ne_snapLat d x)).trans (fld_setFld_ne _ _ _ _ (snapCnt_ne hx))).trans h.1,
    ((fld_setFld_ne _ _ _ _ (snapLat_ne hx)).trans (fld_setFld_ne _ _ _ _ (snapCnt_ne_snapLat x d).symm)).trans h.2⟩

theorem snapCounts_shows (m : Chip) (s : Snap) (d : Fin 34) : (m.snapCounts s).showsDom s d :=
  foldl_establishes (P := fun d (m : Chip) => m.showsDom s d) (f := fun m d => m.snapPut s d) (fun x _ b => snapPut_shows b s x) (fun x _ _ _ h => snapPut_keeps x h) m d
    (List.mem_finRange d)

theorem snapEpochs_reg (m : Chip) (s : Snap) (r : Fin 4) : (m.snapEpochs s).reg (K.timeSnapEpoch r.val) = s.epoch[r] := by
  refine foldl_establishes (P := fun (r : Fin 4) (m : Chip) => m.reg (K.timeSnapEpoch r.val) = s.epoch[r]) (fun x _ b => reg_setReg_same _ _ _)
    (fun x _ y b h => ?_) m r (List.mem_finRange r)
  by_cases hxy : y = x
  · subst hxy; exact reg_setReg_same _ _ _
  · rw [reg_setReg_ne _ _ (by simp only [K.timeSnapEpoch]; omega)]; exact h

/-- A register of the TIME page beside its common header. -/
theorem time_not_endKey {k : Nat} (h : pageBase .time 0 + 0x100 ≤ k ∧ k < pageBase .time 0 + 0x1000) : ¬ endKey timePage k := by
  simp only [endKey, evtKey, PageId.base, pageBase, K.pageCmdStat, K.pageGen, K.pageEvt, K.hostifMsixDrop] at h ⊢; omega

theorem snapEnd_shows {m : Chip} {s : Snap} (h : m.board.snap = some s) : let e := m.snapEnd
    Ended e ⟨.time, 0⟩ ∧ e.board = { m.board with snap := none } ∧ e.dom = m.dom ∧ e.coaches = m.coaches ∧ e.mem = m.mem ∧
    (∀ d : Fin 34, e.fld (K.timeSnapCnt d) F.timeSnapCntCount = s.cnt[d].toNat % 2 ^ 58 ∧
      e.fld (K.timeSnapLat d) F.timeSnapLatPeriodPs = s.period[d] % 2 ^ 24) ∧
    (∀ r : Fin 4, e.reg (K.timeSnapEpoch r) = s.epoch[r]) ∧ e.reg K.timeSnapRun = s.run.zeroExtend 64 ∧
    e.reg K.timeSnapSeq = m.reg K.timeSnapSeq + 1 := by
  have h1 := snapCounts_step m s
  have h2 := snapEpochs_step (m.snapCounts s) s
  rw [snapEnd_eq h]
  generalize hf : ((m.snapCounts s).snapEpochs s) = f at h2
  generalize hb : (((f.setReg K.timeSnapRun (s.run.zeroExtend 64)).count K.timeSnapSeq 1).modBoard fun b => { b with snap := none }) = b
  have hreg : ∀ k, b.reg k = ((f.setReg K.timeSnapRun (s.run.zeroExtend 64)).count K.timeSnapSeq 1).reg k := fun k => by rw [← hb]; rfl
  have he := endCmd_step b timePage 0
  have keep : ∀ {β : Type} (g : Chip → β), (∀ a r, g { a with regs := r } = g a) → g f = g m := fun g hg =>
    (h2.keeps g fun r => hg _ r).trans (h1.keeps g fun r => hg _ r)
  have hbf : b = { f with regs := b.regs, board := { f.board with snap := none } } := by rw [← hb]; rfl
  have hhigh : ∀ {k : Nat}, pageBase .time 0 + 0x120 ≤ k ∧ k < pageBase .time 0 + 0x1000 → (b.endCmd timePage 0).reg k = f.reg k :=
    fun hk => by
      rw [he.reg _ (time_not_endKey (by omega)), hreg, Chip.count, reg_setReg_ne _ _ (by simp only [K.timeSnapSeq]; omega),
        reg_setReg_ne _ _ (by simp only [K.timeSnapRun]; omega)]
  have hlow : ∀ d : Fin 34, f.reg (K.timeSnapCnt d.val) = (m.snapCounts s).reg (K.timeSnapCnt d.val) ∧
      f.reg (K.timeSnapLat d.val) = (m.snapCounts s).reg (K.timeSnapLat d.val) := fun d =>
    ⟨h2.reg _ (by simp only [K.timeSnapCnt, K.timeSnapEpoch]; omega), h2.reg _ (by simp only [K.timeSnapLat, K.timeSnapEpoch]; omega)⟩
  refine ⟨endCmd_ended _ _, ?_, ?_, ?_, ?_, fun d => ⟨?_, ?_⟩, fun r => ?_, ?_, ?_⟩
  · rw [he.keeps (·.board) fun _ _ _ => rfl, hbf]; dsimp only; rw [keep (·.board) fun _ _ => rfl]
  · rw [he.keeps (·.dom) fun _ _ _ => rfl, hbf]; exact keep (·.dom) fun _ _ => rfl
  · rw [he.keeps (·.coaches) fun _ _ _ => rfl, hbf]; exact keep (·.coaches) fun _ _ => rfl
  · rw [he.keeps (·.mem) fun _ _ _ => rfl, hbf]; exact keep (·.mem) fun _ _ => rfl
  · rw [← (snapCounts_shows m s d).1]
    exact congrArg F.timeSnapCntCount.get ((hhigh (by simp only [K.timeSnapCnt]; omega)).trans (hlow d).1)
  · rw [← (snapCounts_shows m s d).2]
    exact congrArg F.timeSnapLatPeriodPs.get ((hhigh (by simp only [K.timeSnapLat]; omega)).trans (hlow d).2)
  · rw [← snapEpochs_reg (m.snapCounts s) s r, hf]
    exact hhigh (by simp only [K.timeSnapEpoch]; omega)
  · rw [he.reg _ (time_not_endKey (by decide)), hreg, Chip.count, reg_setReg_ne _ _ (by decide), reg_setReg_same]
  · rw [he.reg _ (time_not_endKey (by decide)), hreg, reg_count, if_pos rfl, reg_setReg_ne _ _ (by decide),
      h2.reg _ (by simp only [K.timeSnapSeq, K.timeSnapEpoch]; omega),
      h1.reg _ (by simp only [snapKey, K.timeSnapSeq, K.timeSnapCnt, K.timeSnapLat]; omega)]
    rfl

/-! ### RAKE_RESET, VZERO and CLEAR (R33, R180, R220) -/

theorem rakeResetEnd_shows (m : Chip) : let e := m.rakeResetEnd
    Ended e ⟨.rst, 0⟩ ∧ e.board = m.board ∧ e.coaches = m.coaches ∧ e.mem = m.mem ∧
    ∀ d : Fin 34, e.dom[d] = if d.val = m.cmdArg ⟨.rst, 0⟩ % 4 then
      { m.dom[d] with run := decide (7 ≤ m.phase) && m.board.coreRails && m.pwr.stops.isEmpty } else m.dom[d] := by
  have he := endCmd_step (m.clocks (fun d => decide (d = m.cmdArg rstPage % 4)) (decide (7 ≤ m.phase) && m.board.coreRails && m.pwr.stops.isEmpty))
    rstPage 0
  refine ⟨endCmd_ended _ _, he.keeps (·.board) fun _ _ _ => rfl, he.keeps (·.coaches) fun _ _ _ => rfl, he.keeps (·.mem) fun _ _ _ => rfl,
    fun d => (congrArg (·[d]) (he.keeps (·.dom) fun _ _ _ => rfl)).trans ?_⟩
  simp only [Chip.clocks, Fin.getElem_fin, Vector.getElem_mapIdx, decide_eq_true_eq]

/-- VZERO acts in its own coach. -/
theorem vzeroEnd_shows (m : Chip) (c : Fin 64) : let e := m.vzeroEnd c
    Ended e ⟨.vec, c⟩ ∧ (e.coach c).vec = { VecEngine.reset with q := (m.coach c).vec.q } ∧
    (e.coach c).vown = { (m.coach c).vown with tag := 0, dirty := false } ∧ (e.coach c).mtx = (m.coach c).mtx ∧
    (e.coach c).dray = (m.coach c).dray ∧ (∀ a : Bool, e.ctx ⟨c, a⟩ = m.ctx ⟨c, a⟩) ∧ (∀ d, d ≠ c → e.coach d = m.coach d) ∧
    e.cm = m.cm ∧ e.mem = m.mem := by
  let k : Coach := { m.coach c with
    vec := { VecEngine.reset with q := (m.coach c).vec.q }, vown := { (m.coach c).vown with tag := 0, dirty := false } }
  have heq : (m.modVec c fun e => { VecEngine.reset with q := e.q }).modVown c (fun v => { v with tag := 0, dirty := false }) =
      (m.modVec c fun e => { VecEngine.reset with q := e.q }).setCoach c k := by
    unfold Chip.modVown Chip.modVec Chip.modCoach
    rw [coach_setCoach]
  have he := endCmd_step ((m.modVec c fun e => { VecEngine.reset with q := e.q }).setCoach c k) ⟨.vec, c.val⟩ 0
  have hco : ∀ d, (m.vzeroEnd c).coach d = if d = c then k else m.coach d := fun d => by
    unfold Chip.vzeroEnd
    dsimp only
    rw [heq, he.keeps (·.coach d) fun _ _ _ => rfl]
    split
    · next h => rw [h, coach_setCoach]
    · next h => rw [coach_setCoach_ne _ _ h, Chip.modVec, Chip.modCoach, coach_setCoach_ne _ _ h]
  have hc := (hco c).trans (if_pos rfl)
  refine ⟨endCmd_ended _ _, by rw [hc], by rw [hc], by rw [hc], by rw [hc], fun a => ?_, fun d hd => (hco d).trans (if_neg hd), ?_, ?_⟩
  · show ((m.vzeroEnd c).coach c).side a = _
    rw [hc]; cases a <;> rfl
  · exact (endCmd_step _ _ _).keeps (·.cm) fun _ _ _ => rfl
  · exact (endCmd_step _ _ _).keeps (·.mem) fun _ _ _ => rfl

theorem reg_erased (m : Chip) (e : Nat → Bool) (a : Nat) :
    ({ m with regs := smapErase e m.regs } : Chip).reg a = if e a then regReset a else m.reg a := by
  unfold Chip.reg
  rw [smapGet_erase]

theorem tallyClear_shows (m : Chip) (i : Fin 128) : let p : PageId := ⟨.tally, i⟩; let e := m.tallyClear p
    Ended e p ∧ e.coaches = m.coaches ∧ e.mem = m.mem ∧
    (∀ a, p.base + 0x180 ≤ a → a < p.base + 0x400 → e.reg a = regReset a) ∧
    (∀ a, a < p.base + 0x180 ∨ p.base + 0x400 ≤ a → a ≠ K.pageCmdStat p.base → a ≠ K.pageGen p.base → a ≠ K.pageEvt p.base →
      a ≠ K.hostifMsixDrop → e.reg a = m.reg a) := by
  intro p e
  have he : EvtStep (endKey p) { m with regs := smapErase (fun k => decide (p.base + 0x180 ≤ k ∧ k < p.base + 0x400)) m.regs } e := endCmd_step _ _ _
  have hreg : ∀ a, ¬ endKey p a → e.reg a = if p.base + 0x180 ≤ a ∧ a < p.base + 0x400 then regReset a else m.reg a := fun a ha => by
    rw [he.reg a ha, reg_erased]
    simp only [decide_eq_true_eq]
  refine ⟨endCmd_ended _ _, he.keeps (·.coaches) fun _ _ _ => rfl, he.keeps (·.mem) fun _ _ _ => rfl, fun a h1 h2 => ?_, fun a h h1 h2 h3 h4 => ?_⟩
  · have hno : ¬ endKey p a := by
      simp only [p, endKey, evtKey, PageId.base, pageBase, K.pageCmdStat, K.pageGen, K.pageEvt, K.hostifMsixDrop] at h1 h2 ⊢; omega
    rw [hreg a hno, if_pos ⟨h1, h2⟩]
  · rw [hreg a (by simp only [endKey, evtKey]; tauto), if_neg (by omega)]

/-! ### ZERO and BUFZERO (R284, R310) -/

/-- The rows that a ZERO had still to write. -/
def Chip.zeroRest (m : Chip) (c : Nat) : Chip :=
  let r := zeroRange (m.cmdArg (cmemPage c))
  let pos := smapGet (fun _ => 0) m.zeroed c
  m.zeroRows c (r.1 + pos) (r.2 - pos)

theorem zeroEnd_keeps {β : Type} (m : Chip) (c : Nat) (g : Chip → β) (h1 : ∀ a r, g { a with regs := r } = g a)
    (h2 : ∀ a z, g { a with zeroed := z } = g a) (h3 : ∀ a r o p, g { a with regs := r, out := o, host := { a.host with msixPend := p } } = g a) :
    g (m.zeroEnd c) = g (m.zeroRest c) := by
  have hk : min 8192 ((zeroRange (m.cmdArg (cmemPage c))).2 - smapGet (fun _ => 0) m.zeroed c) =
      (zeroRange (m.cmdArg (cmemPage c))).2 - smapGet (fun _ => 0) m.zeroed c := by simp only [zeroRange]; omega
  unfold Chip.zeroEnd
  rw [(endCmd_step _ _ _).keeps g fun _ _ _ => h3 _ _ _ _]
  unfold Chip.zeroOn
  dsimp only
  rw [hk, h2, show ∀ (a : Chip) k f v, g (a.setFld k f v) = g a from fun a k f v => h1 a _]
  rfl

theorem zeroEnd_shows (m : Chip) (c : Fin 64) : let r := zeroRange (m.cmdArg ⟨.cmem, c⟩); let pos := smapGet (fun _ => 0) m.zeroed c
    let e := m.zeroEnd c
    Ended e ⟨.cmem, c⟩ ∧ e.coaches = m.coaches ∧ e.cm = m.cm ∧
    (∀ i o : Nat, pos ≤ i → i < r.2 → m.rowReady c (r.1 + i) = true → o < 512 → e.rdByte (rowAddr c (r.1 + i) + o) = 0) ∧
    (∀ a : Nat, (∀ i : Nat, pos ≤ i → i < r.2 → a < rowAddr c (r.1 + i) ∨ rowAddr c (r.1 + i) + 512 ≤ a) → e.rdByte a = m.rdByte a) := by
  intro r pos e
  have hrest := zeroRows_rest m c (r.1 + pos) (r.2 - pos)
  have hrd : ∀ a, e.rdByte a = (m.zeroRest c).rdByte a := fun a =>
    zeroEnd_keeps m c (·.rdByte a) (fun _ _ => rfl) (fun _ _ => rfl) fun _ _ _ _ => rfl
  refine ⟨endCmd_ended _ _, ?_, ?_, fun i o h1 h2 hready ho => ?_, fun a h => ?_⟩
  · exact (zeroEnd_keeps m c (·.coaches) (fun _ _ => rfl) (fun _ _ => rfl) fun _ _ _ _ => rfl).trans (congrArg (·.coaches) hrest)
  · exact (zeroEnd_keeps m c (·.cm) (fun _ _ => rfl) (fun _ _ => rfl) fun _ _ _ _ => rfl).trans (congrArg (·.cm) hrest)
  · rw [hrd]
    have hi : r.1 + pos + (i - pos) = r.1 + i := by omega
    exact zeroRows_zero m c (r.1 + pos) ⟨i - pos, Nat.sub_lt_sub_right h1 h2, by rw [hi]; exact hready, by rw [hi]; omega⟩
  · rw [hrd]
    refine zeroRows_apart m c (r.1 + pos) fun i hi => ?_
    rw [Nat.add_assoc]
    exact h (pos + i) (Nat.le_add_right _ _) (Nat.add_comm i pos ▸ Nat.add_lt_of_lt_sub hi)

theorem obufByte_obufZero (m : Chip) (c d : Fin 64) {f b : Nat} (hf : f < 4) (hb : b < 2 ^ 18) :
    (m.obufZero c).obufByte d f b = if d = c then 0 else m.obufByte d f b := by
  unfold Chip.obufByte Chip.obufZero
  rw [smapGet_erase]
  refine if_congr ?_ rfl rfl
  rw [decide_eq_true_eq, obufKey, Fin.ext_iff]
  omega

theorem bufzeroEnd_shows (m : Chip) (c : Fin 64) : let e := m.bufzeroEnd c
    Ended e ⟨.cmem, c⟩ ∧ e.coaches = m.coaches ∧ e.mem = m.mem ∧
    ∀ (d : Fin 64) (f b : Nat), f < 4 → b < 2 ^ 18 → e.obufByte d f b = if d = c then 0 else m.obufByte d f b := by
  have he := endCmd_step (m.obufZero c) (cmemPage c) 0
  exact ⟨endCmd_ended _ _, he.keeps (·.coaches) fun _ _ _ => rfl, he.keeps (·.mem) fun _ _ _ => rfl, fun d f b hf hb =>
    (he.keeps (fun x => x.obufByte d f b) fun _ _ _ => rfl).trans (obufByte_obufZero m c d hf hb)⟩

/-! ### SPLIT, FLUSH and FLUSH_INVAL (R299, R301) -/

/-- A register of a DEPOT page beside its common header. -/
theorem depotSplit_not_endKey (i : Fin 16) : ¬ endKey (depotPage i) (K.depotSplit i) := by
  simp only [endKey, evtKey, depotPage, PageId.base, pageBase, K.pageCmdStat, K.pageGen, K.pageEvt, K.hostifMsixDrop, K.depotSplit]; omega

/-- SPLIT once its walk is over. -/
def Chip.splitWalked (m : Chip) (s : Nat) : Chip := (m.walkTo s 8192).modSlice s fun k => { k with raised := false, walk := 0 }

theorem splitEnd_keeps {β : Type} (m : Chip) (s : Nat) (g : Chip → β) (h1 : ∀ a r, g { a with regs := r } = g a)
    (h3 : ∀ a r o p, g { a with regs := r, out := o, host := { a.host with msixPend := p } } = g a) : let a0 := m.eighths s; let a1 := m.pendEighths s
    g (m.splitEnd s) = g ((m.splitWalked s).zeroMem (depotBase + s * 0x2000000 + min a0 a1 * 0x400000) ((max a0 a1 - min a0 a1) * 0x400000)) := by
  have hset : ∀ (a : Chip) k f v, g (a.setFld k f v) = g a := fun a k f v => h1 a _
  exact ((endCmd_step _ _ _).keeps g fun _ _ _ => h3 _ _ _ _).trans ((hset _ _ _ _).trans (hset _ _ _ _))

theorem splitWalked_slice (m : Chip) (i : Fin 16) : (m.splitWalked i).slice i =
    { m.walked i (m.slice i) with raised := false, walk := 0 } := by
  unfold Chip.splitWalked
  rw [slice_modSlice _ i.isLt, walkTo_slice m i.isLt]

theorem splitEnd_slice (m : Chip) (i : Fin 16) : (m.splitEnd i).slice i = { m.walked i (m.slice i) with raised := false, walk := 0 } := by
  rw [splitEnd_keeps m i (·.slice i) (fun _ _ => rfl) fun _ _ _ _ => rfl, zeroMem_rest, ← splitWalked_slice]
  rfl

theorem splitEnd_rdByte (m : Chip) (i : Fin 16) (a : Nat) : let a0 := m.eighths i; let a1 := m.pendEighths i
    let lo := depotBase + i * 0x2000000 + min a0 a1 * 0x400000
    (m.splitEnd i).rdByte a = if lo ≤ a ∧ a < lo + (max a0 a1 - min a0 a1) * 0x400000 then 0 else m.rdByte a := by
  have hw : (m.splitWalked i).rdByte a = m.rdByte a := by
    unfold Chip.splitWalked
    rw [modSlice_rest]
    exact walkTo_rdByte m i a
  dsimp only
  rw [splitEnd_keeps m i (·.rdByte a) (fun _ _ => rfl) fun _ _ _ _ => rfl, rdByte_zeroMem, hw]

theorem splitEnd_fld (m : Chip) (i : Fin 16) :
    (m.splitEnd i).eighths i = m.pendEighths i ∧ (m.splitEnd i).fld (K.depotSplit i) F.depotSplitCways = (16 - 2 * m.pendEighths i) % 32 := by
  have hlt : m.pendEighths i < 2 ^ 4 := Nat.mod_lt _ (by decide)
  unfold Chip.splitEnd Chip.eighths
  dsimp only
  rw [(endCmd_step _ _ _).fld (depotSplit_not_endKey i), (endCmd_step _ _ _).fld (depotSplit_not_endKey i), fld_setFld _ _ _ _ (by decide),
    fld_setFld_apart _ _ _ _ _ (by decide) (.inl (by decide)), fld_setFld _ _ _ _ (by decide)]
  exact ⟨Nat.mod_eq_of_lt hlt, rfl⟩

theorem splitEnd_shows (m : Chip) (i : Fin 16) (hc : m.cmdCode ⟨.depot, i⟩ = 1) : let e := m.splitEnd i; let a0 := m.eighths i; let a1 := m.pendEighths i
    let at' (n : Nat) : Nat := 0x10000000000 + i * 0x2000000 + n * 0x400000
    Ended e ⟨.depot, i⟩ ∧ e.eighths i = a1 ∧ e.fld (K.depotSplit i) F.depotSplitCways = (16 - 2 * a1) % 32 ∧
    (e.slice i).walk = 0 ∧ (e.slice i).raised = false ∧
    (∀ d ∈ (e.slice i).lines, (m.slice i).walk ≤ d.line % 8192 → d.way < 16 - 2 * a1) ∧
    (∀ a : Nat, at' (min a0 a1) ≤ a → a < at' (max a0 a1) → e.rdByte a = 0) ∧
    (∀ a : Nat, a < at' (min a0 a1) ∨ at' (max a0 a1) ≤ a → e.rdByte a = m.rdByte a) := by
  have hb : depotBase = 0x10000000000 := rfl
  refine ⟨endCmd_ended _ _, (splitEnd_fld m i).1, (splitEnd_fld m i).2, by rw [splitEnd_slice], by rw [splitEnd_slice], fun d hd hw => ?_,
    fun a h1 h2 => ?_, fun a h => ?_⟩
  · rw [splitEnd_slice] at hd
    obtain ⟨d0, h0⟩ := mem_walked hd hw
    exact walkLine_split hc h0
  · dsimp only at h1 h2
    rw [splitEnd_rdByte, hb, if_pos (by omega)]
  · dsimp only at h
    rw [splitEnd_rdByte, hb, if_neg (by omega)]

/-- A flush once its walk is over and what the boot holds has been written back. -/
theorem flushEnd_slice (m : Chip) (i : Fin 16) (inval : Bool) : (m.flushEnd i inval).slice i = { m.walked i (m.slice i) with
    boot := if inval then [] else (m.slice i).boot.map fun d => { d with dirty := false }, raised := false, walk := 0 } := by
  unfold Chip.flushEnd
  dsimp only
  rw [(endCmd_step _ _ _).keeps (·.slice i) fun _ _ _ => rfl, slice_modSlice _ i.isLt,
    writeBacks_keeps (fun b : BLine => b.line) i.val _ _ (·.slice i) fun _ _ _ => rfl, walkTo_slice m i.isLt]
  rfl

theorem flushEnd_mem (m : Chip) (i : Nat) (inval : Bool) : (m.flushEnd i inval).mem = m.mem := by
  unfold Chip.flushEnd
  dsimp only
  rw [(endCmd_step _ _ _).keeps (·.mem) fun _ _ _ => rfl, modSlice_rest]
  dsimp only
  rw [writeBacks_keeps (fun b : BLine => b.line) i _ _ (·.mem) fun _ _ _ => rfl, walkTo_keeps m i (·.mem) fun _ _ _ => rfl, modSlice_rest]

theorem flushEnd_shows (m : Chip) (i : Fin 16) (inval : Bool) (hc : m.cmdCode ⟨.depot, i⟩ = if inval then 3 else 2) : let e := m.flushEnd i inval
    Ended e ⟨.depot, i⟩ ∧ e.mem = m.mem ∧ (e.slice i).walk = 0 ∧ (e.slice i).raised = false ∧
    (∀ d ∈ (e.slice i).lines, (m.slice i).walk ≤ d.line % 8192 → inval = false ∧ d.dirty = false) ∧
    (∀ d ∈ (e.slice i).boot, inval = false ∧ d.dirty = false) := by
  refine ⟨endCmd_ended _ _, flushEnd_mem m i inval, by rw [flushEnd_slice], by rw [flushEnd_slice], fun d hd hw => ?_, fun d hd => ?_⟩
  · rw [flushEnd_slice] at hd
    obtain ⟨d0, h0⟩ := mem_walked hd hw
    exact walkLine_flush hc h0
  · rw [flushEnd_slice] at hd
    cases inval with
    | true => exact absurd hd List.not_mem_nil
    | false =>
      obtain ⟨d0, -, rfl⟩ := List.mem_map.mp hd
      exact ⟨rfl, rfl⟩

/-! ### SCRUB (R318) -/

/-- An event leaves an event that stands. -/
theorem event_keepsBit (m : Chip) (p : PageId) (i j : Nat) (h : (m.reg (K.pageEvt p.base)).getLsbD j = true) :
    ((m.event p i).reg (K.pageEvt p.base)).getLsbD j = true := by
  have hset : ((m.setReg (K.pageEvt p.base) (m.reg (K.pageEvt p.base) ||| BitVec.ofNat 64 (2 ^ i))).reg (K.pageEvt p.base)).getLsbD j
      = true := by
    rw [reg_setReg_same, BitVec.getLsbD_or, h, Bool.true_or]
  unfold Chip.event
  dsimp only
  split
  · exact h
  split
  · rwa [(pageMessage_step _ p).reg _ (evt_ne_msixDrop p)]
  · exact hset

theorem stat_not_evtKey (p : PageId) : ¬ evtKey p (K.pageCmdStat p.base) := by
  have := base_mod p
  simp only [evtKey, K.pageEvt, K.pageCmdStat, K.hostifMsixDrop, pageBase]; omega

/-- A command that has ended has ended after a further event too. -/
theorem Ended.afterEvent {m : Chip} {p : PageId} (h : Ended m p) (i : Nat) : Ended (m.event p i) p := by
  obtain ⟨hb, hd, ho, hp, he⟩ := h
  have hs : ∀ f, (m.event p i).fld (K.pageCmdStat p.base) f = m.fld (K.pageCmdStat p.base) f := (event_step m p i).fld (stat_not_evtKey p)
  exact ⟨(congrArg (· != 0) (hs _)).trans hb, (hs _).trans hd, (hs _).trans ho, (hs _).trans hp, event_keepsBit m p i 0 he⟩

/-- The registers of a stack that count its passes. -/
theorem scrubPasses_not_scrubKey (i : Fin 16) : ¬ scrubKey i (K.hbmScrubPasses i) := by
  simp only [scrubKey, crcKey, evtKey, hbmPage, PageId.base, pageBase, K.pageCmdStat, K.pageEvt, K.hostifMsixDrop, K.hbmScrubPasses, K.hbmCrcErr,
    K.hbmRdBytes, K.hbmScrubPos]
  omega

theorem scrubRegs_not_endKey (i : Fin 16) : ¬ endKey (hbmPage i) (K.hbmScrubPos i) ∧ ¬ endKey (hbmPage i) (K.hbmScrubPasses i) := by
  simp only [endKey, evtKey, hbmPage, PageId.base, pageBase, K.pageCmdStat, K.pageGen, K.pageEvt, K.hostifMsixDrop, K.hbmScrubPos, K.hbmScrubPasses]
  omega

/-- A pass before its patrol event. -/
def Chip.scrubDone (m : Chip) (s : Nat) : Chip :=
  (((m.scrubTo s (2 ^ 36)).count (K.hbmScrubPasses s) 1).setReg (K.hbmScrubPos s) 0).endCmd (hbmPage s) 0

theorem scrubEnd_eq (m : Chip) (s : Nat) : m.scrubEnd s = if m.scrubber s = patrolId then (m.scrubDone s).event (hbmPage s) 17 else m.scrubDone s := rfl

theorem scrubber_eq_patrolId {m : Chip} {s : Nat} : m.scrubber s = patrolId ↔ m.fld (K.pageCmdStat (hbmPage s).base) F.pageCmdStatIssuer = 0x8031 := by
  have hlt : m.fld (K.pageCmdStat (hbmPage s).base) F.pageCmdStatIssuer < 2 ^ 16 := Nat.mod_lt _ (by decide)
  unfold Chip.scrubber
  rw [← BitVec.toNat_inj, BitVec.toNat_ofNat, Nat.mod_eq_of_lt hlt]
  rfl

theorem scrubDone_shows (m : Chip) (i : Fin 16) : let e := m.scrubDone i
    Ended e ⟨.hbm, i⟩ ∧ e.reg (K.hbmScrubPos i) = 0 ∧ e.reg (K.hbmScrubPasses i) = m.reg (K.hbmScrubPasses i) + 1 ∧ e.mem = m.mem := by
  obtain ⟨hpos, hpass⟩ := scrubRegs_not_endKey i
  have hne : K.hbmScrubPasses i ≠ K.hbmScrubPos i := by simp only [K.hbmScrubPasses, K.hbmScrubPos]; omega
  have he := endCmd_step (((m.scrubTo i (2 ^ 36)).count (K.hbmScrubPasses i) 1).setReg (K.hbmScrubPos i) 0) (hbmPage i) 0
  refine ⟨endCmd_ended _ _, ?_, ?_, ?_⟩
  · exact (he.reg _ hpos).trans (reg_setReg_same _ _ _)
  · refine (he.reg _ hpass).trans ?_
    rw [reg_setReg_ne _ _ hne, reg_count, if_pos rfl, scrubTo_reg _ _ _ (scrubPasses_not_scrubKey i)]
    rfl
  · exact (he.keeps (·.mem) fun _ _ _ => rfl).trans (scrubTo_mem m i _)

theorem scrubEnd_shows (m : Chip) (i : Fin 16) : let e := m.scrubEnd i
    Ended e ⟨.hbm, i⟩ ∧ e.reg (K.hbmScrubPos i) = 0 ∧ e.reg (K.hbmScrubPasses i) = m.reg (K.hbmScrubPasses i) + 1 ∧ e.mem = m.mem ∧
    (m.fld (K.pageCmdStat (PageId.base ⟨.hbm, i⟩)) F.pageCmdStatIssuer = 0x8031 → (e.reg (K.pageEvt (PageId.base ⟨.hbm, i⟩))).getLsbD 17 = true) := by
  obtain ⟨hend, hpos, hpass, hmem⟩ := scrubDone_shows m i
  obtain ⟨kpos, kpass⟩ := scrubRegs_not_endKey i
  have hs := event_step (m.scrubDone i) (hbmPage i) 17
  dsimp only
  rw [scrubEnd_eq]
  by_cases h : m.scrubber i = patrolId
  · rw [if_pos h]
    exact ⟨hend.afterEvent 17, (hs.reg _ fun h => kpos (.inr (.inr h))).trans hpos, (hs.reg _ fun h => kpass (.inr (.inr h))).trans hpass,
      (hs.keeps (·.mem) fun _ _ _ => rfl).trans hmem, fun _ => event_sets _ _ (by decide)⟩
  · rw [if_neg h]
    exact ⟨hend, hpos, hpass, hmem, fun hi => absurd (scrubber_eq_patrolId.mpr hi) h⟩

/-! ### FENCE (R398) -/

theorem fenceEnd_shows (m : Chip) : let c : Fin 64 := ⟨m.cmdArg ⟨.shunt, 0⟩ % 64, Nat.mod_lt _ (by decide)⟩; let gone := m.relocateGo c
    let set := m.flag (K.shuntCoachCfg c) F.shuntCoachCfgFenced
    (m.shuntHold = true → m.fenceEnd = m) ∧
    (m.shuntHold = false → set = false → m.fenceEnd = m.fenceCoach c) ∧
    (set = true → m.fencedOff c = false → m.fenceEnd = m) ∧
    (m.shuntHold = false → set = true → m.fencedOff c = true →
      ((∀ t ∈ gone.residents c, t.st = .stranded ∧ t.ending = none) → Ended m.fenceEnd ⟨.shunt, 0⟩ ∧
        (m.fenceEnd.reg (K.pageEvt (PageId.base ⟨.shunt, 0⟩))).getLsbD 17 = true ∧ m.fenceEnd.sh = gone.sh ∧ m.fenceEnd.coaches = gone.coaches) ∧
      ((∃ t ∈ gone.residents c, t.st ≠ .stranded ∨ t.ending ≠ none) → m.fenceEnd = gone)) := by
  intro c gone set
  have hdef : m.fenceEnd = if m.shuntHold then m else if !set then m.fenceCoach c else if m.fencedOff c then
      if (gone.residents c.val).all fun t => t.st == .stranded && t.ending.isNone then (gone.endCmd shuntPage 0).event shuntPage 17 else gone
      else m := rfl
  have hall : ((gone.residents c.val).all fun t => t.st == .stranded && t.ending.isNone) = true ↔
      ∀ t ∈ gone.residents c, t.st = .stranded ∧ t.ending = none := by simp
  clear_value gone set
  refine ⟨fun h => ?_, fun h hs => ?_, fun hs hf => ?_, fun h hs hf => ⟨fun hg => ?_, fun ⟨t, ht, hg⟩ => ?_⟩⟩
  · rw [hdef, if_pos h]
  · rw [hdef, if_neg (by simp [h]), if_pos (by rw [hs]; rfl)]
  · rw [hdef, hs, hf]; simp
  · rw [hdef, if_neg (by simp [h]), if_neg (by simp [hs]), if_pos hf, if_pos (hall.mpr hg)]
    have h1 := endCmd_step gone shuntPage 0
    have h2 := event_step (gone.endCmd shuntPage 0) shuntPage 17
    exact ⟨(endCmd_ended _ _).afterEvent 17, event_sets _ _ (by decide),
      (h2.keeps (·.sh) fun _ _ _ => rfl).trans (h1.keeps (·.sh) fun _ _ _ => rfl),
      (h2.keeps (·.coaches) fun _ _ _ => rfl).trans (h1.keeps (·.coaches) fun _ _ _ => rfl)⟩
  · have hno : ¬ ((gone.residents c.val).all fun t => t.st == .stranded && t.ending.isNone) = true := fun ha => by
      obtain ⟨h1, h2⟩ := hall.mp ha t ht
      rcases hg with hg | hg <;> contradiction
    rw [hdef, if_neg (by simp [h]), if_neg (by simp [hs]), if_pos hf, if_neg hno]

/-- Settles O20: COMMAND_END runs `Chip.cmdEnd`, whose branch for each command the lemmas above describe. -/
theorem commandsEndWithTheirEffect : Obligations.CommandsEndWithTheirEffect := by
  refine ⟨fun s p f hi hb hm hf => ?_, fun m => ⟨fun k hk => snapEnd_shows hk, rakeResetEnd_shows m, vzeroEnd_shows m, tallyClear_shows m,
    zeroEnd_shows m, bufzeroEnd_shows m, splitEnd_shows m, flushEnd_shows m, scrubEnd_shows m, fenceEnd_shows m⟩⟩
  have hend : p.kind ≠ .mbox ∧ s.chip.cmdEnd p = f s.chip := by
    simp only [List.mem_cons, Prod.mk.injEq, List.not_mem_nil, or_false] at hf
    rcases hf with ⟨hk, hc, rfl⟩ | ⟨hk, hc, rfl⟩ | ⟨hk, hc, rfl⟩ | ⟨hk, hc, rfl⟩ | ⟨hk, hc, rfl⟩ | ⟨hk, hc, rfl⟩ | ⟨hk, hc, rfl⟩ | ⟨hk, hc, rfl⟩ |
      ⟨hk, hc, rfl⟩ | ⟨hk, hc, rfl⟩ | ⟨hk, hc, rfl⟩
    all_goals exact ⟨by rw [hk]; decide, by simp only [Chip.cmdEnd, hk, hc]⟩
  rw [exec_commandEnd hi hb hend.1 hm, hend.2]

end Sys2Proof.Machine

/-! PROOFS. Where the pages lie, and the fields of a register (R54, R56, R57). -/
namespace Sys2Proof.Machine

/-! ### Pages at their bases (R54) -/

theorem pageAt_low {a i j : Nat} {k : PageKind} (hk : lowPageKind j = some k) (hj : a / 0x1000 = j) (hi : i < 1) : pageAt a = some ⟨k, i⟩ := by
  have hlow : a < 0xB000 := by
    by_contra hn
    obtain ⟨i, rfl⟩ : ∃ i, j = i + 11 := ⟨j - 11, by omega⟩
    cases hk
  rw [pageAt, if_pos hlow, hj, hk, Nat.lt_one_iff.mp hi]; rfl

/-- The pages of a coach lie in its 64 KiB, the two TALLY pages at the end. -/
theorem pageAt_coach {a c j : Nat} {k : PageKind} (hk : coachPageKind j = some k) (hc : c < 64)
    (ha : 0x01000000 ≤ a ∧ (a - 0x01000000) / 0x10000 = c) (hj : a % 0x10000 / 0x1000 = j) :
    pageAt a = some ⟨k, if j = 6 then 2 * c else if j = 7 then 2 * c + 1 else c⟩ := by
  rw [pageAt, if_neg (by omega), if_neg (by omega), if_pos (by omega)]
  dsimp only
  rw [ha.2, hj, hk]; rfl

/-- The pages beyond those of the coaches, one kind after the other. -/
theorem pageAt_high {a : Nat} (ha : 0x01400000 ≤ a) : pageAt a =
    if 0x02000000 ≤ a ∧ a < 0x02010000 then some ⟨.depot, (a - 0x02000000) / 0x1000⟩
    else if 0x02100000 ≤ a ∧ a < 0x02110000 then some ⟨.hbm, (a - 0x02100000) / 0x1000⟩
    else if 0x03000000 ≤ a ∧ a < 0x0300A000 then some ⟨.link, (a - 0x03000000) / 0x1000⟩
    else if 0x03010000 ≤ a ∧ a < 0x03020000 then some ⟨.couple, (a - 0x03010000) / 0x1000⟩
    else if 0x03800000 ≤ a ∧ a < 0x03801000 then some ⟨.hostif, 0⟩
    else if 0x03C00000 ≤ a ∧ a < 0x03C01000 then some ⟨.clk, 0⟩
    else if 0x03C01000 ≤ a ∧ a < 0x03C02000 then some ⟨.rst, 0⟩
    else if 0x04000000 ≤ a ∧ a < 0x04400000 then some ⟨.doorbell, (a - 0x04000000) / 0x1000⟩
    else none := by
  rw [pageAt, if_neg (by omega), if_neg (by omega), if_neg (by omega)]

/-- Every offset within a page names that page. -/
theorem pageAt_base_add {p : PageId} {o : Nat} (hi : p.inst < pageCount p.kind) (ho : o < 0x1000) : pageAt (p.base + o) = some p := by
  obtain ⟨k, i⟩ := p
  unfold PageId.base
  cases k <;> simp only [pageBase, pageCount] at hi ⊢
  case glob => exact pageAt_low (j := 0) rfl (by omega) hi
  case mbox => exact pageAt_low (j := 1) rfl (by omega) hi
  case pwr => exact pageAt_low (j := 2) rfl (by omega) hi
  case cool => exact pageAt_low (j := 3) rfl (by omega) hi
  case stage => exact pageAt_low (j := 4) rfl (by omega) hi
  case shunt => exact pageAt_low (j := 5) rfl (by omega) hi
  case xlat => exact pageAt_low (j := 6) rfl (by omega) hi
  case fault => exact pageAt_low (j := 7) rfl (by omega) hi
  case inval => exact pageAt_low (j := 8) rfl (by omega) hi
  case time => exact pageAt_low (j := 9) rfl (by omega) hi
  case sec => exact pageAt_low (j := 10) rfl (by omega) hi
  case func => rw [pageAt, if_neg (by omega), if_pos (by omega)]; congr 2; omega
  case coach => exact pageAt_coach (j := 0) rfl hi (by omega) (by omega)
  case vec => exact pageAt_coach (j := 1) rfl hi (by omega) (by omega)
  case mtx => exact pageAt_coach (j := 2) rfl hi (by omega) (by omega)
  case cmem => exact pageAt_coach (j := 3) rfl hi (by omega) (by omega)
  case dray => exact pageAt_coach (j := 4) rfl hi (by omega) (by omega)
  case tlb => exact pageAt_coach (j := 5) rfl hi (by omega) (by omega)
  case tally =>
    rcases Nat.mod_two_eq_zero_or_one i with h | h
    · rw [pageAt_coach (c := i / 2) (j := 6) rfl (by omega) (by omega) (by omega)]
      simp only [if_true]; congr 2; omega
    · rw [pageAt_coach (c := i / 2) (j := 7) rfl (by omega) (by omega) (by omega)]
      simp only [if_true]; rw [if_neg (by decide)]; congr 2; omega
  case depot => rw [pageAt_high (by omega), if_pos (by omega)]; congr 2; omega
  case hbm => rw [pageAt_high (by omega), if_neg (by omega), if_pos (by omega)]; congr 2; omega
  case link => rw [pageAt_high (by omega), if_neg (by omega), if_neg (by omega), if_pos (by omega)]; congr 2; omega
  case couple => rw [pageAt_high (by omega), if_neg (by omega), if_neg (by omega), if_neg (by omega), if_pos (by omega)]; congr 2; omega
  case hostif => rw [pageAt_high (by omega), if_neg (by omega), if_neg (by omega), if_neg (by omega), if_neg (by omega), if_pos (by omega)]; congr 2; omega
  case clk => rw [pageAt_high (by omega), if_neg (by omega), if_neg (by omega), if_neg (by omega), if_neg (by omega), if_neg (by omega), if_pos (by omega)]; congr 2; omega
  case rst => rw [pageAt_high (by omega), if_neg (by omega), if_neg (by omega), if_neg (by omega), if_neg (by omega), if_neg (by omega), if_neg (by omega), if_pos (by omega)]; congr 2; omega
  case doorbell => rw [pageAt_high (by omega), if_neg (by omega), if_neg (by omega), if_neg (by omega), if_neg (by omega), if_neg (by omega), if_neg (by omega), if_neg (by omega), if_pos (by omega)]; congr 2; omega

theorem lowPageKind_some {j : Nat} {k : PageKind} (h : lowPageKind j = some k) : pageBase k 0 = j * 0x1000 ∧ 0 < pageCount k := by
  unfold lowPageKind at h
  split at h <;> cases h <;> exact ⟨rfl, by decide⟩

theorem coachPageKind_some {j c : Nat} {k : PageKind} (h : coachPageKind j = some k) (hc : c < 64) :
    let i := if j = 6 then 2 * c else if j = 7 then 2 * c + 1 else c
    pageBase k i = 0x01000000 + c * 0x10000 + j * 0x1000 ∧ i < pageCount k := by
  unfold coachPageKind at h
  split at h <;> cases h <;> simp only [pageBase, pageCount] <;> norm_num <;> omega

/-- The page of a kind that an offset from its first base on names. -/
theorem within_page {k : PageKind} {a lo n : Nat} {p : PageId} (h : some (⟨k, (a - lo) / 0x1000⟩ : PageId) = some p)
    (hb : ∀ i, pageBase k i = lo + i * 0x1000) (hn : n ≤ pageCount k * 0x1000) (ha : lo ≤ a ∧ a < lo + n) :
    p.inst < pageCount p.kind ∧ p.base ≤ a ∧ a < p.base + 0x1000 := by
  cases h
  simp only [PageId.base, hb]
  omega

/-- A page that an offset names exists, and the offset lies within it (R54). -/
theorem pageAt_some {a : Nat} {p : PageId} (h : pageAt a = some p) : p.inst < pageCount p.kind ∧ p.base ≤ a ∧ a < p.base + 0x1000 := by
  unfold pageAt at h
  by_cases h1 : a < 0xB000
  · rw [if_pos h1] at h
    obtain ⟨k, hk, rfl⟩ := Option.map_eq_some_iff.mp h
    obtain ⟨hb, hn⟩ := lowPageKind_some hk
    simp only [PageId.base, hb]
    omega
  rw [if_neg h1] at h; clear h1
  split at h
  · exact within_page h (fun _ => rfl) (n := 0x10000) (by decide) ‹_›
  split at h
  · obtain ⟨k, hk, rfl⟩ := Option.map_eq_some_iff.mp h
    obtain ⟨hb, hn⟩ := coachPageKind_some (c := (a - 0x01000000) / 0x10000) hk (by omega)
    exact ⟨hn, by simp only [PageId.base, hb]; omega⟩
  split at h
  · exact within_page h (fun _ => rfl) (n := 0x10000) (by decide) ‹_›
  split at h
  · exact within_page h (fun _ => rfl) (n := 0x10000) (by decide) ‹_›
  split at h
  · exact within_page h (fun _ => rfl) (n := 0xA000) (by decide) ‹_›
  split at h
  · exact within_page h (fun _ => rfl) (n := 0x10000) (by decide) ‹_›
  split at h
  · cases h; simp only [PageId.base, pageBase, pageCount]; omega
  split at h
  · cases h; simp only [PageId.base, pageBase, pageCount]; omega
  split at h
  · cases h; simp only [PageId.base, pageBase, pageCount]; omega
  split at h
  · exact within_page h (fun _ => rfl) (n := 0x400000) (by decide) ‹_›
  · cases h

theorem pageType_lt (k : PageKind) : pageType k < 256 := by cases k <;> decide

theorem inst_lt {p : PageId} (h : p.inst < pageCount p.kind) : p.inst < 65536 :=
  h.trans_le (by cases p.kind <;> decide)

theorem view_pageId (n : Nvm) (m : Chip) (p : PageId) : m.view n p 0 = pageIdWord p := rfl

/-- Settles O13: the bases lie apart, and the three fields of PAGE_ID do not overlap. -/
theorem pagesLieAtTheirBases : Obligations.PagesLieAtTheirBases := by
  intro p o hi ho
  refine ⟨pageAt_base_add hi ho, fun n m => ?_⟩
  have hk := pageType_lt p.kind
  have hp := inst_lt hi
  rw [view_pageId, pageIdWord]
  simp only [Fld.get, BitVec.toNat_ofNat]
  omega

/-- Settles O14: the laws of registers and fields, with the fields in either order. -/
theorem registerHoldsWhatWasSet : Obligations.RegisterHoldsWhatWasSet := fun m a =>
  ⟨reg_setReg m a, fun f g v hf hg => ⟨fld_setFld m a f v hf, fun h => fld_setFld_apart m a g f v hg h.symm⟩⟩

end Sys2Proof.Machine

/-! PROOFS. The beginning and the end of a page's command (R61, R72, R505). -/
namespace Sys2Proof.Machine

/-- PAGE_CMD_STAT at the launch of a command. -/
theorem beginCmd_stat (m : Chip) (p : PageId) (code : Nat) (l : Launch) : (m.beginCmd p code l).reg (K.pageCmdStat p.base) =
    BitVec.ofNat 64 (1 + (code % 256) * 2 ^ 16 + l.tag.toNat * 2 ^ 24 + l.m.toNat * 2 ^ 32) := by
  unfold Chip.beginCmd Chip.bumpGen
  dsimp only
  rw [reg_count, if_neg (by simp), reg_setReg_same]

theorem beginCmd_cmd (m : Chip) (p : PageId) (code : Nat) (l : Launch) :
    (m.beginCmd p code l).reg (K.pageCmd p.base) = l.word code := by
  unfold Chip.beginCmd Chip.bumpGen
  dsimp only
  rw [reg_count, if_neg (by simp), reg_setReg_ne _ _ (by simp), reg_setReg_same]

theorem beginCmd_gen (m : Chip) (p : PageId) (code : Nat) (l : Launch) :
    (m.beginCmd p code l).reg (K.pageGen p.base) = m.reg (K.pageGen p.base) + 1 := by
  unfold Chip.beginCmd Chip.bumpGen
  dsimp only
  rw [reg_count, if_pos rfl, reg_setReg_ne _ _ (by simp), reg_setReg_ne _ _ (by simp)]; rfl

theorem beginCmd_arg (m : Chip) (p : PageId) (code : Nat) (l : Launch) : (m.beginCmd p code l).cmdArg p = l.arg.toNat := by
  have ha := l.arg.isLt
  have ht := l.tag.isLt
  rw [Chip.cmdArg, Chip.fld, beginCmd_cmd, Launch.word, Fld.get, BitVec.toNat_ofNat]
  dsimp only
  omega

theorem beginCmd_code (m : Chip) (p : PageId) {code : Nat} (l : Launch) (h : code < 256) : (m.beginCmd p code l).cmdCode p = code := by
  have hm := l.m.isLt
  have ht := l.tag.isLt
  rw [Chip.cmdCode, Chip.fld, beginCmd_stat, Fld.get, BitVec.toNat_ofNat]
  dsimp only
  omega

/-- The other fields of PAGE_CMD_STAT at the launch. -/
theorem beginCmd_fields (m : Chip) (p : PageId) (code : Nat) (l : Launch) :
    let b := m.beginCmd p code l
    let st := K.pageCmdStat p.base
    b.fld st F.pageCmdStatDone = 0 ∧ b.fld st F.pageCmdStatErr = 0 ∧ b.fld st F.pageCmdStatProgress = 0 ∧
      b.fld st F.pageCmdStatTag = l.tag.toNat ∧ b.fld st F.pageCmdStatIssuer = l.m.toNat := by
  have hm := l.m.isLt
  have ht := l.tag.isLt
  dsimp only
  simp only [Chip.fld, beginCmd_stat, Fld.get, BitVec.toNat_ofNat]
  omega

theorem endCmd_gen (m : Chip) (p : PageId) (err : Nat) :
    (m.endCmd p err).reg (K.pageGen p.base) = m.reg (K.pageGen p.base) + 1 := by
  have hk : ¬ evtKey p (K.pageGen p.base) := by
    have := base_mod p
    simp only [evtKey, K.pageEvt, K.pageGen, K.hostifMsixDrop, pageBase]; omega
  unfold Chip.endCmd
  dsimp only
  rw [(event_step _ p _).reg _ hk, Chip.bumpGen, reg_count, if_pos rfl, reg_setReg_ne _ _ (by simp)]; rfl

theorem endCmd_code (m : Chip) (p : PageId) (err : Nat) : (m.endCmd p err).cmdCode p = m.cmdCode p := by
  unfold Chip.cmdCode
  rw [Chip.fld, endCmd_stat, Fld.get_put_apart _ _ _ _ (by decide) (.inl (by decide)),
    Fld.get_put_apart _ _ _ _ (by decide) (.inr (by decide)), Fld.get_put_apart _ _ _ _ (by decide) (.inr (by decide)),
    Fld.get_put_apart _ _ _ _ (by decide) (.inr (by decide)), Chip.fld]

theorem endCmd_done (m : Chip) (p : PageId) (err : Nat) : (m.endCmd p err).fld (K.pageCmdStat p.base) F.pageCmdStatDone = 1 := by
  rw [Chip.fld, endCmd_stat, Fld.get_put_apart _ _ _ _ (by decide) (.inl (by decide)),
    Fld.get_put_apart _ _ _ _ (by decide) (.inl (by decide)), Fld.get_put _ _ _ (by decide)]; rfl

theorem endCmd_progress (m : Chip) (p : PageId) (err : Nat) :
    (m.endCmd p err).fld (K.pageCmdStat p.base) F.pageCmdStatProgress = 1000 := by
  rw [Chip.fld, endCmd_stat, Fld.get_put _ _ _ (by decide)]; rfl

/-- A code that its page does not define is BAD_CODE (R61). -/
theorem runCmd_badCode {m : Chip} {p : PageId} {code : Nat} (l : Launch) (hc : code ∉ p.kind.codes) :
    m.runCmd p code l = m.endCmd p 0x01 := by
  unfold Chip.runCmd
  dsimp only
  split
  case h_30 => rfl
  all_goals
    rename_i hk
    rw [hk] at hc
    exact absurd (by decide) hc

/-- So is one that the mailbox does not define, or that the recovery loader does not serve (R505). -/
theorem mboxErr_badCode {m : Chip} {n : Nvm} {code : Nat} (h : code ∉ PageKind.mbox.codes ∨ (m.board.romLoader = true ∧ 5 < code)) :
    m.mboxErr n code = 0x01 := by
  unfold Chip.mboxErr
  dsimp only
  refine if_pos ?_
  rcases h with h | h
  · simp only [PageKind.codes, List.mem_cons, List.not_mem_nil, or_false] at h
    omega
  · exact .inr (.inr h)

theorem mboxRun_err {m : Chip} {n : Nvm} {code : Nat} (hup : m.board.ostlerUp = true) (h : m.mboxErr n code ≠ 0) :
    mboxRun code (n, m) = (n, m.endCmd mboxPage (m.mboxErr n code)) := by
  unfold mboxRun
  dsimp only
  rw [if_neg (by simp [hup]), if_pos h]

/-- Settles O19: what `Chip.beginCmd` and `Chip.endCmd` leave in PAGE_CMD_STAT, field by field. -/
theorem commandsBeginAndEnd : Obligations.CommandsBeginAndEnd := by
  intro m p code l hcode hinst
  have hb := beginCmd_step m p code l
  obtain ⟨hdone, herr, hprog, htag, hiss⟩ := beginCmd_fields m p code l
  refine ⟨⟨beginCmd_busy m p code l, hdone, herr, hprog, beginCmd_code m p l hcode, htag, hiss, beginCmd_arg m p code l,
      beginCmd_gen m p code l, fun a h1 h2 h3 => hb.reg a (by rintro (h | h | h) <;> contradiction),
      hb.keeps (·.coaches) fun _ => rfl, hb.keeps (·.mem) fun _ => rfl⟩,
    fun err h => ?_, fun _ hc => runCmd_badCode l hc, fun n h hup => ?_, fun f h => noArg_bad f h⟩
  · have he := endCmd_step m p err
    exact ⟨endCmd_busy m p err, endCmd_done m p err, endCmd_err m p h, endCmd_progress m p err, endCmd_code m p err,
      event_sets _ p (by decide), endCmd_gen m p err, he.keeps (·.coaches) fun _ _ _ => rfl, he.keeps (·.mem) fun _ _ _ => rfl⟩
  · have h1 := mboxErr_badCode h (n := n)
    rw [mboxRun_err hup (by rw [h1]; decide), h1]

end Sys2Proof.Machine

/-! PROOFS. Writes to the register space that their page accepts, and the header registers (R57 to R59, R66, R70, R71). -/
namespace Sys2Proof.Machine

/-! ### A write that its page accepts -/

theorem exec_registerWrite (w : Wr) (s : State) : exec (.registerWrite w) s =
    .next (s.settled (postedWrite w (s.nvm, s.chip)).1 (postedWrite w (s.nvm, s.chip)).2) := rfl

theorem postedWrite_posted {w : Wr} {m : Chip} (n : Nvm) (h : m.stalledLink w.m = none) :
    postedWrite w (n, m) = regWriteAs (m.judge w (m.heldChange w)) w (n, m) := by
  unfold postedWrite regWrite
  dsimp only
  rw [h]

theorem postedWrite_taken {w : Wr} {m : Chip} {p : PageId} (n : Nvm) (h : Taken m w p) (hc : w.reg ≠ K.pageCmd p.base)
    (hb : m.blockRefuses p w = false) : postedWrite w (n, m) = (n, (m.acceptWrite p w).wrote p w) := by
  rw [postedWrite_posted n h.posted, h.accepted]
  unfold regWriteAs
  simp only [h.page, if_neg hc, hb]
  rfl

/-- A block refuses no write of the header. -/
theorem blockRefuses_header {m : Chip} {p : PageId} {w : Wr} (hp : pageAt w.off = some p) (h : w.reg < p.base + 0x100) :
    m.blockRefuses p w = false := by
  have hi := (pageAt_some hp).1
  have hpart : p.kind = .cmem → ¬ (K.cmemPart (p.inst % 64) 0 ≤ w.reg) := fun hk => by
    simp only [hk, pageCount] at hi
    simp only [PageId.base, hk, pageBase, K.cmemPart, Nat.mod_eq_of_lt hi] at h ⊢
    omega
  unfold Chip.blockRefuses
  split
  · rfl
  · dsimp only
    have h2 : ¬ 0x100 ≤ w.reg - p.base := by omega
    by_cases hk : p.kind = .cmem
    · simp [hpart hk, h2]
    · simp [hk, h2]

/-- An accepted write of a header register other than PAGE_CMD. -/
theorem exec_registerWrite_header {s : State} {w : Wr} {p : PageId} {r : RegRow} (o : Nat) (ht : Taken s.chip w p)
    (hr : w.row p = some r) (ho : w.reg = p.base + o) (h : o < 0x100) (hc : o ≠ 0x20) :
    exec (.registerWrite w) s = .next (s.settled s.nvm ((s.chip.writeHeader p o w (s.chip.newValue w p r)).wrote p w)) := by
  have hw : s.chip.acceptWrite p w = s.chip.writeHeader p o w (s.chip.newValue w p r) := by
    unfold Chip.acceptWrite
    simp only [hr, ho, Nat.add_sub_cancel_left, if_pos h]
  rw [exec_registerWrite, postedWrite_taken _ ht (by simp only [ho, K.pageCmd]; omega) (blockRefuses_header ht.page (by omega)), hw]

/-- The row of a single header register is that register's write. -/
theorem writeIf_header {s : State} {w : Wr} {p : PageId} {o : Nat} (hp : pageAt w.off = some p) (ho : w.reg = p.base + o) :
    writeIf (w.header o) w s = exec (.registerWrite w) s := by
  have : w.header o = true := by
    unfold Wr.header
    simp only [hp, ho, Nat.add_sub_cancel_left, decide_true]
  rw [this]; rfl

/-! ### What the header registers do -/

theorem errQ_setErrQ (m : Chip) (p : PageId) (q : ErrQ) : (m.setErrQ p q).errQ p = q := by
  unfold Chip.errQ Chip.setErrQ; rw [smapGet_set, if_pos rfl]

/-- POP leaves the records behind the head (R59). -/
theorem popErr_recs {m : Chip} {p : PageId} {e : ErrRec} {t : List ErrRec} (h : (m.errQ p).recs = e :: t) :
    ((m.popErr p).errQ p).recs = t := by
  have hp : m.popErr p = (m.setErrQ p { m.errQ p with recs := t }).bumpGen p := by
    unfold Chip.popErr; simp only [h]
  rw [hp]
  exact congrArg ErrQ.recs (errQ_setErrQ m p _)

/-- DISCARD leaves no shadow of the page (R66). -/
theorem pend_dropStaged (m : Chip) (p : PageId) : (m.dropStaged p).pend p = false := by
  unfold Chip.pend Chip.pageStaged Chip.dropStaged
  simp

theorem releaseWrite_chocked {m : Chip} {p : PageId} {w : Wr} {id : BitVec 16} (hb : F.pageChockRelease.bit (w.data &&& w.cover) = true)
    (hi : F.pageChockReleaseId.get (w.data &&& w.cover) = id.toNat) (hk : m.chocks.any (fun k => k.master == id && k.page == p) = true) :
    m.releaseWrite p w = (m.release p id).resumeMaster id := by
  unfold Chip.releaseWrite
  dsimp only
  rw [hi, BitVec.ofNat_toNat, BitVec.setWidth_eq, hb, hk]; rfl

/-- Settles O17: each row is the register write, and `Chip.writeHeader` has a branch for each of the four registers. -/
theorem headerRegistersAct : Obligations.HeaderRegistersAct := by
  intro s w p r m n d ht hr
  refine ⟨fun h => ?_, fun h hb => ?_, fun h hb => ?_, fun id h hb hid hk => ?_⟩
  · have he : exec (.evtEnableWrite w) s = exec (.registerWrite w) s := writeIf_header ht.page h
    rw [he, exec_registerWrite_header 0x38 ht hr h (by decide) (by decide)]
    exact ⟨rfl, rfl⟩
  · have he : exec (.errPop w) s = exec (.registerWrite w) s := writeIf_header ht.page h
    have hv (v : W64) : m.writeHeader p 0x40 w v = m.popErr p := if_pos hb
    rw [he, exec_registerWrite_header 0x40 ht hr h (by decide) (by decide), hv]
    exact ⟨rfl, rfl, fun _ _ => popErr_recs⟩
  · have he : exec (.discard w) s = exec (.registerWrite w) s := writeIf_header ht.page h
    have hv (v : W64) : m.writeHeader p 0x10 w v =
        (if m.pend p then (m.setReg w.reg v).dropStaged p else m.setReg w.reg v).bumpIf (m.pend p || v != m.reg w.reg) p := by
      have hdrop : (F.pageCtlDiscard.bit (w.data &&& w.cover) && m.pend p) = m.pend p := by rw [show F.pageCtlDiscard.bit (w.data &&& w.cover) = true from hb]; rfl
      unfold Chip.writeHeader
      dsimp only
      rw [if_pos rfl, hdrop]
    rw [he, exec_registerWrite_header 0x10 ht hr h (by decide) (by decide), hv]
    exact ⟨rfl, rfl, pend_dropStaged m p⟩
  · have he : exec (.chockRelease w) s = exec (.registerWrite w) s := writeIf_header ht.page h
    have hv (v : W64) : m.writeHeader p 0x58 w v = (m.release p id).resumeMaster id := releaseWrite_chocked hb hid hk
    rw [he, exec_registerWrite_header 0x58 ht hr h (by decide) (by decide), hv]
    exact ⟨rfl, rfl⟩

end Sys2Proof.Machine

/-! PROOFS. A write that a block refuses after its page has accepted it is answered by the block alone (R60, R71, R281). -/
namespace Sys2Proof.Machine

theorem postedWrite_blockRefused {w : Wr} {m : Chip} {p : PageId} (n : Nvm) (h : Taken m w p) (hc : w.reg ≠ K.pageCmd p.base)
    (hb : m.blockRefuses p w = true) : postedWrite w (n, m) = (n, (m.acceptWrite p w).syncRun p) := by
  rw [postedWrite_posted n h.posted, h.accepted]
  unfold regWriteAs
  simp only [h.page, if_neg hc, hb]
  rfl

theorem drainLog_out (n : Nvm) (m : Chip) : (drainLog n m).2.out = m.out := by
  unfold drainLog; split <;> rfl

theorem settled_out (s : State) (n : Nvm) (m : Chip) : (s.settled n m).chip.out = m.out := drainLog_out n m

/-- The ostler is answered with one more output. -/
theorem answer_ostler_out (m : Chip) (c : Nat) : (m.answer ostlerId c).out.length = m.out.length + 1 := rfl

/-- A write of the ostler that its block refuses is not answered with OK besides. -/
theorem blockRefused_not_answered {s : State} {w : Wr} {p : PageId} (ht : Taken s.chip w p) (hc : w.reg ≠ K.pageCmd p.base)
    (hm : w.m = ostlerId) (hb : s.chip.blockRefuses p w = true) :
    exec (.registerWrite w) s ≠ .next (s.settled s.nvm ((s.chip.acceptWrite p w).wrote p w)) := by
  intro he
  rw [exec_registerWrite, postedWrite_blockRefused _ ht hc hb] at he
  have hout := congrArg (fun t : State => t.chip.out.length) (Host.Outcome.next.inj he)
  simp only [settled_out, Chip.wrote, hm, answer_ostler_out] at hout
  omega

/-- The part after reset, out of power-on reset and of MODULE reset. -/
def servedChip : Chip := { Chip.reset with board := { Chip.reset.board with por := false, inReset := false } }

/-- The ostler writes a valid PART[0] of coach 0 that reaches beyond the core memory. -/
def widePart : Wr := { m := ostlerId, off := K.cmemPart 0 0, size := 8, val := 0x800000001FFF0001, gen := some 0 }

/-- Refutes O15: the page accepts the ostler's write of a PART that reaches beyond row 8,191, and the block refuses it with its
own answer (R281); the statement asks for a second answer, OK. -/
theorem not_writeChecksInOrder : ¬ Obligations.WriteChecksInOrder := by
  unfold Obligations.WriteChecksInOrder
  intro h
  have hreach : Reaches servedChip widePart ⟨.cmem, 0⟩ := ⟨by decide, by decide, by decide, by decide⟩
  obtain ⟨_, _, hreached, _⟩ := h (State.reset.on servedChip) widePart ⟨.cmem, 0⟩
  obtain ⟨_, hsized⟩ := hreached hreach
  obtain ⟨_, hright⟩ := hsized ⟨by decide, by decide, by decide⟩
  obtain ⟨_, hfree⟩ := hright (.inl (by decide))
  obtain ⟨_, howner⟩ := hfree (by decide)
  obtain ⟨_, hgen⟩ := howner (by decide)
  obtain ⟨_, hnew⟩ := hgen (by decide)
  obtain ⟨htaken, hexec⟩ := hnew (.inr (by decide))
  exact blockRefused_not_answered htaken (by decide) rfl (by decide) (hexec (by decide))

end Sys2Proof.Machine

/-! PROOFS. Loads and stores of control memory (R83, R91). -/
namespace Sys2Proof.Machine

/-! ### Rows of one operation -/

section
variable {i : Sys2Proof.Instr} {s : State} {x : Ctx} {o : Op}

/-- A row that picks one operation completes it. -/
theorem completes_op {b : Bank} {c : Bool} {upd : Chip → Chip} {nx : Next} (h : Due s.chip x o)
    (he : exec i s = onChip (insn x (· == o)) s) (hs : ∀ n, o ≠ .syscall n)
    (hr : runOp o (s.chip.tallyBoundary x) x = .done b c upd nx) : Completes i s x b c upd o.len nx :=
  completes (p := (· == o)) h he (beq_self_eq_true o) hs hr rfl

/-- Its context is chocked where its access lies out of range. -/
theorem chocks_op {a : Nat} (h : Due s.chip x o) (he : exec i s = onChip (insn x (· == o)) s) (hs : ∀ n, o ≠ .syscall n)
    (hr : runOp o (s.chip.tallyBoundary x) x = .chock a) : exec i s = .next (s.on ((s.chip.tallyBoundary x).chockCtx x a)) :=
  goes (p := (· == o)) h he (beq_self_eq_true o) hs hr

end

/-! ### Words in range -/

theorem loadWords_ok {m : Chip} {x : Ctx} {a : W16} {l : List W16} (h : m.holds x a l) : m.loadWords x a l.length = .ok l := by
  obtain ⟨hin, hl⟩ := h
  have hnone : ((List.range l.length).map fun i => a.toNat + i).find? (fun b => !(m.ctx x).inRange b) = none := by
    simp only [List.find?_eq_none, List.mem_map, List.mem_range]
    rintro b ⟨i, hi, rfl⟩
    simp [hin i hi]
  unfold Chip.loadWords
  dsimp only
  rw [hnone]
  refine congrArg Except.ok (List.ext_getElem (by simp) fun i h1 h2 => ?_)
  simp only [List.getElem_map, List.getElem_range]
  exact hl i h2

theorem badWord_none {k : Context} {a : W16} {n : Nat} (h : k.reaches a n) : k.badWord a n = none := by
  unfold Context.badWord
  simp only [List.find?_eq_none, List.mem_map, List.mem_range]
  rintro b ⟨i, hi, rfl⟩
  simp [h i hi]

/-- The first word out of range is the one at the address itself. -/
theorem badWord_first {k : Context} {a : W16} (n : Nat) (h : k.inRange a.toNat = false) : k.badWord a (n + 1) = some a.toNat := by
  unfold Context.badWord
  rw [List.range_succ_eq_map, List.map_cons, List.find?_cons_of_pos (by simp [h])]; rfl

theorem loadWords_outOfRange {m : Chip} {x : Ctx} {a : W16} (n : Nat) (h : (m.ctx x).inRange a.toNat = false) :
    m.loadWords x a (n + 1) = .error a.toNat := by
  have hb := badWord_first n h
  unfold Context.badWord at hb
  unfold Chip.loadWords
  dsimp only
  rw [hb]

theorem reaches_one {k : Context} {a : W16} (h : k.inRange a.toNat = true) : k.reaches a 1 := by
  intro i hi
  obtain rfl : i = 0 := by omega
  exact h

/-! ### The plans of loads and stores -/

section
variable {m : Chip} {x : Ctx} {b : Bank} {a : W16} {t : List W16} {n : Nat}

theorem loadOp_done (f : List W16 → W16 → List W16 → List W16) (hb : m.filledTo x 1 0 b) (hd : b.ds = a :: t) {l : List W16}
    (h : m.holds x a l) : m.loadOp x l.length f = .done { b with ds := f l a t } (m.ctx x).status.c id .seq := by
  unfold Chip.loadOp
  rw [withStacks_ok hb]
  simp only [hd, loadWords_ok h]

theorem loadOp_chock (f : List W16 → W16 → List W16 → List W16) (hb : m.filledTo x 1 0 b) (hd : b.ds = a :: t)
    (h : (m.ctx x).inRange a.toNat = false) : m.loadOp x (n + 1) f = .chock a.toNat := by
  unfold Chip.loadOp
  rw [withStacks_ok hb]
  simp only [hd, loadWords_outOfRange n h]

theorem storeOp_done (f : W16 → List W16) (hb : m.filledTo x (n + 1) 0 b) (hd : b.ds = a :: t) (h : (m.ctx x).reaches a n) :
    m.storeOp x n f =
      .done { b with ds := f a ++ t.drop n } (m.ctx x).status.c (fun m => m.storeWords x a (t.take n)) .seq := by
  unfold Chip.storeOp
  rw [withStacks_ok hb]
  simp only [hd, badWord_none h]

theorem storeOp_chock (f : W16 → List W16) (hb : m.filledTo x (n + 2) 0 b) (hd : b.ds = a :: t)
    (h : (m.ctx x).inRange a.toNat = false) : m.storeOp x (n + 1) f = .chock a.toNat := by
  unfold Chip.storeOp
  rw [withStacks_ok hb]
  simp only [hd, badWord_first n h]

end

/-- Settles O24: each row completes or chocks with the plan of `Chip.loadOp` or `Chip.storeOp`. -/
theorem loadsAndStoresComplete : Obligations.LoadsAndStoresComplete := by
  intro s x b m k c
  have hk : m.ctx x = k := tally_ctx _ x x
  have hc : (m.ctx x).status.c = c := by rw [hk]
  refine ⟨fun a t hb hd => ⟨fun v hv => ⟨fun hdue => ?_, fun hdue => ?_⟩, fun v0 v1 v2 v3 hv hdue => ?_, fun hr => ?_⟩,
    fun a v t hb hd => ⟨fun hr => ⟨fun hdue => ?_, fun hdue => ?_⟩, fun hr => ⟨fun hdue => ?_, fun hdue => ?_⟩⟩,
    fun a v0 v1 v2 v3 t hb hd hdue => ⟨fun hr => ?_, fun hr => ?_⟩⟩
  · exact completes_op hdue rfl nofun (hc ▸ loadOp_done (fun ws _ t => ws ++ t) hb hd hv)
  · exact completes_op hdue rfl nofun (hc ▸ loadOp_done (fun ws a t => (a + 1) :: (ws ++ t)) hb hd hv)
  · exact completes_op hdue rfl nofun (hc ▸ loadOp_done (fun ws _ t => ws ++ t) hb hd hv)
  · rw [← hk] at hr
    exact ⟨fun hdue => chocks_op hdue rfl nofun (loadOp_chock _ hb hd hr),
      fun hdue => chocks_op hdue rfl nofun (loadOp_chock _ hb hd hr),
      fun hdue => chocks_op hdue rfl nofun (loadOp_chock _ hb hd hr)⟩
  · have hs := storeOp_done (n := 1) (fun _ => []) hb hd (reaches_one (hk ▸ hr))
    exact completes_op hdue rfl nofun (hc ▸ hs)
  · have hs := storeOp_done (n := 1) (fun a => [a + 1]) hb hd (reaches_one (hk ▸ hr))
    exact completes_op hdue rfl nofun (hc ▸ hs)
  · exact chocks_op hdue rfl nofun (storeOp_chock (n := 0) _ hb hd (hk ▸ hr))
  · exact chocks_op hdue rfl nofun (storeOp_chock (n := 0) _ hb hd (hk ▸ hr))
  · have hs := storeOp_done (n := 4) (fun _ => []) hb hd (hk ▸ hr)
    exact completes_op hdue rfl nofun (hc ▸ hs)
  · exact chocks_op hdue rfl nofun (storeOp_chock (n := 3) _ hb hd (hk ▸ hr))

end Sys2Proof.Machine

/-! PROOFS. What an instruction on the stacks leaves unchanged (R84, R86, R88). -/
namespace Sys2Proof.Machine

/-! ### Words of control memory that are written -/

/-- `a` is `m` after writes to words of coach `c`'s control memory that satisfy `P`: beside them only what the coach's fetches remember
has changed. -/
structure CmStep (c : Fin 64) (P : Nat → Prop) (m a : Chip) : Prop where
  chip : a = { m with coaches := a.coaches, cm := a.cm }
  others : ∀ d : Fin 64, d ≠ c → a.coach d = m.coach d
  here : ∃ l1 l2, a.coach c = { m.coach c with fore := { (m.coach c).fore with stale := l1 }, aft := { (m.coach c).aft with stale := l2 } }
  words : ∀ (d : Fin 64) (j : Nat), j < 65536 → (d = c → ¬ P j) → a.cmWord d j = m.cmWord d j

namespace CmStep

variable {c : Fin 64} {P Q : Nat → Prop} {m a b : Chip}

theorem refl (m : Chip) : CmStep c P m m := ⟨rfl, fun _ _ => rfl, ⟨_, _, rfl⟩, fun _ _ _ _ => rfl⟩

theorem trans (h : CmStep c P m a) (g : CmStep c P a b) : CmStep c P m b where
  chip := by rw [g.chip, h.chip]
  others d hd := (g.others d hd).trans (h.others d hd)
  here := by
    obtain ⟨l1, l2, h1⟩ := h.here
    obtain ⟨l3, l4, g1⟩ := g.here
    exact ⟨l3, l4, by rw [g1, h1]⟩
  words d j hj hd := (g.words d j hj hd).trans (h.words d j hj hd)

theorem mono (h : CmStep c P m a) (hpq : ∀ j, P j → Q j) : CmStep c Q m a :=
  ⟨h.chip, h.others, h.here, fun d j hj hd => h.words d j hj fun e hp => hd e (hpq j hp)⟩

/-- A context of the coach is as before but for what its fetch remembers. -/
theorem ctx (h : CmStep c P m a) (aft : Bool) : ∃ l, a.ctx ⟨c, aft⟩ = { m.ctx ⟨c, aft⟩ with stale := l } := by
  obtain ⟨l1, l2, h1⟩ := h.here
  cases aft
  · exact ⟨l1, congrArg Coach.fore h1⟩
  · exact ⟨l2, congrArg Coach.aft h1⟩

end CmStep

theorem keepStale_stale (k : Context) (a : Nat) (old : W16) : ∃ l, k.keepStale a old = { k with stale := l } := by
  unfold Context.keepStale
  split <;> exact ⟨_, rfl⟩

theorem setCm_step (m : Chip) (c : Fin 64) (j : Nat) (v : W16) : CmStep c (· = j % 65536) m (m.setCm c j v) where
  chip := rfl
  others d hd := coach_setCoach_ne m _ hd
  here := by
    obtain ⟨l1, h1⟩ := keepStale_stale (m.coach c).fore (j % 65536) (m.cmWord c (j % 65536))
    obtain ⟨l2, h2⟩ := keepStale_stale (m.coach c).aft (j % 65536) (m.cmWord c (j % 65536))
    refine ⟨l1, l2, (coach_setCoach m c _).trans ?_⟩
    dsimp only
    rw [h1, h2]
  words d i hi hd := by
    have hne : d.val * 65536 + i % 65536 ≠ c.val * 65536 + j % 65536 := fun h => hd (Fin.ext (by omega)) (by omega)
    exact (smapGet_set _ m.cm _ v _).trans (if_neg hne)

theorem setCms_step (c : Fin 64) (l : List W16) (m : Chip) (j : Nat) :
    CmStep c (fun k => ∃ i < l.length, k = (j + i) % 65536) m (m.setCms c j l) := by
  induction l generalizing m j with
  | nil => exact .refl m
  | cons v t ih =>
    refine ((setCm_step m c j v).mono fun k hk => ⟨0, by simp, hk⟩).trans ((ih _ _).mono ?_)
    rintro k ⟨i, hi, rfl⟩
    exact ⟨i + 1, by simpa using hi, by rw [Nat.add_right_comm, Nat.add_assoc]⟩

/-! ### Spills -/

theorem spillOf_write {k : Context} {l ws : List W16} {lim ptr p : W16} (h : spillOf k l lim ptr = .write p ws) :
    p = ptr ∧ ws.length = 4 := by
  unfold spillOf at h
  split_ifs at h with h1
  cases h
  exact ⟨rfl, by simp; omega⟩

/-- What a spill that is due writes, and the bank it leaves; `put` takes the bank's entries away. -/
def Chip.spilled (m : Chip) (x : Ctx) (k : Context) (b : Bank) (put : Bank → Bank) : Spill → Chip × Bank
  | .write p ws => (m.setCms x.coach (k.phys p.toNat) ws, put b)
  | _ => (m, b)

/-- The four words from the pointer of a stack. -/
def spillWords (k : Context) (ptr : W16) (j : Nat) : Prop := ∃ i < 4, j = (k.phys ptr.toNat + i) % 65536

theorem spilled_step (m : Chip) (x : Ctx) (k : Context) (b : Bank) (put : Bank → Bank) (l : List W16) (lim ptr : W16) :
    CmStep x.coach (spillWords k ptr) m (m.spilled x k b put (spillOf k l lim ptr)).1 := by
  cases h : spillOf k l lim ptr with
  | write p ws =>
    obtain ⟨rfl, hl⟩ := spillOf_write h
    have hs := setCms_step x.coach ws m (k.phys p.toNat)
    rw [hl] at hs
    exact hs
  | fits | chock | overflow => exact .refl m

/-- Both spills in turn, the data stack's first. -/
theorem spillAll_ok {m : Chip} {x : Ctx} {b : Bank} {r : Chip × Bank} (h : m.spillAll x b = .ok r) :
    let k := m.ctx x
    let d := m.spilled x k b (fun b => { b with ds := b.ds.take (b.ds.length - 4), dsp := b.dsp + 4 }) (spillOf k b.ds b.dsl b.dsp)
    r = d.1.spilled x k d.2 (fun c => { c with rs := c.rs.take (c.rs.length - 4), rsp := c.rsp + 4 }) (spillOf k b.rs b.rsl b.rsp) := by
  unfold Chip.spillAll at h
  dsimp only at h ⊢
  cases hd : spillOf (m.ctx x) b.ds b.dsl b.dsp <;> cases hr : spillOf (m.ctx x) b.rs b.rsl b.rsp <;> rw [hd, hr] at h <;> cases h <;> rfl

/-- Spills write the four words at each stack pointer at most. -/
theorem spillAll_step {m : Chip} {x : Ctx} {b : Bank} {r : Chip × Bank} (h : m.spillAll x b = .ok r) :
    CmStep x.coach (fun j => spillWords (m.ctx x) b.dsp j ∨ spillWords (m.ctx x) b.rsp j) m r.1 := by
  rw [spillAll_ok h]
  exact ((spilled_step ..).mono fun _ => .inl).trans ((spilled_step ..).mono fun _ => .inr)

/-! ### Completion -/

/-- `t` is `k` but for its PC, what fetch remembers, C, the retired count, and the bank in use. -/
structure Completed (k t : Context) (c : Bool) : Prop where
  rest : t.rest = k.rest
  retired : t.retired = k.retired + 1
  carry : t.status.c = c
  bank : if k.status.shadow then t.main = k.main else t.shadow = k.shadow

/-- Setting the bank in use, whatever else changes of PC, C and what fetch remembers. -/
theorem Completed.setBank {k t : Context} {c : Bool} (b : Bank) (h : Completed k t c) (hs : t.status.shadow = k.status.shadow) :
    Completed k (t.setBank b) c := by
  unfold Context.setBank
  rw [hs]
  obtain ⟨hrest, hret, hc, hb⟩ := h
  split
  case isTrue hk =>
    rw [if_pos hk] at hb
    exact ⟨hrest, hret, hc, by rwa [if_pos hk]⟩
  case isFalse hk =>
    rw [if_neg hk] at hb
    exact ⟨hrest, hret, hc, by rwa [if_neg hk]⟩

/-- PC, what fetch remembers and whether it looped are free. -/
theorem Completed.go {k t : Context} {c : Bool} (h : Completed k t c) (pc : W16) (looped : Bool) (l : List (Nat × W16)) :
    Completed k { t with pc := pc, looped := looped, stale := l } c :=
  ⟨h.rest, h.retired, h.carry, h.bank⟩

theorem complete_completed (k : Context) (b : Bank) (c : Bool) (len : Nat) (nx : Next) : Completed k (k.complete b c len nx) c := by
  have h1 : Completed k { k with st := .running, wait := .none, retired := k.retired + 1, status := { k.status with c := c } } c :=
    ⟨rfl, rfl, rfl, by split <;> rfl⟩
  have h2 (b : Bank) := h1.setBank b rfl
  unfold Context.complete
  cases nx with
  | jump a => exact (h2 b).go a false []
  | skip a => exact (h2 b).go a false _
  | seq =>
    dsimp only
    split
    · exact (h2 _).go _ true _
    · exact (h2 b).go _ false _

theorem coach_modCtx (m : Chip) (x : Ctx) (f : Context → Context) :
    (m.modCtx x f).coach x.coach = (m.coach x.coach).setSide x.aft (f (m.ctx x)) := coach_setCoach m _ _

/-- A context that is set leaves the engines of its coach. -/
theorem setSide_engines (k : Coach) (a : Bool) (v : Context) :
    k.setSide a v = { k with fore := (k.setSide a v).fore, aft := (k.setSide a v).aft } := by
  unfold Coach.setSide; split <;> rfl

/-- What an instruction without another effect leaves as it was. -/
theorem completed_frame {m t : Chip} {x : Ctx} {b : Bank} {c : Bool} {len : Nat} {nx : Next} (h : m.completed x b c id len nx = some t) :
    StackFrame m t x b c := by
  unfold Chip.completed at h
  split at h
  case h_2 => cases h
  case h_1 r hr =>
    have hs := spillAll_step hr
    obtain ⟨l, hl⟩ := hs.ctx x.aft
    obtain ⟨l', hl'⟩ := hs.ctx (!x.aft)
    have hc := complete_completed (r.1.ctx x) r.2 c len nx
    rw [show r.1.ctx x = _ from hl] at hc
    cases h
    change StackFrame m (r.1.modCtx x fun k => k.complete r.2 c len nx) x b c
    have hmod : (r.1.modCtx x fun k => k.complete r.2 c len nx).ctx x = _ := (ctx_modCtx r.1 x _).trans (congrArg (·.complete r.2 c len nx) hl)
    have hne : (⟨x.coach, !x.aft⟩ : Ctx) ≠ x := fun he => by
      have := congrArg Ctx.aft he
      simp at this
    refine ⟨?_, fun d hd => ?_, ?_, ?_, ?_, ?_, ?_, ⟨l', ?_⟩, fun d a ha hd => ?_⟩
    · exact congrArg (fun a : Chip => { a with coaches := (r.1.modCtx x fun k => k.complete r.2 c len nx).coaches }) hs.chip
    · exact (coach_setCoach_ne r.1 _ hd).trans (hs.others d hd)
    · obtain ⟨l1, l2, hhere⟩ := hs.here
      rw [coach_modCtx, setSide_engines, hhere]
    · exact (congrArg Context.rest hmod).trans hc.rest
    · exact (congrArg Context.retired hmod).trans hc.retired
    · exact (congrArg (·.status.c) hmod).trans hc.carry
    · rw [hmod]; exact hc.bank
    · exact (ctx_modCtx_ne r.1 _ hne).trans hl'
    · refine (hs.words d a ha fun hdx => ?_)
      rintro (⟨i, hi, hj⟩ | ⟨i, hi, hj⟩)
      · exact (hd hdx i hi).1 hj
      · exact (hd hdx i hi).2 hj

end Sys2Proof.Machine

/-! PROOFS. The stack, arithmetic, logic, shift and comparison instructions complete as R89 and R94 state them, and change nothing
else (R88). -/
namespace Sys2Proof.Machine

/-! ### Words and their values -/

theorem flagWord_eq_truth (p : Prop) [Decidable p] : flagWord (decide p) = truth p := by
  unfold flagWord truth; by_cases h : p <;> simp [h]

theorem shrWord_eq (a n : W16) : shrWord a n = BitVec.ofNat 16 (a.toNat / 2 ^ (n.toNat % 16)) := by
  refine BitVec.eq_of_toNat_eq ?_
  rw [shrWord, BitVec.toNat_ushiftRight, BitVec.toNat_ofNat, Nat.shiftRight_eq_div_pow,
    Nat.mod_eq_of_lt ((Nat.div_le_self _ _).trans_lt a.isLt)]

theorem sarWord_eq (a n : W16) : sarWord a n = BitVec.ofInt 16 (a.toInt / 2 ^ (n.toNat % 16)) := by
  rw [sarWord, BitVec.sshiftRight, Int.shiftRight_eq_div_pow]; norm_cast

theorem rolWord_eq (a n : W16) : rolWord a n = (a <<< (n.toNat % 16)) ||| (a >>> ((16 - n.toNat % 16) % 32)) := by
  have h1 : n.toNat % 16 % 16 = n.toNat % 16 := Nat.mod_mod _ _
  have h2 : (16 - n.toNat % 16) % 32 = 16 - n.toNat % 16 := by omega
  rw [rolWord, BitVec.rotateLeft, BitVec.rotateLeftAux, h1, h2]

theorem addCarry_eq (a b : W16) (c : Bool) :
    addCarry a b c = (a + b + bit c, decide (65536 ≤ a.toNat + b.toNat + (bit c).toNat)) := by
  have hc : b2n c = (bit c).toNat := by cases c <;> rfl
  rw [addCarry, hc]
  refine congrArg (·, _) (BitVec.eq_of_toNat_eq ?_)
  simp only [BitVec.toNat_ofNat, BitVec.toNat_add]; omega

theorem subBorrow_eq (a b : W16) (c : Bool) :
    subBorrow a b c = (a - b - bit c, decide (a.toNat < b.toNat + (bit c).toNat)) := by
  have hc : b2n c = (bit c).toNat := by cases c <;> rfl
  have h1 := (bit c).isLt
  have h2 := b.isLt
  rw [subBorrow, hc]
  refine congrArg (·, _) (BitVec.eq_of_toNat_eq ?_)
  simp only [BitVec.toNat_ofNat, BitVec.toNat_sub]; omega

theorem addCarry_false (a b : W16) : addCarry a b false = (a + b, decide (65536 ≤ a.toNat + b.toNat)) := by
  rw [addCarry_eq, bit]; simp

theorem subBorrow_false (a b : W16) : subBorrow a b false = (a - b, decide (a.toNat < b.toNat)) := by
  rw [subBorrow_eq, bit]; simp

theorem mulWords_eq (a b : W16) : mulWords a b = (BitVec.ofNat 16 (a.toNat * b.toNat), BitVec.ofNat 16 (a.toNat * b.toNat / 65536)) := by
  unfold mulWords
  dsimp only
  generalize a.toNat * b.toNat = v
  refine congrArg₂ Prod.mk (BitVec.eq_of_toNat_eq ?_) (BitVec.eq_of_toNat_eq ?_) <;>
    simp only [BitVec.truncate_eq_setWidth, BitVec.toNat_setWidth, BitVec.toNat_ushiftRight, BitVec.toNat_ofNat, Nat.shiftRight_eq_div_pow] <;> omega

theorem mulsWords_eq (a b : W16) : mulsWords a b = (BitVec.ofInt 16 (a.toInt * b.toInt), BitVec.ofInt 16 (a.toInt * b.toInt / 65536)) := by
  unfold mulsWords
  dsimp only
  generalize a.toInt * b.toInt = v
  refine congrArg₂ Prod.mk (BitVec.eq_of_toNat_eq ?_) (BitVec.eq_of_toNat_eq ?_) <;>
    simp only [BitVec.truncate_eq_setWidth, BitVec.toNat_setWidth, BitVec.toNat_ushiftRight, BitVec.toNat_ofInt, Nat.shiftRight_eq_div_pow] <;> omega

theorem divWords_eq (a b : W16) : divWords a b = if b = 0 then (0xFFFF, a) else (a / b, a % b) := by
  unfold divWords
  refine if_congr Iff.rfl rfl (congrArg₂ Prod.mk ?_ ?_) <;> refine BitVec.eq_of_toNat_eq ?_
  · rw [BitVec.toNat_ofNat, BitVec.toNat_udiv, Nat.mod_eq_of_lt ((Nat.div_le_self _ _).trans_lt a.isLt)]
  · rw [BitVec.toNat_ofNat, BitVec.toNat_umod, Nat.mod_eq_of_lt ((Nat.mod_le _ _).trans_lt a.isLt)]

/-! ### Operations on the stacks and C -/

/-- The row of `e` is its operation's, which has one word, and with its entries registered the operation completes with what `e`
says that it leaves. -/
structure StackOp.Sound (e : StackOp) : Prop where
  row : ∀ x s, exec (e.row x) s = onChip (insn x (· == e.op)) s
  len : e.op.len = 1
  plain : ∀ n, e.op ≠ .syscall n
  runs : ∀ {m : Chip} {x : Ctx} {b b' : Bank} {c' : Bool}, m.filledTo x e.nd e.nr b → e.res b (m.ctx x).status.c = some (b', c') →
    runOp e.op m x = .done b' c' id .seq

section
variable {row : Ctx → Sys2Proof.Instr} {op : Op} {nd nr : Nat}

/-- An operation on both stacks and C. -/
theorem StackOp.Sound.bank {res : Bank → Bool → Option (Bank × Bool)} {f : Chip → Ctx → Bank → Plan}
    (hrun : ∀ m x, runOp op m x = m.withStacks x nd nr (f m x))
    (hf : ∀ m x b r, res b (Chip.ctx m x).status.c = some r → f m x b = .done r.1 r.2 id .seq :=
      by intro m x b r h; split at h <;> cases h; simp only [*])
    (hrow : ∀ x s, exec (row x) s = onChip (insn x (· == op)) s := by intros; rfl) (hlen : op.len = 1 := by rfl)
    (hplain : ∀ n, op ≠ .syscall n := by nofun) : (⟨row, op, nd, nr, res⟩ : StackOp).Sound where
  row := hrow
  len := hlen
  plain := hplain
  runs hb hr := by rw [hrun, withStacks_ok (nd := nd) (nr := nr) hb, hf _ _ _ _ hr]

/-- An operation whose function is `Chip.dataOp`. -/
theorem StackOp.Sound.data {f : List W16 → Option (List W16)} {g : List W16 → List W16}
    (hrun : ∀ m x, runOp op m x = m.dataOp x nd g) (hfg : ∀ l l', f l = some l' → g l = l' := by intro l l' h; split at h <;> cases h; rfl)
    (hrow : ∀ x s, exec (row x) s = onChip (insn x (· == op)) s := by intros; rfl) (hlen : op.len = 1 := by rfl)
    (hplain : ∀ n, op ≠ .syscall n := by nofun) : (StackOp.data row op nd f).Sound where
  row := hrow
  len := hlen
  plain := hplain
  runs hb hr := by
    obtain ⟨l, hl, he⟩ := Option.map_eq_some_iff.mp hr
    cases he
    refine (hrun _ _).trans ?_
    rw [Chip.dataOp, withStacks_ok (nd := nd) (nr := 0) hb, hfg _ _ hl]

theorem StackOp.Sound.one {f g : W16 → W16} (hrun : ∀ m x, runOp op m x = m.unary x g) (hfg : ∀ a, g a = f a := by intros; rfl)
    (hrow : ∀ x s, exec (row x) s = onChip (insn x (· == op)) s := by intros; rfl) (hlen : op.len = 1 := by rfl)
    (hplain : ∀ n, op ≠ .syscall n := by nofun) : (StackOp.one row op f).Sound :=
  StackOp.Sound.data hrun (fun l l' h => by
    cases l with
    | nil => cases h
    | cons a t => cases h; simp only [hfg]) hrow hlen hplain

theorem StackOp.Sound.two {f g : W16 → W16 → W16} (hrun : ∀ m x, runOp op m x = m.binary x g)
    (hfg : ∀ a b, g a b = f a b := by intros; rfl) (hrow : ∀ x s, exec (row x) s = onChip (insn x (· == op)) s := by intros; rfl)
    (hlen : op.len = 1 := by rfl) (hplain : ∀ n, op ≠ .syscall n := by nofun) : (StackOp.two row op f).Sound :=
  StackOp.Sound.data hrun (fun l l' h => by
    match l with
    | [] | [_] => cases h
    | b :: a :: t => cases h; simp only [hfg]) hrow hlen hplain

end

theorem stackMoves_sound : ∀ e ∈ stackMoves, e.Sound := by
  simp only [stackMoves, List.forall_mem_cons]
  refine ⟨?_, ?_, ?_, ?_, ?_, ?_, ?_, ?_, ?_, ?_, ?_, ?_, ?_, ?_, ?_, ?_, nofun⟩
  · exact .data (fun _ _ => by rw [runOp, semNop]) (hfg := fun l l' h => by cases h; rfl)
  · exact .data (fun _ _ => by rw [runOp, semDrop])
  · exact .data (fun _ _ => by rw [runOp, semDup])
  · exact .data (fun _ _ => by rw [runOp, semSwap])
  · exact .data (fun _ _ => by rw [runOp, semOver])
  · exact .data (fun _ _ => by rw [runOp, semRot])
  · exact .data (fun _ _ => by rw [runOp, semNip])
  · exact .data (fun _ _ => by rw [runOp, semTuck])
  · exact .data (fun _ _ => by rw [runOp, semDrop2])
  · exact .data (fun _ _ => by rw [runOp, semDup2])
  · exact .data (fun _ _ => by rw [runOp, semSwap2])
  · exact .bank (fun _ _ => by rw [runOp, semTor])
  · exact .bank (fun _ _ => by rw [runOp, semFromr])
  · exact .bank (fun _ _ => by rw [runOp, semRfetch])
  · exact .bank (fun _ _ => by rw [runOp, semLpush]) (hf := fun m x b r h => by cases h; rfl)
  · exact .bank (fun _ _ => by rw [runOp, semLpop])

theorem stackSums_sound : ∀ e ∈ stackSums, e.Sound := by
  simp only [stackSums, List.forall_mem_cons]
  refine ⟨?_, ?_, ?_, ?_, ?_, ?_, ?_, ?_, ?_, ?_, nofun⟩
  · exact .bank (fun _ _ => by rw [runOp, semAdd, Chip.binaryC]) (hf := fun m x b r h => by split at h <;> cases h; simp only [*, addCarry_false])
  · exact .bank (fun _ _ => by rw [runOp, semAdc, Chip.binaryC]) (hf := fun m x b r h => by split at h <;> cases h; simp only [*, addCarry_eq])
  · exact .bank (fun _ _ => by rw [runOp, semSub, Chip.binaryC]) (hf := fun m x b r h => by split at h <;> cases h; simp only [*, subBorrow_false])
  · exact .bank (fun _ _ => by rw [runOp, semSbb, Chip.binaryC]) (hf := fun m x b r h => by split at h <;> cases h; simp only [*, subBorrow_eq])
  · exact .one (fun _ _ => by rw [runOp, semNeg]) (hfg := fun a => by exact (BitVec.zero_sub a).symm)
  · exact .one (fun _ _ => by rw [runOp, semInc])
  · exact .one (fun _ _ => by rw [runOp, semDec])
  · exact .data (fun _ _ => by rw [runOp, semMul, Chip.binary2]) (hfg := fun l l' h => by split at h <;> cases h; simp only [mulWords_eq])
  · exact .data (fun _ _ => by rw [runOp, semMuls, Chip.binary2]) (hfg := fun l l' h => by split at h <;> cases h; simp only [mulsWords_eq])
  · exact .data (fun _ _ => by rw [runOp, semUdivmod, Chip.binary2]) (hfg := fun l l' h => by split at h <;> cases h; simp only [divWords_eq]; split <;> rfl)

theorem stackLogic_sound : ∀ e ∈ stackLogic, e.Sound := by
  simp only [stackLogic, List.forall_mem_cons]
  refine ⟨?_, ?_, ?_, ?_, ?_, ?_, ?_, ?_, nofun⟩
  · exact .two (fun _ _ => by rw [runOp, semAnd])
  · exact .two (fun _ _ => by rw [runOp, semOr])
  · exact .two (fun _ _ => by rw [runOp, semXor])
  · exact .one (fun _ _ => by rw [runOp, semNot])
  · exact .two (fun _ _ => by rw [runOp, semShl])
  · exact .two (fun _ _ => by rw [runOp, semShr]) (hfg := shrWord_eq)
  · exact .two (fun _ _ => by rw [runOp, semSar]) (hfg := sarWord_eq)
  · exact .two (fun _ _ => by rw [runOp, semRol]) (hfg := rolWord_eq)

theorem stackTests_sound : ∀ e ∈ stackTests, e.Sound := by
  simp only [stackTests, List.forall_mem_cons]
  refine ⟨?_, ?_, ?_, ?_, ?_, ?_, ?_, nofun⟩
  · exact .two (fun _ _ => by rw [runOp, semEq]) (hfg := fun _ _ => by exact flagWord_eq_truth _)
  · exact .two (fun _ _ => by rw [runOp, semNe]) (hfg := fun a b => by by_cases h : a = b <;> simp [flagWord, truth, h])
  · exact .two (fun _ _ => by rw [runOp, semLtu]) (hfg := fun _ _ => by exact flagWord_eq_truth _)
  · exact .two (fun _ _ => by rw [runOp, semLts]) (hfg := fun _ _ => by exact flagWord_eq_truth _)
  · exact .two (fun _ _ => by rw [runOp, semGeu]) (hfg := fun _ _ => by exact flagWord_eq_truth _)
  · exact .two (fun _ _ => by rw [runOp, semGes]) (hfg := fun _ _ => by exact flagWord_eq_truth _)
  · exact .one (fun _ _ => by rw [runOp, semZeq]) (hfg := fun _ => by exact flagWord_eq_truth _)

theorem stackOps_sound {e : StackOp} (h : e ∈ stackMoves ++ stackSums ++ stackLogic ++ stackTests) : e.Sound := by
  simp only [List.mem_append] at h
  rcases h with ((h | h) | h) | h
  · exact stackMoves_sound e h
  · exact stackSums_sound e h
  · exact stackLogic_sound e h
  · exact stackTests_sound e h

/-- Settles O34: what completion leaves unchanged, and that the row of each operation completes it. -/
theorem stackInstructionFrame : Obligations.StackInstructionFrame := by
  refine ⟨fun m x b c len nx t h => completed_frame h, fun s x e he hdue b b' c' t hb hr ht => ⟨?_, completed_frame ht⟩⟩
  obtain ⟨hrow, hlen, hplain, hruns⟩ := stackOps_sound he
  rw [← tally_ctx s.chip x x] at hr
  have hc := completes_op hdue (hrow x s) hplain (hruns hb hr)
  rw [hlen] at hc
  exact hc t ht

end Sys2Proof.Machine

/-! PROOFS. The mailbox commands at their acceptance and at their end (R494 to R507). -/
namespace Sys2Proof.Machine

/-! ### Acceptance -/

/-- The rows of the mailbox commands, with their codes. -/
theorem exec_mboxIssue {e : Nat × (Launch → Instr)} (l : Launch) (s : State)
    (h : e ∈ ([(1, .getInfo), (2, .fwBegin), (3, .fwWrite), (4, .fwVerify), (5, .fwActivate), (6, .arbCommit), (7, .cfgRead),
      (8, .cfgWrite), (9, .logRead), (10, .dbgNonce), (11, .dbgUnlock), (12, .dbgLock)] : List (Nat × (Launch → Instr)))) :
    exec (e.2 l) s = onBoth (mboxIssue e.1 l) s := by
  simp only [List.mem_cons, List.not_mem_nil, or_false] at h
  rcases h with rfl | rfl | rfl | rfl | rfl | rfl | rfl | rfl | rfl | rfl | rfl | rfl <;> rfl

/-- A mailbox row launches its command with what `mboxRun` makes of it. -/
theorem launchesTo_mbox {i : Sys2Proof.Instr} {s : State} {code : Nat} {l : Launch} {n : Nvm} {f : Chip → Chip}
    (hi : exec i s = onBoth (mboxIssue code l) s)
    (hrun : mboxRun code (s.nvm, s.chip.beginCmd mboxPage code l) = (n, f (s.chip.beginCmd mboxPage code l))) :
    LaunchesTo i s mboxPage code l n f := by
  intro _ hj
  have : mboxIssue code l (s.nvm, s.chip) = (n, (f (s.chip.beginCmd mboxPage code l)).answer l.m 0) := by
    unfold mboxIssue
    simp only [hj, hrun]
  rw [hi, onBoth, this]; rfl

theorem beginCmd_board (m : Chip) (p : PageId) (code : Nat) (l : Launch) : (m.beginCmd p code l).board = m.board :=
  (beginCmd_step m p code l).keeps (·.board) fun _ => rfl

theorem mboxRun_down {m : Chip} {n : Nvm} {code : Nat} (h : m.board.ostlerUp = false) : mboxRun code (n, m) = (n, m) := by
  unfold mboxRun
  simp [h]

theorem mboxRun_runs {m : Chip} {n : Nvm} {code : Nat} (hup : m.board.ostlerUp = true) (h : m.mboxErr n code = 0) (hc : code ≠ 2) :
    mboxRun code (n, m) = (n, m) := by
  unfold mboxRun
  simp [hup, h, hc]

theorem mboxRun_fwBegin {m : Chip} {n : Nvm} {code : Nat} (hup : m.board.ostlerUp = true) (h : m.mboxErr n code = 0) (hc : code = 2) :
    mboxRun code (n, m) = fwBegin false (m.cmdArg mboxPage) (n, m) := by
  unfold mboxRun
  subst hc
  simp [hup, h]

/-- A command without an argument that is given one (R61). -/
theorem mboxErr_badArg {m : Chip} {n : Nvm} {code : Nat} (hr : m.board.romLoader = false) (hc : code ∈ [1, 4, 10, 11, 12])
    (ha : m.cmdArg mboxPage ≠ 0) : m.mboxErr n code = 0x02 := by
  unfold Chip.mboxErr
  simp only [List.mem_cons, List.not_mem_nil, or_false] at hc
  rcases hc with rfl | rfl | rfl | rfl | rfl <;> simp [hr, ha]

/-! ### The mailbox buffer -/

theorem fillBuf_fold (l : List W64) (m : Chip) (k j : Nat) :
    ((l.foldl (fun (a : Chip × Nat) w => (a.1.setReg (K.mboxMbBuf a.2) w, a.2 + 1)) (m, k)).1).reg (K.mboxMbBuf j) =
      if k ≤ j then (l[j - k]?).getD (m.reg (K.mboxMbBuf j)) else m.reg (K.mboxMbBuf j) := by
  induction l generalizing m k with
  | nil => simp
  | cons w t ih =>
    rw [List.foldl_cons, ih, reg_setReg]
    by_cases hkj : k = j
    · subst hkj; simp
    · have hne : K.mboxMbBuf j ≠ K.mboxMbBuf k := by simp only [K.mboxMbBuf]; omega
      rw [if_neg hne]
      by_cases hk : k < j
      · rw [if_pos (by omega), if_pos (by omega), show j - k = (j - (k + 1)) + 1 by omega, List.getElem?_cons_succ]
      · rw [if_neg (by omega), if_neg (by omega)]

/-- The buffer holds the words it is filled with. -/
theorem fillBuf_word {m : Chip} {l : List W64} {bytes i : Nat} {w : W64} (h : l[i]? = some w) :
    (m.fillBuf l bytes).reg (K.mboxMbBuf i) = w := by
  unfold Chip.fillBuf
  rw [reg_setReg_ne _ _ (by simp only [K.mboxMbBuf, K.mboxMbLen]; omega), fillBuf_fold, if_pos (Nat.zero_le i), Nat.sub_zero, h]; rfl

theorem fillBuf_len (m : Chip) (l : List W64) (bytes : Nat) : (m.fillBuf l bytes).reg K.mboxMbLen = BitVec.ofNat 64 bytes :=
  reg_setReg_same _ _ _

/-- Four words for each entry, one entry after the other. -/
theorem flatMap_four {α β : Type} (f : α → Vector β 4) (l : List α) {i : Nat} {e : α} (h : l[i]? = some e) (j : Fin 4) :
    (l.flatMap fun e => (f e).toList)[4 * i + j]? = some (f e)[j] := by
  induction l generalizing i with
  | nil => cases h
  | cons a t ih =>
    rw [List.flatMap_cons]
    cases i with
    | zero =>
      cases h
      rw [List.getElem?_append_left (by simp)]
      simp
    | succ i =>
      rw [List.getElem?_append_right (by simp; omega), ← ih h]
      congr 1
      simp; omega

/-! ### The end of a command -/

section
variable {s : State} {n' : Nvm} {t : Chip}

/-- The end of a running mailbox command. -/
theorem exec_commandEnd_mbox (hb : s.chip.busy mboxPage = true) (h : mboxEnd (s.nvm, s.chip) = (n', t)) :
    exec (.commandEnd mboxPage) s = .next (s.settled n' t) := by
  have : commandEnd mboxPage (s.nvm, s.chip) = (n', t) := by
    unfold commandEnd
    simp [hb, h, pageCount]
  show onBoth (commandEnd mboxPage) s = _
  rw [onBoth, this]; rfl

theorem mboxEnd_ok {n : Nvm} {m : Chip} (hup : m.board.ostlerUp = true) (h : m.mboxErr n (m.cmdCode mboxPage) = 0) :
    mboxEnd (n, m) = mboxDo (m.cmdCode mboxPage) (n, m) := by
  unfold mboxEnd
  simp [hup, h]

end

/-- FW_BEGIN ends well: its update has begun at its acceptance. -/
theorem mboxEnd_fwBegun {n : Nvm} {m : Chip} (hup : m.board.ostlerUp = true) (hc : m.cmdCode mboxPage = 2) (hu : m.mg.upd.isSome = true) :
    mboxEnd (n, m) = (n, m.endCmd mboxPage 0) := by
  have hdo : mboxDo 2 (n, m) = (n, m.endCmd mboxPage 0) := by
    show mboxOk (if m.mg.upd.isSome then (n, m) else _) = _
    rw [if_pos hu]; rfl
  unfold mboxEnd
  simp [hup, hc, hu, hdo]

/-- A command that ran and failed shows so (R60, R61). -/
theorem mboxFailed_shows (m : Chip) : m.mboxFailed.busy mboxPage = false ∧
    m.mboxFailed.fld (K.pageCmdStat mboxPage.base) F.pageCmdStatErr = 0x04 :=
  ⟨endCmd_busy _ _ _, endCmd_err _ _ (by decide)⟩

theorem logEvent_mg (m : Chip) (c : LogCode) : ∃ l, m.logEvent c = { m with mg := { m.mg with logWait := l } } := by
  unfold Chip.logEvent
  dsimp only
  split <;> exact ⟨_, rfl⟩

theorem nonce_words (v : BitVec 128) : BitVec.ofNat 64 v.toNat = v.extractLsb' 0 64 ∧ BitVec.ofNat 64 (v.toNat / 2 ^ 64) = v.extractLsb' 64 64 := by
  constructor <;> refine BitVec.eq_of_toNat_eq ?_ <;> simp [BitVec.extractLsb'_toNat, Nat.shiftRight_eq_div_pow]

/-- GET_INFO (R505). -/
theorem mboxGetInfo_shows (n : Nvm) (m : Chip) : ∃ t : Chip, mboxGetInfo (n, m) = (n, t.endCmd mboxPage 0) ∧
    (t.reg K.mboxMbLen).toNat ≤ 2048 ∧
    (∀ i < 256, t.reg (K.mboxMbBuf i) = Config.infoWord n.checkA.svn.val n.checkB.svn.val i) ∧ ∀ v, m.mg.runSvn = some v →
      t.reg K.mboxMbResp = BitVec.ofNat 64 (v % 256 + m.fld K.rstBootStat F.rstBootStatImage * 2 ^ 8 + n.arb % 256 * 2 ^ 16) := by
  refine ⟨_, rfl, ?_, fun i hi => ?_, fun v hv => ?_⟩
  · rw [reg_setReg_ne _ _ (by decide), fillBuf_len, BitVec.toNat_ofNat]
    have := Config.infoLen.isLt
    omega
  · rw [reg_setReg_ne _ _ (by simp only [K.mboxMbBuf, K.mboxMbResp]; omega), fillBuf_word]
    simp [hi]
  · rw [reg_setReg_same]
    simp only [hv, Option.getD_some]

/-- LOG_READ (R507). -/
theorem mboxLogRead_shows (n : Nvm) (m : Chip) : let arg := m.cmdArg mboxPage
    ∃ t : Chip, mboxLogRead (n, m) = (n, t.endCmd mboxPage 0) ∧
      t.reg K.mboxMbLen = BitVec.ofNat 64 (32 * min 64 (n.log.length - arg)) ∧
      ∀ i < 64, ∀ e, n.log[arg + i]? = some e → ∀ j : Fin 4, t.reg (K.mboxMbBuf (4 * i + j)) = (Config.logBytes e)[j] := by
  refine ⟨_, rfl, ?_, fun i hi e he j => fillBuf_word (flatMap_four _ _ ?_ j)⟩
  · rw [fillBuf_len, List.length_take, List.length_drop]
  · rw [List.getElem?_take_of_lt hi, List.getElem?_drop, he]

/-- DBG_NONCE (R501). -/
theorem mboxDbgNonce_shows (n : Nvm) (m : Chip) : ∃ (t : Chip) (v : BitVec 128), mboxDbgNonce (n, m) = (n, t.endCmd mboxPage 0) ∧
    t.mg.nonce = some v ∧ t.reg (K.mboxMbBuf 0) = Config.deviceId ∧ t.reg (K.mboxMbBuf 1) = v.extractLsb' 0 64 ∧
    t.reg (K.mboxMbBuf 2) = v.extractLsb' 64 64 ∧ t.reg K.mboxMbLen = 24 := by
  refine ⟨_, _, rfl, rfl, ?_, ?_, ?_, reg_setReg_same _ _ _⟩
  · rw [reg_setReg_ne _ _ (by decide), reg_setReg_ne _ _ (by decide), reg_setReg_ne _ _ (by decide), reg_setReg_same]
  · rw [reg_setReg_ne _ _ (by decide), reg_setReg_ne _ _ (by decide), reg_setReg_same]
    exact (nonce_words _).1
  · rw [reg_setReg_ne _ _ (by decide), reg_setReg_same]
    exact (nonce_words _).2

/-- FW_VERIFY of the mailbox's own update (R495). -/
theorem mboxFwVerify_shows {n : Nvm} {m : Chip} {u : Update} (hu : m.mg.upd = some u) (hp : u.pldm = false) :
    let t := ((m.setReg K.mboxMbResp (BitVec.ofNat 64 n.codeA)).logEvent (.update 4)).setUpd (some { u with verdict := some n.codeA })
    mboxFwVerify (n, m) = (n, if n.codeA = 0 then t.endCmd mboxPage 0 else t.mboxFailed) := by
  intro t
  have hmb : ((m.setReg K.mboxMbResp (BitVec.ofNat 64 n.codeA)).logEvent (.update 4)).mboxUpd = some u := by
    obtain ⟨l, hl⟩ := logEvent_mg (m.setReg K.mboxMbResp (BitVec.ofNat 64 n.codeA)) (.update 4)
    rw [hl]
    unfold Chip.mboxUpd
    simp [hu, hp]
  unfold mboxFwVerify
  dsimp only
  rw [hmb]

theorem mboxFwWrite_some {n : Nvm} {m : Chip} {u : Update} (hu : m.mboxUpd = some u) :
    let r := fwPut u (m.cmdArg mboxPage) (m.bufBytes (m.fld K.mboxMbLen F.mboxMbLenBytes)) (n, m)
    mboxFwWrite (n, m) = (r.1, (r.2.logEvent (.update 3)).endCmd mboxPage 0) := by
  unfold mboxFwWrite
  simp only [hu]; rfl

/-- DBG_UNLOCK (R501). -/
theorem mboxDbgUnlock_eq (n : Nvm) (m : Chip) : let t := m.token (m.bufBytes (m.fld K.mboxMbLen F.mboxMbLenBytes))
    mboxDbgUnlock (n, m) = (n, if t.2 = true then t.1.endCmd mboxPage 0 else t.1.mboxFailed) := rfl

/-- Settles O44: a command of the mailbox is accepted by `mboxRun` and ends by `mboxDo`. -/
theorem mailboxCommandsTakeEffect : Obligations.MailboxCommandsTakeEffect := by
  intro s m n p
  refine ⟨fun e l he => ?_, fun hb hup => ?_⟩
  · have hexec := exec_mboxIssue l s he
    intro b
    refine ⟨fun h => launchesTo_mbox hexec (mboxRun_down (by rw [beginCmd_board]; exact h)), fun h => ⟨fun hne => ?_, fun hz h2 => ?_, fun hz h2 => ?_⟩,
      fun hr h5 => ?_, fun hr hc ha => ?_⟩
    · exact launchesTo_mbox (f := fun b => b.endCmd p (b.mboxErr n e.1)) hexec (mboxRun_err (by rw [beginCmd_board]; exact h) hne)
    · exact launchesTo_mbox hexec (mboxRun_runs (by rw [beginCmd_board]; exact h) hz h2)
    · refine launchesTo_mbox hexec ?_
      have hup : b.board.ostlerUp = true := by rw [beginCmd_board]; exact h
      have harg : b.cmdArg mboxPage = l.arg.toNat := beginCmd_arg m p e.1 l
      exact (mboxRun_fwBegin hup hz h2).trans (by rw [harg]; rfl)
    · exact mboxErr_badCode (.inr ⟨by rw [beginCmd_board]; exact hr, h5⟩)
    · exact mboxErr_badArg (by rw [beginCmd_board]; exact hr) hc (by rw [beginCmd_arg]; exact fun h => ha (BitVec.eq_of_toNat_eq h))
  · intro arg
    refine ⟨fun hc hu => ?_, fun hz => ?_⟩
    · exact exec_commandEnd_mbox hb (mboxEnd_fwBegun hup hc hu)
    · have hend {n' : Nvm} {t : Chip} {c : Nat} (hc : m.cmdCode mboxPage = c) (h : mboxDo c (n, m) = (n', t)) :
          exec (.commandEnd mboxPage) s = .next (s.settled n' t) := by
        rw [← hc] at h
        exact exec_commandEnd_mbox hb ((mboxEnd_ok hup hz).trans h)
      refine ⟨fun hc => ?_, fun u hc hu => hend hc (mboxFwWrite_some hu), fun u hc hu hp => ?_, fun hc ha => hend hc (if_neg (ha.trans_ne (by decide))),
        fun hc ha => hend hc (if_pos ha), fun v hc hv => hend hc ?_, fun hc => hend hc rfl, fun hc => hend hc rfl, fun hc => ?_, fun hc => ?_, fun hc => ?_,
        fun hc => hend hc rfl⟩
      · obtain ⟨t, ht, h⟩ := mboxGetInfo_shows n m
        exact ⟨t, hend hc ht, h⟩
      · have hv := mboxFwVerify_shows (n := n) hu hp
        exact ⟨fun h0 => hend hc (hv.trans (by rw [if_pos h0])), fun h0 => ⟨_, hend hc (hv.trans (by rw [if_neg h0])), mboxFailed_shows _⟩⟩
      · show mboxArbCommit (n, m) = _
        unfold mboxArbCommit
        simp only [hv, Option.getD_some]; rfl
      · obtain ⟨t, ht, h⟩ := mboxLogRead_shows n m
        exact ⟨t, hend hc ht, h⟩
      · obtain ⟨t, v, ht, h⟩ := mboxDbgNonce_shows n m
        exact ⟨t, v, hend hc ht, h⟩
      · have hv := mboxDbgUnlock_eq n m
        exact ⟨fun h => hend hc (hv.trans (by rw [if_pos h])), fun h => ⟨_, hend hc (hv.trans (by rw [if_neg (by simp [h])])), mboxFailed_shows _⟩⟩

end Sys2Proof.Machine

/-! PROOFS. What every step keeps of the chip: the rules (R59, R86, R115, R507). -/
namespace Sys2Proof.Machine

/-- What a step keeps of the part: `State.Kept` without the event log in the flash. -/
structure Chip.Kept (m : Chip) : Prop where
  mem : m.memWf = true
  errq : ∀ e ∈ m.errq, e.2.recs.length ≤ 8
  wait : m.mg.logWait.length ≤ 64
  coaches : ∀ c : Fin 64, (m.coach c).fits
  tasks : ∀ t ∈ m.sh.tasks, t.fits
  images : ∀ i, m.stg.image = some i ∨ m.stg.nextImage = some i → i.fits

theorem state_kept_iff (s : State) : s.Kept ↔ s.nvm.log.length ≤ 4096 ∧ s.chip.Kept :=
  ⟨fun ⟨h1, h2, h3, h4, h5, h6⟩ => ⟨h3.1, h1, h2, h3.2, h4, h5, h6⟩, fun ⟨h0, h1, h2, h3, h4, h5, h6⟩ => ⟨h1, h2, ⟨h0, h3⟩, h4, h5, h6⟩⟩

/-- Kept speaks of these parts alone. -/
theorem kept_congr {m m' : Chip} (hmem : m'.mem = m.mem) (hveils : m'.veils = m.veils) (herrq : m'.errq = m.errq)
    (hwait : m'.mg.logWait = m.mg.logWait) (hcoaches : m'.coaches = m.coaches) (htasks : m'.sh.tasks = m.sh.tasks)
    (himage : m'.stg.image = m.stg.image) (hnext : m'.stg.nextImage = m.stg.nextImage) : m'.Kept ↔ m.Kept := by
  have hc : ∀ c, m'.coach c = m.coach c := fun c => by unfold Chip.coach; rw [hcoaches]
  have hm : m'.memWf = m.memWf := by unfold Chip.memWf; rw [hmem, hveils]
  constructor
  · rintro ⟨h1, h2, h3, h4, h5, h6⟩
    exact ⟨hm ▸ h1, herrq ▸ h2, hwait ▸ h3, fun c => hc c ▸ h4 c, htasks ▸ h5, himage ▸ hnext ▸ h6⟩
  · rintro ⟨h1, h2, h3, h4, h5, h6⟩
    exact ⟨hm ▸ h1, herrq ▸ h2, hwait ▸ h3, fun c => hc c ▸ h4 c, htasks ▸ h5, himage ▸ hnext ▸ h6⟩

/-- A chip that differs only in what is bound by nothing is kept as well. -/
@[simp] theorem kept_frame (m : Chip) {board dom regs staged chocks issued slices obuf badCrc crcHeld crcSeen zeroed cm sends posts xlat
    host sf pwr out tick : _} : Chip.Kept ⟨board, dom, regs, staged, m.errq, chocks, issued, m.mem, m.veils, slices, obuf, badCrc,
    crcHeld, crcSeen, zeroed, m.coaches, cm, sends, posts, m.sh, xlat, host, sf, m.stg, pwr, m.mg, out, tick⟩ ↔ m.Kept :=
  kept_congr rfl rfl rfl rfl rfl rfl rfl rfl

/-- The same with a stage that holds the same images. -/
@[simp] theorem kept_frame_stg (m : Chip) {board dom regs staged chocks issued slices obuf badCrc crcHeld crcSeen zeroed cm sends posts
    xlat host sf xArmed xTags xWritten xRegist xStale xEvents xCurrent xBDuring xMirrorBad xLog xDeferred xPost xPostCmd xPostAt xPostFrom
    xDirtyBytes xRb xRbAt xRbRun xRbFence xHalf xDiverged xHang xThird xGiven xAborted xCounted pwr out tick : _} : Chip.Kept ⟨board, dom,
    regs, staged, m.errq, chocks, issued, m.mem, m.veils, slices, obuf, badCrc, crcHeld, crcSeen, zeroed, m.coaches, cm, sends, posts,
    m.sh, xlat, host, sf, ⟨xArmed, xTags, xWritten, xRegist, xStale, xEvents, xCurrent, xBDuring, xMirrorBad, xLog, xDeferred, xPost,
    xPostCmd, xPostAt, xPostFrom, xDirtyBytes, xRb, xRbAt, xRbRun, xRbFence, m.stg.image, m.stg.nextImage, xHalf, xDiverged, xHang,
    xThird, xGiven, xAborted, xCounted⟩, pwr, m.mg, out, tick⟩ ↔ m.Kept :=
  kept_congr rfl rfl rfl rfl rfl rfl rfl rfl

/-- The same with an ostler that has the same entries to log. -/
@[simp] theorem kept_frame_mg (m : Chip) {board dom regs staged chocks issued slices obuf badCrc crcHeld crcSeen zeroed cm sends posts
    xlat host sf pwr xEid xI3cDyn xRecv xEvents xUpd xRunSvn xRunImage xTrees xNonce xSpdm out tick : _} : Chip.Kept ⟨board, dom, regs,
    staged, m.errq, chocks, issued, m.mem, m.veils, slices, obuf, badCrc, crcHeld, crcSeen, zeroed, m.coaches, cm, sends, posts, m.sh,
    xlat, host, sf, m.stg, pwr, ⟨xEid, xI3cDyn, xRecv, xEvents, xUpd, xRunSvn, xRunImage, xTrees, xNonce, xSpdm, m.mg.logWait⟩, out, tick⟩
    ↔ m.Kept :=
  kept_congr rfl rfl rfl rfl rfl rfl rfl rfl

@[simp] theorem kept_ite (c : Prop) [Decidable c] (a b : Chip) : (if c then a else b).Kept ↔ if c then a.Kept else b.Kept := by
  split <;> rfl

@[simp] theorem kept_dite (c : Prop) [Decidable c] (a : c → Chip) (b : ¬ c → Chip) :
    (if h : c then a h else b h).Kept ↔ if h : c then (a h).Kept else (b h).Kept := by
  split <;> rfl

/-- Updates in turn, each of which leaves alone what is bound. -/
@[simp] theorem kept_foldl {α : Type} (f : Chip → α → Chip) (l : List α) (m : Chip) (h : ∀ a x, (f a x).Kept ↔ a.Kept) :
    (l.foldl f m).Kept ↔ m.Kept := by
  induction l generalizing m with
  | nil => rfl
  | cons x t ih => exact (ih _).trans (h m x)

theorem Chip.Kept.foldl {α : Type} {f : Chip → α → Chip} (h : ∀ a x, a.Kept → (f a x).Kept) (l : List α) {m : Chip} (hm : m.Kept) :
    (l.foldl f m).Kept := by
  induction l generalizing m with
  | nil => exact hm
  | cons x t ih => exact ih (h m x hm)

theorem Chip.Kept.foldl_fst {α β : Type} {f : Chip × β → α → Chip × β} (h : ∀ a x, a.1.Kept → (f a x).1.Kept) (l : List α)
    {s : Chip × β} (hs : s.1.Kept) : (l.foldl f s).1.Kept := by
  induction l generalizing s with
  | nil => exact hs
  | cons x t ih => exact ih (h s x hs)

theorem kept_foldl_fst {α β : Type} {f : Chip × β → α → Chip × β} (h : ∀ p x, (f p x).1.Kept ↔ p.1.Kept) (l : List α) (p : Chip × β) :
    (l.foldl f p).1.Kept ↔ p.1.Kept := by
  induction l generalizing p with
  | nil => rfl
  | cons x t ih => exact (ih _).trans (h p x)

theorem Chip.Kept.getD {o : Option Chip} {m : Chip} (h : m.Kept) (ho : ∀ a, o = some a → a.Kept) : (o.getD m).Kept := by
  cases o with
  | none => exact h
  | some a => exact ho a rfl

@[simp] theorem when_kept (m : Chip) (c : Bool) (f : Chip → Chip) : (m.when c f).Kept ↔ if c then (f m).Kept else m.Kept :=
  kept_ite ..

/-! ### Contexts and coaches -/

/-- The stacks of a context fit and its TRAP_BASE is a multiple of 64 (R86, R115). -/
def Context.fits (k : Context) : Prop := k.stacksFit ∧ k.trapBase &&& 0x3F = 0

/-- A context that differs only in what is bound by nothing fits as well. -/
@[simp] theorem context_fits_frame (k : Context) (pc : W16) (st : CtxState) (wait : Wait) (events task asid cbase clim mbase mlim : W16)
    (status : Status) (trapRa trapSt shdRa shdSt sysRa sysSt dfRa dfSt cause dfCause : W16) (info : Vector W16 4) (entryEn : W16)
    (entry : Vector W16 16) (intPend intEn : W16) (intStamp : Vector W64 6) (cmp : W64) (cmpArmed : Bool) (brakeLimit limitNow : W16)
    (hangSent : Bool) (defMtx defVec : Option DefFault) (defDray : List DefFault) (mstat : W16) (retired : Nat) (looped : Bool)
    (stale : List (Nat × W16)) (entering : Option (Nat × W64)) (stopReq : List HubStop) :
    Context.fits ⟨pc, st, wait, events, task, asid, cbase, clim, mbase, mlim, status, k.main, k.shadow, k.trapBase, trapRa, trapSt, shdRa,
      shdSt, sysRa, sysSt, dfRa, dfSt, cause, dfCause, info, entryEn, entry, intPend, intEn, intStamp, cmp, cmpArmed, brakeLimit, limitNow,
      hangSent, defMtx, defVec, defDray, mstat, retired, looped, stale, entering, stopReq⟩ ↔ k.fits := Iff.rfl

@[simp] theorem context_fits_ite (c : Prop) [Decidable c] (a b : Context) : (if c then a else b).fits ↔ if c then a.fits else b.fits := by
  split <;> rfl

theorem coach_fits_iff (k : Coach) : k.fits ↔ k.fore.fits ∧ k.aft.fits := Iff.rfl

@[simp] theorem coach_fits_fore (k : Coach) : k.fore.fits ∧ k.aft.fits ↔ k.fits := Iff.rfl

@[simp] theorem coach_fits_mk (f a : Context) (w : Vown) (v : VecEngine) (x : MtxArray) (d : Dray) :
    Coach.fits ⟨f, a, w, v, x, d⟩ ↔ f.fits ∧ a.fits := Iff.rfl

theorem coach_fits_side {k : Coach} : k.fits ↔ ∀ a, (k.side a).fits :=
  ⟨fun h a => by cases a; exacts [h.1, h.2], fun h => ⟨h false, h true⟩⟩

theorem Chip.Kept.ctx {m : Chip} (h : m.Kept) (x : Ctx) : (m.ctx x).fits := coach_fits_side.mp (h.coaches x.coach) x.aft

theorem Chip.Kept.setCoach {m : Chip} (h : m.Kept) {c : Fin 64} {k : Coach} (hk : k.fits) : (m.setCoach c k).Kept :=
  ⟨h.mem, h.errq, h.wait, fun d => by
    by_cases hd : d = c
    · subst hd; rwa [coach_setCoach]
    · rw [coach_setCoach_ne _ _ hd]; exact h.coaches d, h.tasks, h.images⟩

theorem setSide_fits {k : Coach} {a : Bool} {v : Context} (h : k.fits) (hv : v.fits) : (k.setSide a v).fits := by
  unfold Coach.setSide
  split
  · exact ⟨h.1, hv⟩
  · exact ⟨hv, h.2⟩

theorem Chip.Kept.setCtx {m : Chip} (h : m.Kept) {x : Ctx} {v : Context} (hv : v.fits) : (m.setCtx x v).Kept :=
  h.setCoach (setSide_fits (h.coaches _) hv)

theorem Chip.Kept.modCtx {m : Chip} (h : m.Kept) {x : Ctx} {f : Context → Context} (hf : (m.ctx x).fits → (f (m.ctx x)).fits) :
    (m.modCtx x f).Kept := h.setCtx (hf (h.ctx x))

/-- A coach whose contexts fit as before. -/
@[simp] theorem setCoach_kept (m : Chip) (c : Fin 64) (k : Coach) (hk : k.fits ↔ (m.coach c).fits) : (m.setCoach c k).Kept ↔ m.Kept := by
  refine ⟨fun h => ⟨h.mem, h.errq, h.wait, fun d => ?_, h.tasks, h.images⟩, fun h => h.setCoach (hk.mpr (h.coaches c))⟩
  have hc := h.coaches d
  by_cases hd : d = c
  · subst hd; rw [coach_setCoach] at hc; exact hk.mp hc
  · rwa [coach_setCoach_ne _ _ hd] at hc

@[simp] theorem modCoach_kept (m : Chip) (c : Fin 64) (f : Coach → Coach) (hf : ∀ k, (f k).fits ↔ k.fits) : (m.modCoach c f).Kept ↔ m.Kept :=
  setCoach_kept m c _ (hf _)

@[simp] theorem modCtx_kept (m : Chip) (x : Ctx) (f : Context → Context) (hf : ∀ k, (f k).fits ↔ k.fits) : (m.modCtx x f).Kept ↔ m.Kept := by
  refine setCoach_kept m _ _ ?_
  have hx := hf (m.ctx x)
  unfold Chip.ctx Coach.side at hx ⊢
  unfold Coach.setSide
  cases h : x.aft <;> simp only [h, coach_fits_iff] at hx ⊢ <;> exact ⟨fun hk => by simp_all, fun hk => by simp_all⟩

end Sys2Proof.Machine

/-! PROOFS. What keeps the bounded parts: error queues, memory cells, stacks, tasks and the stage (R59, R86). -/
namespace Sys2Proof.Machine

/-! ### Error queues -/

theorem Chip.Kept.errQ {m : Chip} (h : m.Kept) (p : PageId) : (m.errQ p).recs.length ≤ 8 := by
  unfold Chip.errQ
  have hq := h.errq
  generalize m.errq = l at hq ⊢
  induction l with
  | nil => exact Nat.zero_le _
  | cons e t ih =>
    rw [smapGet_cons]
    split
    · exact hq e List.mem_cons_self
    · exact ih fun x hx => hq x (List.mem_cons_of_mem _ hx)

theorem Chip.Kept.setErrQ {m : Chip} (h : m.Kept) {p : PageId} {q : ErrQ} (hq : q.recs.length ≤ 8) : (m.setErrQ p q).Kept where
  mem := h.mem
  errq e he := by
    have hold : ∀ x ∈ smapErase (· == p.base) m.errq, x.2.recs.length ≤ 8 := fun x hx => h.errq x (mem_smapErase.mp hx).1
    unfold Chip.setErrQ smapSet at he
    dsimp only at he
    split at he
    · exact hold e he
    · rcases mem_smapInsert.mp he with rfl | he
      · exact hq
      · exact hold e he
  wait := h.wait
  coaches := h.coaches
  tasks := h.tasks
  images := h.images

theorem errQ_push_length {q : ErrQ} (h : q.recs.length ≤ 8) (r : ErrRec) : (q.push r).recs.length ≤ 8 := by
  unfold ErrQ.push
  split
  · exact h
  · simp only [List.length_append, List.length_singleton]; omega

/-! ### Memory -/

/-- A chip whose memory and veils alone differ, with the memory in its canonical form. -/
theorem Chip.Kept.withMem {m m' : Chip} (h : m.Kept) (hm : m'.memWf = true) (he : m'.errq = m.errq) (hg : m'.mg = m.mg)
    (hc : m'.coaches = m.coaches) (ht : m'.sh = m.sh) (hs : m'.stg = m.stg) : m'.Kept where
  mem := hm
  errq := he ▸ h.errq
  wait := hg ▸ h.wait
  coaches c := by unfold Chip.coach; rw [hc]; exact h.coaches c
  tasks := ht ▸ h.tasks
  images := hs ▸ h.images

@[simp] theorem Chip.Kept.setCell {m : Chip} (h : m.Kept) {a : Nat} {v : MByte} : (m.setCell a v).Kept :=
  h.withMem (setCell_wf h.mem a v) rfl rfl rfl rfl rfl

@[simp] theorem Chip.Kept.wrByte {m : Chip} (h : m.Kept) {a : Nat} {b : Byte} : (m.wrByte a b).Kept := h.setCell

@[simp] theorem Chip.Kept.wrBytes {m : Chip} (h : m.Kept) {a : Nat} {l : List Byte} : (m.wrBytes a l).Kept := by
  induction l generalizing m a with
  | nil => exact h
  | cons b t ih => exact ih h.wrByte

@[simp] theorem Chip.Kept.setCells {m : Chip} (h : m.Kept) {lo n : Nat} {f : Nat → MByte} : (m.setCells lo n f).Kept :=
  Chip.Kept.foldl (fun _ _ h => h.setCell) _ h

@[simp] theorem Chip.Kept.zeroMem {m : Chip} (h : m.Kept) {lo n : Nat} : (m.zeroMem lo n).Kept := by
  unfold Chip.zeroMem
  split
  · exact h.setCells
  · exact h.withMem (smapWf_erase h.mem fun k => decide (lo ≤ k ∧ k < lo + n)) rfl rfl rfl rfl rfl

@[simp] theorem Chip.Kept.veilMem {m : Chip} (h : m.Kept) {lo n : Nat} : (m.veilMem lo n).Kept :=
  h.withMem (veilMem_wf h.mem lo n) rfl rfl rfl rfl rfl

@[simp] theorem Chip.Kept.putCells {m : Chip} (h : m.Kept) {lo n : Nat} {l : SMap MByte} : (m.putCells lo n l).Kept :=
  h.zeroMem.withMem (smapWf_setAll _ (h.zeroMem (lo := lo) (n := n)).mem) rfl rfl rfl rfl rfl

@[simp] theorem Chip.Kept.copyMem {m : Chip} (h : m.Kept) {src dst n : Nat} : (m.copyMem src dst n).Kept := by
  unfold Chip.copyMem
  split
  · exact h.setCells
  · exact h.putCells

/-- A save area is filled with values that are the model's choice; it does not lie at address 0. -/
theorem Chip.Kept.markArea {m : Chip} (h : m.Kept) {a : Nat × Nat} (ha : 0 < a.1) : (m.markArea a).1.Kept :=
  h.withMem (markArea_wf h.mem a ha) rfl rfl rfl rfl rfl

@[simp] theorem Chip.Kept.restoreRows {m : Chip} (h : m.Kept) {i : Image} : (m.restoreRows i).Kept :=
  h.withMem (restoreRows_wf h.mem i) rfl rfl rfl rfl rfl

/-! ### Control memory -/

@[simp] theorem keepStale_fits (k : Context) (a : Nat) (old : W16) : (k.keepStale a old).fits ↔ k.fits := by
  simp [Context.keepStale]

@[simp] theorem setCm_kept (m : Chip) (c : Fin 64) (a : Nat) (v : W16) : (m.setCm c a v).Kept ↔ m.Kept := by
  unfold Chip.setCm
  simp [↓kept_frame]

@[simp] theorem setCms_kept (m : Chip) (c : Fin 64) (a : Nat) (l : List W16) : (m.setCms c a l).Kept ↔ m.Kept := by
  induction l generalizing m a with
  | nil => rfl
  | cons v t ih => exact (ih _ _).trans (setCm_kept ..)

/-! ### Tasks, the stage and the ostler -/

@[simp] theorem modShunt_kept (m : Chip) (f : Shunter → Shunter) (hf : ∀ s, (f s).tasks = s.tasks) : (m.modShunt f).Kept ↔ m.Kept :=
  kept_congr rfl rfl rfl rfl rfl (hf _) rfl rfl

@[simp] theorem modStg_kept (m : Chip) (f : StageCtl → StageCtl) (hf : ∀ s, (f s).image = s.image)
    (hn : ∀ s, (f s).nextImage = s.nextImage) : (m.modStg f).Kept ↔ m.Kept :=
  kept_congr rfl rfl rfl rfl rfl rfl (hf _) (hn _)

@[simp] theorem modMg_kept (m : Chip) (f : Ostler → Ostler) (hf : ∀ s, (f s).logWait = s.logWait) : (m.modMg f).Kept ↔ m.Kept :=
  kept_congr rfl rfl rfl (hf _) rfl rfl rfl rfl

@[simp] theorem modXfer_kept (m : Chip) (id : Nat) (f : Xfer → Xfer) : (m.modXfer id f).Kept ↔ m.Kept := modShunt_kept _ _ fun _ => rfl

/-- Other images, each of which fits. -/
theorem Chip.Kept.modStg {m : Chip} (h : m.Kept) {f : StageCtl → StageCtl}
    (hf : ∀ i, (f m.stg).image = some i ∨ (f m.stg).nextImage = some i → i.fits) : (m.modStg f).Kept :=
  ⟨h.mem, h.errq, h.wait, h.coaches, h.tasks, hf⟩

/-- The same image, and none that waits to become it. -/
theorem Chip.Kept.modStg_noNext {m : Chip} (h : m.Kept) {f : StageCtl → StageCtl} (hi : ∀ s, (f s).image = s.image)
    (hn : ∀ s, (f s).nextImage = none) : (m.modStg f).Kept :=
  h.modStg fun i hif => hif.elim (fun e => h.images i (.inl (hi _ ▸ e))) fun e => by cases (hn _).symm.trans e

/-- Other tasks, each of which fits. -/
theorem Chip.Kept.withTasks {m : Chip} (h : m.Kept) {s : Shunter} (hs : ∀ t ∈ s.tasks, t.fits) : Chip.Kept { m with sh := s } :=
  ⟨h.mem, h.errq, h.wait, h.coaches, hs, h.images⟩

/-- A task that has left with the same control state fits as well. -/
@[simp] theorem task_fits_frame (t : Task) {handle queue index ord words prio st order since coach part row cbase side disp code cleared vec
    ending forTask posted solo : _} : Task.fits ⟨handle, queue, index, ord, words, prio, st, order, since, coach, part, row, cbase, side,
    disp, code, cleared, t.saved, vec, ending, forTask, posted, solo⟩ ↔ t.fits := Iff.rfl

@[simp] theorem task_fits_ite (c : Prop) [Decidable c] (a b : Task) : (if c then a else b).fits ↔ if c then a.fits else b.fits := by
  split <;> rfl

/-- A control state that fits, saved in a task. -/
theorem task_fits_saved {t : Task} {v : Saved} (ht : t.saved = some v) (hv : v.ctx.stacksFit) : t.fits := fun w hw => by
  cases ht.symm.trans hw; exact hv

theorem task_fits_none {t : Task} (ht : t.saved = none) : t.fits := fun _ hw => by cases ht.symm.trans hw

theorem Chip.Kept.modTask {m : Chip} (h : m.Kept) {t : W16} {f : Task → Task} (hf : ∀ k, k.fits → (f k).fits) : (m.modTask t f).Kept :=
  h.withTasks fun k hk => by
    obtain ⟨k', hk', rfl⟩ := List.mem_map.mp hk
    split
    · exact hf _ (h.tasks _ hk')
    · exact h.tasks _ hk'

@[simp] theorem modTask_kept (m : Chip) (t : W16) (f : Task → Task) (hf : ∀ k, (f k).fits ↔ k.fits) : (m.modTask t f).Kept ↔ m.Kept := by
  refine ⟨fun h => ⟨h.mem, h.errq, h.wait, h.coaches, fun k hk => ?_, h.images⟩, fun h => h.modTask fun k => (hf k).mpr⟩
  have hk' := h.tasks _ (List.mem_map_of_mem (f := fun t' => if t'.handle = t then f t' else t') hk)
  split at hk'
  · exact (hf k).mp hk'
  · exact hk'

end Sys2Proof.Machine

/-! PROOFS. What the operations on registers, pages and memory keep (R59, R507). -/
namespace Sys2Proof.Machine

/-! ### Registers, events and error queues -/

@[simp] theorem setReg_kept (m : Chip) (a : Nat) (v : W64) : (m.setReg a v).Kept ↔ m.Kept := by simp [Chip.setReg]

@[simp] theorem setFld_kept (m : Chip) (a : Nat) (f : Fld) (v : Nat) : (m.setFld a f v).Kept ↔ m.Kept := by simp [Chip.setFld]

@[simp] theorem count_kept (m : Chip) (a : Nat) (n : Nat) : (m.count a n).Kept ↔ m.Kept := by simp [Chip.count]

@[simp] theorem countFld_kept (m : Chip) (a : Nat) (f : Fld) (n : Nat) : (m.countFld a f n).Kept ↔ m.Kept := by simp [Chip.countFld]

@[simp] theorem emit_kept (m : Chip) (o : Output) : (m.emit o).Kept ↔ m.Kept := by simp [Chip.emit]

@[simp] theorem next_kept (m : Chip) : m.next.Kept ↔ m.Kept := by simp [Chip.next]

@[simp] theorem setDom_kept (m : Chip) (d : Nat) (f : Domain → Domain) : (m.setDom d f).Kept ↔ m.Kept := by simp [Chip.setDom]

@[simp] theorem clocks_kept (m : Chip) (p : Nat → Bool) (run : Bool) : (m.clocks p run).Kept ↔ m.Kept := by simp [Chip.clocks]

@[simp] theorem clearDoms_kept (m : Chip) (p : Nat → Bool) : (m.clearDoms p).Kept ↔ m.Kept := by simp [Chip.clearDoms]

/-! ### Pages and their commands -/

@[simp] theorem sendMsix_kept (m : Chip) (f vec : Nat) : (m.sendMsix f vec).Kept ↔ m.Kept := by simp [Chip.sendMsix]

@[simp] theorem pageMessage_kept (m : Chip) (p : PageId) : (m.pageMessage p).Kept ↔ m.Kept := by simp [Chip.pageMessage]

@[simp] theorem event_kept (m : Chip) (p : PageId) (i : Nat) : (m.event p i).Kept ↔ m.Kept := by simp [Chip.event]

@[simp] theorem setEvtEn_kept (m : Chip) (p : PageId) (v : W64) : (m.setEvtEn p v).Kept ↔ m.Kept := by simp [Chip.setEvtEn]

@[simp] theorem bumpGen_kept (m : Chip) (p : PageId) : (m.bumpGen p).Kept ↔ m.Kept := by simp [Chip.bumpGen]

@[simp] theorem syncRun_kept (m : Chip) (p : PageId) : (m.syncRun p).Kept ↔ m.Kept := by simp [Chip.syncRun]

@[simp] theorem syncCoach_kept (m : Chip) (c : Nat) : (m.syncCoach c).Kept ↔ m.Kept := by simp [Chip.syncCoach]

@[simp] theorem Chip.Kept.record {m : Chip} (h : m.Kept) {p : PageId} {code : Nat} {master : BitVec 16} {detail addr : Option Nat}
    {d : Nat} : (m.record p code master detail addr d).Kept := by
  unfold Chip.record
  have hq := h.setErrQ (p := p) (errQ_push_length (h.errQ p)
    ⟨BitVec.ofNat 8 code, master, BitVec.ofNat 32 (detail.getD (Config.freeWord m.tick).toNat),
      BitVec.ofNat 64 (addr.getD (Config.freeWord (m.tick + 1)).toNat), m.stamp d, false⟩)
  simp [hq]

@[simp] theorem Chip.Kept.popErr {m : Chip} (h : m.Kept) {p : PageId} : (m.popErr p).Kept := by
  unfold Chip.popErr
  dsimp only
  have hq := h.errQ p
  split
  · exact h
  · next hr =>
    have ht := h.setErrQ (p := p) (q := { m.errQ p with recs := _ }) (Nat.le_of_succ_le (by rwa [hr] at hq))
    simpa using ht

@[simp] theorem Chip.Kept.chock {m : Chip} (hk : m.Kept) {p : PageId} {master : BitVec 16} {cause addr d : Nat} :
    (m.chock p master cause addr d).Kept := by simp [Chip.chock, hk]

@[simp] theorem release_kept (m : Chip) (p : PageId) (master : BitVec 16) : (m.release p master).Kept ↔ m.Kept := by simp [Chip.release]

@[simp] theorem refuse_kept (m : Chip) (p : PageId) (master : BitVec 16) : (m.refuse p master).Kept ↔ m.Kept := by simp [Chip.refuse]

@[simp] theorem answer_kept (m : Chip) (master : BitVec 16) (code : Nat) : (m.answer master code).Kept ↔ m.Kept := by simp [Chip.answer]

@[simp] theorem Chip.Kept.rejectWrite {m : Chip} (hk : m.Kept) {p : PageId} {w : Wr} {j : Judged} :
    (m.rejectWrite p w j).Kept := by
  unfold Chip.rejectWrite
  (repeat' split) <;> simp +contextual [hk]

@[simp] theorem beginCmd_kept (m : Chip) (p : PageId) (code : Nat) (l : Launch) : (m.beginCmd p code l).Kept ↔ m.Kept := by
  simp [Chip.beginCmd]

@[simp] theorem endCmd_kept (m : Chip) (p : PageId) (err : Nat) : (m.endCmd p err).Kept ↔ m.Kept := by simp [Chip.endCmd]

@[simp] theorem waitBehind_kept (m : Chip) (l : Fin 2) (p : Posted) : (m.waitBehind l p).Kept ↔ m.Kept := by simp [Chip.waitBehind]

theorem Chip.Kept.issue {m : Chip} (h : m.Kept) {p : PageId} {code : Nat} {l : Launch} {run : Launch → Chip → Chip}
    (hrun : ∀ a : Chip, a.Kept → (run l a).Kept) : (m.issue p code l run).Kept := by
  unfold Chip.issue
  dsimp only
  split
  · simp [h]
  · split
    · simp [hrun, h]
    · simp [h]

@[simp] theorem dropStaged_kept (m : Chip) (p : PageId) : (m.dropStaged p).Kept ↔ m.Kept := by simp [Chip.dropStaged]

@[simp] theorem applyStaged_kept (m : Chip) (p : PageId) : (m.applyStaged p).Kept ↔ m.Kept := by simp [Chip.applyStaged]

/-! ### Contexts -/

@[simp] theorem report_kept (m : Chip) (e : RecEvent) : (m.report e).Kept ↔ m.Kept := by simp [Chip.report]

@[simp] theorem sendTo_kept (m : Chip) (e : Send) : (m.sendTo e).Kept ↔ m.Kept := by simp [Chip.sendTo]

@[simp] theorem setEvents_kept (m : Chip) (x : Ctx) (bits : W16) : (m.setEvents x bits).Kept ↔ m.Kept := by simp [Chip.setEvents]

/-! ### Device addresses and registrations -/

@[simp] theorem setTag_kept (m : Chip) (g v : Nat) : (m.setTag g v).Kept ↔ m.Kept := by simp [Chip.setTag]

@[simp] theorem setWritten_kept (m : Chip) (g : Nat) : (m.setWritten g).Kept ↔ m.Kept := by simp [Chip.setWritten]

@[simp] theorem Chip.Kept.stageRecord {m : Chip} (hk : m.Kept) {code : Nat} {master : BitVec 16} {detail addr : Option Nat} :
    (m.stageRecord code master detail addr).Kept := by simp [Chip.stageRecord, hk]

@[simp] theorem regUsed_kept (m : Chip) : m.regUsed.Kept ↔ m.Kept := by simp [Chip.regUsed]

@[simp] theorem endReg_kept (m : Chip) (r : Registration) : (m.endReg r).Kept ↔ m.Kept := by simp [Chip.endReg]

@[simp] theorem Chip.Kept.loseRegs {m : Chip} (hk : m.Kept) {master : BitVec 16} {g : Nat} : (m.loseRegs master g).Kept :=
  Chip.Kept.foldl (fun _ _ hk => by simp [hk]) _ hk

@[simp] theorem Chip.Kept.tagGranule {m : Chip} (hk : m.Kept) {master : BitVec 16} {g : Nat} {cls : Option Nat} :
    (m.tagGranule master g cls).Kept := by
  unfold Chip.tagGranule
  split <;> simp [hk]

@[simp] theorem Chip.Kept.tagWrite {m : Chip} (hk : m.Kept) {master : BitVec 16} {a n : Nat} {cls : Option Nat} :
    (m.tagWrite master a n cls).Kept := by simp +contextual [Chip.tagWrite, hk, Chip.Kept.foldl]

@[simp] theorem Chip.Kept.scratchRead {m : Chip} (hk : m.Kept) {t : W16} {a n : Nat} : (m.scratchRead t a n).Kept := by
  unfold Chip.scratchRead
  (repeat' split) <;> simp +contextual [hk, Chip.Kept.foldl]

/-! ### Memory -/

@[simp] theorem Chip.Kept.unpowered {m : Chip} (hk : m.Kept) {master : BitVec 16} {c p : Nat} : (m.unpowered master c p).Kept := by
  simp [Chip.unpowered, hk]

@[simp] theorem Chip.Kept.coreRead {m : Chip} (hk : m.Kept) {master : BitVec 16} {c p off n : Nat} :
    (m.coreRead master c p off n).1.Kept := by
  unfold Chip.coreRead
  split <;> simp [hk]

@[simp] theorem Chip.Kept.coreWrite {m : Chip} (hk : m.Kept) {master : BitVec 16} {c p off : Nat} {l : List Byte} :
    (m.coreWrite master c p off l).Kept := by simp [Chip.coreWrite, hk]

@[simp] theorem Chip.Kept.rowAccess {m : Chip} (hk : m.Kept) {master : BitVec 16} {c a : Nat} {write : Bool} :
    (m.rowAccess master c a write).Kept := by simp [Chip.rowAccess, hk]

@[simp] theorem Chip.Kept.followPart {m : Chip} (h : m.Kept) {c : Fin 64} : (m.followPart c).Kept := by
  refine Chip.Kept.foldl (fun m a h => ?_) _ h
  dsimp only
  (repeat' split) <;> simp [h]

@[simp] theorem obufWrite_kept (m : Chip) (c f b : Nat) (l : List Byte) : (m.obufWrite c f b l).Kept ↔ m.Kept := by simp [Chip.obufWrite]

@[simp] theorem obufZero_kept (m : Chip) (c : Nat) : (m.obufZero c).Kept ↔ m.Kept := by simp [Chip.obufZero]

@[simp] theorem modSlice_kept (m : Chip) (s : Nat) (f : Slice → Slice) : (m.modSlice s f).Kept ↔ m.Kept := by simp [Chip.modSlice]

@[simp] theorem writeBack_kept (m : Chip) (s l : Nat) : (m.writeBack s l).Kept ↔ m.Kept := by simp [Chip.writeBack]

@[simp] theorem displace_kept (m : Chip) (s : Nat) (d : DLine) : (m.displace s d).Kept ↔ m.Kept := by
  unfold Chip.displace
  dsimp only
  (repeat' split) <;> simp

@[simp] theorem allocate_kept (m : Chip) (s n : Nat) (dirty pf : Bool) : (m.allocate s n dirty pf).Kept ↔ m.Kept := by
  unfold Chip.allocate
  dsimp only
  (repeat' split) <;> simp

@[simp] theorem depotHit_kept (m : Chip) (s n : Nat) (d : DLine) (write : Bool) : (m.depotHit s n d write).Kept ↔ m.Kept := by
  simp [Chip.depotHit]

@[simp] theorem prefetch_kept (m : Chip) (s l : Nat) (d : Int) : (m.prefetch s l d).Kept ↔ m.Kept := by simp [Chip.prefetch]

@[simp] theorem stackBytes_kept (m : Chip) (s a n : Nat) (write : Bool) : (m.stackBytes s a n write).Kept ↔ m.Kept := by
  simp [Chip.stackBytes]

@[simp] theorem train_kept (m : Chip) (s : Nat) (master : BitVec 16) (l : Nat) : (m.train s master l).Kept ↔ m.Kept := by
  unfold Chip.train
  dsimp only
  (repeat' split) <;> simp

@[simp] theorem depotTouch_kept (m : Chip) (master : BitVec 16) (cls a n : Nat) (write noalloc : Bool) :
    (m.depotTouch master cls a n write noalloc).Kept ↔ m.Kept := by
  unfold Chip.depotTouch
  dsimp only
  (repeat' split) <;> simp

@[simp] theorem Chip.Kept.crcRecord {m : Chip} (hk : m.Kept) {a detail : Nat} {master : BitVec 16} :
    (m.crcRecord a detail master).Kept := by simp [Chip.crcRecord, hk]

@[simp] theorem Chip.Kept.crcError {m : Chip} (hk : m.Kept) {a detail : Nat} {master : BitVec 16} :
    (m.crcError a detail master).Kept := by simp [Chip.crcError, hk]

@[simp] theorem markBad_kept (m : Chip) (b : Nat) : (m.markBad b).Kept ↔ m.Kept := by simp [Chip.markBad]

@[simp] theorem Chip.Kept.mergeRead {m : Chip} (hk : m.Kept) {b fails : Nat} {master : BitVec 16} :
    (m.mergeRead b fails master).Kept := by simp [Chip.mergeRead, hk]

@[simp] theorem Chip.Kept.hbmWrite {m : Chip} (hk : m.Kept) {a : Nat} {l : List Byte} {master : BitVec 16}
    {fails : Nat × Nat} : (m.hbmWrite a l master fails).Kept := by simp +contextual [Chip.hbmWrite, hk, Chip.Kept.foldl]

@[simp] theorem Chip.Kept.crcNote {m : Chip} (hk : m.Kept) {master : BitVec 16} {write noalloc : Bool} {a n : Nat} :
    (m.crcNote master write noalloc a n).Kept := by simp +contextual [Chip.crcNote, hk, Chip.Kept.foldl]

@[simp] theorem Chip.Kept.lineFill {m : Chip} (hk : m.Kept) {s l : Nat} : (m.lineFill s l).Kept := by
  unfold Chip.lineFill
  (repeat' split) <;> simp +contextual [hk, Chip.Kept.foldl]

@[simp] theorem Chip.Kept.addrRange {m : Chip} (hk : m.Kept) {s : Nat} {master : BitVec 16} {a : Nat} {shape : Bool} :
    (m.addrRange s master a shape).Kept := by simp [Chip.addrRange, hk]

@[simp] theorem Chip.Kept.devRead {m : Chip} (hk : m.Kept) {master : BitVec 16} {cls a n : Nat} {noalloc : Bool} :
    (m.devRead master cls a n noalloc).1.Kept := by
  unfold Chip.devRead
  dsimp only
  (repeat' split) <;> simp [hk]

@[simp] theorem Chip.Kept.mirrorWrite {m : Chip} (hk : m.Kept) {master : BitVec 16} {a n : Nat} {rc : Option Nat} :
    (m.mirrorWrite master a n rc).Kept := by simp +contextual [Chip.mirrorWrite, hk, Chip.Kept.foldl]

@[simp] theorem Chip.Kept.devWrite {m : Chip} (hk : m.Kept) {master : BitVec 16} {cls a : Nat} {l : List Byte}
    {noalloc : Bool} {rc : Option Nat} : (m.devWrite master cls a l noalloc rc).1.Kept := by
  unfold Chip.devWrite
  dsimp only
  (repeat' split) <;> simp [hk]

@[simp] theorem Chip.Kept.badShape {m : Chip} (hk : m.Kept) {master : BitVec 16} {a : Nat} {write : Bool} :
    (m.badShape master a write).Kept := by
  unfold Chip.badShape
  split <;> simp [hk]

@[simp] theorem Chip.Kept.fabRead {m : Chip} (hk : m.Kept) {master : BitVec 16} {cls a n : Nat} {noalloc : Bool} :
    (m.fabRead master cls a n noalloc).1.Kept := by
  unfold Chip.fabRead
  split <;> simp [hk]

@[simp] theorem Chip.Kept.fabWrite {m : Chip} (hk : m.Kept) {master : BitVec 16} {cls a : Nat} {l : List Byte}
    {noalloc : Bool} {rc : Option Nat} : (m.fabWrite master cls a l noalloc rc).1.Kept := by
  unfold Chip.fabWrite
  split <;> simp [hk]

@[simp] theorem Chip.Kept.holdAccess {m : Chip} (h : m.Kept) {q : HeldReq} : (m.holdAccess q).Kept := by
  unfold Chip.holdAccess
  split
  · split <;> simp [h]
  · simp +contextual [h, Chip.Kept.foldl]

/-! ### The stage's log -/

@[simp] theorem Chip.Kept.stageWrite {m : Chip} (hk : m.Kept) {cls a : Nat} {l : List Byte} : (m.stageWrite cls a l).Kept := by
  simp [Chip.stageWrite, hk]

@[simp] theorem Chip.Kept.areaWrite {m : Chip} (h : m.Kept) {a : Nat} {l : List Byte} : (m.areaWrite a l).Kept := by
  refine Chip.Kept.foldl (fun m p h => ?_) _ h
  dsimp only
  split <;> simp [h]

@[simp] theorem requestPost_kept (m : Chip) : m.requestPost.Kept ↔ m.Kept := by simp [Chip.requestPost]

@[simp] theorem checkFilling_kept (m : Chip) : m.checkFilling.Kept ↔ m.Kept := by simp [Chip.checkFilling]

@[simp] theorem Chip.Kept.logAppend {m : Chip} (hk : m.Kept) {r : LogRec} : (m.logAppend r).Kept := by simp [Chip.logAppend, hk]

@[simp] theorem Chip.Kept.logPut {m : Chip} (hk : m.Kept) {r : LogRec} : (m.logPut r).Kept := by simp [Chip.logPut, hk]

@[simp] theorem Chip.Kept.logRec {m : Chip} (hk : m.Kept) {r : LogRec} : (m.logRec r).Kept := by simp [Chip.logRec, hk]

@[simp] theorem logReach_kept (m : Chip) : m.logReach.Kept ↔ m.Kept := by simp [Chip.logReach]

@[simp] theorem Chip.Kept.logData {m : Chip} (hk : m.Kept) {kind : LogKind} {master : BitVec 16} {task : W16} {value : Nat}
    {payload : List Byte} : (m.logData kind master task value payload).Kept := by simp [Chip.logData, hk]

@[simp] theorem logBlocked_kept (m : Chip) : m.logBlocked.Kept ↔ m.Kept := by simp [Chip.logBlocked]

theorem Chip.Kept.markOut {m : Chip} (hk : m.Kept) {kind : LogKind} {master : BitVec 16} {task : W16} {value : Nat} {mo : Chip}
    (e : m.markOut kind master task value = some mo) : mo.Kept := by
  unfold Chip.markOut at e
  dsimp only at e
  (repeat' split at e) <;> cases e <;> simp [hk]

@[simp] theorem markWait_kept (m : Chip) : m.markWait.Kept ↔ m.Kept := by simp [Chip.markWait]

@[simp] theorem markDiverged_kept (m : Chip) (task : W16) : (m.markDiverged task).Kept ↔ m.Kept := by simp [Chip.markDiverged]

/-! ### Operands -/

@[simp] theorem storeWords_kept (m : Chip) (x : Ctx) (a : W16) (ws : List W16) : (m.storeWords x a ws).Kept ↔ m.Kept := by
  simp [Chip.storeWords]

end Sys2Proof.Machine

/-! PROOFS. What the requests of the part and its engines keep. -/
namespace Sys2Proof.Machine

/-! ### The board, clocks and resets -/

theorem drainLog_log_length {n : Nvm} (hn : n.log.length ≤ 4096) (m : Chip) : (drainLog n m).1.log.length ≤ 4096 := by
  unfold drainLog
  split
  · exact hn
  · dsimp only
    rw [List.length_drop]
    omega

@[simp] theorem Chip.Kept.drainLog {m : Chip} (h : m.Kept) {n : Nvm} : (drainLog n m).2.Kept := by
  unfold Sys2Proof.Machine.drainLog
  split
  · exact h
  · exact ⟨h.mem, h.errq, Nat.zero_le _, h.coaches, h.tasks, h.images⟩

@[simp] theorem Chip.Kept.logEvent {m : Chip} (h : m.Kept) {c : LogCode} : (m.logEvent c).Kept := by
  unfold Chip.logEvent
  dsimp only
  split
  · exact h
  · next hc =>
    refine ⟨h.mem, h.errq, ?_, h.coaches, h.tasks, h.images⟩
    simp only [Bool.or_eq_true, decide_eq_true_eq, not_or] at hc
    simp only [List.length_append, List.length_singleton]
    omega

@[simp] theorem sendPlat_kept (m : Chip) (e : PlatEvent) : (m.sendPlat e).1.Kept ↔ m.Kept :=
  kept_foldl_fst (fun p _ => by split <;> simp) _ (m, e)

@[simp] theorem Chip.Kept.sendEvents {m : Chip} (h : m.Kept) : m.sendEvents.Kept := by
  unfold Chip.sendEvents
  have hf := Chip.Kept.foldl_fst (s := (m, ([] : List PlatEvent)))
    (f := fun a e => ((a.1.sendPlat e).1, a.2 ++ [(a.1.sendPlat e).2])) (fun a e ha => by simp [ha]) m.mg.events h
  exact (kept_frame_mg _).mpr hf

@[simp] theorem platform_kept (m : Chip) (k : PlatKind) : (m.platform k).Kept ↔ m.Kept := by simp [Chip.platform]

@[simp] theorem tellState_kept (m : Chip) : m.tellState.Kept ↔ m.Kept := by simp [Chip.tellState]

@[simp] theorem modBoard_kept (m : Chip) (f : Board → Board) : (m.modBoard f).Kept ↔ m.Kept := by simp [Chip.modBoard]

theorem reset_kept : Chip.reset.Kept := ((state_kept_iff _).mp state_reset_kept).2

@[simp] theorem powerOn_kept (m : Chip) (v : Bool) : (m.powerOn v).Kept := (kept_frame _).mpr reset_kept

@[simp] theorem moduleState_kept (m : Chip) : m.moduleState.Kept := (kept_frame _).mpr reset_kept

@[simp] theorem addCause_kept (m : Chip) (c : ModCause) : (m.addCause c).Kept ↔ m.Kept := by simp [Chip.addCause]

@[simp] theorem Chip.Kept.moduleEnter {m : Chip} (hk : m.Kept) {c : ModCause} : (m.moduleEnter c).Kept := by simp [Chip.moduleEnter, hk]

@[simp] theorem causeClears_kept (m : Chip) (p : ModCause → Bool) : (m.causeClears p).Kept ↔ m.Kept := by simp [Chip.causeClears]

@[simp] theorem Chip.Kept.resetPages {m : Chip} (h : m.Kept) {lo hi : Nat} : (m.resetPages lo hi).Kept :=
  ⟨h.mem, fun e he => h.errq e (List.mem_of_mem_filter he), h.wait, h.coaches, h.tasks, h.images⟩

@[simp] theorem Chip.Kept.beginStop {m : Chip} (hk : m.Kept) {c : ModCause} {src : Nat} : (m.beginStop c src).Kept := by
  simp [Chip.beginStop, hk]

@[simp] theorem setPhase_kept (m : Chip) (n : Nat) : (m.setPhase n).Kept ↔ m.Kept := by simp [Chip.setPhase]

@[simp] theorem holdFailure_kept (m : Chip) (bit : Fld) (unit : Nat) : (m.holdFailure bit unit).Kept ↔ m.Kept := by simp [Chip.holdFailure]

@[simp] theorem syncHub_kept (m : Chip) : m.syncHub.Kept ↔ m.Kept := by simp [Chip.syncHub]

@[simp] theorem Chip.Kept.ostlerRuns {m : Chip} (hk : m.Kept) {n : Nvm} {image : Option (Nat × SMap Byte)} :
    (m.ostlerRuns n image).Kept := by simp [Chip.ostlerRuns, hk]

@[simp] theorem Chip.Kept.ostlerStart {m : Chip} (hk : m.Kept) {n : Nvm} {a b : Verdict} : (m.ostlerStart n a b).1.Kept := by
  unfold Chip.ostlerStart
  (repeat' split) <;> simp +contextual [hk]

/-! ### What survives every reset, with the chip -/

/-- What a command leaves of the pair: the event log within its bound, the chip kept. -/
def keptBoth (p : Nvm × Chip) : Prop := p.1.log.length ≤ 4096 ∧ p.2.Kept

@[simp] theorem keptBoth_mk (n : Nvm) (m : Chip) : keptBoth (n, m) ↔ n.log.length ≤ 4096 ∧ m.Kept := Iff.rfl

theorem keptBoth_drainLog {p : Nvm × Chip} (h : keptBoth p) : keptBoth (drainLog p.1 p.2) := ⟨drainLog_log_length h.1 p.2, h.2.drainLog⟩

/-! ### Requests to the host and to peers -/

@[simp] theorem syncHeld_kept (m : Chip) : m.syncHeld.Kept ↔ m.Kept := by simp [Chip.syncHeld]

@[simp] theorem emitWrite_kept (m : Chip) (f a : Nat) (l : List Byte) : (m.emitWrite f a l).Kept ↔ m.Kept := by simp [Chip.emitWrite]

@[simp] theorem emitRead_kept (m : Chip) (f a n id : Nat) (tags : List Nat) : (m.emitRead f a n id tags).Kept ↔ m.Kept := by
  simp [Chip.emitRead]

@[simp] theorem takeSer_kept (m : Chip) : m.takeSer.1.Kept ↔ m.Kept := by simp [Chip.takeSer]

@[simp] theorem hostWrite_kept (m : Chip) (f : Option Nat) (a : Nat) (l : List Byte) (ser : Nat) (kind : HeldKind) :
    (m.hostWrite f a l ser kind).Kept ↔ m.Kept := by simp [Chip.hostWrite]

@[simp] theorem pumpReads_kept (m : Chip) : m.pumpReads.Kept ↔ m.Kept := by simp [Chip.pumpReads]

@[simp] theorem Chip.Kept.pumpHeld {m : Chip} (h : m.Kept) {l : Nat} : (m.pumpHeld l).Kept := by
  unfold Chip.pumpHeld
  simp only [syncHeld_kept]
  refine (kept_frame _).mpr (Chip.Kept.foldl_fst (fun a w ha => ?_) _ h)
  split <;> simp [ha]

@[simp] theorem pumpMsix_kept (m : Chip) : m.pumpMsix.Kept ↔ m.Kept := by simp [Chip.pumpMsix]

@[simp] theorem Chip.Kept.pumpLink {m : Chip} (hk : m.Kept) {l : Nat} : (m.pumpLink l).Kept := by simp [Chip.pumpLink, hk]

@[simp] theorem hostRead_kept (m : Chip) (f : Option Nat) (a n : Nat) (master : BitVec 16) (task : W16) (va : Nat)
    (dest : ReadDest) (ser : Nat) : (m.hostRead f a n master task va dest ser).Kept ↔ m.Kept := by simp [Chip.hostRead]

@[simp] theorem modPort_kept (m : Chip) (p : Nat) (f : SfPort → SfPort) : (m.modPort p f).Kept ↔ m.Kept := by simp [Chip.modPort]

@[simp] theorem setEth_kept (m : Chip) (n : Nat) (e : LinkEnd) : (m.setEth n e).Kept ↔ m.Kept := by simp [Chip.setEth]

@[simp] theorem countTx_kept (m : Chip) (p : Nat) (k : Packet) : (m.countTx p k).Kept ↔ m.Kept := by simp [Chip.countTx]

@[simp] theorem flitSend_kept (m : Chip) (p : Nat) (w : TxWait) : (m.flitSend p w).Kept ↔ m.Kept := by simp [Chip.flitSend]

@[simp] theorem linkFlit_kept (m : Chip) (p : Nat) (good : Bool) (lseq : BitVec 12) : (m.linkFlit p good lseq).Kept ↔ m.Kept := by
  simp [Chip.linkFlit]

@[simp] theorem freeSlot_kept (m : Chip) (p ch : Nat) : (m.freeSlot p ch).Kept ↔ m.Kept := by simp [Chip.freeSlot]

@[simp] theorem ethSend_kept (m : Chip) (p n : Nat) (w : TxWait) : (m.ethSend p n w).Kept ↔ m.Kept := by simp [Chip.ethSend]

@[simp] theorem portSend_kept (m : Chip) (p : Nat) (w : TxWait) : (m.portSend p w).Kept ↔ m.Kept := by
  unfold Chip.portSend
  dsimp only
  (repeat' split) <;> simp

@[simp] theorem pumpPortN_kept (m : Chip) (p n : Nat) : (m.pumpPortN p n).Kept ↔ m.Kept := by
  induction n generalizing m with
  | zero => rfl
  | succ n ih =>
    unfold Chip.pumpPortN
    dsimp only
    split <;> simp [ih]

@[simp] theorem pumpPort_kept (m : Chip) (p : Nat) : (m.pumpPort p).Kept ↔ m.Kept := by simp [Chip.pumpPort]

@[simp] theorem portPut_kept (m : Chip) (p : Nat) (w : TxWait) : (m.portPut p w).Kept ↔ m.Kept := by simp [Chip.portPut]

theorem choosePort_kept {m : Chip} {n : Nat} {c : W64} {e : Nat × Chip} (he : m.choosePort n c = some e) : e.2.Kept ↔ m.Kept := by
  unfold Chip.choosePort at he
  split at he
  · cases he
  · split at he <;> cases he <;> simp

@[simp] theorem addOut_kept (m : Chip) (o : CplOut) : (m.addOut o).Kept ↔ m.Kept := by simp [Chip.addOut]

theorem Chip.Kept.sendUnder {m : Chip} (h : m.Kept) {n : Nat} {c w : W64} {k : Packet} {ser : Option Nat} {o : Option CplOut} {mo : Chip}
    (e : m.sendUnder n c w k ser o = some mo) : mo.Kept := by
  unfold Chip.sendUnder at e
  obtain ⟨p, hp, rfl⟩ := Option.map_eq_some_iff.mp e
  have hk := (choosePort_kept hp).mpr h
  split <;> simp [hk]

theorem Chip.Kept.sendPeer {m : Chip} (hk : m.Kept) {n : Nat} {k : Packet} {ser : Option Nat} {o : Option CplOut} {mo : Chip}
    (e : m.sendPeer n k ser o = some mo) : mo.Kept := hk.sendUnder e

@[simp] theorem Chip.Kept.peerErr {m : Chip} (hk : m.Kept) {n win off : Nat} {master : BitVec 16} {status : Nat} :
    (m.peerErr n win off master status).Kept := by simp [Chip.peerErr, hk]

@[simp] theorem Chip.Kept.writeOne {m : Chip} (hk : m.Kept) {w : CplWait} {notify : Bool} : (m.writeOne w notify).Kept := by
  unfold Chip.writeOne
  dsimp only
  split
  · next e => exact Chip.Kept.sendPeer (by simp [hk]) e
  · simp [hk]

@[simp] theorem Chip.Kept.pumpPeer {m : Chip} (h : m.Kept) {n : Nat} : (m.pumpPeer n).Kept := by
  refine Chip.Kept.foldl_fst (fun a w ha => ?_) _ h
  dsimp only
  split
  · split
    · split
      · next hm => simp [ha.markOut hm]
      · simp [ha]
    · simp [ha]
  · exact ha

@[simp] theorem Chip.Kept.coupleWrite {m : Chip} (hk : m.Kept) {n win off : Nat} {l : List Byte} {master : BitVec 16}
    {task : W16} {notify : Bool} {dest : Option ReadDest} {cls ser : Nat} :
    (m.coupleWrite n win off l master task notify dest cls ser).Kept := by simp [Chip.coupleWrite, hk]

theorem Chip.Kept.readOne {m : Chip} (hk : m.Kept) {n win off len : Nat} {master : BitVec 16} {task : W16} {va : Nat} {dest : ReadDest}
    {cls ser : Nat} {part : Option (Nat × Nat)} {mo : Chip} (e : m.readOne n win off len master task va dest cls ser part = some mo) :
    mo.Kept := by
  unfold Chip.readOne at e
  dsimp only at e
  split at e
  · cases e
    simp [hk]
  · exact hk.sendPeer e

@[simp] theorem Chip.Kept.coupleRead {m : Chip} (h : m.Kept) {n win off len : Nat} {master : BitVec 16} {task : W16} {va : Nat}
    {dest : ReadDest} {cls ser : Nat} : (m.coupleRead n win off len master task va dest cls ser).1.Kept := by
  unfold Chip.coupleRead
  dsimp only
  split
  · simp [h]
  · split
    · split
      · next hr => exact h.readOne hr
      · simp [h]
    · split
      · simp [h]
      · refine Chip.Kept.foldl (fun a e ha => ?_) _ (by simp [h])
        cases hr : a.readOne n win e.1.1 e.1.2 master task va dest cls ser (some (m.host.nextId, e.2)) with
        | none => exact ha
        | some m1 => exact ha.readOne hr

@[simp] theorem askJob_kept (m : Chip) (w : JobWork) (master : BitVec 16) (cls : Nat) : (m.askJob w master cls).Kept ↔ m.Kept := by
  simp [Chip.askJob]

@[simp] theorem endJob_kept (m : Chip) (w : JobWork) : (m.endJob w).Kept ↔ m.Kept := by simp [Chip.endJob]

@[simp] theorem grantJob_kept (m : Chip) : m.grantJob.Kept ↔ m.Kept := by
  unfold Chip.grantJob
  split <;> simp

/-! ### Tally blocks -/

@[simp] theorem addFlags_kept (m : Chip) (x : Ctx) (f : Flags) : (m.addFlags x f).Kept ↔ m.Kept := by simp [Chip.addFlags]

@[simp] theorem tallyInc_kept (m : Chip) (a : Nat) : (m.tallyInc a).Kept ↔ m.Kept := by simp [Chip.tallyInc]

@[simp] theorem tallyOne_kept (m : Chip) (t : Nat) (c : Counted) : (m.tallyOne t c).Kept ↔ m.Kept := by
  unfold Chip.tallyOne
  dsimp only
  (repeat' split) <;> simp

/-! ### Translation -/

@[simp] theorem modTlb_kept (m : Chip) (c : Fin 64) (f : List XLeaf → List XLeaf) : (m.modTlb c f).Kept ↔ m.Kept := by simp [Chip.modTlb]

@[simp] theorem modRake_kept (m : Chip) (r : Nat) (f : XRake → XRake) : (m.modRake r f).Kept ↔ m.Kept := by simp [Chip.modRake]

@[simp] theorem dropLeaf_kept (m : Chip) (asid : W16) (page : Nat) : (m.dropLeaf asid page).Kept ↔ m.Kept := by simp [Chip.dropLeaf]

@[simp] theorem syncOpen_kept (m : Chip) : m.syncOpen.Kept ↔ m.Kept := by simp [Chip.syncOpen]

@[simp] theorem xfault_kept (m : Chip) (q : XMiss) (cause level : Nat) : (m.xfault q cause level).Kept ↔ m.Kept := by
  unfold Chip.xfault
  dsimp only
  (repeat' split) <;> simp

@[simp] theorem xfaultOpen_kept (m : Chip) (q : XMiss) (cause : Nat) : (m.xfaultOpen q cause).Kept ↔ m.Kept := by simp [Chip.xfaultOpen]

@[simp] theorem useLeaf_kept (m : Chip) (q : XMiss) (l : XLeaf) : (m.useLeaf q l).1.Kept ↔ m.Kept := by
  unfold Chip.useLeaf
  split <;> simp

@[simp] theorem setLimited_kept (m : Chip) (r : XReq) (on : Bool) : (m.setLimited r on).Kept ↔ m.Kept := by simp [Chip.setLimited]

@[simp] theorem missAdd_kept (m : Chip) (q : XMiss) : (m.missAdd q).Kept ↔ m.Kept := by simp [Chip.missAdd]

@[simp] theorem translate_kept (m0 : Chip) (q : XMiss) : (m0.translate q).1.Kept ↔ m0.Kept := by
  unfold Chip.translate
  dsimp only
  (repeat' split) <;> simp

@[simp] theorem dropMisses_kept (m : Chip) (r : XReq) : (m.dropMisses r).Kept ↔ m.Kept := by simp [Chip.dropMisses]

/-! ### Vector engines -/

@[simp] theorem modVec_kept (m : Chip) (c : Fin 64) (f : VecEngine → VecEngine) : (m.modVec c f).Kept ↔ m.Kept := by simp [Chip.modVec]

@[simp] theorem modVown_kept (m : Chip) (c : Fin 64) (f : Vown → Vown) : (m.modVown c f).Kept ↔ m.Kept := by simp [Chip.modVown]

@[simp] theorem claimVec_kept (m : Chip) (x : Ctx) (on : Bool) : (m.claimVec x on).Kept ↔ m.Kept := by simp [Chip.claimVec]

@[simp] theorem claimOver_kept (m : Chip) (x : Ctx) : (m.claimOver x).Kept ↔ m.Kept := by simp [Chip.claimOver]

@[simp] theorem vdiscard_kept (m : Chip) (c : Fin 64) (n : Nat) : (m.vdiscard c n).Kept ↔ m.Kept := by simp [Chip.vdiscard]

@[simp] theorem vecFault_kept (m : Chip) (c : Fin 64) (e : VEntry) (detail : Nat) (ix : Option Nat) (addr : Option W64) :
    (m.vecFault c e detail ix addr).Kept ↔ m.Kept := by
  unfold Chip.vecFault
  split <;> simp

@[simp] theorem vecReject_kept (m : Chip) (c : Fin 64) (n detail : Nat) (ix : Option Nat) (addr : Option W64) :
    (m.vecReject c n detail ix addr).Kept ↔ m.Kept := by
  unfold Chip.vecReject
  dsimp only
  (repeat' split) <;> simp

@[simp] theorem vecLoaded_kept (m : Chip) (c : Fin 64) (e : VEntry) (g : VCfg) (i : Nat) (l : List Byte) :
    (m.vecLoaded c e g i l).Kept ↔ m.Kept := by simp [Chip.vecLoaded]

@[simp] theorem vecLand_kept (m : Chip) (c : Fin 64) (i : Nat) : (m.vecLand c i).Kept ↔ m.Kept := by simp [Chip.vecLand]

@[simp] theorem vecSettle_kept (m : Chip) (c : Fin 64) : (m.vecSettle c).Kept ↔ m.Kept := by
  unfold Chip.vecSettle
  dsimp only
  (repeat' split) <;> simp

@[simp] theorem vecHalt_kept (m : Chip) (c : Fin 64) : (m.vecHalt c).Kept ↔ m.Kept := by
  unfold Chip.vecHalt
  dsimp only
  (repeat' split) <;> simp

@[simp] theorem vecKeep_kept (m : Chip) (c : Fin 64) (i j : Nat) (l : List Byte) : (m.vecKeep c i j l).Kept ↔ m.Kept := by
  simp [Chip.vecKeep]

@[simp] theorem vecGotAll_kept (m : Chip) (c : Fin 64) (i : Nat) : (m.vecGotAll c i).Kept ↔ m.Kept := by
  unfold Chip.vecGotAll
  dsimp only
  (repeat' split) <;> simp

@[simp] theorem Chip.Kept.vecSendPiece {m : Chip} (hk : m.Kept) {c : Fin 64} {e : VEntry} {g : VCfg} {i : Nat}
    {p : Nat × Nat × XSeg} : (m.vecSendPiece c e g i p).Kept := by
  unfold Chip.vecSendPiece
  split <;> simp [hk]

@[simp] theorem Chip.Kept.vecSend {m : Chip} (h : m.Kept) {c : Fin 64} {e : VEntry} {g : VCfg} {i : Nat} {segs : List XSeg} :
    (m.vecSend c e g i segs).1.Kept := by
  unfold Chip.vecSend
  dsimp only
  split
  · simp [h]
  · split
    · simp [h]
    · split
      · simp [h]
      · simp only [kept_ite, vecGotAll_kept, ite_self]
        exact Chip.Kept.foldl (fun a p ha => by simp [ha]) _ (by simp [h])

@[simp] theorem Chip.Kept.vecTranslate {m : Chip} (h : m.Kept) {c : Fin 64} {e : VEntry} {va n : Nat} : (m.vecTranslate c e va n).1.Kept := by
  refine Chip.Kept.foldl_fst (fun a p ha => ?_) _ h
  split
  · exact ha
  · dsimp only
    split <;> simp [ha]

@[simp] theorem Chip.Kept.vecSendAll {m : Chip} (h : m.Kept) {c : Fin 64} {n : Nat} : (m.vecSendAll c n).Kept := by
  induction n generalizing m with
  | zero => exact h
  | succ n ih =>
    unfold Chip.vecSendAll
    dsimp only
    (repeat' split) <;> simp [h, ih, h.vecTranslate.vecSend]

@[simp] theorem Chip.Kept.chockCtx {m : Chip} (hk : m.Kept) {x : Ctx} {addr : Nat} : (m.chockCtx x addr).Kept := by
  simp [Chip.chockCtx, hk]

@[simp] theorem Chip.Kept.startEntry {m : Chip} (hk : m.Kept) {c : Fin 64} {n : Nat} {e : VEntry} : (m.startEntry c n e).Kept := by
  unfold Chip.startEntry
  dsimp only
  split <;> simp [hk]

@[simp] theorem Chip.Kept.vecStart {m : Chip} (hk : m.Kept) {c : Fin 64} : (m.vecStart c).Kept := by
  unfold Chip.vecStart
  dsimp only
  (repeat' split) <;> simp [hk]

@[simp] theorem Chip.Kept.segsNote {m : Chip} (h : m.Kept) {master : BitVec 16} {write noalloc : Bool} {l : List XSeg} :
    (m.segsNote master write noalloc l).Kept :=
  Chip.Kept.foldl (fun a s ha => by split <;> simp [ha]) _ h

@[simp] theorem Chip.Kept.segsRead {m : Chip} (h : m.Kept) {master : BitVec 16} {cls : Nat} {noalloc : Bool} {segs : List XSeg} :
    (m.segsRead master cls noalloc segs).1.Kept := by
  induction segs generalizing m with
  | nil => exact h
  | cons s t ih =>
    unfold Chip.segsRead
    split <;> simp [h, ih]

@[simp] theorem Chip.Kept.segsWrite {m : Chip} (h : m.Kept) {master : BitVec 16} {cls : Nat} {noalloc : Bool} {l : List Byte}
    {segs : List XSeg} : (m.segsWrite master cls noalloc l segs).Kept := by
  induction segs generalizing m l with
  | nil => exact h
  | cons s t ih =>
    unfold Chip.segsWrite
    split <;> simp [h, ih]

@[simp] theorem Chip.Kept.flightRead {m : Chip} (h : m.Kept) {master : BitVec 16} {cls : Nat} {f : VFlight} {l : List (Nat × Nat × XSeg)} :
    (m.flightRead master cls f l).1.Kept := by
  induction l generalizing m with
  | nil => exact h
  | cons p t ih =>
    unfold Chip.flightRead
    dsimp only
    split <;> simp [h, ih]

@[simp] theorem Chip.Kept.vecPerform {m : Chip} (h : m.Kept) {c : Fin 64} {e : VEntry} {g : VCfg} {f : VFlight} :
    (m.vecPerform c e g f).Kept := by
  unfold Chip.vecPerform
  dsimp only
  split
  · split <;>
      simp only [vecLoaded_kept, next_kept] <;>
      exact Chip.Kept.flightRead (Chip.Kept.foldl (fun a s ha => by split <;> simp [ha]) _ h)
  · (repeat' split) <;> simp [h]

@[simp] theorem Chip.Kept.vecResponse {m : Chip} (hk : m.Kept) {c : Fin 64} {i : Nat} : (m.vecResponse c i).Kept := by
  unfold Chip.vecResponse
  (repeat' split) <;> simp +contextual [hk]

@[simp] theorem vecDeliver_kept (m : Chip) (c : Fin 64) (i j : Nat) (l : List Byte) : (m.vecDeliver c i j l).Kept ↔ m.Kept := by
  unfold Chip.vecDeliver
  dsimp only
  (repeat' split) <;> simp

@[simp] theorem vecFinish_kept (m : Chip) (c : Fin 64) (n : Nat) (e : VEntry) : (m.vecFinish c n e).Kept ↔ m.Kept := by
  simp [Chip.vecFinish]

@[simp] theorem vecReplays_kept (m : Chip) (c : Fin 64) (x : Ctx) (n : Nat) : (m.vecReplays c x n).Kept ↔ m.Kept := by
  simp [Chip.vecReplays]

@[simp] theorem Chip.Kept.vecArith {m : Chip} (h : m.Kept) {c : Fin 64} {n : Nat} {e : VEntry} {replays : Nat} {third : Bool} :
    (m.vecArith c n e replays third).Kept := by
  unfold Chip.vecArith
  dsimp only
  split
  · simp [h]
  · simp only [vecFinish_kept, count_kept]
    exact Chip.Kept.foldl (fun a v ha => by split <;> simp [ha]) _ (by simp [h])

@[simp] theorem Chip.Kept.vecRowMove {m : Chip} (h : m.Kept) {c : Fin 64} {e : VEntry} {g : VCfg} : (m.vecRowMove c e g).Kept := by
  unfold Chip.vecRowMove
  dsimp only
  split
  · exact h
  · exact Chip.Kept.foldl (fun a j ha => by split <;> simp [ha]) _ h

@[simp] theorem Chip.Kept.vecComplete {m : Chip} (hk : m.Kept) {c : Fin 64} {mem : Bool} {cycles replays : Nat}
    {third : Bool} : (m.vecComplete c mem cycles replays third).Kept := by
  unfold Chip.vecComplete
  dsimp only
  (repeat' split) <;> simp [hk]

@[simp] theorem vecStopSum_kept (m : Chip) (c : Fin 64) (hi : Nat) : (m.vecStopSum c hi).Kept ↔ m.Kept := by
  unfold Chip.vecStopSum
  dsimp only
  (repeat' split) <;> simp

/-! ### Matrix engines -/

@[simp] theorem modMtx_kept (m : Chip) (c : Fin 64) (f : MtxArray → MtxArray) : (m.modMtx c f).Kept ↔ m.Kept := by simp [Chip.modMtx]

@[simp] theorem Chip.Kept.tileTouch {m : Chip} (hk : m.Kept) {c : Fin 64} {aft : Bool} {t : Tile} {split : Bool}
    {M N lo hi : Nat} : (m.tileTouch c aft t split M N lo hi).Kept := Chip.Kept.foldl (fun _ _ hk => by simp [hk]) _ hk

@[simp] theorem mtxReject_kept (m : Chip) (c : Fin 64) (e : MEntry) (detail : Nat) : (m.mtxReject c e detail).Kept ↔ m.Kept := by
  simp [Chip.mtxReject]

@[simp] theorem setEntry_kept (m : Chip) (c : Fin 64) (e : MEntry) : (m.setEntry c e).Kept ↔ m.Kept := by simp [Chip.setEntry]

@[simp] theorem dropEntry_kept (m : Chip) (c : Fin 64) (e : MEntry) : (m.dropEntry c e).Kept ↔ m.Kept := by simp [Chip.dropEntry]

@[simp] theorem Chip.Kept.mtxPrepare {m : Chip} (hk : m.Kept) {c : Fin 64} {e : MEntry} {rows : Nat} :
    (m.mtxPrepare c e rows).Kept := by simp [Chip.mtxPrepare, hk]

@[simp] theorem mtxServed_kept (m : Chip) (c : Fin 64) (aft : Bool) : (m.mtxServed c aft).Kept ↔ m.Kept := by simp [Chip.mtxServed]

@[simp] theorem Chip.Kept.mtxStart {m : Chip} (hk : m.Kept) {c : Fin 64} {half : Bool} : (m.mtxStart c half).Kept := by
  unfold Chip.mtxStart
  dsimp only
  (repeat' split) <;> simp [hk]

@[simp] theorem Chip.Kept.mtxWaits {m : Chip} (hk : m.Kept) {c : Fin 64} {half : Bool} {rows : Nat} :
    (m.mtxWaits c half rows).Kept := by
  unfold Chip.mtxWaits
  split <;> simp [hk]

@[simp] theorem Chip.Kept.mtxFill {m : Chip} (hk : m.Kept) {c : Fin 64} {half : Bool} {cycles : Nat} :
    (m.mtxFill c half cycles).Kept := by
  unfold Chip.mtxFill
  split <;> simp [hk]

@[simp] theorem mtxReplay_kept (m : Chip) (c : Fin 64) (e : MEntry) : (m.mtxReplay c e).Kept ↔ m.Kept := by simp [Chip.mtxReplay]

@[simp] theorem mtxMismatch_kept (m : Chip) (c : Fin 64) (e : MEntry) : (m.mtxMismatch c e).Kept ↔ m.Kept := by simp [Chip.mtxMismatch]

@[simp] theorem mtxRescaleRec_kept (m : Chip) (c : Fin 64) (e : MEntry) (S' : Int) : (m.mtxRescaleRec c e S').Kept ↔ m.Kept := by
  simp [Chip.mtxRescaleRec]

@[simp] theorem mtxClose_kept (m : Chip) (c : Fin 64) (half mismatch : Bool) : (m.mtxClose c half mismatch).Kept ↔ m.Kept := by
  unfold Chip.mtxClose
  split <;> simp

@[simp] theorem Chip.Kept.tilePut {m : Chip} (hk : m.Kept) {c : Fin 64} {t : Tile} {b : Nat} {l : List Byte} :
    (m.tilePut c t b l).Kept := by simp [Chip.tilePut, hk]

@[simp] theorem Chip.Kept.tileCount {m : Chip} (hk : m.Kept) {c : Fin 64} {aft : Bool} {t : Tile} {split : Bool} {M N : Nat}
    : (m.tileCount c aft t split M N).Kept := Chip.Kept.foldl (fun _ _ hk => by simp [hk]) _ hk

@[simp] theorem Chip.Kept.putMap {m : Chip} (hk : m.Kept) {c : Fin 64} {t : Tile} {n v : Nat} : (m.putMap c t n v).Kept := by
  simp [Chip.putMap, hk]

@[simp] theorem Chip.Kept.writeTile {m : Chip} (h : m.Kept) {c : Fin 64} {e : MEntry} {os : List MOut} : (m.writeTile c e os).Kept := by
  refine Chip.Kept.foldl (fun a o ha => ?_) _ ?_
  · dsimp only
    split <;> simp [ha]
  · split
    · exact h.tileCount.tilePut
    · exact h.tileCount

@[simp] theorem tallyTile_kept (m : Chip) (c : Fin 64) (e : MEntry) (os : List MOut) : (m.tallyTile c e os).Kept ↔ m.Kept := by
  simp [Chip.tallyTile]

@[simp] theorem forwardD_kept (m : Chip) (c : Fin 64) (e : MEntry) : (m.forwardD c e).Kept ↔ m.Kept := by simp [Chip.forwardD]

@[simp] theorem Chip.Kept.mtxCommitEntry {m : Chip} (hk : m.Kept) {c : Fin 64} {e : MEntry} : (m.mtxCommitEntry c e).Kept := by
  simp [Chip.mtxCommitEntry, hk]

@[simp] theorem Chip.Kept.mtxCommit {m : Chip} (hk : m.Kept) {c : Fin 64} {half mismatch : Bool} :
    (m.mtxCommit c half mismatch).Kept := by
  unfold Chip.mtxCommit
  split <;> simp [hk]

@[simp] theorem mtxMode_kept (m : Chip) (c : Fin 64) : (m.mtxMode c).Kept ↔ m.Kept := by simp [Chip.mtxMode]

/-! ### Drays -/

@[simp] theorem modStream_kept (m : Chip) (c : Fin 64) (s : Fin 8) (f : DStream → DStream) :
    (m.modStream c s f).Kept ↔ m.Kept := by simp [Chip.modStream]

@[simp] theorem drayReject_kept (m : Chip) (c : Fin 64) (s : Fin 8) (e : DDesc) (reason : Nat) :
    (m.drayReject c s e reason).Kept ↔ m.Kept := by simp [Chip.drayReject]

@[simp] theorem outriderArm_kept (m : Chip) (c : Fin 64) (s : Fin 8) (e : DDesc) : (m.outriderArm c s e).Kept ↔ m.Kept := by
  simp [Chip.outriderArm]

@[simp] theorem outriderStep_kept (m : Chip) (c : Fin 64) (s : Fin 8) : (m.outriderStep c s).Kept ↔ m.Kept := by simp [Chip.outriderStep]

@[simp] theorem drayStart_kept (m : Chip) (c : Fin 64) (s : Fin 8) : (m.drayStart c s).Kept ↔ m.Kept := by
  unfold Chip.drayStart
  dsimp only
  (repeat' split) <;> simp

@[simp] theorem draySettle_kept (m0 : Chip) (c : Fin 64) (s : Fin 8) : (m0.draySettle c s).Kept ↔ m0.Kept := by simp [Chip.draySettle]

@[simp] theorem drayHalt_kept (m : Chip) (c : Fin 64) (s : Fin 8) : (m.drayHalt c s).Kept ↔ m.Kept := by simp [Chip.drayHalt]

@[simp] theorem drayFaulted_kept (m : Chip) (c : Fin 64) (s : Fin 8) (p : DUnit → Bool) : (m.drayFaulted c s p).Kept ↔ m.Kept := by
  simp [Chip.drayFaulted]

@[simp] theorem devBurst_kept (m : Chip) (a n : Nat) : (m.devBurst a n).1.Kept ↔ m.Kept := by simp [Chip.devBurst]

@[simp] theorem burstSeg_kept (m : Chip) (c : Fin 64) (s : Fin 8) (e : DDesc) (wr : Bool) (a : Int) (n : Nat) :
    (m.burstSeg c s e wr a n).1.Kept ↔ m.Kept := by
  unfold Chip.burstSeg
  dsimp only
  (repeat' split) <;> simp

@[simp] theorem modUnit_kept (m : Chip) (c : Fin 64) (s : Fin 8) (id : Nat) (f : DUnit → DUnit) :
    (m.modUnit c s id f).Kept ↔ m.Kept := by simp [Chip.modUnit]

@[simp] theorem freezeStream_kept (m : Chip) (c : Fin 64) (s : Fin 8) (u i : Nat) : (m.freezeStream c s u i).Kept ↔ m.Kept := by
  simp [Chip.freezeStream]

@[simp] theorem Chip.Kept.chockStream {m : Chip} (hk : m.Kept) {c : Fin 64} {s : Fin 8} {a u i : Nat} :
    (m.chockStream c s a u i).Kept := by simp [Chip.chockStream, hk]

theorem Chip.Kept.needJob {m : Chip} (hk : m.Kept) {c : Fin 64} {s : Fin 8} {e : DDesc} {wr : Bool} {g : XSeg} {mo : Chip}
    (h : m.needJob c s e wr g = some mo) : mo.Kept := by
  unfold Chip.needJob at h
  dsimp only at h
  (repeat' split at h) <;> cases h <;> simp [hk]

@[simp] theorem drayWait_kept (m : Chip) (c : Fin 64) (s : Fin 8) (credit : Bool) : (m.drayWait c s credit).Kept ↔ m.Kept := by
  simp [Chip.drayWait]

@[simp] theorem draySent_kept (m : Chip) (c : Fin 64) (s : Fin 8) (id : Nat) (wr : Bool) (i : Nat) (g : Option XSeg) :
    (m.draySent c s id wr i g).Kept ↔ m.Kept := by simp [Chip.draySent]

@[simp] theorem drayGather_kept (m : Chip) (c : Fin 64) (s : Fin 8) (id : Nat) : (m.drayGather c s id).Kept ↔ m.Kept := by
  unfold Chip.drayGather
  dsimp only
  (repeat' split) <;> simp

@[simp] theorem drayReadIn_kept (m : Chip) (c : Fin 64) (s : Fin 8) (id i : Nat) (l : List Byte) :
    (m.drayReadIn c s id i l).Kept ↔ m.Kept := by simp [Chip.drayReadIn]

@[simp] theorem drayDeliver_kept (m : Chip) (c : Fin 64) (s : Fin 8) (id i : Nat) (l : List Byte) :
    (m.drayDeliver c s id i l).Kept ↔ m.Kept := by
  unfold Chip.drayDeliver
  split <;> simp

@[simp] theorem Chip.Kept.drayRead {m : Chip} (hk : m.Kept) {c : Fin 64} {s : Fin 8} {e : DDesc} {id i : Nat} {p : DPiece}
    {g : XSeg} : (m.drayRead c s e id i p g).Kept := by
  unfold Chip.drayRead
  split <;> simp [hk]

@[simp] theorem Chip.Kept.draySendRead {m : Chip} (hk : m.Kept) {c : Fin 64} {s : Fin 8} {e : DDesc} {u : DUnit} {i : Nat} {p : DPiece} :
    (m.draySendRead c s e u i p).Kept := by
  have hb := (burstSeg_kept m c s e false p.a p.len).mpr hk
  unfold Chip.draySendRead
  split
  · simp [hk]
  · dsimp only
    split
    · simp [hb]
    · exact hb
    · simp [hb]
    · split
      · next h => exact (drayWait_kept ..).mpr (hb.needJob h)
      · split <;> simp [hb]

@[simp] theorem Chip.Kept.drayWrite {m : Chip} (hk : m.Kept) {c : Fin 64} {s : Fin 8} {e : DDesc} {u : DUnit} {i : Nat}
    {g : XSeg} : (m.drayWrite c s e u i g).Kept := by
  unfold Chip.drayWrite
  split <;> simp [hk]

@[simp] theorem Chip.Kept.draySendWrite {m : Chip} (hk : m.Kept) {c : Fin 64} {s : Fin 8} {e : DDesc} {u : DUnit} {i : Nat} {p : DPiece} :
    (m.draySendWrite c s e u i p).Kept := by
  have hb := (burstSeg_kept m c s e true p.a p.len).mpr hk
  unfold Chip.draySendWrite
  split
  · split <;> simp [hk]
  · dsimp only
    split
    · simp [hb]
    · exact hb
    · simp [hb]
    · split
      · next h => exact (drayWait_kept ..).mpr (hb.needJob h)
      · simp [hb]

@[simp] theorem Chip.Kept.drayIssue {m : Chip} (hk : m.Kept) {c : Fin 64} {s : Fin 8} {wr : Bool} {n : Nat} :
    (m.drayIssue c s wr n).Kept := by
  unfold Chip.drayIssue
  dsimp only
  (repeat' split) <;> simp [hk]

@[simp] theorem drayObuf_kept (m : Chip) (c : Fin 64) (e : DDesc) (u : DUnit) (i : Nat) (p : DPiece) :
    (m.drayObuf c e u i p).Kept ↔ m.Kept := by simp [Chip.drayObuf]

@[simp] theorem drayComplete_kept (m : Chip) (c : Fin 64) (s : Fin 8) : (m.drayComplete c s).Kept ↔ m.Kept := by
  unfold Chip.drayComplete
  dsimp only
  (repeat' split) <;> simp

/-! ### Events -/

@[simp] theorem deliverEvent_kept (m : Chip) (n : Nat) : (m.deliverEvent n).Kept ↔ m.Kept := by
  unfold Chip.deliverEvent
  split <;> simp

end Sys2Proof.Machine

/-! PROOFS. What traps, system control and the instructions keep (R86, R115). -/
namespace Sys2Proof.Machine

/-! ### Save areas -/

@[simp] theorem Chip.Kept.markVec {m : Chip} (h : m.Kept) {t : Task} : (m.markArea t.vecArea).1.Kept := h.markArea (vecArea_pos t)

@[simp] theorem Chip.Kept.markCtl {m : Chip} (h : m.Kept) {t : Task} : (m.markArea t.ctlArea).1.Kept := h.markArea (ctlArea_pos t)

@[simp] theorem Chip.Kept.saveVec {m : Chip} (h : m.Kept) {c : Fin 64} : (m.saveVec c).Kept := by
  unfold Chip.saveVec
  dsimp only
  split <;> simp [h]

@[simp] theorem Chip.Kept.takeVec {m : Chip} (hk : m.Kept) {c : Fin 64} {h : W16} : (m.takeVec c h).Kept := by
  unfold Chip.takeVec
  dsimp only
  (repeat' split) <;> simp [hk]

@[simp] theorem Chip.Kept.grantVec {m : Chip} (hk : m.Kept) {c : Fin 64} : (m.grantVec c).Kept := by simp [Chip.grantVec, hk]

@[simp] theorem claimLimit_kept (m : Chip) (c : Fin 64) (aft : Bool) (hi : Nat) : (m.claimLimit c aft hi).Kept ↔ m.Kept := by
  simp [Chip.claimLimit]

@[simp] theorem releaseVec_kept (m : Chip) (x : Ctx) : (m.releaseVec x).Kept ↔ m.Kept := by simp [Chip.releaseVec]

/-! ### Traps -/

@[simp] theorem setPend_kept (m : Chip) (x : Ctx) (bit : Nat) : (m.setPend x bit).Kept ↔ m.Kept := by simp [Chip.setPend]

@[simp] theorem postInt_kept (m : Chip) (x : Ctx) (bit : Nat) : (m.postInt x bit).Kept ↔ m.Kept := by simp [Chip.postInt]

@[simp] theorem postAll_kept (m : Chip) (bit : Nat) : (m.postAll bit).Kept ↔ m.Kept := by simp [Chip.postAll]

@[simp] theorem Chip.Kept.pendSet {m : Chip} (hk : m.Kept) {p : PendSource} : (m.pendSet p).Kept := by
  unfold Chip.pendSet
  (repeat' split) <;> simp +contextual [hk]

@[simp] theorem cmpMatch_kept (m : Chip) (x : Ctx) : (m.cmpMatch x).Kept ↔ m.Kept := by simp [Chip.cmpMatch]

@[simp] theorem intAck_kept (m : Chip) (x : Ctx) (w : W16) : (m.intAck x w).Kept ↔ m.Kept := by simp [Chip.intAck]

@[simp] theorem holdSources_kept (m : Chip) (x : Ctx) : (m.holdSources x).Kept ↔ m.Kept := by simp [Chip.holdSources]

@[simp] theorem Chip.Kept.loseTasks {m : Chip} (h : m.Kept) {c : Fin 64} : (m.loseTasks c).Kept :=
  h.withTasks fun t ht => by
    obtain ⟨t', ht', rfl⟩ := List.mem_map.mp ht
    have hf : t'.fits := h.tasks _ ht'
    split <;> exact hf

@[simp] theorem context_reset_fits : Context.reset.fits := ⟨ctx_reset_stacksFit, by decide⟩

/-- The third fault resets the contexts of a coach. -/
theorem Chip.Kept.modCoach_reset {m : Chip} (h : m.Kept) {c : Fin 64} {d : Coach → Dray} :
    (m.modCoach c fun k => { Coach.reset with dray := d k }).Kept := h.setCoach ⟨context_reset_fits, context_reset_fits⟩

@[simp] theorem Chip.Kept.thirdFault {m : Chip} (h : m.Kept) {x : Ctx} : (m.thirdFault x).Kept := by
  unfold Chip.thirdFault
  dsimp only
  simp only [syncCoach_kept]
  refine Chip.Kept.logEvent ?_
  simp only [report_kept, holdSources_kept, setReg_kept, endJob_kept, dropMisses_kept]
  refine Chip.Kept.loseTasks (Chip.Kept.resetPages ((kept_frame _).mpr ?_))
  exact h.modCoach_reset

@[simp] theorem setStatus_fits (k : Context) (s : Status) : (k.setStatus s).fits ↔ k.fits := by
  unfold Context.setStatus
  dsimp only
  (repeat' split) <;> exact Iff.rfl

@[simp] theorem enterRegs_fits (k : Context) (c : Cause) (ra : W16) (looped : Bool) : (k.enterRegs c ra looped).1.fits ↔ k.fits := by
  unfold Context.enterRegs
  dsimp only
  split
  · simp
  · split <;> simp

@[simp] theorem Chip.Kept.enterTrap {m : Chip} (h : m.Kept) {x : Ctx} {c : Cause} {ra : W16} {looped : Bool} :
    (m.enterTrap x c ra looped).Kept := by
  unfold Chip.enterTrap
  dsimp only
  split
  · exact h.thirdFault
  · have hx := h.ctx x
    simp only [claimVec_kept]
    exact h.setCtx (by simp [hx])

@[simp] theorem haltVec_kept (m : Chip) (x : Ctx) (hi : Nat) : (m.haltVec x hi).Kept ↔ m.Kept := by simp [Chip.haltVec]

@[simp] theorem Chip.Kept.syncFault {m : Chip} (hk : m.Kept) {x : Ctx} {v detail : Nat} : (m.syncFault x v detail).Kept := by
  simp [Chip.syncFault, hk]

@[simp] theorem Chip.Kept.takeDeferred {m : Chip} (hk : m.Kept) {x : Ctx} {kind : Nat} {d : DefFault} :
    (m.takeDeferred x kind d).Kept := by
  unfold Chip.takeDeferred
  split <;> simp [hk]

@[simp] theorem Chip.Kept.takeAsync {m : Chip} (hk : m.Kept) {x : Ctx} {bit : Nat} {info : W64} {hi : Nat} :
    (m.takeAsync x bit info hi).Kept := by simp [Chip.takeAsync, hk]

@[simp] theorem brakeExpire_kept (m : Chip) (x : Ctx) : (m.brakeExpire x).Kept ↔ m.Kept := by simp [Chip.brakeExpire]

/-! ### Stacks as they are filled (R87) and left -/

/-- A bank that one spill of each stack makes fit. -/
def Bank.spillable (b : Bank) : Prop := b.ds.length ≤ 20 ∧ b.rs.length ≤ 20

theorem bank_fits {k : Context} (h : k.fits) : k.bank.fits := by
  unfold Context.bank
  split
  · exact h.1.2
  · exact h.1.1

theorem setBank_fits {k : Context} (h : k.fits) {b : Bank} (hb : b.fits) : (k.setBank b).fits := by
  unfold Context.setBank
  split
  · exact ⟨⟨h.1.1, hb⟩, h.2⟩
  · exact ⟨⟨hb, h.1.2⟩, h.2⟩

theorem fillWords_length {m : Chip} {x : Ctx} {p : W16} {n : Nat} {l : List W16} (h : m.fillWords x p n = some l) : l.length = n := by
  unfold Chip.fillWords at h
  dsimp only at h
  split at h
  · cases h; simp
  · cases h

/-- Fills stop as soon as enough entries are registered; each brings four at most. -/
theorem fillData_length {m : Chip} {x : Ctx} {n fuel : Nat} {b c : Bank} (h : m.fillData x n b fuel = .ok c) :
    c.ds.length ≤ max b.ds.length (n + 3) ∧ c.rs = b.rs := by
  induction fuel generalizing b with
  | zero => cases h; exact ⟨by omega, rfl⟩
  | succ fuel ih =>
    unfold Chip.fillData at h
    dsimp only at h
    split at h
    · cases h; exact ⟨by omega, rfl⟩
    · split at h
      · cases h
      · next hn _ l hl =>
        have hlen := fillWords_length hl
        obtain ⟨h1, h2⟩ := ih h
        simp only [List.length_append] at h1
        exact ⟨by omega, h2⟩

theorem fillReturn_length {m : Chip} {x : Ctx} {n fuel : Nat} {b c : Bank} (h : m.fillReturn x n b fuel = .ok c) :
    c.rs.length ≤ max b.rs.length (n + 3) ∧ c.ds = b.ds := by
  induction fuel generalizing b with
  | zero => cases h; exact ⟨by omega, rfl⟩
  | succ fuel ih =>
    unfold Chip.fillReturn at h
    dsimp only at h
    split at h
    · cases h; exact ⟨by omega, rfl⟩
    · split at h
      · cases h
      · next hn _ l hl =>
        have hlen := fillWords_length hl
        obtain ⟨h1, h2⟩ := ih h
        simp only [List.length_append] at h1
        exact ⟨by omega, h2⟩

/-! ### Plans -/

/-- What an instruction does, whichever way it ends, leaves the chip kept. -/
def Plan.keeps : Plan → Prop
  | .done b _ upd _ => b.spillable ∧ ∀ m : Chip, m.Kept → (upd m).Kept
  | .fault _ _ | .chock _ => True
  | .wait _ upd | .stall upd | .raw upd => ∀ m : Chip, m.Kept → (upd m).Kept

@[simp] theorem done_keeps (b : Bank) (c : Bool) (upd : Chip → Chip) (n : Next) :
    (Plan.done b c upd n).keeps ↔ b.spillable ∧ ∀ m : Chip, m.Kept → (upd m).Kept := Iff.rfl

@[simp] theorem fault_keeps (v d : Nat) : (Plan.fault v d).keeps := trivial

@[simp] theorem chock_keeps (a : Nat) : (Plan.chock a).keeps := trivial

@[simp] theorem wait_keeps (w : Wait) (upd : Chip → Chip) : (Plan.wait w upd).keeps ↔ ∀ m : Chip, m.Kept → (upd m).Kept := Iff.rfl

@[simp] theorem stall_keeps (upd : Chip → Chip) : (Plan.stall upd).keeps ↔ ∀ m : Chip, m.Kept → (upd m).Kept := Iff.rfl

@[simp] theorem raw_keeps (upd : Chip → Chip) : (Plan.raw upd).keeps ↔ ∀ m : Chip, m.Kept → (upd m).Kept := Iff.rfl

/-- An instruction that needs `nd` data entries: the bank that it works on has 16 at most, or `nd + 3`. -/
theorem withStacks_keeps_of {m : Chip} {x : Ctx} (h : (m.ctx x).fits) {nd nr : Nat} {f : Bank → Plan}
    (hf : ∀ b : Bank, b.ds.length ≤ max 16 (nd + 3) → b.rs.length ≤ max 16 (nr + 3) → (f b).keeps) : (m.withStacks x nd nr f).keeps := by
  have hb := bank_fits h
  unfold Bank.fits at hb
  unfold Chip.withStacks
  dsimp only
  split
  · trivial
  · split
    · trivial
    · split
      · trivial
      · next b1 h1 =>
        split
        · trivial
        · next b2 h2 =>
          obtain ⟨hd1, hr1⟩ := fillData_length h1
          obtain ⟨hr2, hd2⟩ := fillReturn_length h2
          refine hf b2 ?_ ?_
          · rw [hd2]; omega
          · rw [hr1] at hr2; omega

theorem withStacks_keeps {m : Chip} {x : Ctx} (h : (m.ctx x).fits) {nd nr : Nat} {f : Bank → Plan} (hd : nd ≤ 13) (hr : nr ≤ 13)
    (hf : ∀ b : Bank, b.fits → (f b).keeps) : (m.withStacks x nd nr f).keeps :=
  withStacks_keeps_of h fun b h1 h2 => hf b ⟨by omega, by omega⟩

theorem withTop_keeps {m : Chip} {x : Ctx} (h : (m.ctx x).fits) {nd : Nat} {bad : W16 → Bool} {d : Nat} {f : Bank → Plan} (hd : nd ≤ 13)
    (hf : ∀ b : Bank, b.fits → (f b).keeps) : (m.withTop x nd bad d f).keeps := by
  unfold Chip.withTop
  split
  · trivial
  · split
    · trivial
    · exact withStacks_keeps h hd (by omega) hf

theorem withT_keeps {m : Chip} {x : Ctx} {f : W16 → Plan} (hf : ∀ t, (f t).keeps) : (m.withT x f).keeps := by
  unfold Chip.withT
  split
  · exact hf _
  · trivial

theorem dataOp_keeps {m : Chip} {x : Ctx} (h : (m.ctx x).fits) {nd : Nat} {f : List W16 → List W16} (hd : nd ≤ 13)
    (hf : ∀ l, (f l).length ≤ l.length + 4) : (m.dataOp x nd f).keeps :=
  withStacks_keeps h hd (by omega) fun b hb => by
    have := hf b.ds
    exact ⟨⟨by dsimp only; have := hb.1; omega, Nat.le_trans hb.2 (by omega)⟩, fun _ hm => hm⟩

theorem unary_keeps {m : Chip} {x : Ctx} (h : (m.ctx x).fits) (f : W16 → W16) : (m.unary x f).keeps :=
  dataOp_keeps h (by omega) fun l => by split <;> simp

theorem binary_keeps {m : Chip} {x : Ctx} (h : (m.ctx x).fits) (f : W16 → W16 → W16) : (m.binary x f).keeps :=
  dataOp_keeps h (by omega) fun l => by split <;> simp

theorem binary2_keeps {m : Chip} {x : Ctx} (h : (m.ctx x).fits) (f : W16 → W16 → W16 × W16) : (m.binary2 x f).keeps :=
  dataOp_keeps h (by omega) fun l => by split <;> simp

theorem pushes_keeps {m : Chip} {x : Ctx} (h : (m.ctx x).fits) {l : List W16} (hl : l.length ≤ 4) : (m.pushes x l).keeps :=
  dataOp_keeps h (by omega) fun t => by simp; omega

/-- A bank with other stacks, each of at most 20 entries. -/
theorem done_keeps_of {b : Bank} {c : Bool} {upd : Chip → Chip} {n : Next} (hd : b.ds.length ≤ 20) (hr : b.rs.length ≤ 20)
    (hu : ∀ m : Chip, m.Kept → (upd m).Kept) : (Plan.done b c upd n).keeps := ⟨⟨hd, hr⟩, hu⟩

theorem binaryC_keeps {m : Chip} {x : Ctx} (h : (m.ctx x).fits) (f : W16 → W16 → Bool → W16 × Bool) : (m.binaryC x f).keeps :=
  withStacks_keeps h (by omega) (by omega) fun b ⟨hd, hr⟩ => by
    split
    · next e => exact done_keeps_of (by rw [e] at hd; simp only [List.length_cons] at hd ⊢; omega) (by dsimp only; omega) fun _ hm => hm
    · trivial

theorem loadWords_length {m : Chip} {x : Ctx} {a : W16} {n : Nat} {l : List W16} (h : m.loadWords x a n = .ok l) : l.length = n := by
  unfold Chip.loadWords at h
  dsimp only at h
  split at h
  · cases h
  · cases h; simp

theorem loadOp_keeps {m : Chip} {x : Ctx} (h : (m.ctx x).fits) {n : Nat} {f : List W16 → W16 → List W16 → List W16}
    (hf : ∀ ws a t, ws.length = n → (f ws a t).length ≤ t.length + 5) : (m.loadOp x n f).keeps :=
  withStacks_keeps h (by omega) (by omega) fun b ⟨hd, hr⟩ => by
    split
    · next a t e =>
      split
      · next ws hw =>
        have := hf ws a t (loadWords_length hw)
        exact done_keeps_of (by rw [e] at hd; simp only [List.length_cons] at hd ⊢; omega) (by dsimp only; omega) fun _ hm => hm
      · trivial
    · trivial

theorem storeOp_keeps {m : Chip} {x : Ctx} (h : (m.ctx x).fits) {n : Nat} {f : W16 → List W16} (hn : n ≤ 12) (hf : ∀ a, (f a).length ≤ 1) :
    (m.storeOp x n f).keeps :=
  withStacks_keeps h (by omega) (by omega) fun b ⟨hd, hr⟩ => by
    split
    · next a t e =>
      split
      · trivial
      · have := hf a
        refine done_keeps_of ?_ (by dsimp only; omega) fun _ hm => by simp [hm]
        rw [e] at hd
        simp only [List.length_cons, List.length_append, List.length_drop] at hd ⊢
        omega
    · trivial

theorem branchIf_keeps {m : Chip} {x : Ctx} (h : (m.ctx x).fits) (p : W16 → Bool) : (m.branchIf x p).keeps :=
  withT_keeps fun t => withStacks_keeps h (by omega) (by omega) fun b ⟨hd, hr⟩ => by
    split
    · next e => exact done_keeps_of (by rw [e] at hd; simp only [List.length_cons] at hd ⊢; omega) (by dsimp only; omega) fun _ hm => hm
    · trivial

/-- An input that is logged or replayed: what is done with the value keeps the chip whenever the bookkeeping does (R447). -/
theorem inputPlan_keeps {m : Chip} {x : Ctx} {kind : LogKind} {live : Option W64} {push : W64 → (Chip → Chip) → Plan} {w : Plan}
    (hp : ∀ v upd, (∀ m : Chip, m.Kept → (upd m).Kept) → (push v upd).keeps) (hw : w.keeps) : (m.inputPlan x kind live push w).keeps := by
  unfold Chip.inputPlan
  extract_lets k goLive
  have hl : goLive.keeps := by
    unfold goLive
    split
    · exact hw
    · dsimp only
      split
      · intro m hm; simp [hm]
      · exact hp _ _ fun m hm => by simp [hm]
  split
  · split
    · exact hl
    · exact fun _ hm => hm
    · intro m hm; simp [hm]
    · exact hp _ _ fun m hm => by simp [hm]
  · exact hl

theorem takeEvents_keeps {k : Context} {x : Ctx} {b : Bank} {r : List W16} {v : W64} {upd : Chip → Chip} (hr : r.length ≤ 16) (hb : b.rs.length ≤ 16)
    (hu : ∀ m : Chip, m.Kept → (upd m).Kept) : (k.takeEvents x b r v upd).keeps :=
  done_keeps_of (by simp only [List.length_cons]; omega) (by dsimp only; omega) fun m hm => by simp [hu m hm]

@[simp] theorem retire_fits (k : Context) : k.retire.fits ↔ k.fits := Iff.rfl

/-- TRAP_BASE is written as a multiple of 64 (R115). -/
theorem writeSr_fits {k : Context} (h : k.fits) (n : Nat) (w : W16) : (k.writeSr n w).fits := by
  have hw : (w &&& 0xFFC0) &&& 0x3F = 0 := by rw [BitVec.and_assoc]; exact BitVec.and_zero
  unfold Context.writeSr
  split
  · exact ⟨h.1, hw⟩
  case h_17 => split <;> exact h
  all_goals exact h

@[simp] theorem bank_write_ds (b : Bank) (n : Nat) (w : W16) : (b.write n w).ds = b.ds := by unfold Bank.write; split <;> rfl

@[simp] theorem bank_write_rs (b : Bank) (n : Nat) (w : W16) : (b.write n w).rs = b.rs := by unfold Bank.write; split <;> rfl

theorem statusOp_keeps {m : Chip} {x : Ctx} (h : (m.ctx x).fits) (f : Status → Status) : (m.statusOp x f).keeps :=
  withStacks_keeps h (by omega) (by omega) fun b ⟨hd, hr⟩ => done_keeps_of (by omega) (by omega) fun m hm => by simp [hm]

theorem returnTo_keeps {m : Chip} {x : Ctx} (h : (m.ctx x).fits) (pc : W16) (s : Status) : (m.returnTo x pc s).keeps :=
  withStacks_keeps h (by omega) (by omega) fun b _ m hm => by simp [hm]

/-! ### Every instruction -/

theorem vecWait_keeps {m : Chip} {x : Ctx} {p : Plan} (h : m.vecWait x = some p) : p.keeps := by
  unfold Chip.vecWait at h
  split at h
  · cases h
  · cases h; intro m hm; simp [hm]

theorem vecIssue_keeps {m : Chip} {x : Ctx} (h : (m.ctx x).fits) (o : VOp) (s : Bool) : (m.vecIssue x o s).keeps := by
  refine withStacks_keeps h (by cases o.form s <;> decide) (by omega) fun b ⟨hd, hr⟩ => ?_
  split
  · next hw => exact vecWait_keeps hw
  · split
    · exact fun _ hm => hm
    · exact done_keeps_of (by simp only [List.length_drop]; omega) (by dsimp only; omega) fun m hm => by simp [hm]

theorem vecRead_keeps {m : Chip} {x : Ctx} (h : (m.ctx x).fits) (o : VOp) : (m.vecRead x o).keeps := by
  refine withStacks_keeps h (by omega) (by omega) fun b ⟨hd, hr⟩ => ?_
  have hpush (v : W64) : (unfour v ++ b.ds.drop 1).length ≤ 20 := by simp [unfour]; omega
  split
  · next hw => exact vecWait_keeps hw
  · dsimp only
    split
    · exact fun _ hm => hm
    · split
      · exact done_keeps_of (hpush 0) (by dsimp only; omega) fun m hm => by simp [hm]
      · exact done_keeps_of (hpush _) (by dsimp only; omega) fun m hm => by simp [hm]

theorem semVec_keeps {m : Chip} {x : Ctx} (h : (m.ctx x).fits) (o : VOp) (s : Bool) : (semVec o s m x).keeps := by
  unfold semVec
  split
  · exact vecRead_keeps h o
  · exact vecIssue_keeps h o s

/-- PICK fills to two entries more than its operand. -/
theorem semPick_keeps {m : Chip} {x : Ctx} (h : (m.ctx x).fits) : (semPick m x).keeps := by
  refine withStacks_keeps h (by omega) (by omega) fun b _ => ?_
  split
  · split
    · trivial
    · refine withStacks_keeps_of h fun c hd hr => done_keeps_of ?_ (by dsimp only; omega) fun _ hm => hm
      simp only [List.length_cons, List.length_drop]
      omega
  · trivial

theorem semCall_keeps {m : Chip} {x : Ctx} (h : (m.ctx x).fits) : (semCall m x).keeps :=
  withT_keeps fun t => withStacks_keeps h (by omega) (by omega) fun b ⟨hd, hr⟩ =>
    done_keeps_of (by dsimp only; omega) (by simp only [List.length_cons]; omega) fun _ hm => hm

theorem semRet_keeps {m : Chip} {x : Ctx} (h : (m.ctx x).fits) : (semRet m x).keeps :=
  withStacks_keeps h (by omega) (by omega) fun b ⟨hd, hr⟩ => by
    split
    · next e => exact done_keeps_of (by dsimp only; omega) (by rw [e] at hr; simp only [List.length_cons] at hr ⊢; omega) fun _ hm => hm
    · trivial

theorem semBrx_keeps {m : Chip} {x : Ctx} (h : (m.ctx x).fits) : (semBrx m x).keeps :=
  withStacks_keeps h (by omega) (by omega) fun b ⟨hd, hr⟩ => by
    split
    · next e => exact done_keeps_of (by rw [e] at hd; simp only [List.length_cons] at hd ⊢; omega) (by dsimp only; omega) fun _ hm => hm
    · trivial

theorem semCallx_keeps {m : Chip} {x : Ctx} (h : (m.ctx x).fits) : (semCallx m x).keeps :=
  withStacks_keeps h (by omega) (by omega) fun b ⟨hd, hr⟩ => by
    split
    · next e =>
      exact done_keeps_of (by rw [e] at hd; simp only [List.length_cons] at hd ⊢; omega) (by simp only [List.length_cons]; omega) fun _ hm => hm
    · trivial

theorem semBr_keeps {m : Chip} {x : Ctx} (h : (m.ctx x).fits) : (semBr m x).keeps :=
  withT_keeps fun t => withStacks_keeps h (by omega) (by omega) fun b ⟨hd, hr⟩ => done_keeps_of (by omega) (by omega) fun _ hm => hm

theorem semLoop_keeps {m : Chip} {x : Ctx} (h : (m.ctx x).fits) : (semLoop m x).keeps :=
  withT_keeps fun t => by
    dsimp only
    split
    · trivial
    · split
      · trivial
      · refine withStacks_keeps h (by omega) (by omega) fun b ⟨hd, hr⟩ => ?_
        split
        · next e => exact done_keeps_of (by rw [e] at hd; simp only [List.length_cons] at hd ⊢; omega) (by dsimp only; omega) fun _ hm => hm
        · trivial

theorem semEndloop_keeps {m : Chip} {x : Ctx} (h : (m.ctx x).fits) : (semEndloop m x).keeps :=
  withStacks_keeps h (by omega) (by omega) fun b ⟨hd, hr⟩ => by
    split
    · exact done_keeps_of (by omega) (by omega) fun _ hm => hm
    · exact done_keeps_of (by dsimp only; omega) (by dsimp only; omega) fun _ hm => hm

theorem semLpush_keeps {m : Chip} {x : Ctx} (h : (m.ctx x).fits) : (semLpush m x).keeps :=
  withStacks_keeps h (by omega) (by omega) fun b ⟨hd, hr⟩ =>
    done_keeps_of (by dsimp only; omega) (by simp only [List.length_cons]; omega) fun _ hm => hm

theorem semLpop_keeps {m : Chip} {x : Ctx} (h : (m.ctx x).fits) : (semLpop m x).keeps :=
  withStacks_keeps h (by omega) (by omega) fun b ⟨hd, hr⟩ => by
    split
    · next e => exact done_keeps_of (by dsimp only; omega) (by rw [e] at hr; simp only [List.length_cons] at hr ⊢; omega) fun _ hm => hm
    · trivial

theorem semTor_keeps {m : Chip} {x : Ctx} (h : (m.ctx x).fits) : (semTor m x).keeps :=
  withStacks_keeps h (by omega) (by omega) fun b ⟨hd, hr⟩ => by
    split
    · next e =>
      exact done_keeps_of (by rw [e] at hd; simp only [List.length_cons] at hd ⊢; omega) (by simp only [List.length_cons]; omega) fun _ hm => hm
    · trivial

theorem semFromr_keeps {m : Chip} {x : Ctx} (h : (m.ctx x).fits) : (semFromr m x).keeps :=
  withStacks_keeps h (by omega) (by omega) fun b ⟨hd, hr⟩ => by
    split
    · next e =>
      exact done_keeps_of (by simp only [List.length_cons]; omega) (by rw [e] at hr; simp only [List.length_cons] at hr ⊢; omega) fun _ hm => hm
    · trivial

theorem semRfetch_keeps {m : Chip} {x : Ctx} (h : (m.ctx x).fits) : (semRfetch m x).keeps :=
  withStacks_keeps h (by omega) (by omega) fun b ⟨hd, hr⟩ => by
    split
    · next e =>
      exact done_keeps_of (by simp only [List.length_cons]; omega) (by rw [e] at hr; simp only [List.length_cons] at hr ⊢; omega) fun _ hm => hm
    · trivial

theorem semCnt_keeps {m : Chip} {x : Ctx} (h : (m.ctx x).fits) : (semCnt m x).keeps :=
  inputPlan_keeps (fun v upd hu => withStacks_keeps h (by omega) (by omega) fun b ⟨hd, hr⟩ =>
    done_keeps_of (by simp only [words64, List.cons_append, List.nil_append, List.length_cons]; omega) (by dsimp only; omega) hu) fun _ hm => hm

theorem semVclaim_keeps {m : Chip} {x : Ctx} (h : (m.ctx x).fits) : (semVclaim m x).keeps :=
  withStacks_keeps h (by omega) (by omega) fun b ⟨hd, hr⟩ => by
    split
    · exact done_keeps_of (by omega) (by omega) fun m hm => by simp [hm]
    · intro m hm; simp [hm]

theorem semVrel_keeps {m : Chip} {x : Ctx} (h : (m.ctx x).fits) : (semVrel m x).keeps :=
  withStacks_keeps h (by omega) (by omega) fun b ⟨hd, hr⟩ => by
    split
    · exact done_keeps_of (by omega) (by omega) fun _ hm => hm
    · split
      · exact fun _ hm => hm
      · exact done_keeps_of (by omega) (by omega) fun m hm => by simp [hm]

theorem semMissue_keeps {m : Chip} {x : Ctx} (h : (m.ctx x).fits) : (semMissue m x).keeps :=
  withStacks_keeps h (by omega) (by omega) fun b ⟨hd, hr⟩ => by
    split
    · next e =>
      dsimp only
      split
      · exact fun _ hm => hm
      · split
        · trivial
        · exact done_keeps_of (by rw [e] at hd; simp only [List.length_cons] at hd ⊢; omega) (by dsimp only; omega) fun m hm => by simp [hm]
    · trivial

theorem semMwait_keeps {m : Chip} {x : Ctx} (h : (m.ctx x).fits) : (semMwait m x).keeps :=
  withStacks_keeps h (by omega) (by omega) fun b ⟨hd, hr⟩ => by
    split
    · exact done_keeps_of (by omega) (by omega) fun _ hm => hm
    · exact fun _ hm => hm

theorem semMstat_keeps {m : Chip} {x : Ctx} (h : (m.ctx x).fits) : (semMstat m x).keeps :=
  withStacks_keeps h (by omega) (by omega) fun b ⟨hd, hr⟩ => by
    split
    · exact done_keeps_of (by simp only [List.length_cons]; omega) (by dsimp only; omega) fun m hm => by simp [hm]
    · exact fun _ hm => hm

theorem semDrgo_keeps {m : Chip} {x : Ctx} (h : (m.ctx x).fits) : (semDrgo m x).keeps :=
  withTop_keeps h (by omega) fun b ⟨hd, hr⟩ => by
    split
    · next e =>
      split
      · trivial
      · dsimp only
        split
        · exact fun _ hm => hm
        · split
          · trivial
          · exact done_keeps_of (by rw [e] at hd; simp only [List.length_cons] at hd ⊢; omega) (by dsimp only; omega) fun m hm => by simp [hm]
    · trivial

theorem semDrwait_keeps {m : Chip} {x : Ctx} (h : (m.ctx x).fits) : (semDrwait m x).keeps :=
  withStacks_keeps h (by omega) (by omega) fun b ⟨hd, hr⟩ => by
    split
    · next e =>
      split
      · trivial
      · split
        · exact done_keeps_of (by rw [e] at hd; simp only [List.length_cons] at hd ⊢; omega) (by dsimp only; omega) fun _ hm => hm
        · exact fun _ hm => hm
    · trivial

theorem semDrstat_keeps {m : Chip} {x : Ctx} (h : (m.ctx x).fits) : (semDrstat m x).keeps :=
  withStacks_keeps h (by omega) (by omega) fun b ⟨hd, hr⟩ => by
    split
    · next e =>
      split
      · trivial
      · exact done_keeps_of (by rw [e] at hd; simp only [List.length_cons] at hd ⊢; omega) (by dsimp only; omega) fun _ hm => hm
    · trivial

theorem semWaitev_keeps {m : Chip} {x : Ctx} (h : (m.ctx x).fits) : (semWaitev m x).keeps :=
  withStacks_keeps h (by omega) (by omega) fun b ⟨hd, hr⟩ => by
    split
    · next e =>
      rw [e] at hd
      exact inputPlan_keeps (fun v upd hu => takeEvents_keeps (Nat.le_of_succ_le hd) hr hu) fun _ hm => hm
    · trivial

theorem semEvpoll_keeps {m : Chip} {x : Ctx} (h : (m.ctx x).fits) : (semEvpoll m x).keeps :=
  withStacks_keeps h (by omega) (by omega) fun b ⟨hd, hr⟩ => by
    split
    · next e =>
      rw [e] at hd
      exact inputPlan_keeps (fun v upd hu => takeEvents_keeps (Nat.le_of_succ_le hd) hr hu) fun _ hm => hm
    · trivial

theorem semEvpeek_keeps {m : Chip} {x : Ctx} (h : (m.ctx x).fits) : (semEvpeek m x).keeps :=
  inputPlan_keeps (fun v upd hu => withStacks_keeps h (by omega) (by omega) fun b ⟨hd, hr⟩ =>
    done_keeps_of (by simp only [List.length_cons]; omega) (by dsimp only; omega) hu) fun _ hm => hm

theorem semEvclr_keeps {m : Chip} {x : Ctx} (h : (m.ctx x).fits) : (semEvclr m x).keeps :=
  withStacks_keeps h (by omega) (by omega) fun b ⟨hd, hr⟩ => by
    split
    · next e =>
      exact done_keeps_of (by rw [e] at hd; simp only [List.length_cons] at hd ⊢; omega) (by dsimp only; omega) fun m hm => by simp [hm]
    · trivial

theorem untilOf_length {l r : List W16} {t : W64} {k : W16} (h : untilOf l = some (t, k, r)) : r.length ≤ l.length := by
  unfold untilOf at h
  split at h
  · cases h; simp only [List.length_cons]; omega
  · cases h

theorem semWaituntil_keeps {m : Chip} {x : Ctx} (h : (m.ctx x).fits) : (semWaituntil m x).keeps :=
  withStacks_keeps h (by omega) (by omega) fun b ⟨hd, hr⟩ => by
    split
    · next e =>
      exact inputPlan_keeps (fun v upd hu => takeEvents_keeps (Nat.le_trans (untilOf_length e) hd) hr hu) fun _ hm => hm
    · trivial

theorem semSendev_keeps {m : Chip} {x : Ctx} (h : (m.ctx x).fits) : (semSendev m x).keeps :=
  withTop_keeps h (by omega) fun b ⟨hd, hr⟩ => by
    split
    · next e =>
      rw [e] at hd
      simp only [List.length_cons] at hd
      dsimp only
      split
      · trivial
      · split
        · trivial
        · exact done_keeps_of (by dsimp only; omega) (by dsimp only; omega) fun m hm => by simp [hm]
        · exact done_keeps_of (by dsimp only; omega) (by dsimp only; omega) fun m hm => by simp [hm]
        · exact inputPlan_keeps (fun v upd hu => done_keeps_of (by dsimp only; omega) (by dsimp only; omega) fun m hm => by simp [hu m hm])
            fun _ hm => hm
    · trivial

theorem write_shadow_fits {k : Context} (h : k.fits) (n : Nat) (w : W16) : Context.fits { k with shadow := k.shadow.write n w } :=
  ⟨⟨h.1.1, by rw [Bank.fits, bank_write_ds, bank_write_rs]; exact h.1.2⟩, h.2⟩

theorem semWrsr_keeps {m : Chip} {x : Ctx} (h : (m.ctx x).fits) (n : BitVec 7) : (semWrsr n m x).keeps :=
  withStacks_keeps h (by omega) (by omega) fun b ⟨hd, hr⟩ => by
    split
    · next w t e =>
      rw [e] at hd
      have ht : t.length ≤ 20 := by simp only [List.length_cons] at hd; omega
      have hr' : b.rs.length ≤ 20 := by omega
      have hid : ∀ m : Chip, m.Kept → m.Kept := fun _ hm => hm
      dsimp only
      split
      · exact done_keeps_of ht hr' hid
      · split
        · exact done_keeps_of (by simpa using ht) (by simpa using hr') hid
        · split
          · exact done_keeps_of ht hr' fun m hm => by simp [hm]
          · split
            · split
              · exact done_keeps_of (by simpa using ht) (by simpa using hr') hid
              · exact done_keeps_of ht hr' fun m hm => hm.modCtx fun hk => write_shadow_fits hk _ _
            · exact done_keeps_of ht hr' fun m hm => hm.modCtx fun hk => writeSr_fits hk _ _
    · trivial

theorem semTret_keeps {m : Chip} {x : Ctx} (h : (m.ctx x).fits) : (semTret m x).keeps := by
  unfold semTret
  dsimp only
  (repeat' split) <;> exact returnTo_keeps h _ _

theorem loopNext_fits {k b : Bank} {w : W16} {r : Bank × W16} (h : loopNext k b w = some r) (hb : b.fits) : r.1.fits := by
  unfold loopNext at h
  split at h
  · cases h; exact hb
  · cases h

theorem semSyscall_keeps {m : Chip} {x : Ctx} (h : (m.ctx x).fits) (n : BitVec 4) : (semSyscall n m x).keeps :=
  withStacks_keeps h (by omega) (by omega) fun b hb m hm => hm.modCtx fun hk => by
    have hr : ((loopNext b b (m.ctx x).pc).getD (b, (m.ctx x).pc + 1)).1.fits := by
      cases e : loopNext b b (m.ctx x).pc with
      | none => exact hb
      | some r => exact loopNext_fits e hb
    have hs := setBank_fits ((retire_fits (m.ctx x)).mpr hk) hr
    simpa using hs

theorem semSetmode_keeps {m : Chip} {x : Ctx} (h : (m.ctx x).fits) : (semSetmode m x).keeps :=
  withStacks_keeps h (by omega) (by omega) fun b ⟨hd, hr⟩ => by
    split
    · next w t e =>
      rw [e] at hd
      simp only [List.length_cons] at hd
      dsimp only
      split
      · trivial
      · split
        · trivial
        · split
          · intro m hm
            refine hm.modCtx fun hk => ?_
            have hs := setBank_fits ((retire_fits (m.ctx x)).mpr hk) (b := { b with ds := t }) ⟨by dsimp only; omega, hr⟩
            simp [hs]
          · exact done_keeps_of (by dsimp only; omega) (by dsimp only; omega) fun m hm => by simp [hm]
    · trivial

theorem semNop_keeps {m : Chip} {x : Ctx} (h : (m.ctx x).fits) : (semNop m x).keeps := by
  unfold semNop
  exact dataOp_keeps h (by omega) fun l => by simp

theorem semDrop_keeps {m : Chip} {x : Ctx} (h : (m.ctx x).fits) : (semDrop m x).keeps := by
  unfold semDrop
  exact dataOp_keeps h (by omega) fun l => by simp; omega

theorem semDup_keeps {m : Chip} {x : Ctx} (h : (m.ctx x).fits) : (semDup m x).keeps := by
  unfold semDup
  exact dataOp_keeps h (by omega) fun l => by split <;> simp

theorem semSwap_keeps {m : Chip} {x : Ctx} (h : (m.ctx x).fits) : (semSwap m x).keeps := by
  unfold semSwap
  exact dataOp_keeps h (by omega) fun l => by split <;> simp

theorem semOver_keeps {m : Chip} {x : Ctx} (h : (m.ctx x).fits) : (semOver m x).keeps := by
  unfold semOver
  exact dataOp_keeps h (by omega) fun l => by split <;> simp

theorem semRot_keeps {m : Chip} {x : Ctx} (h : (m.ctx x).fits) : (semRot m x).keeps := by
  unfold semRot
  exact dataOp_keeps h (by omega) fun l => by split <;> simp

theorem semNip_keeps {m : Chip} {x : Ctx} (h : (m.ctx x).fits) : (semNip m x).keeps := by
  unfold semNip
  exact dataOp_keeps h (by omega) fun l => by split <;> simp

theorem semTuck_keeps {m : Chip} {x : Ctx} (h : (m.ctx x).fits) : (semTuck m x).keeps := by
  unfold semTuck
  exact dataOp_keeps h (by omega) fun l => by split <;> simp

theorem semDrop2_keeps {m : Chip} {x : Ctx} (h : (m.ctx x).fits) : (semDrop2 m x).keeps := by
  unfold semDrop2
  exact dataOp_keeps h (by omega) fun l => by simp; omega

theorem semDup2_keeps {m : Chip} {x : Ctx} (h : (m.ctx x).fits) : (semDup2 m x).keeps := by
  unfold semDup2
  exact dataOp_keeps h (by omega) fun l => by split <;> simp

theorem semSwap2_keeps {m : Chip} {x : Ctx} (h : (m.ctx x).fits) : (semSwap2 m x).keeps := by
  unfold semSwap2
  exact dataOp_keeps h (by omega) fun l => by split <;> simp

theorem semAdd_keeps {m : Chip} {x : Ctx} (h : (m.ctx x).fits) : (semAdd m x).keeps := by
  unfold semAdd
  exact binaryC_keeps h _

theorem semSub_keeps {m : Chip} {x : Ctx} (h : (m.ctx x).fits) : (semSub m x).keeps := by
  unfold semSub
  exact binaryC_keeps h _

theorem semAdc_keeps {m : Chip} {x : Ctx} (h : (m.ctx x).fits) : (semAdc m x).keeps := by
  unfold semAdc
  exact binaryC_keeps h _

theorem semSbb_keeps {m : Chip} {x : Ctx} (h : (m.ctx x).fits) : (semSbb m x).keeps := by
  unfold semSbb
  exact binaryC_keeps h _

theorem semBrake_keeps {m : Chip} {x : Ctx} (h : (m.ctx x).fits) : (semBrake m x).keeps := by
  unfold semBrake
  exact statusOp_keeps h _

theorem semUnbrake_keeps {m : Chip} {x : Ctx} (h : (m.ctx x).fits) : (semUnbrake m x).keeps := by
  unfold semUnbrake
  exact statusOp_keeps h _

theorem semTstable_keeps {m : Chip} {x : Ctx} (h : (m.ctx x).fits) : (semTstable m x).keeps := by
  unfold semTstable
  exact statusOp_keeps h _

theorem runOp_keeps {m : Chip} {x : Ctx} (h : (m.ctx x).fits) : ∀ o : Op, (runOp o m x).keeps
  | .lit v => pushes_keeps h (by simp)
  | .rdsr n => pushes_keeps h (by simp)
  | .wrsr n => semWrsr_keeps h n
  | .syscall n => semSyscall_keeps h n
  | .vec o s => semVec_keeps h o s
  | .litw => withT_keeps fun _ => pushes_keeps h (by simp)
  | .depth | .rdepth => pushes_keeps h (by simp)
  | .neg | .inc | .dec | .not | .zeq => unary_keeps h _
  | .and | .or | .xor | .shl | .shr | .sar | .rol | .eq | .ne | .ltu | .lts | .geu | .ges => binary_keeps h _
  | .mul | .muls | .udivmod => binary2_keeps h _
  | .bz | .bnz => branchIf_keeps h _
  | .nop => semNop_keeps h
  | .drop => semDrop_keeps h
  | .dup => semDup_keeps h
  | .swap => semSwap_keeps h
  | .over => semOver_keeps h
  | .rot => semRot_keeps h
  | .nip => semNip_keeps h
  | .tuck => semTuck_keeps h
  | .drop2 => semDrop2_keeps h
  | .dup2 => semDup2_keeps h
  | .swap2 => semSwap2_keeps h
  | .add => semAdd_keeps h
  | .sub => semSub_keeps h
  | .adc => semAdc_keeps h
  | .sbb => semSbb_keeps h
  | .brake => semBrake_keeps h
  | .unbrake => semUnbrake_keeps h
  | .tstable => semTstable_keeps h
  | .pick => semPick_keeps h
  | .tor => semTor_keeps h
  | .fromr => semFromr_keeps h
  | .rfetch => semRfetch_keeps h
  | .cnt => semCnt_keeps h
  | .br => semBr_keeps h
  | .call => semCall_keeps h
  | .ret => semRet_keeps h
  | .brx => semBrx_keeps h
  | .callx => semCallx_keeps h
  | .loop => semLoop_keeps h
  | .endloop => semEndloop_keeps h
  | .lpush => semLpush_keeps h
  | .lpop => semLpop_keeps h
  | .missue => semMissue_keeps h
  | .mwait => semMwait_keeps h
  | .mstat => semMstat_keeps h
  | .drgo => semDrgo_keeps h
  | .drwait => semDrwait_keeps h
  | .drstat => semDrstat_keeps h
  | .waitev => semWaitev_keeps h
  | .sendev => semSendev_keeps h
  | .waituntil => semWaituntil_keeps h
  | .evpoll => semEvpoll_keeps h
  | .evpeek => semEvpeek_keeps h
  | .evclr => semEvclr_keeps h
  | .tret => semTret_keeps h
  | .setmode => semSetmode_keeps h
  | .vclaim => semVclaim_keeps h
  | .vrel => semVrel_keeps h
  | .fetch | .fetchp | .fetch4 => loadOp_keeps h fun ws a t hw => by simp; omega
  | .store | .storep | .store4 => storeOp_keeps h (by omega) fun _ => by simp
  | .sysret => returnTo_keeps h _ _

theorem Chip.Kept.planOf {m : Chip} (h : m.Kept) {x : Ctx} : (m.planOf x).keeps := by
  have hr := runOp_keeps (h.ctx x)
  unfold Chip.planOf
  dsimp only
  split
  · trivial
  · split
    · trivial
    · split
      · trivial
      · split
        · split
          · exact hr _
          · trivial
        · exact hr _

/-! ### Completion (R88) -/

theorem spillOf_fits {k : Context} {l : List W16} {lim ptr : W16} (h : spillOf k l lim ptr = .fits) : l.length ≤ 16 := by
  unfold spillOf at h
  split at h
  · assumption
  · (repeat' split at h) <;> cases h

/-- Spills leave a bank that fits. -/
theorem spillAll_fits {m : Chip} {x : Ctx} {b : Bank} {r : Chip × Bank} (h : m.spillAll x b = .ok r) (hb : b.spillable) : r.2.fits := by
  obtain ⟨hd, hr⟩ := hb
  unfold Chip.spillAll at h
  dsimp only at h
  split at h
  · cases h
  · cases h
  · cases h
  · cases h
  · next hc1 ho1 hc2 ho2 =>
    cases h
    cases ed : spillOf (m.ctx x) b.ds b.dsl b.dsp with
    | chock a => exact absurd ed (hc1 a)
    | overflow => exact absurd ed ho1
    | fits =>
      cases er : spillOf (m.ctx x) b.rs b.rsl b.rsp with
      | chock a => exact absurd er (hc2 a)
      | overflow => exact absurd er ho2
      | fits => exact ⟨spillOf_fits ed, spillOf_fits er⟩
      | write p ws => exact ⟨spillOf_fits ed, by simp only [List.length_take]; omega⟩
    | write q vs =>
      cases er : spillOf (m.ctx x) b.rs b.rsl b.rsp with
      | chock a => exact absurd er (hc2 a)
      | overflow => exact absurd er ho2
      | fits => exact ⟨by simp only [List.length_take]; omega, spillOf_fits er⟩
      | write p ws => exact ⟨by simp only [List.length_take]; omega, by simp only [List.length_take]; omega⟩

theorem Chip.Kept.spillAll {m : Chip} (h : m.Kept) {x : Ctx} {b : Bank} {r : Chip × Bank} (e : m.spillAll x b = .ok r) : r.1.Kept := by
  have hs (m : Chip) (hm : m.Kept) (k : Context) (b : Bank) (put : Bank → Bank) (s : Spill) : (m.spilled x k b put s).1.Kept := by
    unfold Chip.spilled
    split <;> simp [hm]
  rw [spillAll_ok e]
  exact hs _ (hs _ h _ _ _ _) _ _ _ _

theorem complete_fits {k : Context} (h : k.fits) {b : Bank} (hb : b.fits) (c : Bool) (len : Nat) (n : Next) : (k.complete b c len n).fits := by
  have hs (b : Bank) (hb : b.fits) :
      ({ k with st := .running, wait := .none, retired := k.retired + 1, status := { k.status with c := c } }.setBank b).fits :=
    setBank_fits (k := { k with st := .running, wait := .none, retired := k.retired + 1, status := { k.status with c := c } }) h hb
  unfold Context.complete
  split
  · exact hs b hb
  · exact hs b hb
  · dsimp only
    split
    · next e => exact hs _ (loopNext_fits e hb)
    · exact hs b hb

@[simp] theorem Chip.Kept.carry {m : Chip} (h : m.Kept) {x : Ctx} {p : Plan} (hp : p.keeps) : (m.carry x p).Kept := by
  cases p with
  | done b c upd next =>
    obtain ⟨hb, hu⟩ := hp
    unfold Chip.carry
    dsimp only
    split
    · next e => exact (hu _ (h.spillAll e)).modCtx fun hk => complete_fits hk (spillAll_fits e hb) _ _ _
    · simp [h]
    · simp [h]
    · exact h
  | fault v d => simp [Chip.carry, h]
  | chock a => simp [Chip.carry, h]
  | wait w upd => simp [Chip.carry, hp m h]
  | stall upd => exact hp m h
  | raw upd => exact hp m h

@[simp] theorem tallyBoundary_kept (m : Chip) (x : Ctx) : (m.tallyBoundary x).Kept ↔ m.Kept := by simp [Chip.tallyBoundary]

@[simp] theorem Chip.Kept.execute {m : Chip} (h : m.Kept) {x : Ctx} : (m.execute x).Kept := by
  have ht := (tallyBoundary_kept m x).mpr h
  exact ht.carry ht.planOf

@[simp] theorem Chip.Kept.insn {m : Chip} (h : m.Kept) {x : Ctx} {p : Op → Bool} : (insn x p m).Kept := by
  unfold Sys2Proof.Machine.insn
  dsimp only
  split <;> split <;> simp [h]

@[simp] theorem Chip.Kept.waitRelease {m : Chip} (hk : m.Kept) {x : Ctx} : (m.waitRelease x).Kept := by simp [Chip.waitRelease, hk]

@[simp] theorem Chip.Kept.untilExpire {m : Chip} (hk : m.Kept) {x : Ctx} : (m.untilExpire x).Kept := by
  unfold Chip.untilExpire
  dsimp only
  (repeat' split) <;> simp [hk]

@[simp] theorem Chip.Kept.trapEntry {m : Chip} (hk : m.Kept) {x : Ctx} {hi : Nat} : (m.trapEntry x hi).Kept := by
  unfold Chip.trapEntry
  dsimp only
  (repeat' split) <;> simp [hk]

end Sys2Proof.Machine

/-! PROOFS. What memory, translation, queues and the shunter keep. -/
namespace Sys2Proof.Machine

/-! ### Memory slices -/

@[simp] theorem Chip.Kept.serve {m : Chip} (hk : m.Kept) {q : MemAcc} {noalloc : Bool} : (m.serve q noalloc).Kept := by
  unfold Chip.serve
  split <;> simp [hk]

@[simp] theorem Chip.Kept.cmemAccess {m : Chip} (hk : m.Kept) {q : MemAcc} : (m.cmemAccess q).Kept := by
  unfold Chip.cmemAccess
  split <;> simp [hk]

@[simp] theorem Chip.Kept.depotParity {m : Chip} (hk : m.Kept) {a : Nat} : (m.depotParity a).Kept := by
  unfold Chip.depotParity
  dsimp only
  (repeat' split) <;> simp [hk]

@[simp] theorem Chip.Kept.depotAccess {m : Chip} (hk : m.Kept) {q : MemAcc} {noalloc parity : Bool} :
    (m.depotAccess q noalloc parity).Kept := by
  have hp : (m.depotParity q.addr).Kept := by simp [hk]
  unfold Chip.depotAccess
  dsimp only
  (repeat' split) <;> simp [hk, hp]

@[simp] theorem Chip.Kept.scrubBlock {m : Chip} (hk : m.Kept) {b fails : Nat} {master : BitVec 16} :
    (m.scrubBlock b fails master).Kept := by simp [Chip.scrubBlock, hk]

@[simp] theorem Chip.Kept.scrubTo {m : Chip} (hk : m.Kept) {s hi : Nat} : (m.scrubTo s hi).Kept := by
  simp +contextual [Chip.scrubTo, hk, Chip.Kept.foldl]

@[simp] theorem Chip.Kept.hbmRead {m : Chip} (hk : m.Kept) {master : BitVec 16} {a fails : Nat} {scrub : Bool} :
    (m.hbmRead master a fails scrub).Kept := by
  unfold Chip.hbmRead
  split <;> simp [hk]

@[simp] theorem Chip.Kept.hbmPut {m : Chip} (hk : m.Kept) {master : BitVec 16} {a : Nat} {l : List Byte} {fails : Nat × Nat}
    : (m.hbmPut master a l fails).Kept := by
  unfold Chip.hbmPut
  split <;> simp [hk]

@[simp] theorem Chip.Kept.qpower {m : Chip} (hk : m.Kept) {c : Nat} {l : Launch} : (m.qpower c l).Kept := by
  simp +contextual [Chip.qpower, hk, Chip.Kept.foldl]

@[simp] theorem Chip.Kept.quarterReady {m : Chip} (hk : m.Kept) {c q : Nat} : (m.quarterReady c q).Kept := by simp [Chip.quarterReady, hk]

@[simp] theorem zeroBegin_kept (m : Chip) (c : Nat) : (m.zeroBegin c).Kept ↔ m.Kept := by simp [Chip.zeroBegin]

@[simp] theorem zeroCheck_kept (m : Chip) (c : Nat) (l : Launch) : (m.zeroCheck c l).Kept ↔ m.Kept := by simp [Chip.zeroCheck]

@[simp] theorem Chip.Kept.zeroRows {m : Chip} (hk : m.Kept) {c first n : Nat} : (m.zeroRows c first n).Kept :=
  Chip.Kept.foldl (fun _ _ hk => by simp [hk]) _ hk

@[simp] theorem Chip.Kept.zeroOn {m : Chip} (hk : m.Kept) {c n : Nat} : (m.zeroOn c n).Kept := by simp [Chip.zeroOn, hk]

@[simp] theorem Chip.Kept.zeroEnd {m : Chip} (hk : m.Kept) {c : Nat} : (m.zeroEnd c).Kept := by simp [Chip.zeroEnd, hk]

@[simp] theorem bufzeroCheck_kept (m : Chip) (c : Fin 64) (l : Launch) : (m.bufzeroCheck c l).Kept ↔ m.Kept := by simp [Chip.bufzeroCheck]

@[simp] theorem bufzeroEnd_kept (m : Chip) (c : Nat) : (m.bufzeroEnd c).Kept ↔ m.Kept := by simp [Chip.bufzeroEnd]

@[simp] theorem splitStart_kept (m : Chip) (s : Nat) (l : Launch) : (m.splitStart s l).Kept ↔ m.Kept := by simp [Chip.splitStart]

@[simp] theorem walkTo_kept (m : Chip) (s n : Nat) : (m.walkTo s n).Kept ↔ m.Kept := by simp [Chip.walkTo]

@[simp] theorem Chip.Kept.splitEnd {m : Chip} (hk : m.Kept) {s : Nat} : (m.splitEnd s).Kept := by simp [Chip.splitEnd, hk]

@[simp] theorem flushStart_kept (m : Chip) (s : Nat) (l : Launch) : (m.flushStart s l).Kept ↔ m.Kept := by simp [Chip.flushStart]

@[simp] theorem flushEnd_kept (m : Chip) (s : Nat) (inval : Bool) : (m.flushEnd s inval).Kept ↔ m.Kept := by simp [Chip.flushEnd]

@[simp] theorem raiseWritebacks_kept (m : Chip) (s : Nat) : (m.raiseWritebacks s).Kept ↔ m.Kept := by simp [Chip.raiseWritebacks]

@[simp] theorem scrubStart_kept (m : Chip) (s : Nat) (l : Launch) : (m.scrubStart s l).Kept ↔ m.Kept := by simp [Chip.scrubStart]

@[simp] theorem Chip.Kept.scrubEnd {m : Chip} (hk : m.Kept) {s : Nat} : (m.scrubEnd s).Kept := by simp [Chip.scrubEnd, hk]

@[simp] theorem patrolStart_kept (m : Chip) (s : Nat) : (m.patrolStart s).Kept ↔ m.Kept := by simp [Chip.patrolStart]

/-! ### Walks, faults and invalidations -/

@[simp] theorem walkRead_kept (m : Chip) (r : Nat) (w : XWalk) : (m.walkRead r w).Kept ↔ m.Kept := by simp [Chip.walkRead]

@[simp] theorem modWalk_kept (m : Chip) (r id : Nat) (f : XWalk → XWalk) : (m.modWalk r id f).Kept ↔ m.Kept := by simp [Chip.modWalk]

@[simp] theorem dropWalk_kept (m : Chip) (r id : Nat) : (m.dropWalk r id).Kept ↔ m.Kept := by simp [Chip.dropWalk]

@[simp] theorem stopReq_kept (m : Chip) (q : XMiss) : (m.stopReq q).Kept ↔ m.Kept := by simp [Chip.stopReq]

@[simp] theorem Chip.Kept.putRecord {m : Chip} (hk : m.Kept) {ws : List W64} : (m.putRecord ws).Kept := by simp [Chip.putRecord, hk]

@[simp] theorem Chip.Kept.faultWrite {m : Chip} (hk : m.Kept) : m.faultWrite.Kept := by
  unfold Chip.faultWrite
  split <;> simp [hk]

@[simp] theorem Chip.Kept.advisory {m : Chip} (hk : m.Kept) {asid : W16} {page cause level : Nat} {c : Fin 64} {s : Nat} :
    (m.advisory asid page cause level c s).Kept := by simp [Chip.advisory, hk]

@[simp] theorem Chip.Kept.outriderFail {m : Chip} (hk : m.Kept) {w : XWalk} {cause level : Nat} :
    (m.outriderFail w cause level).Kept := by
  unfold Chip.outriderFail
  dsimp only
  (repeat' split) <;> simp [hk]

@[simp] theorem Chip.Kept.walkFail {m : Chip} (hk : m.Kept) {r : Nat} {w : XWalk} {cause level : Nat} :
    (m.walkFail r w cause level).Kept := by simp [Chip.walkFail, hk]

@[simp] theorem walkDone_kept (m : Chip) (r : Nat) (w : XWalk) (leaf : W64) (block : Bool) :
    (m.walkDone r w leaf block).Kept ↔ m.Kept := by simp [Chip.walkDone]

@[simp] theorem Chip.Kept.walkEntry {m : Chip} (hk : m.Kept) {r : Nat} {w : XWalk} {d : Option W64} :
    (m.walkEntry r w d).Kept := by
  unfold Chip.walkEntry
  dsimp only
  (repeat' split) <;> simp [hk]

@[simp] theorem Chip.Kept.walkResponse {m : Chip} (hk : m.Kept) {r : Fin 4} {id : Nat} : (m.walkResponse r id).Kept := by
  unfold Chip.walkResponse
  split <;> simp [hk]

@[simp] theorem Chip.Kept.walkDeliver {m : Chip} (hk : m.Kept) {r id : Nat} {d : Option (List Byte)} :
    (m.walkDeliver r id d).Kept := by
  unfold Chip.walkDeliver
  split <;> simp [hk]

@[simp] theorem Chip.Kept.walkStart {m : Chip} (hk : m.Kept) {r : Nat} {asid : W16} {page : Nat} {demand : Bool}
    {o : Option (Fin 64 × Nat × Nat)} : (m.walkStart r asid page demand o).Kept := by simp [Chip.walkStart, hk]

@[simp] theorem Chip.Kept.pageWalk {m : Chip} (hk : m.Kept) {r : Fin 4} : (m.pageWalk r).Kept := by
  unfold Chip.pageWalk
  dsimp only
  (repeat' split) <;> simp [hk]

@[simp] theorem Chip.Kept.outriderWalk {m : Chip} (hk : m.Kept) {c : Fin 64} {s : Fin 8} : (m.outriderWalk c s).Kept := by
  unfold Chip.outriderWalk
  dsimp only
  (repeat' split) <;> simp [hk]

@[simp] theorem faultRestart_kept (m : Chip) : m.faultRestart.Kept ↔ m.Kept := by simp [Chip.faultRestart]

@[simp] theorem closeFault_kept (m : Chip) (f : XFault) : (m.closeFault f).Kept ↔ m.Kept := by simp [Chip.closeFault]

@[simp] theorem adviceWalks_kept (m : Chip) (f : XFault) : (m.adviceWalks f).Kept ↔ m.Kept := by simp [Chip.adviceWalks]

@[simp] theorem syncFifo_kept (m : Chip) : m.syncFifo.Kept ↔ m.Kept := by simp [Chip.syncFifo]

@[simp] theorem invalPut_kept (m : Chip) (d : InvDesc) : (m.invalPut d).Kept ↔ m.Kept := by simp [Chip.invalPut]

@[simp] theorem invalidate_kept (m : Chip) (d : InvDesc) : (m.invalidate d).Kept ↔ m.Kept := by simp [Chip.invalidate]

@[simp] theorem invalAccept_kept (m : Chip) : m.invalAccept.Kept ↔ m.Kept := by
  unfold Chip.invalAccept
  split <;> simp

@[simp] theorem drainRaise_kept (m : Chip) : m.drainRaise.Kept ↔ m.Kept := by simp [Chip.drainRaise]

@[simp] theorem linkWrite_kept (m : Chip) (l a : Nat) (bytes : List Byte) : (m.linkWrite l a bytes).Kept ↔ m.Kept := by
  simp [Chip.linkWrite]

@[simp] theorem invalComplete_kept (m : Chip) : m.invalComplete.Kept ↔ m.Kept := by
  unfold Chip.invalComplete
  split <;> simp

@[simp] theorem invalMulticast_kept (m : Chip) (l : Fin 2) (a : Nat) (bytes : List Byte) :
    (m.invalMulticast l a bytes).Kept ↔ m.Kept := by simp [Chip.invalMulticast]

/-! ### Submission queues -/

@[simp] theorem setQstate_kept (m : Chip) (k : QState) : (m.setQstate k).Kept ↔ m.Kept := by simp [Chip.setQstate]

@[simp] theorem doorbell_kept (m : Chip) (q v : Nat) : (m.doorbell q v).Kept ↔ m.Kept := by simp [Chip.doorbell]

@[simp] theorem restartQueue_kept (m : Chip) (q : Nat) : (m.restartQueue q).Kept ↔ m.Kept := by simp [Chip.restartQueue]

@[simp] theorem writeCompletion_kept (m : Chip) (q : Nat) (head : W64) (status result task : Nat) :
    (m.writeCompletion q head status result task).Kept ↔ m.Kept := by simp [Chip.writeCompletion]

theorem Chip.Kept.complete {m : Chip} (h : m.Kept) {q : Nat} {head : W64} {status result task : Nat} {mo : Chip}
    (e : m.complete q head status result task = some mo) : mo.Kept := by
  unfold Chip.complete at e
  obtain ⟨m1, h1, rfl⟩ := Option.map_eq_some_iff.mp e
  have hk := h.markOut h1
  dsimp only
  (repeat' split) <;> simp [hk]

@[simp] theorem dropSEntry_kept (m : Chip) (e : SEntry) : (m.dropSEntry e).Kept ↔ m.Kept := by simp [Chip.dropSEntry]

@[simp] theorem Chip.Kept.finish {m : Chip} (hk : m.Kept) {e : SEntry} {status result : Nat} : (m.finish e status result).Kept := by
  unfold Chip.finish
  split
  · next h => exact (dropSEntry_kept ..).mpr (hk.complete h)
  · simp [hk]

@[simp] theorem Chip.Kept.putEntry {m : Chip} (hk : m.Kept) {q index : Nat} {w : Vector W64 8} : (m.putEntry q index w).Kept := by
  simp [Chip.putEntry, hk]

@[simp] theorem Chip.Kept.entryTake {m : Chip} (hk : m.Kept) {q : Nat} {w : Vector W64 8} : (m.entryTake q w).Kept := by
  unfold Chip.entryTake
  dsimp only
  (repeat' split) <;> simp [hk]

@[simp] theorem startEntryOf_kept (m : Chip) (e : SEntry) (aim : W16) : (m.startEntryOf e aim).Kept ↔ m.Kept := by simp [Chip.startEntryOf]

@[simp] theorem syncAdvice_kept (m : Chip) : m.syncAdvice.Kept ↔ m.Kept := by simp [Chip.syncAdvice]

@[simp] theorem Chip.Kept.adviseEntry {m : Chip} (h : m.Kept) : m.adviseEntry.Kept := by
  unfold Chip.adviseEntry
  dsimp only
  have hput (l : List XAdvice) : Chip.Kept (Chip.syncAdvice { m with xlat := { m.xlat with advice := l } }) := by simp [h]
  (repeat' split) <;> simp only [markWait_kept, dropSEntry_kept, h, Chip.Kept.finish]
  · next e => exact (hput _).complete e
  · next e => exact (hput _).complete e

@[simp] theorem xferStart_kept (m : Chip) (e : SEntry) (x : Xfer) : (m.xferStart e x).Kept ↔ m.Kept := by simp [Chip.xferStart]

@[simp] theorem Chip.Kept.xferEntry {m : Chip} (hk : m.Kept) {type : Nat} {f : SEntry → Nat → Option Xfer} :
    (m.xferEntry type f).Kept := by
  unfold Chip.xferEntry
  (repeat' split) <;> simp +contextual [hk]

@[simp] theorem xferStep_kept (m : Chip) (id n : Nat) : (m.xferStep id n).Kept ↔ m.Kept := by
  induction n generalizing m with
  | zero => rfl
  | succ n ih =>
    unfold Chip.xferStep
    split
    · rfl
    · dsimp only
      split
      · rfl
      · split <;> simp [ih]

@[simp] theorem Chip.Kept.devPut {m : Chip} (h : m.Kept) {master : BitVec 16} {cls a : Nat} {l : List Byte} {xfer : Option Nat} :
    (m.devPut master cls a l xfer).1.Kept :=
  Chip.Kept.foldl_fst (fun s p hs => by dsimp only; split <;> simp [hs]) _ h

@[simp] theorem Chip.Kept.devGet {m : Chip} (h : m.Kept) {master : BitVec 16} {cls a n : Nat} : (m.devGet master cls a n).1.Kept :=
  Chip.Kept.foldl_fst (fun s p hs => by simp [hs]) _ h

@[simp] theorem deferWrite_kept (m : Chip) (d : Deferred) : (m.deferWrite d).Kept ↔ m.Kept := by simp [Chip.deferWrite]

@[simp] theorem Chip.Kept.xferDeliver {m : Chip} (hk : m.Kept) {id off : Nat} {l : List Byte} {err : Bool} :
    (m.xferDeliver id off l err).Kept := by
  unfold Chip.xferDeliver
  split <;> simp [hk]

@[simp] theorem Chip.Kept.xferOut {m : Chip} (hk : m.Kept) {x : Xfer} : (m.xferOut x).Kept := by
  unfold Chip.xferOut
  dsimp only
  (repeat' split) <;> simp [hk]

theorem registerRange_kept {m : Chip} {r : Registration} {mo : Chip} (e : m.registerRange r = some mo) : mo.Kept ↔ m.Kept := by
  unfold Chip.registerRange at e
  dsimp only at e
  split at e
  · cases e
  · cases e
    simp

@[simp] theorem Chip.Kept.xferEnd {m : Chip} (h : m.Kept) {x : Xfer} : (m.xferEnd x).Kept := by
  unfold Chip.xferEnd
  split
  · exact h
  · dsimp only
    generalize hr : (if (x.reload && !x.err) = true then
      m.registerRange ⟨x.dst / 65536, x.len / 65536, BitVec.ofNat 64 x.src, false⟩ else some m) = r
    have hk : (r.getD m).Kept := h.getD fun a ha => by
      subst ha
      split at hr
      · exact (registerRange_kept hr).mpr h
      · cases hr; exact h
    split
    · exact (markWait_kept _).mpr h
    · next e => simp [hk.complete e]

@[simp] theorem Chip.Kept.xferWork {m : Chip} (hk : m.Kept) {id : Nat} : (m.xferWork id).Kept := by
  unfold Chip.xferWork
  split <;> simp [hk]

/-! ### The shunter -/

@[simp] theorem idleCtx_kept (m : Chip) (x : Ctx) : (m.idleCtx x).Kept ↔ m.Kept := by simp [Chip.idleCtx]

theorem held_fits (s : Saved) : s.held.ctx.stacksFit :=
  ⟨⟨List.length_take_le 16 _, List.length_take_le 16 _⟩, List.length_take_le 16 _, List.length_take_le 16 _⟩

theorem controlIn_fits {t : Task} (ht : t.fits) (m : Chip) : (m.controlIn t).ctx.stacksFit := by
  unfold Chip.controlIn
  split
  · exact held_fits _
  · next hs =>
    dsimp only
    split
    · exact ht _ hs
    · exact held_fits _

/-- A task that has its arguments on its stack, and nothing else. -/
theorem initial_fits (t : Task) (w : W64) : (t.initial w).stacksFit := by
  have hb : ∀ k : Context, (k.pendHost w).stacksFit ↔ k.stacksFit := fun k => by unfold Context.pendHost; split <;> rfl
  have hk : Context.reset.shadow.fits := ctx_reset_stacksFit.2
  unfold Task.initial
  dsimp only
  split
  · exact (hb _).mpr ⟨⟨by simp [unfour], Nat.zero_le _⟩, hk⟩
  · exact ⟨⟨by simp [unfour], Nat.zero_le _⟩, hk⟩

theorem mem_insertTask {t u : Task} {l : List Task} (h : u ∈ insertTask t l) : u = t ∨ u ∈ l := by
  induction l with
  | nil => simpa [insertTask] using h
  | cons v r ih =>
    unfold insertTask at h
    split at h
    · rcases List.mem_cons.mp h with rfl | h
      · simp
      · rcases ih h with rfl | h <;> simp [*]
    · simpa using h

theorem mem_waitingTasks {m : Chip} {t : Task} (h : t ∈ m.waitingTasks) : t ∈ m.sh.tasks := by
  have key : ∀ (l a : List Task), t ∈ l.foldl (fun l t => insertTask t l) a → t ∈ l ∨ t ∈ a := by
    intro l
    induction l with
    | nil => exact fun a h => .inr h
    | cons u r ih =>
      intro a h
      rcases ih _ h with h | h
      · exact .inl (List.mem_cons_of_mem _ h)
      · rcases mem_insertTask h with rfl | h
        · exact .inl List.mem_cons_self
        · exact .inr h
  exact List.mem_of_mem_filter ((key _ _ h).resolve_right List.not_mem_nil)

theorem mem_readyFor {m : Chip} {x : Ctx} {t : Task} (h : t ∈ m.readyFor x) : t ∈ m.sh.tasks := by
  unfold Chip.readyFor at h
  split at h
  · exact List.mem_of_mem_filter h
  · cases h

theorem mem_bestTask {l : List Task} {t : Task} (h : bestTask l = some t) : t ∈ l := by
  have key : ∀ (r : List Task) (u : Task), r.foldl betterTask u = u ∨ r.foldl betterTask u ∈ r := by
    intro r
    induction r with
    | nil => exact fun _ => .inl rfl
    | cons v r ih =>
      intro u
      have hb : betterTask u v = u ∨ betterTask u v = v := by unfold betterTask; split <;> simp
      rcases ih (betterTask u v) with h | h
      · rw [List.foldl_cons, h]
        rcases hb with hb | hb <;> simp [hb]
      · exact .inr (List.mem_cons_of_mem _ h)
  cases l with
  | nil => cases h
  | cons u r =>
    cases h
    rcases key r u with h | h
    · rw [h]; exact List.mem_cons_self
    · exact List.mem_cons_of_mem _ h

@[simp] theorem stopEngines_kept (m : Chip) (x : Ctx) (hi : Nat) : (m.stopEngines x hi).Kept ↔ m.Kept := by simp [Chip.stopEngines]

@[simp] theorem putSaved_kept (m : Chip) (x : Ctx) (l : SMap W64) : (m.putSaved x l).Kept ↔ m.Kept := by simp [Chip.putSaved]

@[simp] theorem clearSide_kept (m : Chip) (x : Ctx) : (m.clearSide x).Kept ↔ m.Kept := by simp [Chip.clearSide]

@[simp] theorem Chip.Kept.leaveCtx {m : Chip} (h : m.Kept) {x : Ctx} {t : Task} {st : TaskState} : (m.leaveCtx x t st).Kept := by
  unfold Chip.leaveCtx
  dsimp only
  have h1 : ((m.tallyBoundary x).markArea t.ctlArea).1.Kept := Chip.Kept.markCtl (by simp [h])
  have hv : (m.tallyBoundary x |>.ctx x).fits := Chip.Kept.ctx (by simp [h]) x
  rw [idleCtx_kept]
  refine (modShunt_kept _ _ fun _ => by rfl).mpr ?_
  exact Chip.Kept.modTask (by simp [h1]) fun k _ => task_fits_saved rfl hv.1

@[simp] theorem Chip.Kept.forgetRoom {m : Chip} (h : m.Kept) {x : Ctx} : (m.forgetRoom x).Kept :=
  h.withTasks fun t ht => by
    obtain ⟨t', ht', rfl⟩ := List.mem_map.mp ht
    have hf : t'.fits := h.tasks _ ht'
    split <;> exact hf

theorem Chip.Kept.enterCtx {m : Chip} (h : m.Kept) {x : Ctx} {t : Task} (ht : t.fits) : (m.enterCtx x t).Kept := by
  unfold Chip.enterCtx
  dsimp only
  simp only [syncCoach_kept, holdSources_kept, count_kept]
  refine Chip.Kept.forgetRoom ?_
  simp only [modTask_kept, task_fits_frame, implies_true, applyStaged_kept]
  refine Chip.Kept.modCtx ?_ fun hk => ?_
  · simp [h]
  · exact ⟨⟨(controlIn_fits ht m).1, hk.1.2⟩, hk.2⟩

@[simp] theorem markEnding_kept (m : Chip) (h : W16) (status result : Nat) : (m.markEnding h status result).Kept ↔ m.Kept := by
  unfold Chip.markEnding
  dsimp only
  (repeat' split) <;> simp

@[simp] theorem wakeSided_kept (m : Chip) : m.wakeSided.Kept ↔ m.Kept := kept_foldl _ _ _ fun a t => by simp

@[simp] theorem leaveFaults_kept (m : Chip) (h : W16) : (m.leaveFaults h).Kept ↔ m.Kept := by simp [Chip.leaveFaults]

@[simp] theorem dropVec_kept (m : Chip) (c : Fin 64) (h : W16) : (m.dropVec c h).Kept ↔ m.Kept := by simp [Chip.dropVec]

@[simp] theorem setPart_kept (m : Chip) (c i : Nat) (v : W64) : (m.setPart c i v).Kept ↔ m.Kept := by simp [Chip.setPart]

@[simp] theorem dropCode_kept (m : Chip) (h : W16) : (m.dropCode h).Kept ↔ m.Kept := by simp [Chip.dropCode]

@[simp] theorem Chip.Kept.freeTask {m : Chip} (h : m.Kept) {t : Task} : (m.freeTask t).Kept := by
  unfold Chip.freeTask
  dsimp only
  have hend (a : Chip) (ha : a.Kept) (c : Prop) [Decidable c] : (if c then a.endCmd shuntPage cmdOk else a).Kept := by
    split <;> simp [ha]
  refine hend _ ?_ _
  rw [syncCoach_kept, kept_frame_stg]
  have hdrop (a : Chip) (ha : a.Kept) : (a.modShunt fun s => { s with tasks := s.tasks.filter (·.handle != t.handle) }).Kept :=
    ha.withTasks fun k hk => ha.tasks k (List.mem_of_mem_filter hk)
  refine hdrop _ ?_
  split <;> simp only [setPart_kept, dropVec_kept, kept_frame] <;> split <;> simp [h]

theorem Chip.Kept.endTask {m : Chip} (h : m.Kept) {t : Task} {status result : Nat} {mo : Chip}
    (e : m.endTask t status result = some mo) : mo.Kept := by
  obtain ⟨m1, h1, rfl⟩ := Option.map_eq_some_iff.mp e
  exact (h.complete h1).freeTask

@[simp] theorem Chip.Kept.taskEnd {m : Chip} (h : m.Kept) {a : W16} : (m.taskEnd a).Kept := by
  unfold Chip.taskEnd
  have hend (t : Task) (s r : Nat) : ((m.endTask t s r).getD m.markWait).Kept :=
    Chip.Kept.getD (by simp [h]) fun _ e => h.endTask e
  dsimp only
  (repeat' split) <;> simp [h, hend]

@[simp] theorem ctxDone_kept (m : Chip) (x : Ctx) (v : W64) : (m.ctxDone x v).Kept ↔ m.Kept := by simp [Chip.ctxDone]

@[simp] theorem Chip.Kept.hubLeave {m : Chip} (hk : m.Kept) {x : Ctx} : (m.hubLeave x).Kept := by
  unfold Chip.hubLeave
  dsimp only
  (repeat' split) <;> simp [hk]

@[simp] theorem Chip.Kept.hubStop {m : Chip} (hk : m.Kept) {x : Ctx} {hi : Nat} : (m.hubStop x hi).Kept := by simp [Chip.hubStop, hk]

@[simp] theorem askStop_kept (m : Chip) (x : Ctx) (h : HubStop) : (m.askStop x h).Kept ↔ m.Kept := by simp [Chip.askStop]

@[simp] theorem Chip.Kept.taskEntry {m : Chip} (h : m.Kept) {a : W16} : (m.taskEntry a).Kept := by
  unfold Chip.taskEntry
  split
  · exact h
  · split
    · exact h
    · next e _ =>
      dsimp only
      split
      · simp [h]
      · split
        · exact h
        · refine (kept_frame_stg _).mpr (Chip.Kept.withTasks (by simp [h]) fun t ht => ?_)
          rcases List.mem_append.mp ht with ht | ht
          · exact h.tasks t ht
          · exact task_fits_none (List.mem_singleton.mp ht ▸ rfl)

@[simp] theorem Chip.Kept.postTask {m : Chip} (h : m.Kept) {t : Task} : (m.postTask t).Kept := by
  unfold Chip.postTask
  split
  · simp [h]
  · refine h.modTask fun k hk => ?_
    split
    · next v hv => exact task_fits_saved rfl (by have := hk v hv; unfold Context.pendHost; split <;> exact this)
    · exact hk

@[simp] theorem Chip.Kept.postEntry {m : Chip} (h : m.Kept) : m.postEntry.Kept := by
  unfold Chip.postEntry
  split
  · exact h
  · split
    · exact h
    · split
      · simp [h]
      · split
        · next e => simp [h.postTask.complete e]
        · simp [h]

@[simp] theorem Chip.Kept.endEntry {m : Chip} (hk : m.Kept) : m.endEntry.Kept := by
  unfold Chip.endEntry
  (repeat' split) <;> simp +contextual [hk]

@[simp] theorem Chip.Kept.placed {m : Chip} (h : m.Kept) {t : Task} : (m.placed t).Kept := by
  unfold Chip.placed
  dsimp only
  refine (modShunt_kept _ _ fun _ => by rfl).mpr ?_
  exact h.markVec.markCtl.modTask fun k _ => task_fits_saved rfl (initial_fits t _)

@[simp] theorem Chip.Kept.codeDeliver {m : Chip} (hk : m.Kept) {h : W16} {off : Nat} {l : List Byte} {err : Bool} :
    (m.codeDeliver h off l err).Kept := by
  unfold Chip.codeDeliver
  split <;> simp [hk]

@[simp] theorem codeReads_kept (m : Chip) (t : Task) : (m.codeReads t).Kept ↔ m.Kept := by simp [Chip.codeReads]

@[simp] theorem Chip.Kept.codeLocal {m : Chip} (hk : m.Kept) {t : Task} : (m.codeLocal t).Kept := by
  unfold Chip.codeLocal
  dsimp only
  (repeat' split) <;> simp [hk]

@[simp] theorem Chip.Kept.placeGo {m : Chip} (hk : m.Kept) {t : Task} : (m.placeGo t).Kept := by simp [Chip.placeGo, hk]

theorem Chip.Kept.placeAt {m : Chip} (h : m.Kept) {t : Task} (ht : t.fits) {p : Fin 64 × Nat × Nat × Nat} : (m.placeAt t p).Kept := by
  unfold Chip.placeAt
  dsimp only
  exact Chip.Kept.placeGo (Chip.Kept.modTask (by simp [h]) fun _ _ => (task_fits_frame t).mpr ht)

@[simp] theorem endFenced_kept (m : Chip) : m.endFenced.Kept ↔ m.Kept := by simp [Chip.endFenced]

@[simp] theorem Chip.Kept.taskPlace {m : Chip} (h : m.Kept) : m.taskPlace.Kept := by
  unfold Chip.taskPlace
  have he := (endFenced_kept m).mpr h
  split
  · exact h
  · dsimp only
    split
    · simp [he]
    · split
      · next r hr =>
        obtain ⟨t, ht, hp⟩ := List.exists_of_findSome?_eq_some hr
        obtain ⟨p, -, rfl⟩ := Option.map_eq_some_iff.mp hp
        exact he.placeAt (he.tasks t (mem_waitingTasks ht))
      · exact he

@[simp] theorem Chip.Kept.taskDispatch {m : Chip} (h : m.Kept) {x : Ctx} : (m.taskDispatch x).Kept := by
  unfold Chip.taskDispatch
  have hr {t : Task} (ht : t ∈ m.readyFor x) : t.fits := h.tasks t (mem_readyFor ht)
  split
  · exact h
  · split
    · exact h
    · next t ht =>
      split
      · next u hu =>
        obtain ⟨_, -, hu⟩ := Option.bind_eq_some_iff.mp hu
        exact h.enterCtx (hr (List.mem_of_find?_eq_some hu))
      · exact h.enterCtx (hr (mem_bestTask ht))

@[simp] theorem decideSwitch_kept (m : Chip) (x : Ctx) (u : Task) (h : HubStop) (t : W16) :
    (m.decideSwitch x u h t).Kept ↔ m.Kept := by simp [Chip.decideSwitch]

@[simp] theorem taskSwitch_kept (m : Chip) : (m.taskSwitch).Kept ↔ m.Kept := by
  unfold Chip.taskSwitch
  (repeat' split) <;> simp

@[simp] theorem sliceExpire_kept (m : Chip) (x : Ctx) : (m.sliceExpire x).Kept ↔ m.Kept := by
  unfold Chip.sliceExpire
  dsimp only
  (repeat' split) <;> simp

@[simp] theorem vlimitSwitch_kept (m : Chip) (c : Fin 64) : (m.vlimitSwitch c).Kept ↔ m.Kept := by
  unfold Chip.vlimitSwitch
  dsimp only
  (repeat' split) <;> simp

@[simp] theorem sideTask_kept (m : Chip) : m.sideTask.Kept ↔ m.Kept := by
  unfold Chip.sideTask
  dsimp only
  (repeat' split) <;> simp

@[simp] theorem resolve_kept (m : Chip) (l : Launch) : (m.resolve l).Kept ↔ m.Kept := by
  unfold Chip.resolve
  dsimp only
  (repeat' split) <;> simp

@[simp] theorem endStart_kept (m : Chip) (l : Launch) : (m.endStart l).Kept ↔ m.Kept := by simp [Chip.endStart]

@[simp] theorem Chip.Kept.fenceCoach {m : Chip} (h : m.Kept) {c : Fin 64} : (m.fenceCoach c).Kept := by
  unfold Chip.fenceCoach
  dsimp only
  have hmap (a : Chip) (ha : a.Kept) (f : Task → Task) (hf : ∀ t, (f t).fits ↔ t.fits) :
      (a.modShunt fun s => { s with tasks := s.tasks.map f }).Kept := ha.withTasks fun k hk => by
    obtain ⟨t, ht, rfl⟩ := List.mem_map.mp hk
    exact (hf t).mpr (ha.tasks t ht)
  refine hmap _ ?_ _ fun t => by simp
  refine Chip.Kept.foldl (fun a t ha => (dropCode_kept a _).mpr ha) _ (Chip.Kept.foldl (fun a b ha => ?_) _ (by simp [h]))
  (repeat' split) <;> simp [ha]

@[simp] theorem Chip.Kept.fenceStart {m : Chip} (hk : m.Kept) {l : Launch} : (m.fenceStart l).Kept := by simp [Chip.fenceStart, hk]

@[simp] theorem Chip.Kept.powerRows {m : Chip} (hk : m.Kept) {c r n : Nat} : (m.powerRows c r n).Kept :=
  Chip.Kept.foldl (fun _ _ hk => by simp [hk]) _ hk

@[simp] theorem Chip.Kept.moveTask {m : Chip} (hk : m.Kept) {c d : Fin 64} {t : Task} : (m.moveTask c d t).Kept := by
  simp [Chip.moveTask, hk]

@[simp] theorem copyObuf_kept (m : Chip) (c d : Fin 64) : (m.copyObuf c d).Kept ↔ m.Kept := by simp [Chip.copyObuf]

@[simp] theorem Chip.Kept.moveGroup {m : Chip} (hk : m.Kept) {c d : Fin 64} {g : List Task} : (m.moveGroup c d g).Kept := by
  simp +contextual [Chip.moveGroup, hk, Chip.Kept.foldl]

@[simp] theorem clearParts_kept (m : Chip) (c : Fin 64) : (m.clearParts c).Kept ↔ m.Kept := by simp [Chip.clearParts]

@[simp] theorem Chip.Kept.relocateAll {m : Chip} (h : m.Kept) {c : Fin 64} : (m.relocateAll c).Kept := by
  unfold Chip.relocateAll
  dsimp only
  split
  · exact h
  · split
    · simp [h]
    · refine h.withTasks fun k hk => ?_
      obtain ⟨t, ht, rfl⟩ := List.mem_map.mp hk
      have hf : t.fits := h.tasks t ht
      split <;> exact hf

@[simp] theorem Chip.Kept.relocateGo {m : Chip} (h : m.Kept) {c : Fin 64} : (m.relocateGo c).Kept := by
  unfold Chip.relocateGo
  dsimp only
  rw [clearParts_kept]
  refine Chip.Kept.foldl (fun a t ha => by split <;> simp [ha]) _ (Chip.Kept.relocateAll (Chip.Kept.foldl (fun a t ha => by simp [ha]) _ ?_))
  simp only [endFenced_kept, kept_ite]
  split <;> simp [h]

@[simp] theorem Chip.Kept.fenceEnd {m : Chip} (hk : m.Kept) : m.fenceEnd.Kept := by simp [Chip.fenceEnd, hk]

@[simp] theorem unfence_kept (m : Chip) (l : Launch) : (m.unfence l).Kept ↔ m.Kept := by simp [Chip.unfence]

@[simp] theorem Chip.Kept.relocate {m : Chip} (hk : m.Kept) {c : Fin 64} : (m.relocate c).Kept := by simp [Chip.relocate, hk]

@[simp] theorem ctxStart_kept (m : Chip) (c : Fin 64) (l : Launch) : (m.ctxStart c l).Kept ↔ m.Kept := by simp [Chip.ctxStart]

@[simp] theorem ctxStop_kept (m : Chip) (c : Fin 64) (l : Launch) : (m.ctxStop c l).Kept ↔ m.Kept := by simp [Chip.ctxStop]

@[simp] theorem Chip.Kept.vflush {m : Chip} (hk : m.Kept) {c : Fin 64} {l : Launch} : (m.vflush c l).Kept := by simp [Chip.vflush, hk]

end Sys2Proof.Machine

/-! PROOFS. What the links, the stage and the power control keep. -/
namespace Sys2Proof.Machine

/-! ### Host links -/

@[simp] theorem setNumVfs_kept (m : Chip) (l n : Nat) : (m.setNumVfs l n).Kept ↔ m.Kept := by simp [Chip.setNumVfs]

@[simp] theorem dropReceived_kept (m : Chip) (l : Fin 2) : (m.dropReceived l).Kept ↔ m.Kept := by simp [Chip.dropReceived]

@[simp] theorem Chip.Kept.linkReset {m0 : Chip} (hk : m0.Kept) {l : Fin 2} : (m0.linkReset l).Kept := by simp [Chip.linkReset, hk]

@[simp] theorem msixPut_kept (m : Chip) (f a : Nat) (b : Byte) : (m.msixPut f a b).Kept ↔ m.Kept := by simp [Chip.msixPut]

@[simp] theorem tableWrite_kept (m : Chip) (f off : Nat) (l : List Byte) : (m.tableWrite f off l).Kept ↔ m.Kept := by
  simp [Chip.tableWrite]

@[simp] theorem Chip.Kept.cfgWrite {m : Chip} (hk : m.Kept) {f : Fin 16} {w : CfgAccess} : (m.cfgWrite f w).Kept := by
  unfold Chip.cfgWrite
  split <;> simp [hk]

@[simp] theorem aerNote_kept (m : Chip) (f bit : Nat) : (m.aerNote f bit).Kept ↔ m.Kept := by simp [Chip.aerNote]

@[simp] theorem Chip.Kept.configRequest {m : Chip} (hk : m.Kept) {f : Fin 16} {w : CfgAccess} : (m.configRequest f w).Kept := by
  unfold Chip.configRequest
  dsimp only
  (repeat' split) <;> simp [hk]

@[simp] theorem Chip.Kept.landWrite {m : Chip} (h : m.Kept) {master : BitVec 16} {cls a : Nat} {l : List Byte} {rc : Option Nat} :
    (m.landWrite master cls a l rc).1.Kept := by
  unfold Chip.landWrite
  split
  · exact Chip.Kept.foldl_fst (fun s p hs => by simp [hs]) _ h
  · simp [h]

@[simp] theorem Chip.Kept.landRead {m : Chip} (hk : m.Kept) {master : BitVec 16} {cls a n : Nat} :
    (m.landRead master cls a n).1.Kept := by
  unfold Chip.landRead
  split <;> simp [hk]

@[simp] theorem Chip.Kept.deferRecord {m : Chip} (hk : m.Kept) {r : LogRec} {t : DefTarget} : (m.deferRecord r t).Kept := by
  simp [Chip.deferRecord, hk]

@[simp] theorem Chip.Kept.bar2 {m : Chip} (hk : m.Kept) {f : Fin 16} {a n : Nat} {d : Option (List Byte)} :
    (m.bar2 f a n d).Kept := by
  unfold Chip.bar2
  dsimp only
  (repeat' split) <;> simp [hk]

@[simp] theorem Chip.Kept.notifyWindow {m : Chip} (hk : m.Kept) {n : Notice} : (m.notifyWindow n).Kept := by simp [Chip.notifyWindow, hk]

@[simp] theorem Chip.Kept.peerPut {m : Chip} (hk : m.Kept) {master : BitVec 16} {cls a : Nat} {l : List Byte}
    {rc : Option Nat} : (m.peerPut master cls a l rc).Kept := Chip.Kept.foldl (fun _ _ hk => by simp [hk]) _ hk

@[simp] theorem Chip.Kept.targetPut {m : Chip} (hk : m.Kept) {h : HeldReq} : (m.targetPut h).Kept := by
  unfold Chip.targetPut
  dsimp only
  (repeat' split) <;> simp [hk]

@[simp] theorem Chip.Kept.retryHeld {m : Chip} (hk : m.Kept) {h : HeldReq} : (m.retryHeld h).Kept := by simp [Chip.retryHeld, hk]

@[simp] theorem Chip.Kept.releaseHeld {m : Chip} (hk : m.Kept) {s : Nat} : (m.releaseHeld s).Kept := by
  simp +contextual [Chip.releaseHeld, hk, Chip.Kept.foldl]

@[simp] theorem Chip.Kept.releaseCrc {m : Chip} (hk : m.Kept) {g : Nat} : (m.releaseCrc g).Kept := by
  simp +contextual [Chip.releaseCrc, hk, Chip.Kept.foldl]

@[simp] theorem dropRead_kept (m : Chip) (id : Nat) : (m.dropRead id).Kept ↔ m.Kept := by simp [Chip.dropRead]

@[simp] theorem Chip.Kept.hostErr {m : Chip} (hk : m.Kept) {r : HostRead} {err : Bool} : (m.hostErr r err).Kept := by
  simp [Chip.hostErr, hk]

@[simp] theorem Chip.Kept.reloadDeliver {m : Chip} (hk : m.Kept) {g off : Nat} {l : List Byte} {err : Bool} :
    (m.reloadDeliver g off l err).Kept := by simp [Chip.reloadDeliver, hk]

@[simp] theorem Chip.Kept.readDeliver {m : Chip} (hk : m.Kept) {r : HostRead} {data : List Byte} {err : Bool} :
    (m.readDeliver r data err).Kept := by
  unfold Chip.readDeliver
  dsimp only
  split <;> simp [hk]

@[simp] theorem Chip.Kept.hostCompletion {m : Chip} (hk : m.Kept) {id : Nat} {data : List Byte} {err : Bool} :
    (m.hostCompletion id data err).Kept := by
  unfold Chip.hostCompletion
  split <;> simp [hk]

@[simp] theorem Chip.Kept.holdExpire {m : Chip} (hk : m.Kept) {l : Fin 2} {id : Option Nat} : (m.holdExpire l id).Kept := by
  unfold Chip.holdExpire
  dsimp only
  (repeat' split) <;> simp [hk]

/-! ### Coupling -/

@[simp] theorem flitRecv_kept (m : Chip) (p : Nat) (lseq : BitVec 12) (good : Bool) (k : Packet) :
    (m.flitRecv p lseq good k).1.Kept ↔ m.Kept := by
  unfold Chip.flitRecv
  dsimp only
  (repeat' split) <;> simp

@[simp] theorem ethRecv_kept (m : Chip) (p n : Nat) (lseq : BitVec 12) (good : Bool) (k : Packet) :
    (m.ethRecv p n lseq good k).1.Kept ↔ m.Kept := by
  unfold Chip.ethRecv
  dsimp only
  (repeat' split) <;> simp

@[simp] theorem slotDone_kept (m : Chip) (p : Nat) (k : Packet) : (m.slotDone p k).Kept ↔ m.Kept := by simp [Chip.slotDone]

@[simp] theorem forward_kept (m : Chip) (p : Nat) (k : Packet) : (m.forward p k).Kept ↔ m.Kept := by simp [Chip.forward]

@[simp] theorem osnAdvance_kept (m : Chip) (n k : Nat) : (m.osnAdvance n k).Kept ↔ m.Kept := by
  induction k generalizing m with
  | zero => rfl
  | succ k ih =>
    unfold Chip.osnAdvance
    dsimp only
    split <;> simp [ih]

@[simp] theorem osnMark_kept (m : Chip) (n osn : Nat) : (m.osnMark n osn).Kept ↔ m.Kept := by simp [Chip.osnMark]

@[simp] theorem Chip.Kept.respondUnder {m : Chip} (h : m.Kept) {n : Nat} {c w : W64} {k : Packet} {status : Nat} {data : List Byte} :
    (m.respondUnder n c w k status data).Kept := h.getD fun _ e => h.sendUnder e

@[simp] theorem Chip.Kept.respond {m : Chip} (hk : m.Kept) {n : Nat} {k : Packet} {status : Nat} {data : List Byte} :
    (m.respond n k status data).Kept := by simp [Chip.respond, hk]

@[simp] theorem flowControl_kept (m : Chip) (p : Nat) : (m.flowControl p).Kept ↔ m.Kept := by simp [Chip.flowControl]

@[simp] theorem markIf_kept (m : Chip) (n : Nat) (k : Packet) : (m.markIf n k).Kept ↔ m.Kept := by simp [Chip.markIf]

@[simp] theorem takeInbound_kept (m : Chip) (n p : Nat) (k : Packet) : (m.takeInbound n p k).Kept ↔ m.Kept := by simp [Chip.takeInbound]

@[simp] theorem Chip.Kept.inRequest {m : Chip} (hk : m.Kept) {p : Nat} {k : Packet} : (m.inRequest p k).Kept := by
  unfold Chip.inRequest
  dsimp only
  (repeat' split) <;> simp [hk]

@[simp] theorem Chip.Kept.inboundDone {m : Chip} (hk : m.Kept) {i : Inbound} {status : Nat} {data : List Byte} :
    (m.inboundDone i status data).Kept := by simp [Chip.inboundDone, hk]

@[simp] theorem Chip.Kept.inboundWrite {m : Chip} (h : m.Kept) {i : Inbound} : (m.inboundWrite i).Kept := by
  unfold Chip.inboundWrite
  dsimp only
  split
  · simp [h]
  · split
    · simp [h]
    · split
      · simp [h]
      · refine Chip.Kept.inboundDone ?_
        rw [countFld_kept, osnMark_kept]
        (repeat' split) <;> simp [h, h.logRec.peerPut]

@[simp] theorem Chip.Kept.inboundRead {m : Chip} (hk : m.Kept) {i : Inbound} : (m.inboundRead i).Kept := by
  unfold Chip.inboundRead
  dsimp only
  (repeat' split) <;> simp [hk]

@[simp] theorem Chip.Kept.inboundEnd {m : Chip} (hk : m.Kept) {id : Nat} {notify : Bool} : (m.inboundEnd id notify).Kept := by
  unfold Chip.inboundEnd
  split <;> simp [hk]

@[simp] theorem Chip.Kept.coupleWhole {m : Chip} (hk : m.Kept) {o : CplOut} {l : List Byte} : (m.coupleWhole o l).Kept := by
  unfold Chip.coupleWhole
  split <;> simp [hk]

@[simp] theorem Chip.Kept.coupleDeliver {m : Chip} (hk : m.Kept) {o : CplOut} {l : List Byte} : (m.coupleDeliver o l).Kept := by
  unfold Chip.coupleDeliver
  dsimp only
  (repeat' split) <;> simp [hk]

@[simp] theorem dropOut_kept (m : Chip) (o : CplOut) : (m.dropOut o).Kept ↔ m.Kept := by simp [Chip.dropOut]

@[simp] theorem Chip.Kept.endOut {m : Chip} (hk : m.Kept) {o : CplOut} {status : Nat} {data : List Byte} :
    (m.endOut o status data).Kept := by
  unfold Chip.endOut
  dsimp only
  (repeat' split) <;> simp [hk]

@[simp] theorem Chip.Kept.inResponse {m : Chip} (hk : m.Kept) {p : Nat} {k : Packet} : (m.inResponse p k).Kept := by
  unfold Chip.inResponse
  dsimp only
  split <;> simp [hk]

@[simp] theorem Chip.Kept.issueRead {m : Chip} (hk : m.Kept) {o : CplOut} : (m.issueRead o).Kept := by
  unfold Chip.issueRead
  split <;> simp [hk]

@[simp] theorem Chip.Kept.pumpOut {m : Chip} (hk : m.Kept) : m.pumpOut.Kept := Chip.Kept.foldl (fun _ _ hk => by simp [hk]) _ hk

@[simp] theorem Chip.Kept.pumpPeers {m : Chip} (h : m.Kept) : m.pumpPeers.Kept :=
  Chip.Kept.pumpOut (Chip.Kept.foldl (fun _ _ ha => ha.pumpPeer) _ h)

@[simp] theorem Chip.Kept.arrive {m : Chip} (hk : m.Kept) {p : Nat} {k : Packet} : (m.arrive p k).Kept := by
  unfold Chip.arrive
  split <;> simp [hk]

@[simp] theorem Chip.Kept.selfanIn {m : Chip} (hk : m.Kept) {p : Nat} {typ : PktType} {lseq : BitVec 12} {good : Bool}
    {k : Packet} : (m.selfanIn p typ lseq good k).Kept := by simp [Chip.selfanIn, hk]

@[simp] theorem Chip.Kept.flitsIn {m : Chip} (hk : m.Kept) {p : Nat} {typ : PktType} {f : Flits} : (m.flitsIn p typ f).Kept := by
  unfold Chip.flitsIn
  split <;> simp [hk]

@[simp] theorem Chip.Kept.couplingTimeout {m : Chip} (hk : m.Kept) {n : Nat} {wr : Bool} {tag : W32} :
    (m.couplingTimeout n wr tag).Kept := by
  unfold Chip.couplingTimeout
  split <;> simp [hk]

@[simp] theorem movePort_kept (m : Chip) (q : Nat) (w : TxWait) : (m.movePort q w).Kept ↔ m.Kept := by simp [Chip.movePort]

@[simp] theorem Chip.Kept.resend {m : Chip} (hk : m.Kept) {w : TxWait} : (m.resend w).Kept := by
  unfold Chip.resend
  (repeat' split) <;> simp +contextual [hk]

@[simp] theorem dropSlots_kept (m : Chip) (p : Nat) : (m.dropSlots p).Kept ↔ m.Kept := by simp [Chip.dropSlots]

@[simp] theorem Chip.Kept.ethLost {m : Chip} (h : m.Kept) : m.ethLost.Kept :=
  Chip.Kept.foldl (fun a e ha => Chip.Kept.foldl (fun _ _ hb => hb.resend) _ (by simp [ha])) _ h

@[simp] theorem Chip.Kept.portDown {m : Chip} (h : m.Kept) {p cause : Nat} : (m.portDown p cause).Kept := by
  unfold Chip.portDown
  dsimp only
  rw [syncRun_kept, event_kept]
  refine Chip.Kept.ethLost (Chip.Kept.foldl (fun _ _ ha => ha.resend) _ (Chip.Kept.foldl (fun a w ha => ?_) _ (by simp [h])))
  split <;> simp [ha]

@[simp] theorem Chip.Kept.flitReplay {m : Chip} (hk : m.Kept) {p : Nat} : (m.flitReplay p).Kept := by simp [Chip.flitReplay, hk]

@[simp] theorem Chip.Kept.linkControl {m : Chip} (hk : m.Kept) {p : Nat} {nak : Bool} {lseq : BitVec 12}
    {credits : Vector Nat 10} {good : Bool} : (m.linkControl p nak lseq credits good).Kept := by simp [Chip.linkControl, hk]

@[simp] theorem ethReplay_kept (m : Chip) (n : Nat) : (m.ethReplay n).Kept ↔ m.Kept := by
  unfold Chip.ethReplay
  dsimp only
  split
  · rfl
  · rfl
  · next p m1 hc _ => simp [choosePort_kept hc]

@[simp] theorem Chip.Kept.ethFrame {m : Chip} (h : m.Kept) {p : Nat} {etype : BitVec 16} {dst : BitVec 48} {fcs : Bool} {b : EthBody} :
    (m.ethFrame p etype dst fcs b).Kept := by
  unfold Chip.ethFrame
  have hpump (a : Chip) : ((List.range 10).foldl Chip.pumpPort a).Kept ↔ a.Kept := kept_foldl _ _ _ fun _ _ => pumpPort_kept ..
  dsimp only
  (repeat' split) <;> simp [h, hpump]

@[simp] theorem portClock_kept (m : Chip) (p : Nat) : (m.portClock p).Kept ↔ m.Kept := by simp [Chip.portClock]

@[simp] theorem train'_kept (m : Chip) (p : Nat) (l : Launch) : (m.train' p l).Kept ↔ m.Kept := by simp [Chip.train']

@[simp] theorem Chip.Kept.linkDown {m : Chip} (hk : m.Kept) {p : Nat} {l : Launch} : (m.linkDown p l).Kept := by simp [Chip.linkDown, hk]

@[simp] theorem ethRestart_kept (m : Chip) (p : Nat) : (m.ethRestart p).Kept ↔ m.Kept := by simp [Chip.ethRestart]

@[simp] theorem Chip.Kept.trainDone {m : Chip} (hk : m.Kept) {p : Nat} {ok : Bool} {seen : BitVec 16} :
    (m.trainDone p ok seen).Kept := by simp [Chip.trainDone, hk]

/-! ### Posts and recovery -/

@[simp] theorem setStage_kept (m : Chip) (v : Nat) : (m.setStage v).Kept ↔ m.Kept := by simp [Chip.setStage]

@[simp] theorem holdStage_kept (m : Chip) : m.holdStage.Kept ↔ m.Kept := by simp [Chip.holdStage]

@[simp] theorem freeStage_kept (m : Chip) (err : Nat) : (m.freeStage err).Kept ↔ m.Kept := by simp [Chip.freeStage]

@[simp] theorem Chip.Kept.resumeCtxs {m : Chip} (h : m.Kept) : m.resumeCtxs.Kept := by
  refine Chip.Kept.foldl (fun a x ha => ?_) _ h
  have hx := ha.ctx x
  dsimp only
  split
  · rw [syncCoach_kept]
    exact ha.setCtx (by simp [hx])
  · exact ha

@[simp] theorem Chip.Kept.quiesceCtx {m : Chip} (h : m.Kept) {x : Ctx} : (m.quiesceCtx x).Kept := by
  unfold Chip.quiesceCtx
  have hx := h.ctx x
  have hs (r : List HubStop) : (m.setCtx x { m.ctx x with stopReq := r }).Kept := h.setCtx (by simp [hx])
  dsimp only
  (repeat' split) <;> simp [h, hs]

@[simp] theorem stageTimer_kept (m : Chip) : m.stageTimer.Kept ↔ m.Kept := by simp [Chip.stageTimer]

@[simp] theorem Chip.Kept.takePost {m : Chip} (hk : m.Kept) : m.takePost.Kept := by simp +contextual [Chip.takePost, hk, Chip.Kept.foldl]

@[simp] theorem imageCount_kept (m : Chip) (key : Nat → Nat) : (m.imageCount key).Kept ↔ m.Kept := by simp [Chip.imageCount]

@[simp] theorem Chip.Kept.writeImage {m : Chip} (hk : m.Kept) : m.writeImage.Kept := by simp [Chip.writeImage, hk]

theorem coach_fresh_fits {k : Coach} (hk : k.fits) : k.fresh.fits := hk

theorem task_fresh_fits {t : Task} (ht : t.fits) : t.fresh.fits := fun v hv => by
  unfold Task.fresh at hv
  obtain ⟨w, hw, rfl⟩ := Option.map_eq_some_iff.mp hv
  exact ht w hw

@[simp] theorem Chip.Kept.freshCounts {m : Chip} (h : m.Kept) : m.freshCounts.Kept where
  mem := h.mem
  errq := h.errq
  wait := h.wait
  coaches c := by
    have hc := h.coaches c
    unfold Chip.coach at hc ⊢
    unfold Chip.freshCounts
    simp only [Vector.getElem_map]
    exact coach_fresh_fits hc
  tasks t ht := by
    obtain ⟨t', ht', rfl⟩ := List.mem_map.mp ht
    exact task_fresh_fits (h.tasks t' ht')
  images := h.images

/-- The image of a chip that is kept fits. -/
theorem Chip.Kept.imageOf {m : Chip} (h : m.Kept) : m.imageOf.fits := ⟨h.coaches, h.tasks⟩

@[simp] theorem Chip.Kept.saveAllVec {m : Chip} (h : m.Kept) : m.saveAllVec.Kept := by
  unfold Chip.saveAllVec
  exact Chip.Kept.foldl (fun a c ha => by simp [ha]) _ h

@[simp] theorem Chip.Kept.postSave {m : Chip} (h : m.Kept) : m.postSave.Kept := by
  unfold Chip.postSave
  have h1 := h.saveAllVec
  generalize m.saveAllVec = m1 at h1 ⊢
  dsimp only
  refine (modStg_kept _ _ (fun _ => by rfl) (fun _ => by rfl)).mpr ?_
  split
  · refine Chip.Kept.writeImage (h1.modStg fun i hi => ?_)
    rcases hi with hi | hi
    · exact h1.images i (.inl hi)
    · cases hi; exact h1.freshCounts.imageOf
  · exact h1.modStg_noNext (fun _ => by rfl) fun _ => by rfl

@[simp] theorem copyCount_kept (m : Chip) (src dst : Nat) : (m.copyCount src dst).Kept ↔ m.Kept := by simp [Chip.copyCount]

@[simp] theorem Chip.Kept.mirrorGranule {m : Chip} (hk : m.Kept) {g : Nat} : (m.mirrorGranule g).Kept := by
  unfold Chip.mirrorGranule
  dsimp only
  split <;> simp [hk]

@[simp] theorem Chip.Kept.applyDeferred {m : Chip} (hk : m.Kept) {d : Deferred} : (m.applyDeferred d).Kept := by
  unfold Chip.applyDeferred
  dsimp only
  (repeat' split) <;> simp [hk]

@[simp] theorem Chip.Kept.applyAll {m : Chip} (hk : m.Kept) : m.applyAll.Kept := by simp +contextual [Chip.applyAll, hk, Chip.Kept.foldl]

@[simp] theorem Chip.Kept.postCommit {m : Chip} (h : m.Kept) : m.postCommit.Kept := by
  unfold Chip.postCommit
  dsimp only
  rw [syncRun_kept, freeStage_kept]
  refine Chip.Kept.resumeCtxs (Chip.Kept.applyAll ?_)
  rw [event_kept, applyStaged_kept, setReg_kept]
  have hm1 : Chip.Kept (m.dirtyList.foldl Chip.mirrorGranule m) := Chip.Kept.foldl (fun _ _ ha => ha.mirrorGranule) _ h
  have hm2 {f : StageCtl → StageCtl} (hi : ∀ s, (f s).image = s.nextImage) (hn : ∀ s, (f s).nextImage = none) (a : Chip) (ha : a.Kept) :
      (a.freshCounts.modStg f).Kept := ha.freshCounts.modStg fun i hif => by
    rw [hi, hn] at hif
    exact ha.freshCounts.images i (.inr (hif.resolve_right nofun))
  split
  · refine Chip.Kept.foldl (fun _ _ ha => ha.logAppend) _ ?_
    simp only [count_kept, setReg_kept]
    exact hm2 (fun _ => rfl) (fun _ => rfl) _ hm1
  · simp only [count_kept, setReg_kept]
    exact hm2 (fun _ => rfl) (fun _ => rfl) _ h

@[simp] theorem Chip.Kept.postLate {m : Chip} (h : m.Kept) : m.postLate.Kept := by
  unfold Chip.postLate
  have hfree (a : Chip) (ha : a.Kept) : (if a.stg.postCmd = 0 then a.freeStage cmdOk else a).Kept := by split <;> simp [ha]
  refine hfree _ ?_
  rw [when_kept, tellState_kept, ite_self]
  exact Chip.Kept.resumeCtxs (Chip.Kept.applyAll (Chip.Kept.stageRecord (by simp [h])))

@[simp] theorem Chip.Kept.noteEvent {m : Chip} (hk : m.Kept) {e : RecEvent} {lev : Nat} : (m.noteEvent e lev).Kept := by
  simp [Chip.noteEvent, hk]

@[simp] theorem Chip.Kept.stopAll {m : Chip} (h : m.Kept) {xfers : Bool} : (m.stopAll xfers).Kept := by
  refine Chip.Kept.foldl (fun a c ha => by simp [ha]) _ ((syncHeld_kept _).mpr ⟨h.mem, h.errq, h.wait, fun c => ?_, h.tasks, h.images⟩)
  have hc := h.coaches c
  unfold Chip.coach at hc ⊢
  simp only [Vector.getElem_map, coach_fits_mk, context_fits_ite, context_fits_frame, ite_self]
  exact hc

@[simp] theorem Chip.Kept.escalate {m : Chip} (h : m.Kept) {e : RecEvent} : (m.escalate e).Kept := by
  unfold Chip.escalate
  dsimp only
  rw [tellState_kept]
  refine Chip.Kept.logEvent ?_
  rw [emit_kept, event_kept]
  have hfree (a : Chip) (ha : a.Kept) : (if a.busy stagePage = true then a.freeStage cmdFailed else a).Kept := by split <;> simp [ha]
  refine hfree _ (Chip.Kept.stopAll ?_)
  rw [setStage_kept]
  exact Chip.Kept.modStg_noNext (by simp [h]) (fun _ => by rfl) fun _ => by rfl

@[simp] theorem Chip.Kept.beginRollback {m : Chip} (h : m.Kept) {e : RecEvent} : (m.beginRollback e).Kept := by
  unfold Chip.beginRollback
  dsimp only
  rw [holdStage_kept, event_kept, setStage_kept]
  refine Chip.Kept.modStg_noNext ?_ (fun _ => by rfl) fun _ => by rfl
  split <;> simp [h]

@[simp] theorem Chip.Kept.repeatFault {m : Chip} (h : m.Kept) {e : RecEvent} : (m.repeatFault e).Kept := by
  unfold Chip.repeatFault
  dsimp only
  rw [markEnding_kept]
  split
  · next i hi =>
    rw [syncCoach_kept]
    have hk := coach_fits_side.mp ((h.images i (.inl hi)).1 ⟨idIndex e.unit / 2 % 64, Nat.mod_lt _ (by decide)⟩) (idIndex e.unit % 2 == 1)
    exact h.setCtx ((context_fits_frame _ ..).mpr hk)
  · exact h

@[simp] theorem Chip.Kept.handleEvent {m : Chip} (hk : m.Kept) {e : RecEvent} {lev : Level} : (m.handleEvent e lev).Kept := by
  unfold Chip.handleEvent
  split <;> simp [hk]

@[simp] theorem detect_kept (m : Chip) (d : Option Detected) : (m.detect d).Kept ↔ m.Kept := by
  unfold Chip.detect
  split <;> simp

@[simp] theorem Chip.Kept.recovery {m : Chip} (hk : m.Kept) {d : Option Detected} : (m.recovery d).Kept := by
  unfold Chip.recovery
  dsimp only
  split <;> simp [hk]

@[simp] theorem Chip.Kept.copyBlock {m : Chip} (hk : m.Kept) {src dst : Nat} : (m.copyBlock src dst).Kept := by simp [Chip.copyBlock, hk]

@[simp] theorem Chip.Kept.repairDone {m : Chip} (hk : m.Kept) : m.repairDone.Kept := by
  unfold Chip.repairDone
  dsimp only
  (repeat' split) <;> simp [hk]

@[simp] theorem Chip.Kept.reloadStart {m : Chip} (h : m.Kept) {g : Nat} : (m.reloadStart g).Kept := by
  unfold Chip.reloadStart
  split
  · simp [h]
  · dsimp only
    split
    · refine Chip.Kept.foldl (fun a i ha => ?_) _ h
      have hc := (takeSer_kept a).mpr ha
      split <;> simp [hc]
    · exact Chip.Kept.foldl (fun a i ha => by simp [ha]) _ h

@[simp] theorem Chip.Kept.freightGrant {m : Chip} (hk : m.Kept) : m.freightGrant.Kept := by
  unfold Chip.freightGrant
  dsimp only
  (repeat' split) <;> simp [hk]

@[simp] theorem Chip.Kept.freightEnd {m : Chip} (hk : m.Kept) {id : Nat} : (m.freightEnd id).Kept := by
  unfold Chip.freightEnd
  (repeat' split) <;> simp +contextual [hk]

@[simp] theorem closeFaults_kept (m : Chip) : m.closeFaults.Kept ↔ m.Kept := by simp [Chip.closeFaults]

@[simp] theorem dropLines_kept (m : Chip) (g : Nat) : (m.dropLines g).Kept ↔ m.Kept := by simp [Chip.dropLines]

@[simp] theorem Chip.Kept.restoreGranule {m : Chip} (hk : m.Kept) {g : Nat} : (m.restoreGranule g).Kept := by
  unfold Chip.restoreGranule
  (repeat' split) <;> simp +contextual [hk, Chip.Kept.foldl]

@[simp] theorem unfenceCtxs_kept (m : Chip) : m.unfenceCtxs.Kept ↔ m.Kept := by simp [Chip.unfenceCtxs]

@[simp] theorem Chip.Kept.restorePower {m : Chip} (h : m.Kept) {i : Image} : (m.restorePower i).Kept := by
  unfold Chip.restorePower
  exact Chip.Kept.foldl (fun a c ha => Chip.Kept.foldl (fun b q hb => by split <;> simp [hb]) _ ha) _ h

@[simp] theorem restoreRegs_kept (m : Chip) (i : Image) : (m.restoreRegs i).Kept ↔ m.Kept := by simp [Chip.restoreRegs]

@[simp] theorem restoreOsn_kept (m : Chip) (i : Image) : (m.restoreOsn i).Kept ↔ m.Kept := by simp [Chip.restoreOsn]

theorem restoreCtx_fits {k i : Context} (hk : k.fits) (hi : i.fits) : (restoreCtx k i).fits := by
  unfold restoreCtx
  dsimp only
  split
  · split
    · exact hk
    · exact hi
  · split
    · split <;> exact hi
    · exact hi

/-- The coaches, tasks and stage that an image gives back fit (R437). -/
theorem Chip.Kept.withImage {m : Chip} (h : m.Kept) {i : Image} (hi : i.fits) {f : HostIf} : Chip.Kept { m with
    coaches := Vector.zipWith restoreCoach m.coaches i.coaches, cm := i.cm, obuf := i.obuf, sh := restoreShunter m.sh i.sh, host := f } := by
  refine ⟨h.mem, h.errq, h.wait, fun c => ?_, hi.2, h.images⟩
  have hc := h.coaches c
  unfold Chip.coach at hc ⊢
  simp only [Vector.getElem_zipWith]
  exact ⟨restoreCtx_fits hc.1 (hi.1 c).1, restoreCtx_fits hc.2 (hi.1 c).2⟩

theorem Chip.Kept.restoreImage {m : Chip} (h : m.Kept) {i : Image} (hi : i.fits) : (m.restoreImage i).Kept := by
  unfold Chip.restoreImage
  extract_lets m1 f m2
  have h1 : m1.Kept := by simp [m1, h]
  clear_value m1
  have h2 : m2.Kept := h1.withImage hi
  clear_value m2
  simp [h2]

@[simp] theorem abortRecord_kept (m : Chip) (t : Task) : (m.abortRecord t).Kept ↔ m.Kept := by simp [Chip.abortRecord]

@[simp] theorem skipTask_kept (m : Chip) (h : W16) : (m.skipTask h).Kept ↔ m.Kept := by simp [Chip.skipTask]

@[simp] theorem Chip.Kept.discardTask {m : Chip} (hk : m.Kept) {t : Task} : (m.discardTask t).Kept := by simp [Chip.discardTask, hk]

@[simp] theorem Chip.Kept.dropRestored {m : Chip} (hk : m.Kept) {t : Task} : (m.dropRestored t).Kept := by simp [Chip.dropRestored, hk]

@[simp] theorem Chip.Kept.restore {m : Chip} (h : m.Kept) : m.restore.Kept := by
  unfold Chip.restore
  dsimp only
  refine Chip.Kept.releaseCrc ((kept_frame _).mpr (Chip.Kept.foldl (fun _ _ ha => (holdSources_kept ..).mpr ha) _
    (Chip.Kept.foldl (fun _ _ ha => (syncCoach_kept ..).mpr ha) _ ?_)))
  rw [syncHeld_kept, kept_frame]
  refine (modStg_kept _ _ (fun _ => by rfl) (fun _ => by rfl)).mpr ?_
  rw [wakeSided_kept, unfenceCtxs_kept]
  have hdrop (a : Chip) (ha : a.Kept) : (a.restoredDoomed.foldl Chip.dropRestored a).Kept :=
    Chip.Kept.foldl (fun _ _ hb => hb.dropRestored) _ ha
  refine hdrop _ ?_
  have h3 : (m.dirtyList.foldl Chip.restoreGranule (m.doomed.foldl Chip.discardTask (m.dirtyList.foldl Chip.dropLines m.closeFaults))).Kept :=
    Chip.Kept.foldl (fun _ _ ha => ha.restoreGranule) _ (Chip.Kept.foldl (fun _ _ ha => ha.discardTask) _
      (Chip.Kept.foldl (fun _ _ ha => (dropLines_kept ..).mpr ha) _ (by simp [h])))
  split
  · next i hi =>
    rw [imageCount_kept]
    exact Chip.Kept.restoreImage ((modStg_kept _ _ (fun _ => by rfl) (fun _ => by rfl)).mpr h3) (h3.images i (.inl hi))
  · exact (modStg_kept _ _ (fun _ => by rfl) (fun _ => by rfl)).mpr h3

@[simp] theorem Chip.Kept.relocateFenced {m : Chip} (h : m.Kept) {c : Fin 64} : (m.relocateFenced c).Kept :=
  h.fenceCoach.hubLeave.hubLeave.relocateGo

@[simp] theorem Chip.Kept.restart {m : Chip} (h : m.Kept) : m.restart.Kept := by
  unfold Chip.restart
  dsimp only
  rw [pumpReads_kept]
  have hfree (a : Chip) (ha : a.Kept) : (if (a.stg.postCmd = 4 || a.stg.postCmd = 0) = true then a.freeStage cmdOk else a).Kept := by
    split <;> simp [ha]
  refine hfree _ (Chip.Kept.resumeCtxs ?_)
  rw [setStage_kept]
  exact (modStg_kept _ _ (fun _ => by rfl) (fun _ => by rfl)).mpr (Chip.Kept.foldl (fun _ _ ha => ha.relocateFenced) _ h)

@[simp] theorem Chip.Kept.applyRead {m : Chip} (hk : m.Kept) {r : LogRec} : (m.applyRead r).Kept := by
  unfold Chip.applyRead
  dsimp only
  (repeat' split) <;> simp [hk]

@[simp] theorem Chip.Kept.applyWrite {m : Chip} (hk : m.Kept) {r : LogRec} : (m.applyWrite r).Kept := by simp [Chip.applyWrite, hk]

@[simp] theorem Chip.Kept.dataApply {m : Chip} (h : m.Kept) : m.dataApply.Kept := by
  unfold Chip.dataApply
  split
  · exact h
  · dsimp only
    rw [pumpReads_kept]
    refine Chip.Kept.pumpPeers ?_
    (repeat' split) <;> simp [h]

@[simp] theorem skipMaker_kept (m : Chip) : m.skipMaker.Kept ↔ m.Kept := by
  unfold Chip.skipMaker
  dsimp only
  (repeat' split) <;> simp

@[simp] theorem Chip.Kept.diverge {m : Chip} (hk : m.Kept) {h : W16} : (m.diverge h).Kept := by simp [Chip.diverge, hk]

@[simp] theorem Chip.Kept.reexecEnd {m : Chip} (hk : m.Kept) : m.reexecEnd.Kept := by simp [Chip.reexecEnd, hk]

@[simp] theorem askPost_kept (m : Chip) (code : Nat) : (m.askPost code).Kept ↔ m.Kept := by simp [Chip.askPost]

@[simp] theorem Chip.Kept.arm {m : Chip} (hk : m.Kept) {l : Launch} : (m.arm l).Kept := by simp +contextual [Chip.arm, hk, Chip.Kept.foldl]

@[simp] theorem Chip.Kept.disarm {m : Chip} (hk : m.Kept) {l : Launch} : (m.disarm l).Kept := by simp [Chip.disarm, hk]

@[simp] theorem postCommand_kept (m : Chip) (l : Launch) : (m.postCommand l).Kept ↔ m.Kept := by simp [Chip.postCommand]

@[simp] theorem rollbackCommand_kept (m : Chip) (l : Launch) : (m.rollbackCommand l).Kept ↔ m.Kept := by simp [Chip.rollbackCommand]

@[simp] theorem Chip.Kept.abandon {m : Chip} (h : m.Kept) {l : Launch} : (m.abandon l).Kept := by
  unfold Chip.abandon
  split
  · simp [h]
  · split
    · simp [h]
    · rw [askPost_kept]
      refine (modStg_kept _ _ (fun _ => by rfl) (fun _ => by rfl)).mpr ((kept_frame _).mpr ?_)
      exact Chip.Kept.foldl (fun a t ha => ha.getD fun _ e => ha.endTask e) _ h

@[simp] theorem registerCommand_kept (m : Chip) (l : Launch) : (m.registerCommand l).Kept ↔ m.Kept := by
  unfold Chip.registerCommand
  dsimp only
  split
  · simp
  · split
    · next h => exact (endCmd_kept ..).trans (registerRange_kept h)
    · simp

@[simp] theorem releaseCommand_kept (m : Chip) (l : Launch) : (m.releaseCommand l).Kept ↔ m.Kept := by
  unfold Chip.releaseCommand
  (repeat' split) <;> simp

/-! ### Start-up and resets -/

@[simp] theorem rakePeriod_kept (m : Chip) (r : Fin 4) : (m.rakePeriod r).Kept ↔ m.Kept := by simp [Chip.rakePeriod]

@[simp] theorem rakeClock_kept (m : Chip) (r : Fin 4) : (m.rakeClock r).Kept ↔ m.Kept := by simp [Chip.rakeClock]

@[simp] theorem showPoints_kept (m : Chip) : m.showPoints.Kept ↔ m.Kept := by simp [Chip.showPoints]

theorem Chip.Kept.noArg {m : Chip} (h : m.Kept) {p : PageId} {l : Launch} {f : Chip → Chip} (hf : (f m).Kept) : (m.noArg p l f).Kept := by
  unfold Chip.noArg
  split
  · exact hf
  · simp [h]

@[simp] theorem Chip.Kept.ostlerReset {m : Chip} (h : m.Kept) : m.ostlerReset.Kept := by
  unfold Chip.ostlerReset
  have h1 := Chip.Kept.resetPages (lo := pageBase .mbox 0) (hi := pageBase .mbox 0 + 0x1000)
    ((setFld_kept m K.rstResetCause F.rstResetCauseOstler 1).mpr h)
  exact ⟨h1.mem, h1.errq, Nat.zero_le _, h1.coaches, h1.tasks, h1.images⟩

@[simp] theorem Chip.Kept.dropCoach {m : Chip} (h : m.Kept) {c : Fin 64} : (m.dropCoach c).Kept := by
  unfold Chip.dropCoach
  dsimp only
  rw [holdSources_kept, holdSources_kept, kept_frame]
  have hr : (m.modCoach c fun _ => Coach.reset).Kept := h.setCoach coach_reset_fits
  exact Chip.Kept.foldl (fun a e ha => by simp [ha]) _ hr.resetPages.zeroMem

@[simp] theorem Chip.Kept.rakeReset {m : Chip} (h : m.Kept) {l : Launch} : (m.rakeReset l).Kept := by
  unfold Chip.rakeReset
  split
  · dsimp only
    split
    · simp [h]
    · refine Chip.Kept.logEvent ?_
      simp only [setReg_kept, count_kept, rakePeriod_kept, clearDoms_kept]
      exact Chip.Kept.foldl (fun _ _ ha => ha.dropCoach) _ h
  · simp [h]

@[simp] theorem rakeResetEnd_kept (m : Chip) : m.rakeResetEnd.Kept ↔ m.Kept := by simp [Chip.rakeResetEnd]

@[simp] theorem Chip.Kept.snapStart {m : Chip} (hk : m.Kept) {l : Launch} : (m.snapStart l).Kept := hk.noArg (by simp [hk])

@[simp] theorem snapEnd_kept (m : Chip) : m.snapEnd.Kept ↔ m.Kept := by
  unfold Chip.snapEnd
  split <;> simp

@[simp] theorem refclkSet_kept (m : Chip) (i : Nat) (present : Bool) : (m.refclkSet i present).Kept ↔ m.Kept := by simp [Chip.refclkSet]

/-! ### Power and cooling -/

@[simp] theorem modPwr_kept (m : Chip) (f : Power → Power) : (m.modPwr f).Kept ↔ m.Kept := by simp [Chip.modPwr]

@[simp] theorem govern_kept (m : Chip) : m.govern.Kept ↔ m.Kept := by simp [Chip.govern]

@[simp] theorem setConds_kept (m : Chip) (c : BitVec 5) : (m.setConds c).Kept ↔ m.Kept := by simp [Chip.setConds]

@[simp] theorem coolConds_kept (m : Chip) : m.coolConds.Kept ↔ m.Kept := by simp [Chip.coolConds]

@[simp] theorem govAllocate_kept (m : Chip) (p : Powers) : (m.govAllocate p).Kept ↔ m.Kept := by simp [Chip.govAllocate]

@[simp] theorem floorCheck_kept (m : Chip) (r : Fin 4) : (m.floorCheck r).Kept ↔ m.Kept := by simp [Chip.floorCheck]

@[simp] theorem rakeLoop_kept (m : Chip) (r : Fin 4) (mw : Nat) : (m.rakeLoop r mw).Kept ↔ m.Kept := by simp [Chip.rakeLoop]

@[simp] theorem stretchAll_kept (m : Chip) (on : Bool) : (m.stretchAll on).Kept ↔ m.Kept := by simp [Chip.stretchAll]

@[simp] theorem sagBegin_kept (m : Chip) : m.sagBegin.Kept ↔ m.Kept := by simp [Chip.sagBegin]

@[simp] theorem sagWarning_kept (m : Chip) (n : Fin 22) : (m.sagWarning n).Kept ↔ m.Kept := by simp [Chip.sagWarning]

@[simp] theorem sagEnd_kept (m : Chip) : m.sagEnd.Kept ↔ m.Kept := by
  unfold Chip.sagEnd
  dsimp only
  (repeat' split) <;> simp

@[simp] theorem Chip.Kept.thermal {m : Chip} (h : m.Kept) {t : Temps} : (m.thermal t).Kept := by
  unfold Chip.thermal
  have hstop (a : Chip) (ha : a.Kept) (n : Nat) : (if n = 0 then a else a.beginStop .therm n).Kept := by split <;> simp [ha]
  extract_lets die stack plate trip
  split
  · exact h
  · split
    · split <;> simp [h]
    · rw [govern_kept]
      refine hstop _ ?_ _
      rw [setConds_kept, modPwr_kept, setFld_kept, setReg_kept]
      exact Chip.Kept.foldl (fun a r ha => by simp [ha]) _ h

@[simp] theorem takeCoolCfg_kept (m : Chip) : m.takeCoolCfg.Kept ↔ m.Kept := by simp [Chip.takeCoolCfg]

@[simp] theorem Chip.Kept.flowUpdate {m0 : Chip} (hk : m0.Kept) {pulses : Nat} : (m0.flowUpdate pulses).Kept := by
  simp [Chip.flowUpdate, hk]

@[simp] theorem demandUpdate_kept (m0 : Chip) (max100 p1ms : Nat) : (m0.demandUpdate max100 p1ms).Kept ↔ m0.Kept := by
  simp [Chip.demandUpdate]

@[simp] theorem cduResult_kept (m : Chip) (ok : Bool) : (m.cduResult ok).Kept ↔ m.Kept := by simp [Chip.cduResult]

@[simp] theorem takeInlet_kept (m : Chip) (w : BitVec 16) (unit : Bool) : (m.takeInlet w unit).Kept ↔ m.Kept := by simp [Chip.takeInlet]

@[simp] theorem countHot_kept (m : Chip) : m.countHot.Kept ↔ m.Kept := by simp [Chip.countHot]

@[simp] theorem Chip.Kept.inletRead {m : Chip} (h : m.Kept) {t : Option (BitVec 16)} : (m.inletRead t).Kept := by
  unfold Chip.inletRead
  have hstop (a : Chip) (ha : a.Kept) : (if 10 ≤ a.pwr.hotInlet then a.beginStop .therm 5 else a).Kept := by split <;> simp [ha]
  refine hstop _ ?_
  rw [coolConds_kept, countHot_kept]
  split
  · simp [h]
  · split <;> simp [h]

end Sys2Proof.Machine

/-! PROOFS. What the ostler, register accesses and an idle step keep (R507). -/
namespace Sys2Proof.Machine

/-! ### The mailbox -/

@[simp] theorem Chip.Kept.fillBuf {m : Chip} (h : m.Kept) {l : List W64} {bytes : Nat} : (m.fillBuf l bytes).Kept :=
  (setReg_kept ..).mpr (Chip.Kept.foldl_fst (fun _ _ ha => (setReg_kept ..).mpr ha) _ h)

@[simp] theorem setUpd_kept (m : Chip) (u : Option Update) : (m.setUpd u).Kept ↔ m.Kept := by simp [Chip.setUpd]

@[simp] theorem Chip.Kept.token {m : Chip} (hk : m.Kept) {t : List Byte} : (m.token t).1.Kept := by
  unfold Chip.token
  split <;> simp [hk]

@[simp] theorem newNonce_kept (m : Chip) : m.newNonce.Kept ↔ m.Kept := by simp [Chip.newNonce]

@[simp] theorem Chip.Kept.dbgLock {m : Chip} (hk : m.Kept) : m.dbgLock.Kept := by simp [Chip.dbgLock, hk]

@[simp] theorem Chip.Kept.mboxFailed {m : Chip} (hk : m.Kept) : m.mboxFailed.Kept := by simp [Chip.mboxFailed, hk]

/-! ### Mailbox commands (R505) -/

@[simp] theorem eraseA_log (n : Nvm) : n.eraseA.log = n.log := by
  unfold Nvm.eraseA
  dsimp only
  split <;> rfl

@[simp] theorem setCfg_log (n : Nvm) (i v : Nat) : (n.setCfg i v).log = n.log := by
  unfold Nvm.setCfg
  (repeat' split) <;> rfl

theorem keptBoth_fwBegin {p : Nvm × Chip} (h : keptBoth p) {b : Bool} {len : Nat} : keptBoth (fwBegin b len p) := by
  have h2 := h.2
  exact ⟨(eraseA_log p.1).symm ▸ h.1, by simp [fwBegin, h2]⟩

theorem keptBoth_fwPut {p : Nvm × Chip} (h : keptBoth p) {u : Update} {off : Nat} {l : List Byte} : keptBoth (fwPut u off l p) := by
  have h2 := h.2
  exact ⟨h.1, by simp [fwPut, h2]⟩

@[simp] theorem keptBoth_mboxOk (p : Nvm × Chip) : keptBoth (mboxOk p) ↔ keptBoth p := by
  simp [mboxOk, keptBoth]

/-- What a mailbox command does by its end. -/
theorem keptBoth_mboxDo {p : Nvm × Chip} (h : keptBoth p) (code : Nat) : keptBoth (mboxDo code p) := by
  obtain ⟨n, m⟩ := p
  obtain ⟨hn, hm⟩ := h
  have h : keptBoth (n, m) := ⟨hn, hm⟩
  dsimp only at hn hm
  unfold mboxDo
  split
  · simp [mboxGetInfo, hn, hm]
  · unfold mboxFwBegin
    split <;> simp [h, keptBoth_fwBegin]
  · unfold mboxFwWrite
    split
    · simp [hn, hm]
    · have hp := fun u off l => keptBoth_fwPut h (u := u) (off := off) (l := l)
      simp [(hp _ _ _).1, (hp _ _ _).2]
  · unfold mboxFwVerify
    dsimp only
    refine ⟨hn, ?_⟩
    have h1 : ((m.setReg K.mboxMbResp (BitVec.ofNat 64 n.codeA)).logEvent (.update 4)).Kept := by simp [hm]
    (repeat' split) <;> simp [h1]
  · unfold mboxFwActivate
    have h1 : keptBoth (mboxOk (n, (m.setUpd none).logEvent (.update 5))) := by simp [hn, hm]
    dsimp only
    split
    · exact ⟨(keptBoth_drainLog h1).1, (keptBoth_drainLog h1).2.ostlerReset⟩
    · exact h1
  · simp [mboxArbCommit, hn, hm]
  · simp [mboxCfgRead, hn, hm]
  · simp [mboxCfgWrite, hn, hm]
  · simp [mboxLogRead, hn, hm]
  · simp [mboxDbgNonce, hn, hm]
  · unfold mboxDbgUnlock
    refine ⟨hn, ?_⟩
    dsimp only
    split <;> simp [hm]
  · simp [mboxDbgLock, hn, hm]

theorem keptBoth_mboxRun {p : Nvm × Chip} (h : keptBoth p) (code : Nat) : keptBoth (mboxRun code p) := by
  unfold mboxRun
  dsimp only
  split
  · exact h
  · split
    · exact ⟨h.1, by simp [h.2]⟩
    · split
      · exact keptBoth_fwBegin h
      · exact h

theorem keptBoth_mboxEnd {p : Nvm × Chip} (h : keptBoth p) : keptBoth (mboxEnd p) := by
  unfold mboxEnd
  extract_lets code e
  split
  · exact h
  · split
    · exact ⟨h.1, by simp [h.2]⟩
    · exact keptBoth_mboxDo h code

theorem keptBoth_mboxIssue {p : Nvm × Chip} (h : keptBoth p) (code : Nat) (l : Launch) : keptBoth (mboxIssue code l p) := by
  unfold mboxIssue
  dsimp only
  split
  · have hr := keptBoth_mboxRun (p := (p.1, p.2.beginCmd mboxPage code l)) ⟨h.1, by simp [h.2]⟩ code
    exact ⟨hr.1, by simp [hr.2]⟩
  · exact ⟨h.1, by simp [h.2]⟩

/-! ### Register reads -/

@[simp] theorem cmAdvance_kept (m : Chip) (c : Nat) (size : Nat) : (m.cmAdvance c size).Kept ↔ m.Kept := by simp [Chip.cmAdvance]

@[simp] theorem vregAdvance_kept (m : Chip) (c : Nat) : (m.vregAdvance c).Kept ↔ m.Kept := by simp [Chip.vregAdvance]

@[simp] theorem obufAdvance_kept (m : Chip) (c : Nat) : (m.obufAdvance c).Kept ↔ m.Kept := by simp [Chip.obufAdvance]

@[simp] theorem afterRead_kept (m : Chip) (p : PageId) (off size : Nat) : (m.afterRead p off size).Kept ↔ m.Kept := by
  unfold Chip.afterRead
  dsimp only
  (repeat' split) <;> simp

@[simp] theorem regRead_kept (n : Nvm) (m : Chip) (master : BitVec 16) (off size : Nat) :
    (regRead n m master off size).1.Kept ↔ m.Kept := by
  unfold regRead
  (repeat' split) <;> simp

@[simp] theorem readReg_kept (n : Nvm) (m : Chip) (master : BitVec 16) (off size : Nat) :
    (m.readReg n master off size).Kept ↔ m.Kept := by
  unfold Chip.readReg
  dsimp only
  (repeat' split) <;> simp

/-! ### Register writes -/

@[simp] theorem bumpIf_kept (m : Chip) (c : Bool) (p : PageId) : (m.bumpIf c p).Kept ↔ m.Kept := by simp [Chip.bumpIf]

@[simp] theorem putReg_kept (m : Chip) (p : PageId) (a : Nat) (v : W64) : (m.putReg p a v).Kept ↔ m.Kept := by simp [Chip.putReg]

@[simp] theorem putStaged_kept (m : Chip) (p : PageId) (a : Nat) (fs cover v : W64) :
    (m.putStaged p a fs cover v).Kept ↔ m.Kept := by simp [Chip.putStaged]

@[simp] theorem resumeMaster_kept (m : Chip) (w : BitVec 16) : (m.resumeMaster w).Kept ↔ m.Kept := by simp [Chip.resumeMaster]

@[simp] theorem releaseWrite_kept (m : Chip) (p : PageId) (w : Wr) : (m.releaseWrite p w).Kept ↔ m.Kept := by simp [Chip.releaseWrite]

@[simp] theorem Chip.Kept.writeHeader {m : Chip} (hk : m.Kept) {p : PageId} {o : Nat} {w : Wr} {v : W64} :
    (m.writeHeader p o w v).Kept := by simp [Chip.writeHeader, hk]

@[simp] theorem writeCoach_kept (m : Chip) (c : Fin 64) (w : Wr) (v : W64) : (m.writeCoach c w v).Kept ↔ m.Kept := by
  simp [Chip.writeCoach]

@[simp] theorem vregWrite_kept (m : Chip) (c : Fin 64) (w : Wr) : (m.vregWrite c w).Kept ↔ m.Kept := by simp [Chip.vregWrite]

@[simp] theorem obufWriteWord_kept (m : Chip) (c : Fin 64) (w : Wr) : (m.obufWriteWord c w).Kept ↔ m.Kept := by simp [Chip.obufWriteWord]

@[simp] theorem Chip.Kept.refuseWith {m : Chip} (hk : m.Kept) {p : PageId} {w : Wr} {code d ev : Nat} :
    (m.refuseWith p w code d ev).Kept := by simp [Chip.refuseWith, hk]

@[simp] theorem Chip.Kept.writeCmem {m : Chip} (hk : m.Kept) {c : Fin 64} {w : Wr} {v : W64} : (m.writeCmem c w v).Kept := by
  simp [Chip.writeCmem, hk]

@[simp] theorem Chip.Kept.writeCouple {m : Chip} (h : m.Kept) {p : PageId} {w : Wr} {v : W64} : (m.writeCouple p w v).Kept := by
  unfold Chip.writeCouple
  dsimp only
  (repeat' split) <;> simp [h]

@[simp] theorem writeInval_kept (m : Chip) (w : Wr) (v : W64) : (m.writeInval w v).Kept ↔ m.Kept := by
  unfold Chip.writeInval
  dsimp only
  (repeat' split) <;> simp

@[simp] theorem writeTlb_kept (m : Chip) (c : Fin 64) (w : Wr) (v : W64) : (m.writeTlb c w v).Kept ↔ m.Kept := by simp [Chip.writeTlb]

@[simp] theorem writeFault_kept (m : Chip) (w : Wr) (v : W64) : (m.writeFault w v).Kept ↔ m.Kept := by
  unfold Chip.writeFault
  dsimp only
  split <;> simp

@[simp] theorem writeDoorbell_kept (m : Chip) (p : PageId) (w : Wr) (v : W64) : (m.writeDoorbell p w v).Kept ↔ m.Kept := by
  simp [Chip.writeDoorbell]

@[simp] theorem writeShunt_kept (m : Chip) (w : Wr) (v : W64) : (m.writeShunt w v).Kept ↔ m.Kept := by
  unfold Chip.writeShunt
  dsimp only
  (repeat' split) <;> simp

@[simp] theorem Chip.Kept.acceptWrite {m : Chip} (hk : m.Kept) {p : PageId} {w : Wr} : (m.acceptWrite p w).Kept := by
  unfold Chip.acceptWrite
  dsimp only
  (repeat' split) <;> simp [hk]

@[simp] theorem vzeroCheck_kept (m : Chip) (c : Nat) (l : Launch) : (m.vzeroCheck c l).Kept ↔ m.Kept := by simp [Chip.vzeroCheck]

@[simp] theorem vzeroEnd_kept (m : Chip) (c : Fin 64) : (m.vzeroEnd c).Kept ↔ m.Kept := by simp [Chip.vzeroEnd]

@[simp] theorem tallyClear_kept (m : Chip) (p : PageId) : (m.tallyClear p).Kept ↔ m.Kept := by simp [Chip.tallyClear]

@[simp] theorem Chip.Kept.runCmd {m : Chip} (h : m.Kept) {p : PageId} {code : Nat} {l : Launch} : (m.runCmd p code l).Kept := by
  unfold Chip.runCmd
  dsimp only
  split <;> simp [h, Chip.Kept.noArg]

@[simp] theorem Chip.Kept.cmdEnd {m : Chip} (hk : m.Kept) {p : PageId} : (m.cmdEnd p).Kept := by
  unfold Chip.cmdEnd
  split <;> simp [hk]

/-! ### Writes of registers (R71) -/

theorem keptBoth_launchCmd {s : Nvm × Chip} (h : keptBoth s) (p : PageId) (code : Nat) (l : Launch) : keptBoth (launchCmd p code l s) := by
  have hb : keptBoth (s.1, s.2.beginCmd p code l) := ⟨h.1, by simp [h.2]⟩
  unfold launchCmd
  dsimp only
  split
  · exact keptBoth_mboxRun hb code
  · exact ⟨h.1, hb.2.runCmd⟩

theorem keptBoth_regWriteAs {s : Nvm × Chip} (h : keptBoth s) (j : Judged) (w : Wr) : keptBoth (regWriteAs j w s) := by
  have h2 := h.2
  unfold regWriteAs
  split
  · split
    · next p _ _ =>
      have hr := keptBoth_launchCmd h p (F.pageCmdCode.get w.val) (launchOf w)
      exact ⟨hr.1, by simp [hr.2]⟩
    · refine ⟨h.1, ?_⟩
      dsimp only
      split <;> simp [h2]
  · exact ⟨h.1, by simp [h2]⟩
  · refine ⟨h.1, ?_⟩
    dsimp only
    split <;> simp [h2]

theorem keptBoth_regWrite {s : Nvm × Chip} (h : keptBoth s) (w : Wr) : keptBoth (regWrite w s).1 := keptBoth_regWriteAs h _ w

theorem keptBoth_postedWrite {s : Nvm × Chip} (h : keptBoth s) (w : Wr) : keptBoth (postedWrite w s) := by
  unfold postedWrite
  split
  · exact ⟨h.1, by simp [h.2]⟩
  · exact keptBoth_regWrite h w

theorem keptBoth_commandEnd {s : Nvm × Chip} (h : keptBoth s) (p : PageId) : keptBoth (commandEnd p s) := by
  unfold commandEnd
  split
  · exact h
  · split
    · exact keptBoth_mboxEnd h
    · exact ⟨h.1, by simp [h.2]⟩

/-! ### Dray bursts -/

@[simp] theorem drayLanded_kept (m : Chip) (c : Fin 64) (k : Fin 8) (id i n : Nat) : (m.drayLanded c k id i n).Kept ↔ m.Kept := by
  simp [Chip.drayLanded]

/-! ### Accesses of a stream that reach registers -/

theorem keptBoth_onSnd {s : Nvm × Chip} (h : keptBoth s) {f : Chip → Chip} (hf : s.2.Kept → (f s.2).Kept) : keptBoth (onSnd f s) := ⟨h.1, hf h.2⟩

theorem keptBoth_drayReadAt {s : Nvm × Chip} (h : keptBoth s) {c : Fin 64} {k : Fin 8} {e : DDesc} {g : XSeg} {a : Nat} :
    keptBoth (drayReadAt c k e g a s).1 := by
  unfold drayReadAt
  dsimp only
  split
  · exact ⟨h.1, by simp [h.2]⟩
  · exact ⟨h.1, by simp [h.2]⟩

theorem keptBoth_drayReadDone {s : Nvm × Chip} (h : keptBoth s) {c : Fin 64} {k : Fin 8} {e : DDesc} {id i : Nat} {g : XSeg} :
    keptBoth (drayReadDone c k e id i g s) := by
  unfold drayReadDone
  split
  · split
    · exact keptBoth_onSnd h fun hm => by simp [hm]
    · exact keptBoth_onSnd (keptBoth_drayReadAt h) fun hm => by simp [hm]
  · exact h

theorem keptBoth_drayWriteAt {s : Nvm × Chip} (h : keptBoth s) {c : Fin 64} {k : Fin 8} {e : DDesc} {g : XSeg} {a : Nat} {l : List Byte} :
    keptBoth (drayWriteAt c k e g a l s).1 := by
  unfold drayWriteAt
  dsimp only
  split
  · exact keptBoth_regWriteAs h _ _
  · exact keptBoth_onSnd h fun hm => by simp [hm]

theorem keptBoth_drayWriteDone {s : Nvm × Chip} (h : keptBoth s) {c : Fin 64} {k : Fin 8} {e : DDesc} {u : DUnit} {i : Nat} {p : DPiece} :
    keptBoth (drayWriteDone c k e u i p s) := by
  unfold drayWriteDone
  split
  · exact keptBoth_onSnd h fun hm => by simp [hm]
  · split
    · split
      · exact keptBoth_onSnd h fun hm => by simp [hm]
      · dsimp only
        split
        · exact keptBoth_onSnd (keptBoth_drayWriteAt h) fun hm => by simp [hm]
        · exact keptBoth_onSnd (keptBoth_drayWriteAt h) fun hm => by simp [hm]
    · split
      · exact keptBoth_onSnd h fun hm => by simp [hm]
      · exact h

theorem keptBoth_drayResponse {s : Nvm × Chip} (h : keptBoth s) (c : Fin 64) (k : Fin 8) (id i : Nat) : keptBoth (drayResponse c k id i s) := by
  unfold drayResponse
  dsimp only
  (repeat' split) <;> simp only [h, keptBoth_drayWriteDone, keptBoth_drayReadDone]

/-! ### Management -/

@[simp] theorem wakeFor_kept (m : Chip) (k : Mctp) : (m.wakeFor k).Kept ↔ m.Kept := by simp [Chip.wakeFor]

@[simp] theorem reply_kept (m : Chip) (k : Mctp) (c : MgmtCode) (data : List Nat) : (m.reply k c data).Kept ↔ m.Kept := by
  simp [Chip.reply]

@[simp] theorem i3cAssign_kept (m : Chip) (a : BitVec 7) : (m.i3cAssign a).Kept ↔ m.Kept := by simp [Chip.i3cAssign]

@[simp] theorem setReceiver_kept (m : Chip) (k : Mctp) (on : Bool) : (m.setReceiver k on).Kept ↔ m.Kept := by simp [Chip.setReceiver]

@[simp] theorem askPart_kept (m : Chip) (u : Update) : (m.askPart u).Kept ↔ m.Kept := by simp [Chip.askPart]

@[simp] theorem setPhaseSpdm_kept (m : Chip) (k : Mctp) (n : Nat) : (m.setPhaseSpdm k n).Kept ↔ m.Kept := by simp [Chip.setPhaseSpdm]

@[simp] theorem treeReady_kept (n : Nvm) (m : Chip) : (m.treeReady n).Kept ↔ m.Kept := by simp [Chip.treeReady]

@[simp] theorem selectTap_kept (m : Chip) (i : TapInstr) : (m.selectTap i).Kept ↔ m.Kept := by simp [Chip.selectTap]

/-! ### Management messages (R485 to R500) -/

theorem keptBoth_takeMsg {p : Nvm × Chip} (h : keptBoth p) {k : Mctp} {b : Bool} {f : Nvm × Chip → Nvm × Chip}
    (hf : ∀ q, keptBoth q → keptBoth (f q)) : keptBoth (takeMsg k b f p) := by
  have h2 := h.2
  unfold takeMsg
  (repeat' split)
  · exact ⟨h.1, by simp [h2]⟩
  · exact h
  · exact ⟨h.1, by simp [h2]⟩
  · exact hf p h

theorem keptBoth_takePldm {p : Nvm × Chip} (h : keptBoth p) {k : Mctp} {type code : Nat} {f : Nvm × Chip → Nvm × Chip}
    (hf : ∀ q, keptBoth q → keptBoth (f q)) : keptBoth (takePldm k type code f p) :=
  keptBoth_takeMsg h fun q hq => by
    split
    · exact hf q hq
    · exact ⟨hq.1, by simp [hq.2]⟩

theorem keptBoth_inState {p : Nvm × Chip} (h : keptBoth p) {k : Mctp} {ok : Update → Bool} {f : Update → Nvm × Chip → Nvm × Chip}
    (hf : ∀ u q, keptBoth q → keptBoth (f u q)) : keptBoth (inState k ok f p) := by
  unfold inState
  split
  · exact ⟨h.1, by simp [h.2]⟩
  · split
    · exact hf _ p h
    · exact ⟨h.1, by simp [h.2]⟩

theorem keptBoth_setEffecter {p : Nvm × Chip} (h : keptBoth p) (k : Mctp) (v : Nat) (gen : W64) : keptBoth (setEffecter k v gen p) := by
  unfold setEffecter
  split
  · exact ⟨h.1, by simp [h.2]⟩
  · have hr := keptBoth_regWrite h (p.2.capWrite v gen)
    dsimp only
    split
    · have hr' := keptBoth_regWrite hr ((regWrite (p.2.capWrite v gen) p).1.2.capWrite v
        ((regWrite (p.2.capWrite v gen) p).1.2.reg (K.pageGen pwrPage.base)))
      exact ⟨hr'.1, by simp [hr'.2]⟩
    · exact ⟨hr.1, by simp [hr.2]⟩

theorem keptBoth_requestUpdate {p : Nvm × Chip} (h : keptBoth p) (k : Mctp) : keptBoth (requestUpdate k p) := by
  unfold requestUpdate
  dsimp only
  split <;> exact ⟨h.1, by simp [h.2]⟩

theorem keptBoth_passTable {p : Nvm × Chip} (h : keptBoth p) (k : Mctp) (id : Nat) : keptBoth (passTable k id p) :=
  keptBoth_inState h fun u q hq => ⟨hq.1, by dsimp only; split <;> simp [hq.2]⟩

theorem keptBoth_updateComponent {p : Nvm × Chip} (h : keptBoth p) (k : Mctp) (id len : Nat) : keptBoth (updateComponent k id len p) :=
  keptBoth_inState h fun u q hq => by
    split
    · exact ⟨hq.1, by simp [hq.2]⟩
    · exact ⟨by simpa using hq.1, by simp [hq.2]⟩

theorem keptBoth_dataResponse {p : Nvm × Chip} (h : keptBoth p) (d : List Byte) : keptBoth (dataResponse d p) := by
  unfold dataResponse
  split
  · exact h
  · next u _ =>
    split
    · exact h
    · have hr := keptBoth_fwPut h (u := u) (off := u.nextOff) (l := d)
      dsimp only
      split
      · exact hr
      · split <;> exact ⟨hr.1, by simp [hr.2]⟩

theorem keptBoth_verifyComplete {p : Nvm × Chip} (h : keptBoth p) : keptBoth (verifyComplete p) := by
  unfold verifyComplete
  split
  · exact h
  · split
    · exact h
    · dsimp only
      split <;> exact ⟨h.1, by simp [h.2]⟩

theorem keptBoth_activate {p : Nvm × Chip} (h : keptBoth p) (k : Mctp) (b : Bool) : keptBoth (activate k b p) :=
  keptBoth_inState h fun u q hq => by
    split
    · exact ⟨hq.1, by simp [hq.2]⟩
    · have hd := keptBoth_drainLog (p := (q.1, ((q.2.setUpd none).logEvent (.update 5)).reply k .success [400])) ⟨hq.1, by simp [hq.2]⟩
      exact ⟨hd.1, hd.2.ostlerReset⟩

theorem keptBoth_cancelComponent {p : Nvm × Chip} (h : keptBoth p) (k : Mctp) : keptBoth (cancelComponent k p) :=
  keptBoth_inState h fun u q hq => ⟨hq.1, by simp [hq.2]⟩

theorem keptBoth_spdmAfter {p : Nvm × Chip} (h : keptBoth p) {k : Mctp} {n : Nat} {f : Nvm × Chip → Nvm × Chip}
    (hf : ∀ q, keptBoth q → keptBoth (f q)) : keptBoth (spdmAfter k n f p) := by
  unfold spdmAfter
  split
  · exact ⟨h.1, by simp [h.2]⟩
  · exact hf p h

theorem keptBoth_signMsg {p : Nvm × Chip} (h : keptBoth p) (k : Mctp) (data : List Nat) (cut : Bool) : keptBoth (signMsg k data cut p) := by
  unfold signMsg
  dsimp only
  split
  · exact ⟨h.1, by simp [h.2]⟩
  · split
    · exact ⟨h.1, by simp [h.2]⟩
    · refine ⟨h.1, ?_⟩
      (repeat' split) <;> simp [h.2]

/-! ### Writes that waited behind a link -/

theorem keptBoth_postedGo {s : Nvm × Chip} (h : keptBoth s) (e : Fin 2 × Posted) : keptBoth (postedGo s e) := by
  unfold postedGo
  split
  · exact keptBoth_postedWrite h _
  · exact ⟨h.1, by simp [h.2]⟩
  · exact ⟨h.1, by simp [h.2]⟩

theorem keptBoth_postedAll {s : Nvm × Chip} (h : keptBoth s) : keptBoth (postedAll s) := by
  have key : ∀ (l : List (Fin 2 × Posted)) (q : Nvm × Chip), keptBoth q → keptBoth (l.foldl postedGo q) := by
    intro l
    induction l with
    | nil => exact fun _ hq => hq
    | cons e t ih => exact fun q hq => ih _ (keptBoth_postedGo hq e)
  exact key _ _ ⟨h.1, by simp [h.2]⟩

/-! ### The idle step -/

@[simp] theorem countIf_kept (m : Chip) (b : Bool) (a n : Nat) : (m.countIf b a n).Kept ↔ m.Kept := by simp [Chip.countIf]

@[simp] theorem coachWaits_kept (m : Chip) (n : Nat) (c : Fin 64) : (m.coachWaits n c).Kept ↔ m.Kept := by simp [Chip.coachWaits]

@[simp] theorem portWaits_kept (m : Chip) (n p : Nat) : (m.portWaits n p).Kept ↔ m.Kept := by simp [Chip.portWaits]

@[simp] theorem bankWaits_kept (m : Chip) (c : Fin 64) : (m.bankWaits c).Kept ↔ m.Kept := by simp [Chip.bankWaits]

@[simp] theorem progressOn_kept (m : Chip) (p : PageId) : (m.progressOn p).Kept ↔ m.Kept := by simp [Chip.progressOn]

@[simp] theorem Chip.Kept.workOn {m : Chip} (hk : m.Kept) {p : PageId} : (m.workOn p).Kept := by
  unfold Chip.workOn
  split <;> simp [hk]

@[simp] theorem waited_kept (m : Chip) : m.waited.Kept ↔ m.Kept := by simp [Chip.waited]

@[simp] theorem Chip.Kept.working {m : Chip} (hk : m.Kept) : m.working.Kept := Chip.Kept.foldl (fun _ _ hk => by simp [hk]) _ hk

@[simp] theorem stageTime_kept (m : Chip) (was : W64) : (m.stageTime was).Kept ↔ m.Kept := by simp [Chip.stageTime]

@[simp] theorem Chip.Kept.idle {m : Chip} (hk : m.Kept) : m.idle.Kept := by simp [Chip.idle, hk]

end Sys2Proof.Machine

/-! PROOFS. What each row of the model keeps, and every step (R59, R86, R115, R507). -/
namespace Sys2Proof.Machine

/-- A next state, where there is one, is kept. -/
def keepsState (o : Host.Outcome State Fault Refusal) : Prop := ∀ t, o = .next t → t.Kept

theorem keepsState_next {s : State} (h : s.Kept) : keepsState (.next s) := fun _ e => Host.Outcome.next.inj e ▸ h

theorem State.Kept.onBoth_keeps {s : State} (h : s.Kept) {f : Nvm × Chip → Nvm × Chip} (hf : ∀ p, keptBoth p → keptBoth (f p)) :
    keepsState (onBoth f s) :=
  keepsState_next ((state_kept_iff _).mpr (keptBoth_drainLog (hf (s.nvm, s.chip) ((state_kept_iff s).mp h))))

theorem State.Kept.onChip_keeps {s : State} (h : s.Kept) {f : Chip → Chip} (hf : ∀ m, m.Kept → (f m).Kept) : keepsState (onChip f s) :=
  have ⟨hlog, hchip⟩ := (state_kept_iff s).mp h
  keepsState_next ((state_kept_iff _).mpr ⟨hlog, hf _ hchip⟩)

theorem State.Kept.onLog_keeps {s : State} (h : s.Kept) {f : Chip → Chip} (hf : ∀ m, m.Kept → (f m).Kept) : keepsState (onLog f s) :=
  h.onBoth_keeps fun p ⟨hlog, hchip⟩ => ⟨hlog, hf p.2 hchip⟩

theorem State.Kept.onChipWith_keeps {s : State} (h : s.Kept) {f : Nvm → Chip → Chip} (hf : ∀ n m, m.Kept → (f n m).Kept) :
    keepsState (onChipWith f s) :=
  h.onBoth_keeps fun p ⟨hlog, hchip⟩ => ⟨hlog, hf p.1 p.2 hchip⟩

theorem State.Kept.onHbm_keeps {s : State} (h : s.Kept) {f : Chip → Chip} (hf : ∀ m, m.Kept → (f m).Kept) : keepsState (onHbm f s) :=
  h.onChip_keeps fun m hm => by simp [hm, hf]

theorem State.Kept.onCoach_keeps {s : State} (h : s.Kept) {c : Fin 64} {f : Chip → Chip} (hf : ∀ m, m.Kept → (f m).Kept) :
    keepsState (Sys2Proof.Machine.onCoach c f s) :=
  h.onChip_keeps fun m hm => by simp [hm, hf]

/-- An instruction of a context. -/
theorem State.Kept.insn_keeps {s : State} (h : s.Kept) (x : Ctx) (p : Op → Bool) : keepsState (onChip (insn x p) s) := h.onChip_keeps fun _ hm => hm.insn

/-- A vector instruction. -/
theorem State.Kept.vinsn_keeps {s : State} (h : s.Kept) (x : Ctx) (o : VOp) (sc : Bool) : keepsState (vinsn x o sc s) :=
  h.onCoach_keeps fun _ hm => hm.insn

/-- A command of a register page. -/
theorem State.Kept.issue_keeps {s : State} (h : s.Kept) (p : PageId) (code : Nat) (l : Launch) {run : Launch → Chip → Chip}
    (hf : ∀ m, m.Kept → (run l m).Kept) : keepsState (onChip (fun m => m.issue p code l run) s) :=
  h.onChip_keeps fun _ hm => hm.issue hf

/-- The write of a register. -/
theorem State.Kept.writeIf_keeps {s : State} (h : s.Kept) (c : Bool) (w : Wr) : keepsState (writeIf c w s) :=
  h.onBoth_keeps fun p hp => by
    split
    · exact keptBoth_postedWrite hp w
    · exact hp

/-- The access of a window register. -/
theorem State.Kept.window_keeps {s : State} (h : s.Kept) (k : PageKind) (o : Nat) (a : RegAcc) : keepsState (window k o a s) := by
  cases a with
  | read m off size =>
    unfold Sys2Proof.Machine.window
    exact h.onChipWith_keeps fun n c hc => by simp [hc]
  | write w => exact h.writeIf_keeps _ w

/-- A request of the management interface that only asks. -/
theorem State.Kept.askMsg_keeps {s : State} (h : s.Kept) (k : Mctp) (loader : Bool) (f : Nvm → Chip → MgmtCode × List Nat) :
    keepsState (askMsg k loader f s) :=
  h.onBoth_keeps fun p hp => keptBoth_takeMsg hp fun q hq => ⟨hq.1, by simp [hq.2]⟩

theorem State.Kept.askControl_keeps {s : State} (h : s.Kept) (k : Mctp) (code : Nat) : keepsState (askControl k code s) := by
  unfold Sys2Proof.Machine.askControl
  exact h.askMsg_keeps _ _ _

theorem State.Kept.askPldm_keeps {s : State} (h : s.Kept) (k : Mctp) (type code : Nat) (f : Nvm → Chip → MgmtCode × List Nat) :
    keepsState (askPldm k type code f s) :=
  h.onBoth_keeps fun p hp => keptBoth_takePldm hp fun q hq => ⟨hq.1, by simp [hq.2]⟩

/-- An instruction of the test access port. -/
theorem State.Kept.tapRow_keeps {s : State} (h : s.Kept) (i : TapInstr) (ok : Chip → Bool) {f : Nvm × Chip → Nvm × Chip}
    (hf : ∀ p, keptBoth p → keptBoth (f p)) : keepsState (tapRow i ok f s) := by
  refine h.onBoth_keeps fun p ⟨hlog, hchip⟩ => ?_
  have ht (i : TapInstr) : keptBoth (p.1, p.2.selectTap i) := ⟨hlog, by simp [hchip]⟩
  split
  · exact ⟨hlog, hchip⟩
  · split
    · exact hf _ (ht i)
    · exact ht .bypass

/-! ### Rows: the board, clocks and resets -/

theorem execVstby33Rise_keeps {s : State} (hs : s.Kept) : keepsState (execVstby33Rise s) := hs.onChip_keeps fun _ hm => by simp [hm]

theorem execVstby33Fall_keeps {s : State} (hs : s.Kept) : keepsState (execVstby33Fall s) := hs.onChip_keeps fun _ hm => by simp [hm]

theorem execPorRelease_keeps {s : State} (hs : s.Kept) : keepsState (execPorRelease s) := hs.onChip_keeps fun _ hm => by simp [hm]

theorem execMainPowerGood_keeps {s : State} (hs : s.Kept) (mv : Nat) : keepsState (execMainPowerGood mv s) :=
  hs.onChip_keeps fun _ hm => by
    unfold Chip.when
    dsimp only
    (repeat' split) <;> simp [hm]

theorem execHubRailsUp_keeps {s : State} (hs : s.Kept) (fail : Bool) : keepsState (execHubRailsUp fail s) :=
  hs.onChip_keeps fun _ hm => by simp [hm]

theorem execOstlerImageVerify_keeps {s : State} (hs : s.Kept) (a b : Verdict) : keepsState (execOstlerImageVerify a b s) :=
  hs.onChipWith_keeps fun _ _ hm => by simp [hm]

theorem execCoolFail_keeps {s : State} (hs : s.Kept) : keepsState (execCoolFail s) := hs.onChip_keeps fun _ hm => by simp [hm]

theorem execRailRampDone_keeps {s : State} (hs : s.Kept) (fail : Option (Fin 18)) : keepsState (execRailRampDone fail s) :=
  hs.onChip_keeps fun _ hm => by cases fail <;> simp [hm]

/-! ### Rows: vector engines -/

theorem execVecEntryStart_keeps {s : State} (hs : s.Kept) (c : Fin 64) : keepsState (execVecEntryStart c s) :=
  hs.onCoach_keeps fun _ hm => by simp [hm]

theorem execVecElementResponse_keeps {s : State} (hs : s.Kept) (c : Fin 64) (i : Nat) :
    keepsState (execVecElementResponse c i s) := hs.onCoach_keeps fun _ hm => by simp [hm]

theorem execVecEntryComplete_keeps {s : State} (hs : s.Kept) (c : Fin 64) (mem : Bool) (cycles replays : Nat) (third : Bool)
    : keepsState (execVecEntryComplete c mem cycles replays third s) := hs.onCoach_keeps fun _ hm => by simp [hm]

/-! ### Rows: matrix engines -/

theorem execMatrixEntryStart_keeps {s : State} (hs : s.Kept) (c : Fin 64) (half : Bool) :
    keepsState (execMatrixEntryStart c half s) := hs.onCoach_keeps fun _ hm => by simp [hm]

theorem execMatrixPrepare_keeps {s : State} (hs : s.Kept) (c : Fin 64) (half : Bool) (rows : Nat) :
    keepsState (execMatrixPrepare c half rows s) := hs.onCoach_keeps fun _ hm => by simp [hm]

theorem execMatrixFillEnd_keeps {s : State} (hs : s.Kept) (c : Fin 64) (half : Bool) (cycles : Nat) :
    keepsState (execMatrixFillEnd c half cycles s) := hs.onCoach_keeps fun _ hm => by simp [hm]

theorem execMatrixEntryClose_keeps {s : State} (hs : s.Kept) (c : Fin 64) (half mismatch : Bool) :
    keepsState (execMatrixEntryClose c half mismatch s) := hs.onCoach_keeps fun _ hm => by simp [hm]

theorem execMatrixEntryCommit_keeps {s : State} (hs : s.Kept) (c : Fin 64) (half mismatch : Bool) :
    keepsState (execMatrixEntryCommit c half mismatch s) := hs.onCoach_keeps fun _ hm => by simp [hm]

theorem execMtxModeChange_keeps {s : State} (hs : s.Kept) (c : Fin 64) : keepsState (execMtxModeChange c s) :=
  hs.onCoach_keeps fun _ hm => by simp [hm]

/-! ### Rows: drays -/

theorem execDrayDescStart_keeps {st : State} (hs : st.Kept) (c : Fin 64) (s : Fin 8) : keepsState (execDrayDescStart c s st) :=
  hs.onCoach_keeps fun _ hm => by simp [hm]

theorem execDrayBurstIssue_keeps {st : State} (hs : st.Kept) (c : Fin 64) (s : Fin 8) (wr : Bool) (n : Nat) :
    keepsState (execDrayBurstIssue c s wr n st) := hs.onCoach_keeps fun _ hm => by simp [hm]

theorem execDrayDescComplete_keeps {st : State} (hs : st.Kept) (c : Fin 64) (s : Fin 8) :
    keepsState (execDrayDescComplete c s st) := hs.onCoach_keeps fun _ hm => by simp [hm]

/-! ### Rows: instructions -/

theorem execTrapEntry_keeps {s : State} (hs : s.Kept) (x : Ctx) (hi : Nat) : keepsState (execTrapEntry x hi s) :=
  hs.onCoach_keeps fun _ hm => by simp [hm]

theorem execWaitRelease_keeps {s : State} (hs : s.Kept) (x : Ctx) : keepsState (execWaitRelease x s) :=
  hs.onCoach_keeps fun _ hm => by simp [hm]

theorem execWaituntilExpire_keeps {s : State} (hs : s.Kept) (x : Ctx) : keepsState (execWaituntilExpire x s) :=
  hs.onCoach_keeps fun _ hm => by simp [hm]

theorem execEventDeliver_keeps {s : State} (hs : s.Kept) (n : Nat) : keepsState (execEventDeliver n s) :=
  hs.onChip_keeps fun _ hm => by simp [hm]

theorem execVclaimGrant_keeps {s : State} (hs : s.Kept) (c : Fin 64) : keepsState (execVclaimGrant c s) :=
  hs.onCoach_keeps fun _ hm => by simp [hm]

theorem execVclaimLimitExpire_keeps {s : State} (hs : s.Kept) (c : Fin 64) (aft : Bool) (hi : Nat) :
    keepsState (execVclaimLimitExpire c aft hi s) := hs.onCoach_keeps fun _ hm => by simp [hm]

theorem execIntPendSet_keeps {s : State} (hs : s.Kept) (p : PendSource) : keepsState (execIntPendSet p s) :=
  hs.onChip_keeps fun _ hm => by simp [hm]

theorem execCmpMatch_keeps {s : State} (hs : s.Kept) (x : Ctx) : keepsState (execCmpMatch x s) :=
  hs.onChip_keeps fun _ hm => by simp [hm]

theorem execBrakeLimitExpire_keeps {s : State} (hs : s.Kept) (x : Ctx) : keepsState (execBrakeLimitExpire x s) :=
  hs.onChip_keeps fun _ hm => by simp [hm]

theorem execMissue_keeps {s : State} (hs : s.Kept) (x : Ctx) : keepsState (execMissue x s) := hs.onCoach_keeps fun _ hm => by simp [hm]

theorem execDrgo_keeps {s : State} (hs : s.Kept) (x : Ctx) : keepsState (execDrgo x s) := hs.onCoach_keeps fun _ hm => by simp [hm]

theorem execVclaim_keeps {s : State} (hs : s.Kept) (x : Ctx) : keepsState (execVclaim x s) := hs.onCoach_keeps fun _ hm => by simp [hm]

theorem execVrel_keeps {s : State} (hs : s.Kept) (x : Ctx) : keepsState (execVrel x s) := hs.onCoach_keeps fun _ hm => by simp [hm]

/-! ### Rows: memory slices -/

theorem execCmemFabricAccess_keeps {s : State} (hs : s.Kept) (w : BitVec 16) (cls a n : Nat) (d : Option (List Byte)) :
    keepsState (execCmemFabricAccess w cls a n d s) := hs.onHbm_keeps fun _ hm => by simp [hm]

theorem execDepotAccess_keeps {s : State} (hs : s.Kept) (w : BitVec 16) (cls a n : Nat) (d : Option (List Byte))
    (noalloc parity : Bool) : keepsState (execDepotAccess w cls a n d noalloc parity s) := hs.onHbm_keeps fun _ hm => by simp [hm]

theorem execDepotLineFill_keeps {s : State} (hs : s.Kept) (i : Fin 16) (l : Nat) : keepsState (execDepotLineFill i l s) :=
  hs.onHbm_keeps fun _ hm => by simp [hm]

theorem execHbmRead_keeps {s : State} (hs : s.Kept) (w : BitVec 16) (a fails : Nat) (scrub : Bool) :
    keepsState (execHbmRead w a fails scrub s) := hs.onHbm_keeps fun _ hm => by simp [hm]

theorem execHbmWrite_keeps {s : State} (hs : s.Kept) (w : BitVec 16) (a : Nat) (d : List Byte) (fails : Nat × Nat) :
    keepsState (execHbmWrite w a d fails s) := hs.onHbm_keeps fun _ hm => by simp [hm]

theorem execQpower_keeps {s : State} (hs : s.Kept) (c : Fin 64) (l : Launch) : keepsState (execQpower c l s) :=
  hs.issue_keeps _ _ _ fun _ hm => by simp [hm]

theorem execQuarterReady_keeps {s : State} (hs : s.Kept) (c : Fin 64) (q : Fin 4) : keepsState (execQuarterReady c q s) :=
  hs.onChip_keeps fun _ hm => by simp [hm]

theorem execZero_keeps {s : State} (hs : s.Kept) (c : Fin 64) (l : Launch) : keepsState (execZero c l s) :=
  hs.issue_keeps _ _ _ fun _ hm => by simp [hm]

theorem execBufzero_keeps {s : State} (hs : s.Kept) (c : Fin 64) (l : Launch) : keepsState (execBufzero c l s) :=
  hs.issue_keeps _ _ _ fun _ hm => by simp [hm]

theorem execSplit_keeps {s : State} (hs : s.Kept) (i : Fin 16) (l : Launch) : keepsState (execSplit i l s) :=
  hs.issue_keeps _ _ _ fun _ hm => by simp [hm]

theorem execFlush_keeps {s : State} (hs : s.Kept) (i : Fin 16) (l : Launch) : keepsState (execFlush i l s) :=
  hs.issue_keeps _ _ _ fun _ hm => by simp [hm]

theorem execFlushInval_keeps {s : State} (hs : s.Kept) (i : Fin 16) (l : Launch) : keepsState (execFlushInval i l s) :=
  hs.issue_keeps _ _ _ fun _ hm => by simp [hm]

theorem execWritebackRaise_keeps {s : State} (hs : s.Kept) (i : Fin 16) : keepsState (execWritebackRaise i s) :=
  hs.onChip_keeps fun _ hm => by simp [hm]

theorem execScrub_keeps {s : State} (hs : s.Kept) (i : Fin 16) (l : Launch) : keepsState (execScrub i l s) :=
  hs.issue_keeps _ _ _ fun _ hm => by simp [hm]

theorem execPatrolStart_keeps {s : State} (hs : s.Kept) (i : Fin 16) : keepsState (execPatrolStart i s) :=
  hs.onChip_keeps fun _ hm => by simp [hm]

/-! ### Rows: walks, faults and invalidations -/

theorem execFaultRecordWrite_keeps {s : State} (hs : s.Kept) : keepsState (execFaultRecordWrite s) :=
  hs.onChip_keeps fun _ hm => by simp [hm]

theorem execWalkReadResponse_keeps {s : State} (hs : s.Kept) (r : Fin 4) (id : Nat) :
    keepsState (execWalkReadResponse r id s) := hs.onChip_keeps fun _ hm => by simp [hm]

theorem execPageWalk_keeps {s : State} (hs : s.Kept) (r : Fin 4) : keepsState (execPageWalk r s) :=
  hs.onChip_keeps fun _ hm => by simp [hm]

theorem execOutriderWalk_keeps {st : State} (hs : st.Kept) (c : Fin 64) (s : Fin 8) : keepsState (execOutriderWalk c s st) :=
  hs.onChip_keeps fun _ hm => by simp [hm]

theorem execDrainRaise_keeps {s : State} (hs : s.Kept) : keepsState (execDrainRaise s) := hs.onChip_keeps fun _ hm => by simp [hm]

theorem execInvalCompletion_keeps {s : State} (hs : s.Kept) : keepsState (execInvalCompletion s) :=
  hs.onChip_keeps fun _ hm => by simp [hm]

theorem execInvalMulticast_keeps {s : State} (hs : s.Kept) (l : Fin 2) (a : Nat) (bytes : List Byte) :
    keepsState (execInvalMulticast l a bytes s) := hs.onChip_keeps fun _ hm => by simp [hm]

/-! ### Rows: submission queues -/

theorem execEntryTake_keeps {s : State} (hs : s.Kept) (q : Fin 1024) (w : Vector (BitVec 64) 8) :
    keepsState (execEntryTake q w s) := hs.onChip_keeps fun _ hm => by simp [hm]

theorem execAdviseEntry_keeps {s : State} (hs : s.Kept) : keepsState (execAdviseEntry s) := hs.onChip_keeps fun _ hm => by simp [hm]

theorem execXferEntry_keeps {s : State} (hs : s.Kept) : keepsState (execXferEntry s) := hs.onChip_keeps fun _ hm => by simp [hm]

theorem execMigrateEntry_keeps {s : State} (hs : s.Kept) : keepsState (execMigrateEntry s) := hs.onChip_keeps fun _ hm => by simp [hm]

/-! ### Rows: the shunter -/

theorem execTaskEnd_keeps {s : State} (hs : s.Kept) (h : BitVec 16) : keepsState (execTaskEnd h s) :=
  hs.onChip_keeps fun _ hm => by simp [hm]

theorem execHubStop_keeps {s : State} (hs : s.Kept) (x : Ctx) (hi : Nat) : keepsState (execHubStop x hi s) :=
  hs.onCoach_keeps fun _ hm => by simp [hm]

theorem execTaskEntry_keeps {s : State} (hs : s.Kept) (h : BitVec 16) : keepsState (execTaskEntry h s) :=
  hs.onChip_keeps fun _ hm => by simp [hm]

theorem execPostEntry_keeps {s : State} (hs : s.Kept) : keepsState (execPostEntry s) := hs.onChip_keeps fun _ hm => by simp [hm]

theorem execEndEntry_keeps {s : State} (hs : s.Kept) : keepsState (execEndEntry s) := hs.onChip_keeps fun _ hm => by simp [hm]

theorem execTaskPlace_keeps {s : State} (hs : s.Kept) : keepsState (execTaskPlace s) := hs.onHbm_keeps fun _ hm => by simp [hm]

theorem execTaskDispatch_keeps {s : State} (hs : s.Kept) (x : Ctx) : keepsState (execTaskDispatch x s) :=
  hs.onChip_keeps fun _ hm => by simp [hm]

theorem execTaskSwitch_keeps {s : State} (hs : s.Kept) : keepsState (execTaskSwitch s) := hs.onChip_keeps fun _ hm => by simp [hm]

theorem execSliceExpire_keeps {s : State} (hs : s.Kept) (x : Ctx) : keepsState (execSliceExpire x s) :=
  hs.onChip_keeps fun _ hm => by simp [hm]

theorem execVlimitSwitch_keeps {s : State} (hs : s.Kept) (c : Fin 64) : keepsState (execVlimitSwitch c s) :=
  hs.onChip_keeps fun _ hm => by simp [hm]

theorem execSideTask_keeps {s : State} (hs : s.Kept) : keepsState (execSideTask s) := hs.onChip_keeps fun _ hm => by simp [hm]

theorem execResolve_keeps {s : State} (hs : s.Kept) (l : Launch) : keepsState (execResolve l s) :=
  hs.issue_keeps _ _ _ fun _ hm => by simp [hm]

theorem execEnd_keeps {s : State} (hs : s.Kept) (l : Launch) : keepsState (execEnd l s) :=
  hs.issue_keeps _ _ _ fun _ hm => by simp [hm]

theorem execFence_keeps {s : State} (hs : s.Kept) (l : Launch) : keepsState (execFence l s) :=
  hs.issue_keeps _ _ _ fun _ hm => by simp [hm]

theorem execUnfence_keeps {s : State} (hs : s.Kept) (l : Launch) : keepsState (execUnfence l s) :=
  hs.issue_keeps _ _ _ fun _ hm => by simp [hm]

theorem execRelocateGroup_keeps {s : State} (hs : s.Kept) (c : Fin 64) : keepsState (execRelocateGroup c s) :=
  hs.onChip_keeps fun _ hm => by simp [hm]

theorem execStart_keeps {s : State} (hs : s.Kept) (c : Fin 64) (l : Launch) : keepsState (execStart c l s) :=
  hs.issue_keeps _ _ _ fun _ hm => by simp [hm]

theorem execStop_keeps {s : State} (hs : s.Kept) (c : Fin 64) (l : Launch) : keepsState (execStop c l s) :=
  hs.issue_keeps _ _ _ fun _ hm => by simp [hm]

theorem execVflush_keeps {s : State} (hs : s.Kept) (c : Fin 64) (l : Launch) : keepsState (execVflush c l s) :=
  hs.issue_keeps _ _ _ fun _ hm => by simp [hm]

/-! ### Rows: host links -/

theorem execLinkReset_keeps {s : State} (hs : s.Kept) (l : Fin 2) : keepsState (execLinkReset l s) :=
  hs.onChip_keeps fun _ hm => by simp [hm]

theorem execHostLinkTrain_keeps {s : State} (hs : s.Kept) (l : Fin 2) : keepsState (execHostLinkTrain l s) :=
  hs.onChip_keeps fun _ hm => by simp [hm]

theorem execPerst1Change_keeps {s : State} (hs : s.Kept) (high : Bool) : keepsState (execPerst1Change high s) :=
  hs.onChip_keeps fun _ hm => by
    unfold Chip.when
    dsimp only
    (repeat' split) <;> simp [hm]

theorem execPerst0Deassert_keeps {s : State} (hs : s.Kept) : keepsState (execPerst0Deassert s) :=
  hs.onChip_keeps fun _ hm => by simp [hm]

theorem execHostLinkUp_keeps {s : State} (hs : s.Kept) (l : Fin 2) (gen width : Nat) (flit : Bool) :
    keepsState (execHostLinkUp l gen width flit s) := hs.onChip_keeps fun _ hm => by simp [hm]

theorem execConfigRequest_keeps {s : State} (hs : s.Kept) (f : Fin 16) (w : CfgAccess) : keepsState (execConfigRequest f w s) :=
  hs.onChip_keeps fun _ hm => by simp [hm]

theorem execHostBar2Access_keeps {s : State} (hs : s.Kept) (f : Fin 16) (a n : Nat) (d : Option (List Byte)) :
    keepsState (execHostBar2Access f a n d s) := hs.onHbm_keeps fun _ hm => by simp [hm]

theorem execHostCompletion_keeps {s : State} (hs : s.Kept) (id : Nat) (data : List Byte) (err : Bool) :
    keepsState (execHostCompletion id data err s) := hs.onHbm_keeps fun _ hm => by simp [hm]

theorem execHostCompletionTimeout_keeps {s : State} (hs : s.Kept) (id : Nat) : keepsState (execHostCompletionTimeout id s) :=
  hs.onChip_keeps fun _ hm => by (repeat' split) <;> simp [hm]

theorem execHostHoldExpire_keeps {s : State} (hs : s.Kept) (l : Fin 2) (id : Option Nat) :
    keepsState (execHostHoldExpire l id s) := hs.onChip_keeps fun _ hm => by simp [hm]

/-! ### Rows: coupling -/

theorem execNotifyDeliver_keeps {s : State} (hs : s.Kept) (id : Nat) : keepsState (execNotifyDeliver id s) :=
  hs.onHbm_keeps fun _ hm => by simp [hm]

theorem execSelfanWrite_keeps {s : State} (hs : s.Kept) (p : Fin 10) (f : Flits) : keepsState (execSelfanWrite p f s) :=
  hs.onChip_keeps fun _ hm => by simp [hm]

theorem execSelfanRead_keeps {s : State} (hs : s.Kept) (p : Fin 10) (f : Flits) : keepsState (execSelfanRead p f s) :=
  hs.onChip_keeps fun _ hm => by simp [hm]

theorem execSelfanWriteRsp_keeps {s : State} (hs : s.Kept) (p : Fin 10) (f : Flits) : keepsState (execSelfanWriteRsp p f s) :=
  hs.onChip_keeps fun _ hm => by simp [hm]

theorem execSelfanReadRsp_keeps {s : State} (hs : s.Kept) (p : Fin 10) (f : Flits) : keepsState (execSelfanReadRsp p f s) :=
  hs.onChip_keeps fun _ hm => by simp [hm]

theorem execCouplingTimeout_keeps {s : State} (hs : s.Kept) (n : Fin 1024) (wr : Bool) (tag : BitVec 32) :
    keepsState (execCouplingTimeout n wr tag s) := hs.onChip_keeps fun _ hm => by simp [hm]

theorem execLinkControlFlit_keeps {s : State} (hs : s.Kept) (p : Fin 10) (nak : Bool) (lseq : BitVec 12)
    (credits : Vector Nat 10) (good : Bool) : keepsState (execLinkControlFlit p nak lseq credits good s) :=
  hs.onChip_keeps fun _ hm => by simp [hm]

theorem execReplayTimeout_keeps {s : State} (hs : s.Kept) (p : Fin 10) : keepsState (execReplayTimeout p s) :=
  hs.onChip_keeps fun _ hm => by simp [hm]

theorem execEthReplayTimeout_keeps {s : State} (hs : s.Kept) (n : Fin 1024) : keepsState (execEthReplayTimeout n s) :=
  hs.onChip_keeps fun _ hm => by simp [hm]

theorem execEthernetFrame_keeps {s : State} (hs : s.Kept) (p : Fin 10) (etype : BitVec 16) (dst : BitVec 48) (fcs : Bool)
    (b : EthBody) : keepsState (execEthernetFrame p etype dst fcs b s) := hs.onChip_keeps fun _ hm => by simp [hm]

theorem execTrain_keeps {s : State} (hs : s.Kept) (p : Fin 10) (l : Launch) : keepsState (execTrain p l s) :=
  hs.issue_keeps _ _ _ fun _ hm => by simp [hm]

theorem execDown_keeps {s : State} (hs : s.Kept) (p : Fin 10) (l : Launch) : keepsState (execDown p l s) :=
  hs.issue_keeps _ _ _ fun _ hm => by simp [hm]

theorem execLinkTrainDone_keeps {s : State} (hs : s.Kept) (p : Fin 10) (ok : Bool) (seen : BitVec 16) :
    keepsState (execLinkTrainDone p ok seen s) := hs.onChip_keeps fun _ hm => by simp [hm]

theorem execPortLockLoss_keeps {s : State} (hs : s.Kept) (p : Fin 10) : keepsState (execPortLockLoss p s) :=
  hs.onChip_keeps fun _ hm => by simp [hm]

/-! ### Rows: posts and recovery -/

theorem execStageTimerExpire_keeps {s : State} (hs : s.Kept) : keepsState (execStageTimerExpire s) :=
  hs.onChip_keeps fun _ hm => by simp [hm]

theorem execStagingPost_keeps {s : State} (hs : s.Kept) : keepsState (execStagingPost s) := hs.onChip_keeps fun _ hm => by simp [hm]

theorem execPostQuiesced_keeps {s : State} (hs : s.Kept) : keepsState (execPostQuiesced s) := hs.onHbm_keeps fun _ hm => by simp [hm]

theorem execPostCommit_keeps {s : State} (hs : s.Kept) : keepsState (execPostCommit s) :=
  hs.onHbm_keeps fun _ hm => by
    rw [when_kept]
    (repeat' split)
    · exact Chip.Kept.foldl (fun _ _ ha => ha.crcNote) _ hm
    · simp [hm]
    · exact hm

theorem execPostQuiesceTimeout_keeps {s : State} (hs : s.Kept) : keepsState (execPostQuiesceTimeout s) :=
  hs.onChip_keeps fun _ hm => by simp [hm]

theorem execPostRetry_keeps {s : State} (hs : s.Kept) : keepsState (execPostRetry s) := hs.onChip_keeps fun _ hm => by simp [hm]

theorem execRecoveryEvent_keeps {s : State} (hs : s.Kept) (d : Option Detected) : keepsState (execRecoveryEvent d s) :=
  hs.onLog_keeps fun _ hm => by simp [hm]

theorem execLogOverflow_keeps {s : State} (hs : s.Kept) : keepsState (execLogOverflow s) := hs.onLog_keeps fun _ hm => by simp [hm]

theorem execLevelARepairDone_keeps {s : State} (hs : s.Kept) : keepsState (execLevelARepairDone s) :=
  hs.onHbm_keeps fun _ hm => by (repeat' split) <;> simp [hm]

theorem execFreightDrayGrant_keeps {s : State} (hs : s.Kept) : keepsState (execFreightDrayGrant s) :=
  hs.onHbm_keeps fun _ hm => by simp [hm]

theorem execFreightJobEnd_keeps {s : State} (hs : s.Kept) (id : Nat) : keepsState (execFreightJobEnd id s) :=
  hs.onHbm_keeps fun _ hm => by simp [hm]

theorem execRollbackStop_keeps {s : State} (hs : s.Kept) : keepsState (execRollbackStop s) := hs.onChip_keeps fun _ hm => by simp [hm]

theorem execRollbackRestore_keeps {s : State} (hs : s.Kept) : keepsState (execRollbackRestore s) :=
  hs.onHbm_keeps fun _ hm => by simp [hm]

theorem execRollbackRestart_keeps {s : State} (hs : s.Kept) : keepsState (execRollbackRestart s) :=
  hs.onChip_keeps fun _ hm => by simp [hm]

theorem execReexecDataApply_keeps {s : State} (hs : s.Kept) : keepsState (execReexecDataApply s) :=
  hs.onHbm_keeps fun _ hm => by simp [hm]

theorem execDiverge_keeps {s : State} (hs : s.Kept) (h : BitVec 16) : keepsState (execDiverge h s) :=
  hs.onChip_keeps fun _ hm => by simp [hm]

theorem execReexecEnd_keeps {s : State} (hs : s.Kept) : keepsState (execReexecEnd s) := hs.onChip_keeps fun _ hm => by simp [hm]

theorem execArm_keeps {s : State} (hs : s.Kept) (l : Launch) : keepsState (execArm l s) :=
  hs.issue_keeps _ _ _ fun _ hm => by simp [hm]

theorem execDisarm_keeps {s : State} (hs : s.Kept) (l : Launch) : keepsState (execDisarm l s) :=
  hs.issue_keeps _ _ _ fun _ hm => by simp [hm]

theorem execPost_keeps {s : State} (hs : s.Kept) (l : Launch) : keepsState (execPost l s) :=
  hs.issue_keeps _ _ _ fun _ hm => by simp [hm]

theorem execRollback_keeps {s : State} (hs : s.Kept) (l : Launch) : keepsState (execRollback l s) :=
  hs.issue_keeps _ _ _ fun _ hm => by simp [hm]

theorem execAbandon_keeps {s : State} (hs : s.Kept) (l : Launch) : keepsState (execAbandon l s) :=
  hs.issue_keeps _ _ _ fun _ hm => by simp [hm]

theorem execRegister_keeps {s : State} (hs : s.Kept) (l : Launch) : keepsState (execRegister l s) :=
  hs.issue_keeps _ _ _ fun _ hm => by simp [hm]

theorem execRelease_keeps {s : State} (hs : s.Kept) (l : Launch) : keepsState (execRelease l s) :=
  hs.issue_keeps _ _ _ fun _ hm => by simp [hm]

/-! ### Rows: start-up and resets -/

theorem execHbmTrainingDone_keeps {s : State} (hs : s.Kept) (fail : Option (Fin 16)) :
    keepsState (execHbmTrainingDone fail s) :=
  hs.onChipWith_keeps fun _ m hm => by
    have hup : Chip.Kept { m with mem := [], veils := [], obuf := [], badCrc := [], slices := Vector.replicate 16 Slice.reset } :=
      ⟨rfl, hm.errq, hm.wait, hm.coaches, hm.tasks, hm.images⟩
    cases fail <;> simp [hm, hup]

theorem execRakeRelease_keeps {s : State} (hs : s.Kept) : keepsState (execRakeRelease s) :=
  hs.onChipWith_keeps fun _ _ hm => by simp [hm]

theorem execModuleReady_keeps {s : State} (hs : s.Kept) : keepsState (execModuleReady s) := hs.onChip_keeps fun _ hm => by simp [hm]

theorem execPerst0Assert_keeps {s : State} (hs : s.Kept) : keepsState (execPerst0Assert s) := hs.onChip_keeps fun _ hm => by simp [hm]

theorem execModuleResetRelease_keeps {s : State} (hs : s.Kept) : keepsState (execModuleResetRelease s) :=
  hs.onChip_keeps fun _ hm => by simp [hm]

theorem execLeakClear_keeps {s : State} (hs : s.Kept) : keepsState (execLeakClear s) := hs.onChip_keeps fun _ hm => by simp [hm]

theorem execModuleReset_keeps {s : State} (hs : s.Kept) (l : Launch) : keepsState (execModuleReset l s) :=
  hs.issue_keeps _ _ _ fun _ hm => hm.noArg (by simp [hm])

theorem execOstlerReset_keeps {s : State} (hs : s.Kept) (l : Launch) : keepsState (execOstlerReset l s) :=
  hs.issue_keeps _ _ _ fun _ hm => hm.noArg (by simp [hm])

theorem execOstlerWatchdog_keeps {s : State} (hs : s.Kept) : keepsState (execOstlerWatchdog s) :=
  hs.onChip_keeps fun _ hm => by simp [hm]

theorem execOstlerBoot_keeps {s : State} (hs : s.Kept) (a b : Verdict) : keepsState (execOstlerBoot a b s) :=
  hs.onChipWith_keeps fun _ _ hm => by simp [hm]

theorem execRakeReset_keeps {s : State} (hs : s.Kept) (l : Launch) : keepsState (execRakeReset l s) :=
  hs.onLog_keeps fun _ hm => hm.issue fun _ ha => by simp [ha]

theorem execSnap_keeps {s : State} (hs : s.Kept) (l : Launch) : keepsState (execSnap l s) :=
  hs.issue_keeps _ _ _ fun _ hm => by simp [hm]

theorem execRefclkSwitch_keeps {s : State} (hs : s.Kept) (present : Bool) : keepsState (execRefclkSwitch present s) :=
  hs.onChip_keeps fun _ hm => by simp [hm]

theorem execRefclkLoss_keeps {s : State} (hs : s.Kept) (which : Fin 3) (present : Bool) :
    keepsState (execRefclkLoss which present s) := hs.onChip_keeps fun _ hm => by simp [hm]

theorem execJtagTrst_keeps {s : State} (hs : s.Kept) (high : Bool) : keepsState (execJtagTrst high s) :=
  hs.onChip_keeps fun _ hm => by simp [hm]

/-! ### Rows: power and cooling -/

theorem execCoolantCheck_keeps {s : State} (hs : s.Kept) : keepsState (execCoolantCheck s) := hs.onChip_keeps fun _ hm => by simp [hm]

theorem execGovernorAllocate_keeps {s : State} (hs : s.Kept) (p : Powers) : keepsState (execGovernorAllocate p s) :=
  hs.onChip_keeps fun _ hm => by simp [hm]

theorem execRakeLoop_keeps {s : State} (hs : s.Kept) (r : Fin 4) (mw : Nat) : keepsState (execRakeLoop r mw s) :=
  hs.onChip_keeps fun _ hm => by simp [hm]

theorem execSagWarning_keeps {s : State} (hs : s.Kept) (n : Fin 22) (mv : Nat) : keepsState (execSagWarning n mv s) :=
  hs.onChip_keeps fun _ hm => by simp [hm]

theorem execSupplyWarningClears_keeps {s : State} (hs : s.Kept) (n : Fin 22) (mv : Nat) :
    keepsState (execSupplyWarningClears n mv s) := hs.onChip_keeps fun _ hm => by simp [hm]

theorem execSagClear_keeps {s : State} (hs : s.Kept) : keepsState (execSagClear s) := hs.onChip_keeps fun _ hm => by simp [hm]

theorem execSupplyReset_keeps {s : State} (hs : s.Kept) (n : Fin 22) (mv : Nat) : keepsState (execSupplyReset n mv s) :=
  hs.onChip_keeps fun _ hm => by simp [hm]

theorem execLeakStop_keeps {s : State} (hs : s.Kept) : keepsState (execLeakStop s) := hs.onLog_keeps fun _ hm => by simp [hm]

theorem execStopReset_keeps {s : State} (hs : s.Kept) : keepsState (execStopReset s) :=
  hs.onLog_keeps fun _ hm => by (repeat' split) <;> simp [hm]

theorem execThermalSample_keeps {s : State} (hs : s.Kept) (t : Temps) : keepsState (execThermalSample t s) :=
  hs.onLog_keeps fun _ hm => by simp [hm]

theorem execFlowUpdate_keeps {s : State} (hs : s.Kept) (pulses : Nat) : keepsState (execFlowUpdate pulses s) :=
  hs.onLog_keeps fun _ hm => by simp [hm]

theorem execDemandUpdate_keeps {s : State} (hs : s.Kept) (max100 p1ms : Nat) : keepsState (execDemandUpdate max100 p1ms s) :=
  hs.onChip_keeps fun _ hm => by simp [hm]

theorem execCduInletRead_keeps {s : State} (hs : s.Kept) (t : Option (BitVec 16)) : keepsState (execCduInletRead t s) :=
  hs.onLog_keeps fun _ hm => by simp [hm]

theorem execCduDemandWrite_keeps {s : State} (hs : s.Kept) (ok : Bool) : keepsState (execCduDemandWrite ok s) :=
  hs.onChip_keeps fun _ hm => by simp [hm]

theorem execCduStatusWrite_keeps {s : State} (hs : s.Kept) (ok : Bool) : keepsState (execCduStatusWrite ok s) :=
  hs.onChip_keeps fun _ hm => by simp [hm]

/-! ### Rows: the mailbox -/

theorem execGetInfo_keeps {s : State} (hs : s.Kept) (l : Launch) : keepsState (execGetInfo l s) :=
  hs.onBoth_keeps fun _ hp => keptBoth_mboxIssue hp _ _

theorem execFwBegin_keeps {s : State} (hs : s.Kept) (l : Launch) : keepsState (execFwBegin l s) :=
  hs.onBoth_keeps fun _ hp => keptBoth_mboxIssue hp _ _

theorem execFwWrite_keeps {s : State} (hs : s.Kept) (l : Launch) : keepsState (execFwWrite l s) :=
  hs.onBoth_keeps fun _ hp => keptBoth_mboxIssue hp _ _

theorem execFwVerify_keeps {s : State} (hs : s.Kept) (l : Launch) : keepsState (execFwVerify l s) :=
  hs.onBoth_keeps fun _ hp => keptBoth_mboxIssue hp _ _

theorem execFwActivate_keeps {s : State} (hs : s.Kept) (l : Launch) : keepsState (execFwActivate l s) :=
  hs.onBoth_keeps fun _ hp => keptBoth_mboxIssue hp _ _

theorem execArbCommit_keeps {s : State} (hs : s.Kept) (l : Launch) : keepsState (execArbCommit l s) :=
  hs.onBoth_keeps fun _ hp => keptBoth_mboxIssue hp _ _

theorem execCfgRead_keeps {s : State} (hs : s.Kept) (l : Launch) : keepsState (execCfgRead l s) :=
  hs.onBoth_keeps fun _ hp => keptBoth_mboxIssue hp _ _

theorem execCfgWrite_keeps {s : State} (hs : s.Kept) (l : Launch) : keepsState (execCfgWrite l s) :=
  hs.onBoth_keeps fun _ hp => keptBoth_mboxIssue hp _ _

theorem execLogRead_keeps {s : State} (hs : s.Kept) (l : Launch) : keepsState (execLogRead l s) :=
  hs.onBoth_keeps fun _ hp => keptBoth_mboxIssue hp _ _

theorem execDbgNonce_keeps {s : State} (hs : s.Kept) (l : Launch) : keepsState (execDbgNonce l s) :=
  hs.onBoth_keeps fun _ hp => keptBoth_mboxIssue hp _ _

theorem execDbgUnlock_keeps {s : State} (hs : s.Kept) (l : Launch) : keepsState (execDbgUnlock l s) :=
  hs.onBoth_keeps fun _ hp => keptBoth_mboxIssue hp _ _

theorem execDbgLock_keeps {s : State} (hs : s.Kept) (l : Launch) : keepsState (execDbgLock l s) :=
  hs.onBoth_keeps fun _ hp => keptBoth_mboxIssue hp _ _

/-! ### Rows: register writes -/

theorem execRegisterWrite_keeps {s : State} (hs : s.Kept) (w : Wr) : keepsState (execRegisterWrite w s) := hs.writeIf_keeps _ _

theorem execEvtEnableWrite_keeps {s : State} (hs : s.Kept) (w : Wr) : keepsState (execEvtEnableWrite w s) := hs.writeIf_keeps _ _

theorem execErrPop_keeps {s : State} (hs : s.Kept) (w : Wr) : keepsState (execErrPop w s) := hs.writeIf_keeps _ _

theorem execDiscard_keeps {s : State} (hs : s.Kept) (w : Wr) : keepsState (execDiscard w s) := hs.writeIf_keeps _ _

theorem execChockRelease_keeps {s : State} (hs : s.Kept) (w : Wr) : keepsState (execChockRelease w s) := hs.writeIf_keeps _ _

theorem execEvSet_keeps {s : State} (hs : s.Kept) (w : Wr) : keepsState (execEvSet w s) := hs.writeIf_keeps _ _

theorem execPartWrite_keeps {s : State} (hs : s.Kept) (w : Wr) : keepsState (execPartWrite w s) := hs.writeIf_keeps _ _

theorem execFaultQEnable_keeps {s : State} (hs : s.Kept) (w : Wr) : keepsState (execFaultQEnable w s) := hs.writeIf_keeps _ _

theorem execDescIn_keeps {s : State} (hs : s.Kept) (w : Wr) : keepsState (execDescIn w s) := hs.writeIf_keeps _ _

theorem execDoorbell_keeps {s : State} (hs : s.Kept) (w : Wr) : keepsState (execDoorbell w s) := hs.writeIf_keeps _ _

theorem execQctlEnable_keeps {s : State} (hs : s.Kept) (w : Wr) : keepsState (execQctlEnable w s) := hs.writeIf_keeps _ _

theorem execCtxDone_keeps {s : State} (hs : s.Kept) (w : Wr) : keepsState (execCtxDone w s) := hs.writeIf_keeps _ _

theorem execCoupleEntryWrite_keeps {s : State} (hs : s.Kept) (w : Wr) : keepsState (execCoupleEntryWrite w s) := hs.writeIf_keeps _ _

theorem execReadToClear_keeps {s : State} (hs : s.Kept) (m : BitVec 16) (off size : Nat) :
    keepsState (execReadToClear m off size s) := hs.onChipWith_keeps fun _ _ hm => by simp [hm]

theorem execCmData_keeps {s : State} (hs : s.Kept) (a : RegAcc) : keepsState (execCmData a s) := hs.window_keeps _ _ _

theorem execVregData_keeps {s : State} (hs : s.Kept) (a : RegAcc) : keepsState (execVregData a s) := hs.window_keeps _ _ _

theorem execObufData_keeps {s : State} (hs : s.Kept) (a : RegAcc) : keepsState (execObufData a s) := hs.window_keeps _ _ _

theorem execVzero_keeps {s : State} (hs : s.Kept) (c : Fin 64) (l : Launch) : keepsState (execVzero c l s) :=
  hs.issue_keeps _ _ _ fun _ hm => by simp [hm]

theorem execClear_keeps {s : State} (hs : s.Kept) (i : Fin 128) (l : Launch) : keepsState (execClear i l s) :=
  hs.issue_keeps _ _ _ fun _ hm => hm.noArg hm

theorem execCommandEnd_keeps {s : State} (hs : s.Kept) (p : PageId) : keepsState (execCommandEnd p s) :=
  hs.onBoth_keeps fun _ hp => keptBoth_commandEnd hp _

/-! ### Rows: dray bursts -/

theorem execDrayBurstResponse_keeps {st : State} (hs : st.Kept) (c : Fin 64) (k : Fin 8) (id i : Nat) :
    keepsState (execDrayBurstResponse c k id i st) :=
  hs.onBoth_keeps fun _ hp => by
    split
    · exact keptBoth_onSnd (keptBoth_drayResponse hp c k id i) fun h => by simp [h]
    · exact hp

/-! ### Rows: management -/

theorem execSetEndpointId_keeps {s : State} (hs : s.Kept) (k : Mctp) (eid : Byte) : keepsState (execSetEndpointId k eid s) :=
  hs.onBoth_keeps fun _ hp => keptBoth_takeMsg hp fun _ hq => ⟨hq.1, by simp [hq.2]⟩

theorem execGetEndpointId_keeps {s : State} (hs : s.Kept) (k : Mctp) : keepsState (execGetEndpointId k s) := hs.askControl_keeps _ _

theorem execGetEndpointUuid_keeps {s : State} (hs : s.Kept) (k : Mctp) : keepsState (execGetEndpointUuid k s) :=
  hs.askControl_keeps _ _

theorem execGetMctpVersionSupport_keeps {s : State} (hs : s.Kept) (k : Mctp) : keepsState (execGetMctpVersionSupport k s) :=
  hs.askControl_keeps _ _

theorem execGetMessageTypeSupport_keeps {s : State} (hs : s.Kept) (k : Mctp) : keepsState (execGetMessageTypeSupport k s) :=
  hs.askControl_keeps _ _

theorem execSetdasa_keeps {s : State} (hs : s.Kept) (a : BitVec 7) : keepsState (execSetdasa a s) :=
  hs.onChip_keeps fun _ hm => by simp [hm]

theorem execEntdaa_keeps {s : State} (hs : s.Kept) (a : BitVec 7) : keepsState (execEntdaa a s) :=
  hs.onChip_keeps fun _ hm => by simp [hm]

theorem execGetTid_keeps {s : State} (hs : s.Kept) (k : Mctp) : keepsState (execGetTid k s) := hs.askPldm_keeps _ _ _ _

theorem execSetTid_keeps {s : State} (hs : s.Kept) (k : Mctp) (tid : Byte) : keepsState (execSetTid k tid s) :=
  hs.onBoth_keeps fun _ hp => keptBoth_takePldm hp fun _ hq => by
    have hlog := hq.1
    split <;> exact ⟨hlog, by simp [hq.2]⟩

theorem execGetPldmVersion_keeps {s : State} (hs : s.Kept) (k : Mctp) (type : Nat) : keepsState (execGetPldmVersion k type s) :=
  hs.askPldm_keeps _ _ _ _

theorem execGetPldmTypes_keeps {s : State} (hs : s.Kept) (k : Mctp) : keepsState (execGetPldmTypes k s) := hs.askPldm_keeps _ _ _ _

theorem execGetPldmCommands_keeps {s : State} (hs : s.Kept) (k : Mctp) (type : Nat) :
    keepsState (execGetPldmCommands k type s) := hs.askPldm_keeps _ _ _ _

theorem execSetEventReceiver_keeps {s : State} (hs : s.Kept) (k : Mctp) (on : Bool) :
    keepsState (execSetEventReceiver k on s) := hs.onBoth_keeps fun _ hp => keptBoth_takePldm hp fun _ hq => ⟨hq.1, by simp [hq.2]⟩

theorem execGetPdrRepositoryInfo_keeps {s : State} (hs : s.Kept) (k : Mctp) : keepsState (execGetPdrRepositoryInfo k s) :=
  hs.askPldm_keeps _ _ _ _

theorem execGetPdr_keeps {s : State} (hs : s.Kept) (k : Mctp) (i : Nat) : keepsState (execGetPdr k i s) := hs.askPldm_keeps _ _ _ _

theorem execGetSensorReading_keeps {s : State} (hs : s.Kept) (k : Mctp) (i : Nat) (late : Bool) :
    keepsState (execGetSensorReading k i late s) := hs.askPldm_keeps _ _ _ _

theorem execGetStateSensorReadings_keeps {s : State} (hs : s.Kept) (k : Mctp) (i : Nat) (late : Bool) :
    keepsState (execGetStateSensorReadings k i late s) := hs.askPldm_keeps _ _ _ _

theorem execGetNumericEffecterValue_keeps {s : State} (hs : s.Kept) (k : Mctp) (late : Bool) :
    keepsState (execGetNumericEffecterValue k late s) := hs.askPldm_keeps _ _ _ _

theorem execSetNumericEffecterValue_keeps {s : State} (hs : s.Kept) (k : Mctp) (v : Nat) (gen : W64) :
    keepsState (execSetNumericEffecterValue k v gen s) :=
  hs.onBoth_keeps fun _ hp => keptBoth_takePldm hp fun _ hq => keptBoth_setEffecter hq _ _ _

theorem execQueryDeviceIdentifiers_keeps {s : State} (hs : s.Kept) (k : Mctp) : keepsState (execQueryDeviceIdentifiers k s) :=
  hs.onBoth_keeps fun _ hp => keptBoth_takePldm hp fun _ hq => ⟨hq.1, by simp [hq.2]⟩

theorem execGetFirmwareParameters_keeps {s : State} (hs : s.Kept) (k : Mctp) : keepsState (execGetFirmwareParameters k s) :=
  hs.askPldm_keeps _ _ _ _

theorem execRequestUpdate_keeps {s : State} (hs : s.Kept) (k : Mctp) : keepsState (execRequestUpdate k s) :=
  hs.onBoth_keeps fun _ hp => keptBoth_takePldm hp fun _ hq => keptBoth_requestUpdate hq _

theorem execPassComponentTable_keeps {s : State} (hs : s.Kept) (k : Mctp) (id : Nat) :
    keepsState (execPassComponentTable k id s) :=
  hs.onBoth_keeps fun _ hp => keptBoth_takePldm hp fun _ hq => keptBoth_passTable hq _ _

theorem execUpdateComponent_keeps {s : State} (hs : s.Kept) (k : Mctp) (id len : Nat) :
    keepsState (execUpdateComponent k id len s) :=
  hs.onBoth_keeps fun _ hp => keptBoth_takePldm hp fun _ hq => keptBoth_updateComponent hq _ _ _

theorem execFirmwareDataResponse_keeps {s : State} (hs : s.Kept) (k : Mctp) (d : List Byte) :
    keepsState (execFirmwareDataResponse k d s) :=
  hs.onBoth_keeps fun _ hp => keptBoth_takeMsg hp fun _ hq => keptBoth_dataResponse hq _

theorem execVerifyComplete_keeps {s : State} (hs : s.Kept) : keepsState (execVerifyComplete s) :=
  hs.onBoth_keeps fun _ hp => by
    split
    · exact keptBoth_verifyComplete hp
    · exact hp

theorem execActivateFirmware_keeps {s : State} (hs : s.Kept) (k : Mctp) (selfContained : Bool) :
    keepsState (execActivateFirmware k selfContained s) :=
  hs.onBoth_keeps fun _ hp => keptBoth_takePldm hp fun _ hq => keptBoth_activate hq _ _

theorem execGetStatus_keeps {s : State} (hs : s.Kept) (k : Mctp) : keepsState (execGetStatus k s) := hs.askPldm_keeps _ _ _ _

theorem execCancelUpdateComponent_keeps {s : State} (hs : s.Kept) (k : Mctp) : keepsState (execCancelUpdateComponent k s) :=
  hs.onBoth_keeps fun _ hp => keptBoth_takePldm hp fun _ hq => keptBoth_cancelComponent hq _

theorem execCancelUpdate_keeps {s : State} (hs : s.Kept) (k : Mctp) : keepsState (execCancelUpdate k s) :=
  hs.onBoth_keeps fun _ hp => keptBoth_takePldm hp fun _ hq =>
    keptBoth_inState hq fun _ _ hr => ⟨hr.1, by simp [hr.2]⟩

theorem execGetVersion_keeps {s : State} (hs : s.Kept) (k : Mctp) : keepsState (execGetVersion k s) :=
  hs.onBoth_keeps fun _ hp => keptBoth_takeMsg hp fun _ hq => ⟨hq.1, by simp [hq.2]⟩

theorem execGetCapabilities_keeps {s : State} (hs : s.Kept) (k : Mctp) : keepsState (execGetCapabilities k s) :=
  hs.onBoth_keeps fun _ hp => keptBoth_takeMsg hp fun _ hq => keptBoth_spdmAfter hq fun _ hr => ⟨hr.1, by simp [hr.2]⟩

theorem execNegotiateAlgorithms_keeps {s : State} (hs : s.Kept) (k : Mctp) (offer : Bool) :
    keepsState (execNegotiateAlgorithms k offer s) :=
  hs.onBoth_keeps fun _ hp => keptBoth_takeMsg hp fun _ hq => keptBoth_spdmAfter hq fun _ hr => ⟨hr.1, by simp [hr.2]⟩

theorem execGetDigests_keeps {s : State} (hs : s.Kept) (k : Mctp) : keepsState (execGetDigests k s) :=
  hs.onBoth_keeps fun _ hp => keptBoth_takeMsg hp fun _ hq => keptBoth_spdmAfter hq fun _ hr => ⟨hr.1, by simp [hr.2]⟩

theorem execGetCertificate_keeps {s : State} (hs : s.Kept) (k : Mctp) (slot off len : Nat) :
    keepsState (execGetCertificate k slot off len s) :=
  hs.onBoth_keeps fun _ hp => keptBoth_takeMsg hp fun _ hq => keptBoth_spdmAfter hq fun _ hr => ⟨hr.1, by simp [hr.2]⟩

theorem execChallenge_keeps {s : State} (hs : s.Kept) (k : Mctp) (slot : Nat) (cut : Bool) :
    keepsState (execChallenge k slot cut s) :=
  hs.onBoth_keeps fun _ hp => keptBoth_takeMsg hp fun _ hq => keptBoth_spdmAfter hq fun _ hr => by
    split
    · exact keptBoth_signMsg hr _ _ _
    · exact ⟨hr.1, by simp [hr.2]⟩

theorem execGetMeasurements_keeps {s : State} (hs : s.Kept) (k : Mctp) (i : Nat) (signed cut : Bool) :
    keepsState (execGetMeasurements k i signed cut s) :=
  hs.onBoth_keeps fun _ hp => keptBoth_takeMsg hp fun _ hq => keptBoth_spdmAfter hq fun _ hr => by
    split
    · exact ⟨hr.1, by simp [hr.2]⟩
    · split
      · exact keptBoth_signMsg hr _ _ _
      · exact ⟨hr.1, by simp [hr.2]⟩

theorem execBottomTreeReady_keeps {s : State} (hs : s.Kept) : keepsState (execBottomTreeReady s) :=
  hs.onChipWith_keeps fun _ _ hm => by simp [hm]

theorem execBypass_keeps {s : State} (hs : s.Kept) : keepsState (execBypass s) := hs.tapRow_keeps _ _ fun _ hp => hp

theorem execIdcode_keeps {s : State} (hs : s.Kept) : keepsState (execIdcode s) :=
  hs.tapRow_keeps _ _ fun _ hp => ⟨hp.1, by simp [hp.2]⟩

theorem execSamplePreload_keeps {s : State} (hs : s.Kept) : keepsState (execSamplePreload s) :=
  hs.tapRow_keeps _ _ fun _ hp => ⟨hp.1, by simp [hp.2]⟩

theorem execExtest_keeps {s : State} (hs : s.Kept) : keepsState (execExtest s) := hs.tapRow_keeps _ _ fun _ hp => hp

theorem execClamp_keeps {s : State} (hs : s.Kept) : keepsState (execClamp s) := hs.tapRow_keeps _ _ fun _ hp => hp

theorem execHighz_keeps {s : State} (hs : s.Kept) : keepsState (execHighz s) := hs.tapRow_keeps _ _ fun _ hp => hp

theorem execDbgToken_keeps {s : State} (hs : s.Kept) (t : List Byte) : keepsState (execDbgToken t s) :=
  hs.tapRow_keeps _ _ fun _ hp => by
    split
    · exact ⟨hp.1, by simp [hp.2]⟩
    · exact hp

theorem execTapDbgNonce_keeps {s : State} (hs : s.Kept) : keepsState (execTapDbgNonce s) :=
  hs.tapRow_keeps _ _ fun _ hp => by
    split
    · exact ⟨hp.1, by simp [hp.2]⟩
    · exact hp

theorem execDbgAccess_keeps {s : State} (hs : s.Kept) (a : RegAcc) : keepsState (execDbgAccess a s) :=
  hs.tapRow_keeps _ _ fun _ hp => by
    cases a with
    | read _ off size => exact ⟨hp.1, by simp [hp.2]⟩
    | write w => exact keptBoth_regWrite hp _

theorem execDbgReset_keeps {s : State} (hs : s.Kept) : keepsState (execDbgReset s) :=
  hs.tapRow_keeps _ _ fun _ hp => ⟨hp.1, by simp [hp.2]⟩

/-! ### Rows: posted writes -/

theorem execInvalAccept_keeps {s : State} (hs : s.Kept) : keepsState (execInvalAccept s) :=
  hs.onBoth_keeps fun _ hp => keptBoth_postedAll ⟨hp.1, by simp [hp.2]⟩

/-! ### Every step -/

theorem exec_keeps {s : State} (hs : s.Kept) : ∀ i : Instr, keepsState (exec i s)
  | .vstby33Rise => execVstby33Rise_keeps hs
  | .vstby33Fall => execVstby33Fall_keeps hs
  | .porRelease => execPorRelease_keeps hs
  | .mainPowerGood mv => execMainPowerGood_keeps hs mv
  | .hubRailsUp fail => execHubRailsUp_keeps hs fail
  | .ostlerImageVerify a b => execOstlerImageVerify_keeps hs a b
  | .coolantCheck => execCoolantCheck_keeps hs
  | .coolFail => execCoolFail_keeps hs
  | .railRampDone fail => execRailRampDone_keeps hs fail
  | .hbmTrainingDone fail => execHbmTrainingDone_keeps hs fail
  | .rakeRelease => execRakeRelease_keeps hs
  | .moduleReady => execModuleReady_keeps hs
  | .perst0Assert => execPerst0Assert_keeps hs
  | .moduleResetRelease => execModuleResetRelease_keeps hs
  | .perst0Deassert => execPerst0Deassert_keeps hs
  | .perst1Change high => execPerst1Change_keeps hs high
  | .hostLinkTrain l => execHostLinkTrain_keeps hs l
  | .refclkSwitch present => execRefclkSwitch_keeps hs present
  | .jtagTrst high => execJtagTrst_keeps hs high
  | .ostlerWatchdog => execOstlerWatchdog_keeps hs
  | .ostlerBoot a b => execOstlerBoot_keeps hs a b
  | .snap l => execSnap_keeps hs l
  | .moduleReset l => execModuleReset_keeps hs l
  | .rakeReset l => execRakeReset_keeps hs l
  | .ostlerReset l => execOstlerReset_keeps hs l
  | .registerWrite w => execRegisterWrite_keeps hs w
  | .commandEnd p => execCommandEnd_keeps hs p
  | .evtEnableWrite w => execEvtEnableWrite_keeps hs w
  | .errPop w => execErrPop_keeps hs w
  | .discard w => execDiscard_keeps hs w
  | .chockRelease w => execChockRelease_keeps hs w
  | .readToClear m off size => execReadToClear_keeps hs m off size
  | .lit x _ => hs.insn_keeps x _
  | .nop x => hs.insn_keeps x _
  | .litw x => hs.insn_keeps x _
  | .drop x => hs.insn_keeps x _
  | .dup x => hs.insn_keeps x _
  | .swap x => hs.insn_keeps x _
  | .over x => hs.insn_keeps x _
  | .rot x => hs.insn_keeps x _
  | .nip x => hs.insn_keeps x _
  | .tuck x => hs.insn_keeps x _
  | .pick x => hs.insn_keeps x _
  | .drop2 x => hs.insn_keeps x _
  | .dup2 x => hs.insn_keeps x _
  | .swap2 x => hs.insn_keeps x _
  | .depth x => hs.insn_keeps x _
  | .tor x => hs.insn_keeps x _
  | .fromr x => hs.insn_keeps x _
  | .rfetch x => hs.insn_keeps x _
  | .rdepth x => hs.insn_keeps x _
  | .add x => hs.insn_keeps x _
  | .adc x => hs.insn_keeps x _
  | .sub x => hs.insn_keeps x _
  | .sbb x => hs.insn_keeps x _
  | .neg x => hs.insn_keeps x _
  | .inc x => hs.insn_keeps x _
  | .dec x => hs.insn_keeps x _
  | .mul x => hs.insn_keeps x _
  | .muls x => hs.insn_keeps x _
  | .udivmod x => hs.insn_keeps x _
  | .and_ x => hs.insn_keeps x _
  | .or_ x => hs.insn_keeps x _
  | .xor x => hs.insn_keeps x _
  | .not_ x => hs.insn_keeps x _
  | .shl x => hs.insn_keeps x _
  | .shr x => hs.insn_keeps x _
  | .sar x => hs.insn_keeps x _
  | .rol x => hs.insn_keeps x _
  | .eq x => hs.insn_keeps x _
  | .ne x => hs.insn_keeps x _
  | .ltu x => hs.insn_keeps x _
  | .lts x => hs.insn_keeps x _
  | .geu x => hs.insn_keeps x _
  | .ges x => hs.insn_keeps x _
  | .zeq x => hs.insn_keeps x _
  | .rdsr x _ => hs.insn_keeps x _
  | .wrsr x _ => hs.insn_keeps x _
  | .cnt x => hs.insn_keeps x _
  | .fetch x => hs.insn_keeps x _
  | .store x => hs.insn_keeps x _
  | .fetchp x => hs.insn_keeps x _
  | .storep x => hs.insn_keeps x _
  | .fetch4 x => hs.insn_keeps x _
  | .store4 x => hs.insn_keeps x _
  | .br x => hs.insn_keeps x _
  | .bz x => hs.insn_keeps x _
  | .bnz x => hs.insn_keeps x _
  | .call x => hs.insn_keeps x _
  | .ret x => hs.insn_keeps x _
  | .brx x => hs.insn_keeps x _
  | .callx x => hs.insn_keeps x _
  | .loop x => hs.insn_keeps x _
  | .endloop x => hs.insn_keeps x _
  | .lpush x => hs.insn_keeps x _
  | .lpop x => hs.insn_keeps x _
  | .waitev x => hs.insn_keeps x _
  | .sendev x => hs.insn_keeps x _
  | .eventDeliver n => execEventDeliver_keeps hs n
  | .waituntil x => hs.insn_keeps x _
  | .waituntilExpire x => execWaituntilExpire_keeps hs x
  | .waitRelease x => execWaitRelease_keeps hs x
  | .evpoll x => hs.insn_keeps x _
  | .evpeek x => hs.insn_keeps x _
  | .evclr x => hs.insn_keeps x _
  | .syscall x _ => hs.insn_keeps x _
  | .sysret x => hs.insn_keeps x _
  | .tret x => hs.insn_keeps x _
  | .brake x => hs.insn_keeps x _
  | .unbrake x => hs.insn_keeps x _
  | .setmode x => hs.insn_keeps x _
  | .tstable x => hs.insn_keeps x _
  | .vclaim x => execVclaim_keeps hs x
  | .vclaimGrant c => execVclaimGrant_keeps hs c
  | .vclaimLimitExpire c aft hi => execVclaimLimitExpire_keeps hs c aft hi
  | .vrel x => execVrel_keeps hs x
  | .trapEntry x hi => execTrapEntry_keeps hs x hi
  | .intPendSet p => execIntPendSet_keeps hs p
  | .cmpMatch x => execCmpMatch_keeps hs x
  | .brakeLimitExpire x => execBrakeLimitExpire_keeps hs x
  | .hubStop x hi => execHubStop_keeps hs x hi
  | .start c l => execStart_keeps hs c l
  | .stop c l => execStop_keeps hs c l
  | .vflush c l => execVflush_keeps hs c l
  | .evSet w => execEvSet_keeps hs w
  | .cmData a => execCmData_keeps hs a
  | .vsetvl x => hs.vinsn_keeps x _ _
  | .vsettype x => hs.vinsn_keeps x _ _
  | .vsetctl x => hs.vinsn_keeps x _ _
  | .vsetaccs x => hs.vinsn_keeps x _ _
  | .vfadd x _ => hs.vinsn_keeps x _ _
  | .vfsub x _ => hs.vinsn_keeps x _ _
  | .vfmul x _ => hs.vinsn_keeps x _ _
  | .vfmin x _ => hs.vinsn_keeps x _ _
  | .vfmax x _ => hs.vinsn_keeps x _ _
  | .vfma x _ => hs.vinsn_keeps x _ _
  | .vfms x _ => hs.vinsn_keeps x _ _
  | .vfnma x _ => hs.vinsn_keeps x _ _
  | .vfsgnj x _ => hs.vinsn_keeps x _ _
  | .vfabs x => hs.vinsn_keeps x _ _
  | .vfneg x => hs.vinsn_keeps x _ _
  | .vfrece x => hs.vinsn_keeps x _ _
  | .vfrsqe x => hs.vinsn_keeps x _ _
  | .vfrecs x _ => hs.vinsn_keeps x _ _
  | .vfrsqs x _ => hs.vinsn_keeps x _ _
  | .vadd x _ => hs.vinsn_keeps x _ _
  | .vsub x _ => hs.vinsn_keeps x _ _
  | .vmul x _ => hs.vinsn_keeps x _ _
  | .vmulh x _ => hs.vinsn_keeps x _ _
  | .vmin x _ => hs.vinsn_keeps x _ _
  | .vmax x _ => hs.vinsn_keeps x _ _
  | .vand x _ => hs.vinsn_keeps x _ _
  | .vor x _ => hs.vinsn_keeps x _ _
  | .vxor x _ => hs.vinsn_keeps x _ _
  | .vshl x _ => hs.vinsn_keeps x _ _
  | .vshr x _ => hs.vinsn_keeps x _ _
  | .vpopc x => hs.vinsn_keeps x _ _
  | .vcvt x => hs.vinsn_keeps x _ _
  | .vrescale x => hs.vinsn_keeps x _ _
  | .vcadd x => hs.vinsn_keeps x _ _
  | .vmv x => hs.vinsn_keeps x _ _
  | .vbcast x => hs.vinsn_keeps x _ _
  | .vmerge x => hs.vinsn_keeps x _ _
  | .vmeq x _ => hs.vinsn_keeps x _ _
  | .vmne x _ => hs.vinsn_keeps x _ _
  | .vmlt x _ => hs.vinsn_keeps x _ _
  | .vmle x _ => hs.vinsn_keeps x _ _
  | .vmgt x _ => hs.vinsn_keeps x _ _
  | .vmge x _ => hs.vinsn_keeps x _ _
  | .vfsumo x => hs.vinsn_keeps x _ _
  | .vfsumt x => hs.vinsn_keeps x _ _
  | .vxsum x => hs.vinsn_keeps x _ _
  | .vxdot x => hs.vinsn_keeps x _ _
  | .vfmaxr x => hs.vinsn_keeps x _ _
  | .vfminr x => hs.vinsn_keeps x _ _
  | .visum x => hs.vinsn_keeps x _ _
  | .vimaxr x => hs.vinsn_keeps x _ _
  | .viminr x => hs.vinsn_keeps x _ _
  | .vandr x => hs.vinsn_keeps x _ _
  | .vorr x => hs.vinsn_keeps x _ _
  | .vxorr x => hs.vinsn_keeps x _ _
  | .vcompress x => hs.vinsn_keeps x _ _
  | .vexpand x => hs.vinsn_keeps x _ _
  | .viota x => hs.vinsn_keeps x _ _
  | .vid x => hs.vinsn_keeps x _ _
  | .vrgather x => hs.vinsn_keeps x _ _
  | .vslideup x => hs.vinsn_keeps x _ _
  | .vslidedn x => hs.vinsn_keeps x _ _
  | .vins x => hs.vinsn_keeps x _ _
  | .vext x => hs.vinsn_keeps x _ _
  | .vexth x => hs.vinsn_keeps x _ _
  | .vrdcfg x => hs.vinsn_keeps x _ _
  | .vmand x => hs.vinsn_keeps x _ _
  | .vmor x => hs.vinsn_keeps x _ _
  | .vmxor x => hs.vinsn_keeps x _ _
  | .vmandn x => hs.vinsn_keeps x _ _
  | .vmnot x => hs.vinsn_keeps x _ _
  | .vmset x => hs.vinsn_keeps x _ _
  | .vmclr x => hs.vinsn_keeps x _ _
  | .vmmv x => hs.vinsn_keeps x _ _
  | .vmpop x => hs.vinsn_keeps x _ _
  | .vmfirst x => hs.vinsn_keeps x _ _
  | .vldr x => hs.vinsn_keeps x _ _
  | .vstr x => hs.vinsn_keeps x _ _
  | .vld x => hs.vinsn_keeps x _ _
  | .vst x => hs.vinsn_keeps x _ _
  | .vlds x => hs.vinsn_keeps x _ _
  | .vsts x => hs.vinsn_keeps x _ _
  | .vldx x => hs.vinsn_keeps x _ _
  | .vstx x => hs.vinsn_keeps x _ _
  | .vecEntryStart c => execVecEntryStart_keeps hs c
  | .vecElementResponse c idx => execVecElementResponse_keeps hs c idx
  | .vecEntryComplete c mem cycles replays third => execVecEntryComplete_keeps hs c mem cycles replays third
  | .vzero c l => execVzero_keeps hs c l
  | .vregData a => execVregData_keeps hs a
  | .missue x => execMissue_keeps hs x
  | .mwait x => hs.insn_keeps x _
  | .mstat x => hs.insn_keeps x _
  | .matrixEntryStart c half => execMatrixEntryStart_keeps hs c half
  | .matrixPrepare c half rows => execMatrixPrepare_keeps hs c half rows
  | .matrixEntryClose c half mismatch => execMatrixEntryClose_keeps hs c half mismatch
  | .matrixEntryCommit c half mismatch => execMatrixEntryCommit_keeps hs c half mismatch
  | .mtxModeChange c => execMtxModeChange_keeps hs c
  | .clear idx l => execClear_keeps hs idx l
  | .drgo x => execDrgo_keeps hs x
  | .drwait x => hs.insn_keeps x _
  | .drstat x => hs.insn_keeps x _
  | .drayDescStart c k => execDrayDescStart_keeps hs c k
  | .drayBurstIssue c k wr n => execDrayBurstIssue_keeps hs c k wr n
  | .drayDescComplete c k => execDrayDescComplete_keeps hs c k
  | .cmemFabricAccess w cls a n d => execCmemFabricAccess_keeps hs w cls a n d
  | .partWrite w => execPartWrite_keeps hs w
  | .qpower c l => execQpower_keeps hs c l
  | .quarterReady c q => execQuarterReady_keeps hs c q
  | .zero c l => execZero_keeps hs c l
  | .bufzero c l => execBufzero_keeps hs c l
  | .obufData a => execObufData_keeps hs a
  | .depotAccess w cls a n d noalloc parity => execDepotAccess_keeps hs w cls a n d noalloc parity
  | .depotLineFill idx l => execDepotLineFill_keeps hs idx l
  | .split idx l => execSplit_keeps hs idx l
  | .writebackRaise idx => execWritebackRaise_keeps hs idx
  | .flush idx l => execFlush_keeps hs idx l
  | .flushInval idx l => execFlushInval_keeps hs idx l
  | .hbmRead w a fails scrub => execHbmRead_keeps hs w a fails scrub
  | .hbmWrite w a d fails => execHbmWrite_keeps hs w a d fails
  | .scrub idx l => execScrub_keeps hs idx l
  | .patrolStart idx => execPatrolStart_keeps hs idx
  | .freightDrayGrant => execFreightDrayGrant_keeps hs
  | .freightJobEnd id => execFreightJobEnd_keeps hs id
  | .pageWalk r => execPageWalk_keeps hs r
  | .walkReadResponse r id => execWalkReadResponse_keeps hs r id
  | .outriderWalk c k => execOutriderWalk_keeps hs c k
  | .faultRecordWrite => execFaultRecordWrite_keeps hs
  | .faultQEnable w => execFaultQEnable_keeps hs w
  | .resolve l => execResolve_keeps hs l
  | .invalMulticast l a bytes => execInvalMulticast_keeps hs l a bytes
  | .descIn w => execDescIn_keeps hs w
  | .invalAccept => execInvalAccept_keeps hs
  | .drainRaise => execDrainRaise_keeps hs
  | .invalCompletion => execInvalCompletion_keeps hs
  | .doorbell w => execDoorbell_keeps hs w
  | .qctlEnable w => execQctlEnable_keeps hs w
  | .entryTake q w => execEntryTake_keeps hs q w
  | .taskEntry h => execTaskEntry_keeps hs h
  | .xferEntry => execXferEntry_keeps hs
  | .postEntry => execPostEntry_keeps hs
  | .endEntry => execEndEntry_keeps hs
  | .migrateEntry => execMigrateEntry_keeps hs
  | .adviseEntry => execAdviseEntry_keeps hs
  | .taskPlace => execTaskPlace_keeps hs
  | .taskDispatch x => execTaskDispatch_keeps hs x
  | .taskSwitch => execTaskSwitch_keeps hs
  | .sliceExpire x => execSliceExpire_keeps hs x
  | .sideTask => execSideTask_keeps hs
  | .vlimitSwitch c => execVlimitSwitch_keeps hs c
  | .ctxDone w => execCtxDone_keeps hs w
  | .taskEnd h => execTaskEnd_keeps hs h
  | .endTask l => execEnd_keeps hs l
  | .fence l => execFence_keeps hs l
  | .unfence l => execUnfence_keeps hs l
  | .relocateGroup c => execRelocateGroup_keeps hs c
  | .configRequest f w => execConfigRequest_keeps hs f w
  | .hostBar2Access f a n d => execHostBar2Access_keeps hs f a n d
  | .hostCompletion id data err => execHostCompletion_keeps hs id data err
  | .hostCompletionTimeout id => execHostCompletionTimeout_keeps hs id
  | .linkReset l => execLinkReset_keeps hs l
  | .hostLinkUp l gen width flit => execHostLinkUp_keeps hs l gen width flit
  | .hostHoldExpire l id => execHostHoldExpire_keeps hs l id
  | .selfanWrite p f => execSelfanWrite_keeps hs p f
  | .selfanRead p f => execSelfanRead_keeps hs p f
  | .selfanWriteRsp p f => execSelfanWriteRsp_keeps hs p f
  | .selfanReadRsp p f => execSelfanReadRsp_keeps hs p f
  | .linkControlFlit p nak lseq credits good => execLinkControlFlit_keeps hs p nak lseq credits good
  | .replayTimeout p => execReplayTimeout_keeps hs p
  | .ethernetFrame p etype dst fcs b => execEthernetFrame_keeps hs p etype dst fcs b
  | .ethReplayTimeout n => execEthReplayTimeout_keeps hs n
  | .portLockLoss p => execPortLockLoss_keeps hs p
  | .couplingTimeout n wr tag => execCouplingTimeout_keeps hs n wr tag
  | .notifyDeliver id => execNotifyDeliver_keeps hs id
  | .coupleEntryWrite w => execCoupleEntryWrite_keeps hs w
  | .train p l => execTrain_keeps hs p l
  | .down p l => execDown_keeps hs p l
  | .linkTrainDone p ok seen => execLinkTrainDone_keeps hs p ok seen
  | .stageTimerExpire => execStageTimerExpire_keeps hs
  | .stagingPost => execStagingPost_keeps hs
  | .postQuiesced => execPostQuiesced_keeps hs
  | .postCommit => execPostCommit_keeps hs
  | .postQuiesceTimeout => execPostQuiesceTimeout_keeps hs
  | .postRetry => execPostRetry_keeps hs
  | .logOverflow => execLogOverflow_keeps hs
  | .recoveryEvent d => execRecoveryEvent_keeps hs d
  | .levelARepairDone => execLevelARepairDone_keeps hs
  | .rollbackStop => execRollbackStop_keeps hs
  | .rollbackRestore => execRollbackRestore_keeps hs
  | .rollbackRestart => execRollbackRestart_keeps hs
  | .reexecDataApply => execReexecDataApply_keeps hs
  | .diverge h => execDiverge_keeps hs h
  | .reexecEnd => execReexecEnd_keeps hs
  | .arm l => execArm_keeps hs l
  | .disarm l => execDisarm_keeps hs l
  | .post l => execPost_keeps hs l
  | .rollback l => execRollback_keeps hs l
  | .abandon l => execAbandon_keeps hs l
  | .register l => execRegister_keeps hs l
  | .release l => execRelease_keeps hs l
  | .governorAllocate p => execGovernorAllocate_keeps hs p
  | .rakeLoop r mw => execRakeLoop_keeps hs r mw
  | .sagWarning n mv => execSagWarning_keeps hs n mv
  | .sagClear => execSagClear_keeps hs
  | .supplyReset n mv => execSupplyReset_keeps hs n mv
  | .thermalSample t => execThermalSample_keeps hs t
  | .leakStop => execLeakStop_keeps hs
  | .stopReset => execStopReset_keeps hs
  | .flowUpdate pulses => execFlowUpdate_keeps hs pulses
  | .demandUpdate max100 p1ms => execDemandUpdate_keeps hs max100 p1ms
  | .cduInletRead t => execCduInletRead_keeps hs t
  | .cduDemandWrite ok => execCduDemandWrite_keeps hs ok
  | .cduStatusWrite ok => execCduStatusWrite_keeps hs ok
  | .setEndpointId k eid => execSetEndpointId_keeps hs k eid
  | .getEndpointId k => execGetEndpointId_keeps hs k
  | .getEndpointUuid k => execGetEndpointUuid_keeps hs k
  | .getMctpVersionSupport k => execGetMctpVersionSupport_keeps hs k
  | .getMessageTypeSupport k => execGetMessageTypeSupport_keeps hs k
  | .setdasa a => execSetdasa_keeps hs a
  | .entdaa a => execEntdaa_keeps hs a
  | .getTid k => execGetTid_keeps hs k
  | .setTid k tid => execSetTid_keeps hs k tid
  | .getPldmVersion k type => execGetPldmVersion_keeps hs k type
  | .getPldmTypes k => execGetPldmTypes_keeps hs k
  | .getPldmCommands k type => execGetPldmCommands_keeps hs k type
  | .setEventReceiver k on => execSetEventReceiver_keeps hs k on
  | .getPdrRepositoryInfo k => execGetPdrRepositoryInfo_keeps hs k
  | .getPdr k idx => execGetPdr_keeps hs k idx
  | .getSensorReading k idx late => execGetSensorReading_keeps hs k idx late
  | .getStateSensorReadings k idx late => execGetStateSensorReadings_keeps hs k idx late
  | .setNumericEffecterValue k v gen => execSetNumericEffecterValue_keeps hs k v gen
  | .getNumericEffecterValue k late => execGetNumericEffecterValue_keeps hs k late
  | .queryDeviceIdentifiers k => execQueryDeviceIdentifiers_keeps hs k
  | .getFirmwareParameters k => execGetFirmwareParameters_keeps hs k
  | .requestUpdate k => execRequestUpdate_keeps hs k
  | .passComponentTable k id => execPassComponentTable_keeps hs k id
  | .updateComponent k id len => execUpdateComponent_keeps hs k id len
  | .firmwareDataResponse k d => execFirmwareDataResponse_keeps hs k d
  | .activateFirmware k selfContained => execActivateFirmware_keeps hs k selfContained
  | .getStatus k => execGetStatus_keeps hs k
  | .cancelUpdateComponent k => execCancelUpdateComponent_keeps hs k
  | .cancelUpdate k => execCancelUpdate_keeps hs k
  | .getVersion k => execGetVersion_keeps hs k
  | .getCapabilities k => execGetCapabilities_keeps hs k
  | .negotiateAlgorithms k offer => execNegotiateAlgorithms_keeps hs k offer
  | .getDigests k => execGetDigests_keeps hs k
  | .getCertificate k slot off len => execGetCertificate_keeps hs k slot off len
  | .challenge k slot cut => execChallenge_keeps hs k slot cut
  | .getMeasurements k idx signed cut => execGetMeasurements_keeps hs k idx signed cut
  | .bottomTreeReady => execBottomTreeReady_keeps hs
  | .getInfo l => execGetInfo_keeps hs l
  | .fwBegin l => execFwBegin_keeps hs l
  | .fwWrite l => execFwWrite_keeps hs l
  | .fwVerify l => execFwVerify_keeps hs l
  | .fwActivate l => execFwActivate_keeps hs l
  | .arbCommit l => execArbCommit_keeps hs l
  | .cfgRead l => execCfgRead_keeps hs l
  | .cfgWrite l => execCfgWrite_keeps hs l
  | .logRead l => execLogRead_keeps hs l
  | .dbgNonce l => execDbgNonce_keeps hs l
  | .dbgUnlock l => execDbgUnlock_keeps hs l
  | .dbgLock l => execDbgLock_keeps hs l
  | .bypass => execBypass_keeps hs
  | .idcode => execIdcode_keeps hs
  | .samplePreload => execSamplePreload_keeps hs
  | .extest => execExtest_keeps hs
  | .clamp => execClamp_keeps hs
  | .highz => execHighz_keeps hs
  | .dbgToken t => execDbgToken_keeps hs t
  | .tapDbgNonce => execTapDbgNonce_keeps hs
  | .dbgAccess a => execDbgAccess_keeps hs a
  | .dbgReset => execDbgReset_keeps hs
  | .leakClear => execLeakClear_keeps hs
  | .drayBurstResponse c k u idx => execDrayBurstResponse_keeps hs c k u idx
  | .matrixFillEnd c half cycles => execMatrixFillEnd_keeps hs c half cycles
  | .supplyWarningClears n mv => execSupplyWarningClears_keeps hs n mv
  | .refclkLoss which present => execRefclkLoss_keeps hs which present
  | .verifyComplete => execVerifyComplete_keeps hs

/-- A step without a command (the clocks, and what the ostler writes to the event log). -/
theorem State.Kept.idle {s : State} (hs : s.Kept) :
    State.Kept { s with nvm := (drainLog s.nvm s.chip.idle).1, chip := (drainLog s.nvm s.chip.idle).2 } := by
  obtain ⟨hlog, hchip⟩ := (state_kept_iff s).mp hs
  have hboth := keptBoth_drainLog (p := (s.nvm, s.chip.idle)) ⟨hlog, hchip.idle⟩
  rw [state_kept_iff]
  dsimp only at hboth ⊢
  exact hboth

/-- What waits in the queue of commands is not bound. -/
theorem State.Kept.withPending {s : State} (hs : s.Kept) (l : List Instr) : State.Kept { s with pending := l } :=
  (state_kept_iff _).mpr ((state_kept_iff s).mp hs)

/-- Settles O60: each row of the model, and the step that no command asks for, keeps what the state must keep. -/
theorem stepKeepsFormsAndBounds : Obligations.StepKeepsFormsAndBounds := by
  unfold Obligations.StepKeepsFormsAndBounds
  intro s t hs e
  unfold step at e
  split at e
  · exact Host.Outcome.next.inj e ▸ hs.idle
  · next i rest _ => exact exec_keeps (hs.withPending rest) i t e

end Sys2Proof.Machine

/-! PROOFS. Instructions that change STATUS: BRAKE, UNBRAKE, TSTABLE, SETMODE, SYSCALL and the returns (R114, R123 to R126, R132, R138). -/
namespace Sys2Proof.Machine

section
variable {s : State} {x : Ctx} {b : Bank}

theorem statusOp_done {m : Chip} (hb : m.filledTo x 0 0 b) (f : Status → Status) : m.statusOp x f =
    .done b (m.ctx x).status.c (fun m => m.modCtx x fun k => k.setStatus (f k.status)) .seq :=
  withStacks_ok hb _

/-- A return sets STATUS and PC together, whatever the stacks hold. -/
theorem returnTo_raw {m : Chip} (hb : m.filledTo x 0 0 b) (pc : W16) (st : Status) : m.returnTo x pc st =
    .raw fun m => m.modCtx x fun k => { k.retire.setStatus st with pc := pc, stale := [] } :=
  withStacks_ok hb _

/-- An operation that sets all of its context takes effect as it says. -/
theorem raw_op {i : Sys2Proof.Instr} {o : Op} {upd : Chip → Chip} (h : Due s.chip x o) (he : exec i s = onChip (insn x (· == o)) s)
    (hs : ∀ n, o ≠ .syscall n) (hr : runOp o (s.chip.tallyBoundary x) x = .raw upd) :
    exec i s = .next (s.on (upd (s.chip.tallyBoundary x))) :=
  goes (p := (· == o)) h he (beq_self_eq_true o) hs hr

/-- SYSRET returns by SYS_RA with C, LVL and BRAKE of SYS_ST (R124). -/
theorem semSysret_eq (m : Chip) (x : Ctx) : semSysret m x =
    m.returnTo x (m.ctx x).sysRa
      { (m.ctx x).status with c := (Status.ofWord (m.ctx x).sysSt).c, lvl := (Status.ofWord (m.ctx x).sysSt).lvl,
                              brake := (Status.ofWord (m.ctx x).sysSt).brake } := rfl

/-- The pair that TRET returns by (R123). -/
theorem semTret_eq (m : Chip) (x : Ctx) : semTret m x =
    if (m.ctx x).status.df then m.returnTo x (m.ctx x).dfRa (Status.ofWord (m.ctx x).dfSt)
    else if (m.ctx x).status.tp then m.returnTo x (m.ctx x).trapRa (Status.ofWord (m.ctx x).trapSt)
    else m.returnTo x (m.ctx x).shdRa (Status.ofWord (m.ctx x).shdSt) := rfl

/-- SYSCALL of an enabled entry runs as any operation does (R125). -/
theorem planOf_syscall {m : Chip} {n : BitVec 4} (h : Due m x (.syscall n)) (hn : (m.ctx x).entryEn.getLsbD n.toNat = true) :
    (m.tallyBoundary x).planOf x = semSyscall n (m.tallyBoundary x) x := by
  obtain ⟨-, -, -, hword, hlegal, hallowed⟩ := h
  unfold Chip.planOf
  dsimp only
  rw [tally_ctx, tally_fetch, hword]
  simp only [hlegal, hallowed, hn]
  rfl

/-- The return address of a call in the loop's last word (R93, R122). -/
theorem loopNext_getD (b : Bank) (pc : W16) : (loopNext b b pc).getD (b, pc + 1) =
    (if b.lc ≠ 0 ∧ pc = b.le then { b with lc := b.lc - 1 } else b,
     if b.lc ≠ 0 ∧ pc = b.le then (if b.lc = 1 then b.le + 1 else b.ls) else pc + 1) := by
  unfold loopNext
  split
  · have hlast : b.lc - 1 ≠ 0 ↔ ¬ b.lc = 1 := not_congr sub_eq_zero
    simp only [Option.getD_some, hlast, ite_not]
  · rfl

theorem semSyscall_raw {m : Chip} (hb : m.filledTo x 0 0 b) (n : BitVec 4) : semSyscall n m x =
    .raw fun m => m.modCtx x fun k =>
      { Context.setStatus { k.retire.setBank (if b.lc ≠ 0 ∧ k.pc = b.le then { b with lc := b.lc - 1 } else b) with
          sysRa := if b.lc ≠ 0 ∧ k.pc = b.le then (if b.lc = 1 then b.le + 1 else b.ls) else k.pc + 1, sysSt := k.status.word }
        { k.status with lvl := true } with pc := k.entry[n.toNat], stale := [] } := by
  unfold semSyscall
  rw [withStacks_ok hb]
  simp only [loopNext_getD]

theorem syscall_enters {n : BitVec 4} (h : Due s.chip x (.syscall n)) (hn : (s.chip.ctx x).entryEn.getLsbD n.toNat = true)
    {upd : Chip → Chip} (hr : semSyscall n (s.chip.tallyBoundary x) x = .raw upd) :
    exec (.syscall x n) s = .next (s.on (upd (s.chip.tallyBoundary x))) := by
  show execSyscall x n s = _
  rw [execSyscall, onChip_eq, insn_due h (· == .syscall n) (beq_self_eq_true _), Chip.execute, planOf_syscall h hn, hr]
  rfl

/-- SETMODE to supervisor level completes (R138). -/
theorem semSetmode_raise {m : Chip} {w : W16} {t : List W16} (hb : m.filledTo x 1 0 b) (hd : b.ds = w :: t) (hw : w.toNat < 4)
    (hup : w.getLsbD 0 = true) : semSetmode m x = .done { b with ds := t } (m.ctx x).status.c
      (fun a => a.modCtx x fun k => k.setStatus { (m.ctx x).status with lvl := true, brake := w.getLsbD 1 }) .seq := by
  unfold semSetmode
  rw [withStacks_ok hb]
  simp only [hd, Nat.not_le.mpr hw, hup, if_false, Bool.not_true, Bool.false_and, Bool.false_eq_true, Bool.not_false]

/-- SETMODE to task level goes on at the physical word that follows (R138). -/
theorem semSetmode_lower {m : Chip} {w : W16} {t : List W16} (hb : m.filledTo x 1 0 b) (hd : b.ds = w :: t) (hw : w.toNat < 4)
    (hdown : w.getLsbD 0 = false) (hs : (m.ctx x).status.shadow = false) (hf : (m.ctx x).status.df = false) :
    semSetmode m x = .raw fun a => a.modCtx x fun k =>
      { (k.retire.setBank { b with ds := t }).setStatus { (m.ctx x).status with lvl := false, brake := w.getLsbD 1 } with
        pc := k.pc + 1 - k.cbase } := by
  unfold semSetmode
  rw [withStacks_ok hb]
  simp only [hd, Nat.not_le.mpr hw, hdown, hs, hf, if_false, if_true, Bool.not_false, Bool.or_self, Bool.and_false, Bool.false_eq_true,
    Bool.not_true]

end

/-- Settles O29: each row completes, or sets all of its context, as the plan of its operation says. -/
theorem modeChangesComplete : Obligations.ModeChangesComplete := by
  intro s x b m k c go back
  have hk : m.ctx x = k := tally_ctx _ x x
  refine ⟨fun hb => ?_, fun w t hb hd hdue hw => ?_⟩
  · have hset (f : Status → Status) := statusOp_done hb f
    have hret := returnTo_raw hb
    rw [hk] at hset
    refine ⟨fun hdue => ?_, fun hdue => ?_, fun hdue => ?_, fun n hdue hn => syscall_enters hdue hn (semSyscall_raw hb n),
      fun hdue => ?_, fun hdue => ?_⟩
    · exact completes_op hdue rfl nofun (hset fun st => { st with brake := true })
    · exact completes_op hdue rfl nofun (hset fun st => { st with brake := false })
    · exact completes_op hdue rfl nofun (hset fun st => { st with stable := true, df := false })
    · have hplan := semSysret_eq m x
      rw [hk] at hplan
      exact raw_op (i := .sysret x) hdue rfl nofun (hplan.trans (hret _ _))
    · have hplan := semTret_eq m x
      rw [hk] at hplan
      have htret {pc : W16} {st : Status} (h : semTret m x = m.returnTo x pc st) : exec (.tret x) s = .next (back pc st) :=
        raw_op (i := .tret x) hdue rfl nofun (h.trans (hret pc st))
      refine ⟨fun hdf => htret ?_, fun hdf htp => htret ?_, fun hdf htp => htret ?_⟩
      · rw [hplan, if_pos hdf]
      · rw [hplan, if_neg (by simp [hdf]), if_pos htp]
      · rw [hplan, if_neg (by simp [hdf]), if_neg (by simp [htp])]
  · refine ⟨fun hup => ?_, fun hdown hs hf => ?_⟩
    · have hplan := semSetmode_raise hb hd hw hup
      rw [hk] at hplan
      exact completes_op hdue rfl nofun hplan
    · have hplan := semSetmode_lower hb hd hw hdown (hk ▸ hs) (hk ▸ hf)
      rw [hk] at hplan
      exact raw_op (i := .setmode x) hdue rfl nofun hplan

end Sys2Proof.Machine

/-! PROOFS. A third fault resets its coach and leaves pending what a warning holds (R118, R129, R134). -/
namespace Sys2Proof.Machine

theorem syncCoach_coaches (m : Chip) (c : Nat) : (m.syncCoach c).coaches = m.coaches :=
  foldl_frame Chip.coaches Chip.syncRun _ (fun a p => (syncRun_frame a p).1) m

/-- The part after a third fault of `x`, before the sources that a warning holds are set again and the reset is reported. -/
def Chip.faultedBare (m : Chip) (x : Ctx) : Chip :=
  let m1 := m.modCoach x.coach fun c => { Coach.reset with dray := c.dray }
  let ids : List (BitVec 16) := [ctxId ⟨x.coach, false⟩, ctxId ⟨x.coach, true⟩]
  let lo := pageBase .coach x.coach.val
  let m2 := ((((Chip.resetPages { m1 with chocks := m1.chocks.filter fun h => !(ids.elem h.master) } lo (lo + 0x3000)).loseTasks
    x.coach).dropMisses ⟨x.coach, 0⟩).endJob (.vec x.coach.val))
  m2.setReg K.rstResetCause (F.rstResetCauseCoachId.put (F.rstResetCauseCoach.put (m2.reg K.rstResetCause) 1) x.coach.val)

theorem faultedBare_ctx (m : Chip) (x : Ctx) (aft : Bool) : (m.faultedBare x).ctx ⟨x.coach, aft⟩ = Context.reset := by
  have hcoach : (m.faultedBare x).coach x.coach = { Coach.reset with dray := (m.coach x.coach).dray } := coach_setCoach m _ _
  rw [Chip.ctx, hcoach]
  cases aft <;> rfl

theorem faultedBare_sourceHolds (m : Chip) (x : Ctx) (i : Nat) : (m.faultedBare x).sourceHolds i = m.sourceHolds i := by
  refine sourceHolds_congr ?_ i
  have hreset : K.pwrPwrStat ≠ K.rstResetCause := by decide
  have hout := pwrStat_outside x.coach
  unfold outside at hout
  unfold Chip.faultedBare
  dsimp only
  rw [reg_setReg_ne _ _ hreset]
  exact (reg_resetPages _ _ _ _).trans (if_neg (by omega))

/-- What the third fault reports changes no context. -/
theorem thirdFault_ctx (m : Chip) (x y : Ctx) : (m.thirdFault x).ctx y =
    (((m.faultedBare x).holdSources ⟨x.coach, false⟩).holdSources ⟨x.coach, true⟩).ctx y := by
  have hctx {a b : Chip} (h : a.coaches = b.coaches) : a.ctx y = b.ctx y := by
    unfold Chip.ctx Chip.coach; rw [h]
  refine hctx ?_
  unfold Chip.thirdFault
  dsimp only
  rw [syncCoach_coaches]
  exact logEvent_keeps _ _ (·.coaches) fun _ _ => rfl

/-- In a context that a third fault has reset, the sources that a warning holds are pending, and no other (R129, R134, R472, R475). -/
theorem thirdFault_intPend (m : Chip) (x : Ctx) (aft : Bool) (i : Nat) :
    ((m.thirdFault x).ctx ⟨x.coach, aft⟩).intPend.getLsbD i = m.sourceHolds i := by
  have hheld : ((m.faultedBare x).holdSources ⟨x.coach, false⟩).sourceHolds i = (m.faultedBare x).sourceHolds i :=
    sourceHolds_congr (holdSources_keeps _ _ (·.reg K.pwrPwrStat) fun _ _ => rfl) i
  have hnone : Context.reset.intPend = 0 := rfl
  rw [thirdFault_ctx, holdSources_intPend, holdSources_intPend, faultedBare_ctx, hheld, faultedBare_sourceHolds, hnone]
  cases aft <;> simp

theorem enterTrap_third {m : Chip} {x : Ctx} (hs : (m.ctx x).status.stable = false) (hf : (m.ctx x).status.df = true) (q : Cause)
    (ra : W16) (looped : Bool) : m.enterTrap x q ra looped = m.thirdFault x := by
  unfold Chip.enterTrap
  dsimp only
  rw [if_pos (by simp [hs, hf])]

/-- A context that may take no further fault (STABLE 0, DF 1), while the supply sags. -/
def saggedChip : Chip :=
  (Chip.reset.setFld K.pwrPwrStat F.pwrPwrStatSag 1).modCtx ⟨0, false⟩ fun k =>
    { k with status := { k.status with stable := false, df := true } }

/-- Refutes O35: a third fault while a supply sag lasts leaves SAG pending in the contexts that it resets, as R129 and R472 have it;
the statement asks for contexts at their reset values, INT_PEND 0 among them. -/
theorem not_trapEntryFollowsItsRule : ¬ Obligations.TrapEntryFollowsItsRule := by
  unfold Obligations.TrapEntryFollowsItsRule
  intro h
  obtain ⟨-, -, -, -, hthird⟩ := h saggedChip ⟨0, false⟩ ⟨0, .task, 0, Vector.replicate 4 0⟩ 0 false (by decide) (by decide)
  have hstable : (saggedChip.ctx ⟨0, false⟩).status.stable = false := by decide
  have hdf : (saggedChip.ctx ⟨0, false⟩).status.df = true := by decide
  obtain ⟨hctx, -⟩ := hthird hstable hdf
  rw [enterTrap_third hstable hdf] at hctx
  have hpend := thirdFault_intPend saggedChip ⟨0, false⟩ false srcSag
  have hsag : saggedChip.sourceHolds srcSag = true := by decide
  rw [hctx, hsag] at hpend
  exact absurd hpend (by decide)

end Sys2Proof.Machine

/-! PROOFS. The first cause that is found at an instruction boundary, and TRAP_ENTRY (R112, R116 to R121, R131, R135). -/
namespace Sys2Proof.Machine

/-! ### The first cause at a boundary (R117) -/

theorem op_len_le (o : Op) : o.len ≤ 2 := by
  unfold Op.len; split <;> omega

theorem lenOf_le (m : Chip) (x : Ctx) : m.lenOf x ≤ 2 := by
  unfold Chip.lenOf
  split
  · exact op_len_le _
  · omega

section
variable {m : Chip} {x : Ctx}

theorem fetchBad_pc (h : (m.ctx x).inRange (m.ctx x).pc.toNat = false) : m.fetchBad x = some (m.ctx x).pc.toNat := by
  unfold Chip.fetchBad; simp [h]

theorem fetchBad_operand (hpc : (m.ctx x).inRange (m.ctx x).pc.toNat = true) (hl : m.lenOf x = 2)
    (h : (m.ctx x).inRange ((m.ctx x).pc + 1).toNat = false) : m.fetchBad x = some ((m.ctx x).pc + 1).toNat := by
  unfold Chip.fetchBad
  dsimp only
  rw [if_neg (by simp [hpc]), if_pos ⟨hl.ge, by rw [h]; rfl⟩]

theorem AtBoundary.fetchBad_none (h : AtBoundary m x) : m.fetchBad x = none := by
  unfold Chip.fetchBad
  dsimp only
  rw [if_neg (by simp [h.pc]), if_neg]
  rintro ⟨hl, hout⟩
  rw [h.operand (le_antisymm (lenOf_le m x) hl)] at hout
  exact absurd hout (by decide)

theorem boundary_fetch {a : Nat} (he : (m.ctx x).entering = none) (hh : (m.ctx x).hubDue = false) (hf : m.fetchBad x = some a) :
    m.boundary x = .fetch a := by
  unfold Chip.boundary; simp [he, hh, hf]

theorem AtBoundary.boundary_mtx (h : AtBoundary m x) (hs : (m.ctx x).status.stable = true) {d : DefFault}
    (hd : (m.ctx x).defMtx = some d) : m.boundary x = .deferred 0 d := by
  unfold Chip.boundary; simp [h.fresh, h.hub, h.fetchBad_none, hs, hd]

theorem AtBoundary.boundary_vec (h : AtBoundary m x) (hs : (m.ctx x).status.stable = true) (hm : (m.ctx x).defMtx = none)
    {d : DefFault} (hd : (m.ctx x).defVec = some d) : m.boundary x = .deferred 1 d := by
  unfold Chip.boundary; simp [h.fresh, h.hub, h.fetchBad_none, hs, hm, hd]

theorem AtBoundary.boundary_dray (h : AtBoundary m x) (hs : (m.ctx x).status.stable = true) (hm : (m.ctx x).defMtx = none)
    (hv : (m.ctx x).defVec = none) {d : DefFault} {l : List DefFault} (hd : (m.ctx x).defDray = d :: l) :
    m.boundary x = .deferred 2 d := by
  unfold Chip.boundary; simp [h.fresh, h.hub, h.fetchBad_none, hs, hm, hv, hd]

/-- With no deferred fault to take, an asynchronous event or the next instruction decides. -/
theorem AtBoundary.boundary_async (h : AtBoundary m x) (hd : (m.ctx x).noDeferred) : m.boundary x = m.asyncAt x := by
  unfold Chip.boundary
  rcases hd with hs | ⟨hm, hv, hl⟩
  · simp [h.fresh, h.hub, h.fetchBad_none, hs]
  · simp [h.fresh, h.hub, h.fetchBad_none, hm, hv, hl]

/-! ### Interrupt sources (R126, R129, R131) -/

theorem sources_eq_range : ([0, 1, 2, 3, 4, 5] : List Nat) = List.range 6 := rfl

/-- The lowest source that is pending and enabled. -/
theorem source_some {k : Context} {i : Fin 6} (hi : (k.intPend.getLsbD i && k.intEn.getLsbD i) = true)
    (hlow : ∀ j : Fin 6, j < i → (k.intPend.getLsbD j && k.intEn.getLsbD j) = false) : k.source = some i.val := by
  unfold Context.source
  rw [sources_eq_range, List.find?_range_eq_some]
  refine ⟨hi, List.mem_range.mpr i.isLt, fun j hj => ?_⟩
  rw [hlow ⟨j, by omega⟩ hj]; rfl

theorem source_none {k : Context} (h : k.intPend &&& k.intEn &&& 0x3F = 0) : k.source = none := by
  unfold Context.source
  rw [sources_eq_range, List.find?_range_eq_none]
  intro j hj
  have hmask : ∀ j < 6, (0x3F : W16).getLsbD j = true := by decide
  have hbit := congrArg (fun w : W16 => w.getLsbD j) h
  simp only [BitVec.getLsbD_and, hmask j hj, Bool.and_true] at hbit
  rw [hbit]; simp

theorem asyncAt_live (hr : m.reexec = false) : m.asyncAt x = m.liveAsync (m.ctx x) := by
  unfold Chip.asyncAt; simp [hr]

theorem liveAsync_taken {k : Context} (hb : k.status.brake = false) (hl : m.logStalls 0 = false) {i : Fin 6} (hs : k.source = some i.val) :
    m.liveAsync k = .async i k.intStamp[i] := by
  unfold Chip.liveAsync; simp [hb, hs, hl]

theorem liveAsync_go {k : Context} (h : k.status.brake = true ∨ k.intPend &&& k.intEn &&& 0x3F = 0) : m.liveAsync k = .go := by
  unfold Chip.liveAsync
  rcases h with hb | hs
  · simp [hb]
  · simp [source_none hs]

/-! ### Taking the cause -/

theorem haltVec_idle (hq : (m.vec x.coach).q = []) (hi : Nat) : m.haltVec x hi = m := by
  unfold Chip.haltVec; simp [hq]

theorem enginesQuiet_idle (hq : (m.vec x.coach).q = []) (ha : (m.mtx x.coach).arr = []) : m.enginesQuiet x = true := by
  unfold Chip.enginesQuiet Chip.vecQuiet; simp [hq, ha]

/-- An event is entered and recorded at once where no engine work is in progress (R131, R135). -/
theorem takeAsync_idle (hq : (m.vec x.coach).q = []) (ha : (m.mtx x.coach).arr = []) (hr : m.reexec = false)
    (hl : m.logStalls 0 = false) (bit : Nat) (v : W64) (hi : Nat) : m.takeAsync x bit v hi =
    (m.logRec (ctxRec x (m.ctx x) (.async (0x10 + bit)) v)).enterTrap x
      ⟨0x10 + bit, .supervisor, 0, #v[v.extractLsb' 0 16, v.extractLsb' 16 16, v.extractLsb' 32 16, v.extractLsb' 48 16]⟩
      (m.ctx x).pc (m.ctx x).looped := by
  unfold Chip.takeAsync
  simp [haltVec_idle hq, enginesQuiet_idle hq ha, hr, hl]

theorem takeDeferred_dray {d : DefFault} {l : List DefFault} {i : Fin 8} (hl : (m.ctx x).defDray = d :: l) (hd : d.detail = i) :
    m.takeDeferred x 2 d = ((m.modCtx x fun k => { k with defDray := l }).modStream x.coach i fun t => { t with err := false }).enterTrap x
      ⟨0x0A, .task, d.detail, d.info⟩ (m.ctx x).pc (m.ctx x).looped := by
  have hi : (⟨d.detail % 8, Nat.mod_lt _ (by decide)⟩ : Fin 8) = i := Fin.ext (by simp [hd])
  have hmod : (m.modCtx x fun k => { k with defDray := k.defDray.drop 1 }) = m.modCtx x fun k => { k with defDray := l } := by
    unfold Chip.modCtx; dsimp only; rw [hl]; rfl
  unfold Chip.takeDeferred
  dsimp only
  rw [hi, hmod]; rfl

/-- TRAP_ENTRY of a context that runs or waits in a clocked coach. -/
theorem exec_trapEntry {s : State} (hc : s.chip.coachOn x.coach = true) (hi : Nat) :
    exec (.trapEntry x hi) s = .next (s.onCoach x.coach (s.chip.trapEntry x hi)) := by
  show execTrapEntry x hi s = _
  rw [execTrapEntry, onCoach_eq hc]

/-- What TRAP_ENTRY does by what decides at the boundary. -/
def Chip.takeBound (m : Chip) (x : Ctx) (hi : Nat) : Bound → Chip
  | .fetch a => m.chockCtx x a
  | .deferred kind d => (m.tallyBoundary x).takeDeferred x kind d
  | .async bit info => m.takeAsync x bit info hi
  | .go => match m.planOf x with
    | .fault v d => m.syncFault x v d
    | _ => m
  | _ => m

theorem trapEntry_bound {s : State} (hg : (s.chip.ctx x).st = .running ∨ (s.chip.ctx x).st = .waiting) (hc : s.chip.coachOn x.coach = true)
    {b : Bound} (hb : s.chip.boundary x = b) (hi : Nat) :
    exec (.trapEntry x hi) s = .next (s.onCoach x.coach (s.chip.takeBound x hi b)) := by
  have hdue : ((s.chip.ctx x).st == .running || (s.chip.ctx x).st == .waiting) && s.chip.coachOn x.coach := by
    simpa [hc] using hg
  have htake : s.chip.trapEntry x hi = s.chip.takeBound x hi b := by
    unfold Chip.trapEntry
    dsimp only
    rw [if_pos hdue, hb]
    cases b <;> rfl
  rw [exec_trapEntry hc, htake]

theorem takeBound_fault (hi v d : Nat) (hp : m.planOf x = .fault v d) : m.takeBound x hi .go = m.syncFault x v d := by
  unfold Chip.takeBound; rw [hp]

/-! ### Faults that come before the instruction's own (R112, R116, R120, R121) -/

theorem planOf_illegal (h : decodeOp (m.fetchWord x (m.ctx x).pc.toNat) = none) : m.planOf x = .fault 0x01 0 := by
  unfold Chip.planOf; simp only [h]

section
variable {o : Op} (hw : decodeOp (m.fetchWord x (m.ctx x).pc.toNat) = some o)
include hw

theorem planOf_shadow (hs : (m.ctx x).status.shadow = true) (he : o.engine = true) : m.planOf x = .fault 0x01 1 := by
  unfold Chip.planOf; simp [hw, hs, he]

theorem planOf_priv (hl : (m.ctx x).status.shadow = false ∨ o.engine = false) (hlvl : (m.ctx x).status.lvl = false)
    (hp : o.priv = true) : m.planOf x = .fault 0x02 0 := by
  have hlegal : ((m.ctx x).status.shadow && o.engine) = false := by rcases hl with hl | hl <;> simp [hl]
  unfold Chip.planOf
  simp only [hw, hlegal, hlvl, hp, Bool.not_false, Bool.and_self, Bool.false_eq_true, if_false, if_true]

theorem planOf_syscallOff {n : BitVec 4} (ho : o = .syscall n) (hn : (m.ctx x).entryEn.getLsbD n.toNat = false) :
    m.planOf x = .fault 0x06 n.toNat := by
  subst ho
  unfold Chip.planOf
  simp [hw, hn, Op.engine, Op.priv]

end

/-- What a synchronous fault records: the word at PC and the top of the data stack; a stack fault is of supervisor class and first
stops the vector engine (R116, R118). -/
theorem syncFault_enters (m : Chip) (x : Ctx) (v d : Nat) : ∃ i : Vector W16 4,
    i[0] = m.fetchWord x (m.ctx x).pc.toNat ∧ i[1] = m.topWord x ∧ ∃ n hi : Nat,
      m.syncFault x v d = Chip.enterTrap (if v = 0x04 ∨ v = 0x05 then (Chip.haltVec { m with tick := n } x hi).next else { m with tick := n })
        x ⟨v, if v = 0x04 ∨ v = 0x05 then .supervisor else .task, d, i⟩ (m.ctx x).pc false := by
  refine ⟨#v[_, _, (Config.freeWord m.tick).extractLsb' 0 16, (Config.freeWord m.tick).extractLsb' 16 16], rfl, rfl, m.tick + 1,
    (Config.freeWord (m.tick + 1)).toNat, ?_⟩
  unfold Chip.syncFault
  by_cases hv : v = vecStkOvf ∨ v = vecStkUnf
  · simp only [if_pos hv]; rfl
  · simp only [if_neg hv]; rfl

end

/-- Settles O36: what decides at the boundary in each case, and what TRAP_ENTRY then does. -/
theorem causesAreTakenInOrder : Obligations.CausesAreTakenInOrder := by
  intro s x hi m k tm
  have htm : tm.ctx x = k := tally_ctx m x x
  refine ⟨fun hg hc he hh hr => ?_, fun hg hc he hh hr hl ho => ?_, fun hb hs => ⟨fun d hd => ?_, fun hm d hd => ?_, fun hm hv i d l hl hd => ?_⟩,
    fun hb hd hr hbr hl hq ha i hsrc hlow => ?_, fun hb hd hr hno => ?_, fun v d _ _ => syncFault_enters m x v d⟩
  · exact trapEntry_bound hg hc (boundary_fetch he hh (fetchBad_pc hr)) hi
  · exact trapEntry_bound hg hc (boundary_fetch he hh (fetchBad_operand hr hl ho)) hi
  · rw [trapEntry_bound hb.going hb.clocked (hb.boundary_mtx hs hd)]
    simp only [Chip.takeBound, Chip.takeDeferred, ← htm]; rfl
  · rw [trapEntry_bound hb.going hb.clocked (hb.boundary_vec hs hm hd)]
    simp only [Chip.takeBound, Chip.takeDeferred, ← htm]; rfl
  · rw [trapEntry_bound hb.going hb.clocked (hb.boundary_dray hs hm hv hl), Chip.takeBound, takeDeferred_dray (htm ▸ hl) hd]
    rw [← htm]
  · have hbound : m.boundary x = .async i k.intStamp[i] := by
      rw [hb.boundary_async hd, asyncAt_live hr, liveAsync_taken hbr hl (source_some hsrc hlow)]
    rw [trapEntry_bound hb.going hb.clocked hbound, Chip.takeBound, takeAsync_idle hq ha hr hl]
  · have hbound : m.boundary x = .go := by
      rw [hb.boundary_async hd, asyncAt_live hr, liveAsync_go hno]
    have hfault {v d : Nat} (hp : m.planOf x = .fault v d) : exec (.trapEntry x hi) s = .next (s.onCoach x.coach (m.syncFault x v d)) := by
      rw [trapEntry_bound hb.going hb.clocked hbound, takeBound_fault hi v d hp]
    exact ⟨fun hw => hfault (planOf_illegal hw), fun o hw => ⟨fun hsh he => hfault (planOf_shadow hw hsh he),
      fun hle hlvl hp => hfault (planOf_priv hw hle hlvl hp), fun n ho hn => hfault (planOf_syscallOff hw ho hn)⟩⟩

end Sys2Proof.Machine

/-! PROOFS. What VZERO, CLEAR, QPOWER, ZERO, BUFZERO, SPLIT, FLUSH, FLUSH_INVAL, SCRUB, TRAIN and DOWN do at their acceptance (R180, R220,
R284, R299, R301, R310, R318, R423, R433). -/
namespace Sys2Proof.Machine

/-! ### What the launch of a command leaves -/

/-- A launch changes the header of its page alone: every register of a block, at 0x100 of its page or above, is as before. -/
theorem beginCmd_blockReg (m : Chip) (p : PageId) (code : Nat) (l : Launch) {k : Nat} (hk : 0x100 ≤ k % 0x1000) :
    (m.beginCmd p code l).reg k = m.reg k :=
  (beginCmd_step m p code l).reg k (by
    have := base_mod p
    simp only [beginKey, K.pageCmd, K.pageCmdStat, K.pageGen]; omega)

theorem beginCmd_coach (m : Chip) (p : PageId) (code : Nat) (l : Launch) (c : Fin 64) : (m.beginCmd p code l).coach c = m.coach c :=
  (beginCmd_step m p code l).keeps (·.coach c) fun _ => rfl

theorem beginCmd_stageMoves (m : Chip) (p : PageId) (code : Nat) (l : Launch) : (m.beginCmd p code l).stageMoves = m.stageMoves :=
  (beginCmd_step m p code l).keeps (·.stageMoves) fun _ => rfl

theorem beginCmd_qpwr (m : Chip) (p : PageId) (code : Nat) (l : Launch) (c : Fin 64) (f : Fld) :
    (m.beginCmd p code l).fld (K.cmemQpwr c) f = m.fld (K.cmemQpwr c) f :=
  congrArg f.get (beginCmd_blockReg m p code l (by simp only [K.cmemQpwr, pageBase]; omega))

theorem beginCmd_usedQuarters (m : Chip) (p : PageId) (code : Nat) (l : Launch) (c : Fin 64) :
    (m.beginCmd p code l).usedQuarters c = m.usedQuarters c := by
  funext q
  rw [Chip.usedQuarters, Chip.usedQuarters, Bool.eq_iff_iff, List.any_eq_true, List.any_eq_true]
  refine exists_congr fun i => and_congr_right fun hi => ?_
  have hi : i < 8 := List.mem_range.mp hi
  rw [beginCmd_blockReg m p code l (k := K.cmemPart c i) (by simp only [K.cmemPart, pageBase]; omega)]

theorem beginCmd_eighths (m : Chip) (p : PageId) (code : Nat) (l : Launch) (i : Fin 16) :
    (m.beginCmd p code l).eighths i = m.eighths i :=
  congrArg F.depotSplitA.get (beginCmd_blockReg m p code l (by simp only [K.depotSplit, pageBase]; omega))

theorem beginCmd_portUp (m : Chip) (p : PageId) (code : Nat) (l : Launch) (i : Fin 10) :
    (m.beginCmd p code l).portUp i = m.portUp i :=
  congrArg (fun w => decide (i.val < 10) && F.linkPortStatUp.bit w)
    (beginCmd_blockReg m p code l (k := K.linkPortStat i) (by simp only [K.linkPortStat, pageBase]; omega))

/-! ### QPOWER, ZERO and BUFZERO (R284, R310) -/

/-- The quarters of a coach that are on and go off when the new value is `a`. -/
def Chip.quartersOff (m : Chip) (c a : Nat) : List Nat :=
  (List.range 4).filter fun q => (m.fld (K.cmemQpwr c) F.cmemQpwrOn).testBit q && !a.testBit q

/-- The registers and the memory of a coach once its quarters are switched to `a`. -/
def Chip.quartersSet (m : Chip) (c a : Nat) : Chip :=
  (((m.quartersOff c a).foldl (fun x q => x.zeroMem (rowAddr c (2048 * q)) 0x100000) m).setFld (K.cmemQpwr c) F.cmemQpwrOn a).setFld
    (K.cmemQpwr c) F.cmemQpwrReady (Nat.land (m.fld (K.cmemQpwr c) F.cmemQpwrReady) a)

theorem qpower_badArg (m : Chip) (c : Nat) {l : Launch} (h : 16 ≤ l.arg.toNat) : m.qpower c l = m.endCmd (cmemPage c) 0x02 := if_pos h

theorem qpower_notIdle {m : Chip} {c : Nat} {l : Launch} (h : l.arg.toNat < 16)
    (hu : (m.quartersOff c l.arg.toNat).any (m.usedQuarters c) = true) : m.qpower c l = m.endCmd (cmemPage c) 0x03 :=
  (if_neg (Nat.not_le.mpr h)).trans (if_pos hu)

theorem qpower_switches {m : Chip} {c : Nat} {l : Launch} (h : l.arg.toNat < 16)
    (hu : (m.quartersOff c l.arg.toNat).any (m.usedQuarters c) = false) : m.qpower c l =
      if Nat.land (m.fld (K.cmemQpwr c) F.cmemQpwrReady) l.arg.toNat = l.arg.toNat then
        (m.quartersSet c l.arg.toNat).endCmd (cmemPage c) 0 else m.quartersSet c l.arg.toNat :=
  (if_neg (Nat.not_le.mpr h)).trans (if_neg (Bool.eq_false_iff.mp hu))

theorem beginCmd_quartersOff (m : Chip) (p : PageId) (code : Nat) (l : Launch) (c : Fin 64) (a : Nat) :
    (m.beginCmd p code l).quartersOff c a = m.quartersOff c a := by
  unfold Chip.quartersOff
  rw [beginCmd_qpwr]

theorem zeroCheck_eq (m : Chip) (c : Nat) (l : Launch) : m.zeroCheck c l =
    if l.arg.toNat < 2 ^ 26 ∧ l.arg.toNat % 8192 + l.arg.toNat / 8192 < 8192 then m.zeroBegin c else m.endCmd (cmemPage c) 0x02 := by
  unfold Chip.zeroCheck zeroRange
  dsimp only
  by_cases h : l.arg.toNat < 2 ^ 26 ∧ l.arg.toNat % 8192 + l.arg.toNat / 8192 < 8192
  · rw [if_neg (by omega), if_pos h]
  · rw [if_pos (by omega), if_neg h]

theorem noStreamActive_iff {m : Chip} {c : Fin 64} :
    (m.coach c).dray.toList.any (·.active) = false ↔ ∀ k : Fin 8, (m.stream c k).active = false := by
  rw [Vector.any_toList, Vector.any_eq_false]
  exact ⟨fun h k => Bool.eq_false_iff.mpr (h k k.isLt), fun h i hi => Bool.eq_false_iff.mp (h ⟨i, hi⟩)⟩

theorem bufzeroCheck_eq (m : Chip) (c : Fin 64) (l : Launch) : m.bufzeroCheck c l =
    if l.arg ≠ 0 then m.endCmd (cmemPage c) 0x02
    else if (m.mtx c).queue = [] ∧ (m.mtx c).arr = [] ∧ ∀ k : Fin 8, (m.stream c k).active = false then m
    else m.endCmd (cmemPage c) 0x03 := by
  have hidle : (!(m.mtx c).queue.isEmpty || !(m.mtx c).arr.isEmpty || (m.coach c).dray.toList.any (·.active)) = true ↔
      ¬ ((m.mtx c).queue = [] ∧ (m.mtx c).arr = [] ∧ ∀ k : Fin 8, (m.stream c k).active = false) := by
    rw [← noStreamActive_iff, ← Bool.not_eq_false, Bool.or_eq_false_iff, Bool.or_eq_false_iff]
    simp [and_assoc]
  unfold Chip.bufzeroCheck
  dsimp only
  simp only [hidle, ite_not]

/-! ### The launches -/

section
variable (s : State) (l : Launch) (c : Fin 64)

theorem launches_vzero : Launches (.vzero c l) s ⟨.vec, c⟩ 1 l fun b =>
    if l.arg ≠ 0 then b.endCmd ⟨.vec, c⟩ 0x02 else if b.running ⟨.vec, c⟩ then b.endCmd ⟨.vec, c⟩ 0x03 else b :=
  launches_issue (run := fun l m => m.vzeroCheck c l) rfl rfl

theorem launches_clear (i : Fin 128) : Launches (.clear i l) s ⟨.tally, i⟩ 1 l fun b =>
    if l.arg = 0 then b else b.endCmd ⟨.tally, i⟩ 0x02 :=
  launches_issue (run := fun l m => m.noArg ⟨.tally, i⟩ l id) rfl rfl

theorem launches_qpower {f : Chip → Chip} (h : (s.chip.beginCmd (cmemPage c) 1 l).qpower c l = f (s.chip.beginCmd (cmemPage c) 1 l)) :
    Launches (.qpower c l) s (cmemPage c) 1 l f :=
  launches_issue (run := fun l m => m.qpower c l) rfl h

theorem launches_qpower_switches (h : l.arg.toNat < 16)
    (hu : (s.chip.quartersOff c l.arg.toNat).any (s.chip.usedQuarters c) = false) :
    Launches (.qpower c l) s (cmemPage c) 1 l fun b =>
      let rdy := Nat.land (s.chip.fld (K.cmemQpwr c) F.cmemQpwrReady) l.arg.toNat
      let d := (((s.chip.quartersOff c l.arg.toNat).foldl (fun x q => x.zeroMem (rowAddr c (2048 * q)) 0x100000) b).setFld
        (K.cmemQpwr c) F.cmemQpwrOn l.arg.toNat).setFld (K.cmemQpwr c) F.cmemQpwrReady rdy
      if rdy = l.arg.toNat then d.endCmd (cmemPage c) 0 else d := by
  refine launches_qpower s l c ?_
  rw [qpower_switches h (by rwa [beginCmd_quartersOff, beginCmd_usedQuarters])]
  unfold Chip.quartersSet
  rw [beginCmd_quartersOff, beginCmd_qpwr]

theorem launches_qpower_notIdle (h : l.arg.toNat < 16)
    (hu : (s.chip.quartersOff c l.arg.toNat).any (s.chip.usedQuarters c) = true) :
    Launches (.qpower c l) s (cmemPage c) 1 l fun b => b.endCmd (cmemPage c) 0x03 :=
  launches_qpower s l c (qpower_notIdle h (by rwa [beginCmd_quartersOff, beginCmd_usedQuarters]))

theorem launches_zero : Launches (.zero c l) s (cmemPage c) 2 l fun b =>
    if l.arg.toNat < 2 ^ 26 ∧ l.arg.toNat % 8192 + l.arg.toNat / 8192 < 8192 then b.zeroBegin c else b.endCmd (cmemPage c) 0x02 :=
  launches_issue (run := fun l m => m.zeroCheck c l) rfl (zeroCheck_eq _ c l)

theorem launches_bufzero : Launches (.bufzero c l) s (cmemPage c) 3 l fun b => if l.arg ≠ 0 then b.endCmd (cmemPage c) 0x02
    else if (s.chip.mtx c).queue = [] ∧ (s.chip.mtx c).arr = [] ∧ ∀ k : Fin 8, (s.chip.stream c k).active = false then b
    else b.endCmd (cmemPage c) 0x03 :=
  launches_issue (run := fun l m => m.bufzeroCheck c l) rfl (by
    rw [bufzeroCheck_eq]
    exact if_congr Iff.rfl rfl (if_congr (by simp only [Chip.mtx, Chip.stream, beginCmd_coach]) rfl rfl))

theorem launches_split (i : Fin 16) : Launches (.split i l) s (depotPage i) 1 l fun b =>
    if 8 < l.arg.toNat then b.endCmd (depotPage i) 0x02 else if s.chip.stageMoves then b.endCmd (depotPage i) 0x03
    else if l.arg.toNat = s.chip.eighths i then b.endCmd (depotPage i) 0
    else (b.setFld (K.depotSplit i) F.depotSplitPendA l.arg.toNat).modSlice i fun k => { k with walk := 0 } :=
  launches_issue (run := fun l m => m.splitStart i l) rfl (by
    unfold Chip.splitStart
    rw [beginCmd_stageMoves, beginCmd_eighths])

/-- FLUSH and FLUSH_INVAL begin alike. -/
theorem launches_flushStart {j : Sys2Proof.Instr} {i : Fin 16} {code : Nat}
    (he : exec j s = .next (s.on (s.chip.issue (depotPage i) code l fun l m => m.flushStart i l))) :
    Launches j s (depotPage i) code l fun b => if l.arg ≠ 0 then b.endCmd (depotPage i) 0x02
      else if s.chip.stageMoves then b.endCmd (depotPage i) 0x03 else b.modSlice i fun k => { k with walk := 0 } :=
  launches_issue he (by
    unfold Chip.flushStart
    rw [beginCmd_stageMoves])

theorem launches_scrub (i : Fin 16) : Launches (.scrub i l) s (hbmPage i) 1 l fun b =>
    if l.arg ≠ 0 then b.endCmd (hbmPage i) 0x02 else b.setReg (K.hbmScrubPos i) 0 :=
  launches_issue (run := fun l m => m.scrubStart i l) rfl rfl

theorem launches_train (i : Fin 10) : Launches (.train i l) s (linkPage i) 1 l fun b =>
    if l.arg ≠ 0 then b.endCmd (linkPage i) 0x02 else if s.chip.portUp i then b.endCmd (linkPage i) 0x03
    else (((b.setFld (K.linkPortStat i) F.linkPortStatTraining 1).modPort i fun _ => SfPort.reset).portClock i).syncRun (linkPage i) :=
  launches_issue (run := fun l m => m.train' i l) rfl (by
    unfold Chip.train'
    rw [beginCmd_portUp])

theorem launches_down (i : Fin 10) : Launches (.down i l) s (linkPage i) 2 l fun b =>
    if l.arg ≠ 0 then b.endCmd (linkPage i) 0x02 else if s.chip.portUp i then (b.portDown i 1).endCmd (linkPage i) 0
    else b.endCmd (linkPage i) 0x03 :=
  launches_issue (run := fun l m => m.linkDown i l) rfl (by
    unfold Chip.linkDown
    simp only [beginCmd_portUp, Bool.not_eq_true', ← Bool.not_eq_true, ite_not])

end

/-- Settles O41: each row launches its command, whose checks ask for nothing that the launch itself changes. -/
theorem blockCommandsTakeEffect : Obligations.BlockCommandsTakeEffect := by
  intro s l m
  refine ⟨fun c => ⟨launches_vzero s l c, fun h => ?_, fun h => ⟨fun hu => ?_, fun hu => ?_⟩, launches_zero s l c, launches_bufzero s l c⟩,
    launches_clear s l, fun i => ⟨launches_split s l i, launches_flushStart s l rfl, launches_flushStart s l rfl, launches_scrub s l i⟩,
    fun i => ⟨launches_train s l i, launches_down s l i⟩⟩
  · exact launches_qpower s l c (qpower_badArg _ c h)
  · exact launches_qpower_notIdle s l c h hu
  · exact launches_qpower_switches s l c h hu

end Sys2Proof.Machine

/-! PROOFS. The head entry of a vector queue is started, answered and completed (R176, R188, R190, R191, R211, R213, R216). -/
namespace Sys2Proof.Machine

/-! ### Changes of a vector engine -/

theorem modVec_congr {m : Chip} {c : Fin 64} {f g : VecEngine → VecEngine} (h : f (m.vec c) = g (m.vec c)) :
    m.modVec c f = m.modVec c g :=
  congrArg (fun v => m.setCoach c { m.coach c with vec := v, vown := { (m.coach c).vown with dirty := true } }) h

theorem modVec_modVec (m : Chip) (c : Fin 64) (f g : VecEngine → VecEngine) :
    (m.modVec c f).modVec c g = m.modVec c fun v => g (f v) := by
  simp [Chip.modVec, Chip.modCoach, Chip.setCoach, Chip.coach]

section
variable {m : Chip} {c : Fin 64} {e : VEntry} {t : List VEntry}

/-! ### VEC_ENTRY_START (R190, R216) -/

/-- Nothing is before the head of the queue that it would wait for. -/
theorem mayStart_head (k : VecEngine) (e : VEntry) : k.mayStart 0 e = true := by
  unfold VecEngine.mayStart
  split <;> rfl

theorem vecStart_head (hq : (m.vec c).q = e :: t) (hs : e.started = false) (hg : m.vecGoes ⟨c, e.aft⟩ false = true) :
    m.vecStart c = m.startEntry c 0 e := by
  unfold Chip.vecStart
  simp [hq, List.findIdx?_cons, hs, hg, mayStart_head]

theorem startEntry_rejected {n d : Nat} (h : e.check (e.cfg.getD (m.vec c).cfg) = some d) :
    m.startEntry c n e = m.vecReject c n d none (if d = vElemAlign then some e.a else none) := by
  unfold Chip.startEntry
  simp only [h]

theorem startEntry_chocked {n : Nat} (h : e.check (e.cfg.getD (m.vec c).cfg) = none) (hf : e.op.1.fam = .row)
    (hr : m.vecRows ⟨c, e.aft⟩ e (m.vec c).cfg = none) : m.startEntry c n e = m.chockCtx ⟨c, e.aft⟩ e.a.toNat := by
  unfold Chip.startEntry
  simp [h, hf, hr]

/-- The head entry is started with the configuration in force. -/
theorem head_started (hq : (m.vec c).q = e :: t) : (m.modVec c fun k => { k with
      q := k.q.set 0 { e with started := true, cfg := some (m.vec c).cfg, next := 0 } }) =
    m.modVec c fun v => { v with q := { e with started := true, cfg := some (m.vec c).cfg, next := 0 } :: t } :=
  modVec_congr (by rw [hq]; rfl)

theorem startEntry_started (hq : (m.vec c).q = e :: t) (h : e.check (e.cfg.getD (m.vec c).cfg) = none) (hm : e.op.1.fam ≠ .mem)
    (hr : e.op.1.fam = .row → m.vecRows ⟨c, e.aft⟩ e (m.vec c).cfg ≠ none) (hc : e.cfg = none) : m.startEntry c 0 e =
      m.modVec c fun v => { v with q := { e with started := true, cfg := some (m.vec c).cfg, next := 0 } :: t } := by
  have hfree : ¬ (e.op.1.fam = .row ∧ (m.vecRows ⟨c, e.aft⟩ e (m.vec c).cfg).isNone) := fun ⟨hf, hn⟩ =>
    hr hf (Option.isNone_iff_eq_none.mp hn)
  rw [hc, Option.getD_none] at h
  rw [← head_started hq]
  unfold Chip.startEntry
  simp only [hc, Option.getD_none, h, if_neg hfree, if_neg hm]

theorem startEntry_sends (hq : (m.vec c).q = e :: t) (h : e.check (e.cfg.getD (m.vec c).cfg) = none) (hm : e.op.1.fam = .mem)
    (hc : e.cfg = none) (hv : (m.vec c).vresume.getLsbD 17 = false) : m.startEntry c 0 e =
      (m.modVec c fun v => { v with q := { e with started := true, cfg := some (m.vec c).cfg, next := 0 } :: t }).vecSendAll c
        ((m.vec c).vl.toNat + 1) := by
  have hfree : ¬ (e.op.1.fam = .row ∧ (m.vecRows ⟨c, e.aft⟩ e (m.vec c).cfg).isNone) := fun ⟨hf, _⟩ => by
    rw [hm] at hf; cases hf
  rw [hc, Option.getD_none] at h
  rw [← head_started hq]
  unfold Chip.startEntry
  simp only [hc, Option.getD_none, h, if_neg hfree, if_pos hm, hv, Bool.false_eq_true, if_false]
  rfl

/-! ### VEC_ELEMENT_RESPONSE (R213) -/

theorem segIndex_mem {j o : Nat} {l : List XSeg} {p : Nat × Nat × XSeg} (h : p ∈ segIndex j o l) : p.2.2 ∈ l := by
  induction l generalizing j o with
  | nil => cases h
  | cons a l ih =>
    rcases List.mem_cons.mp h with rfl | h
    · exact List.mem_cons_self
    · exact List.mem_cons_of_mem _ (ih h)

/-- An element whose pieces all lie in device memory waits for no data from host or peer memory. -/
theorem allGot_of_isDev {f : VFlight} (h : f.segs.all (·.isDev) = true) : f.allGot = true :=
  List.all_eq_true.mpr fun p hp => by rw [List.all_eq_true.mp h p.2.2 (segIndex_mem hp)]; rfl

theorem any_isDev {l : List XSeg} (hn : l ≠ []) (h : l.all (·.isDev) = true) : l.any (·.isDev) = true := by
  obtain ⟨a, ha⟩ := List.exists_mem_of_ne_nil l hn
  exact List.any_eq_true.mpr ⟨a, ha, List.all_eq_true.mp h a ha⟩

theorem vecResponse_performs {g : VCfg} {f : VFlight} (hq : (m.vec c).q = e :: t) (hc : e.cfg = some g)
    (hf : e.flight.find? (·.ix == f.ix) = some f) (hn : f.segs ≠ []) (hdev : f.segs.all (·.isDev) = true)
    (hheld : m.segsHeld (e.cls g) (!e.op.1.loads) false f.segs = false)
    (hdone : e.op.1.loads = true ∨ m.vecRemoteDone c f.ix f.segs = true)
    (hlow : ∀ h ∈ e.flight, h.ix < f.ix → segsMeet h.segs f.segs = false) :
    m.vecResponse c f.ix = ((m.vecPerform c e g f).vecLand c f.ix).vecSettle c := by
  have hready : ((e.op.1.loads && !f.allGot) || (!e.op.1.loads && !m.vecRemoteDone c f.ix f.segs)) = false := by
    rw [allGot_of_isDev hdev]
    rcases hdone with h | h <;> simp [h]
  have horder : (e.flight.any fun h => decide (h.ix < f.ix) && segsMeet h.segs f.segs && !e.op.1.loads) = false :=
    List.any_eq_false.mpr fun h hh => by
      by_cases hi : h.ix < f.ix
      · simp [hlow h hh hi]
      · simp [hi]
  unfold Chip.vecResponse
  simp only [hq, hc, hf, any_isDev hn hdev, hready, hheld, horder, Bool.not_true, Bool.false_eq_true, if_false]

/-! ### VEC_ENTRY_COMPLETE (R176, R191, R211) -/

/-- The SR counter of the context advances past an entry that has one (R170). -/
def Chip.srAdvance (m : Chip) (c : Fin 64) (e : VEntry) : Chip :=
  if e.sr.isSome then m.count (K.tallySrCtrV (Ctx.tally ⟨c, e.aft⟩)) 1 else m

theorem vecFinish_eq (m : Chip) (c : Fin 64) (n : Nat) (e : VEntry) : m.vecFinish c n e = (m.modVec c fun v =>
    { v with q := (v.q.set n { e with done := true }).dropWhile (·.done),
             vresume := if e.op.1.fam = .mem ∨ e.op.1 = .vfsumo then 0 else v.vresume }).srAdvance c e :=
  congrArg (·.srAdvance c e) (modVec_modVec m c _ VecEngine.popDone)

/-- The started head entry is the one that its pipe completes. -/
theorem findIdx_head {mem : Bool} (hs : e.started = true) (hd : e.done = false) (hm : e.op.1.memPipe = mem) :
    (e :: t).findIdx? (fun e => e.started && !e.done && e.op.1.memPipe == mem) = some 0 := by
  simp [List.findIdx?_cons, hs, hd, hm]

theorem vecComplete_arith (hq : (m.vec c).q = e :: t) (hs : e.started = true) (hd : e.done = false) (hm : e.op.1.memPipe = false)
    (cyc r : Nat) (third : Bool) : m.vecComplete c false cyc r third = m.vecArith c 0 e r third := by
  unfold Chip.vecComplete
  simp only [hq, findIdx_head hs hd hm]
  rfl

/-- An arithmetic entry of which nothing was computed again commits its result, its flags, its tally and its cycles. -/
theorem vecArith_commits (m : Chip) (c : Fin 64) (n : Nat) (e : VEntry) : m.vecArith c n e 0 false =
    let x : Ctx := ⟨c, e.aft⟩
    let o := (m.vec c).exec e (m.vecKey x e)
    ((((o.elems.reverse.foldl (fun b v =>
      if b.tallyReg x.tally v.reg then b.tallyOne x.tally (v.fmt.counted v.x v.S v.bits v.flushed) else b)
      ((m.modVec c fun _ => o.eng).addFlags x o.flags)).count (K.vecVarithCyc c) ((m.vec c).cycles e)).modVec c fun v =>
        { v with q := (v.q.set n { e with done := true }).dropWhile (·.done),
                 vresume := if e.op.1.fam = .mem ∨ e.op.1 = .vfsumo then 0 else v.vresume }).srAdvance c e) :=
  vecFinish_eq _ c n e

theorem vecComplete_mem {g : VCfg} (hq : (m.vec c).q = e :: t) (hs : e.started = true) (hd : e.done = false) (hf : e.op.1.fam = .mem)
    (hc : e.cfg = some g) (hh : e.halt = false) (hn : g.vl.toNat ≤ e.next) (hfl : e.flight = []) (cyc r : Nat) (third : Bool) :
    m.vecComplete c true cyc r third = ((m.count (K.vecVmemCyc c) cyc).vecFinish c 0 e).endJob (.vec c) := by
  have hm : e.op.1.memPipe = true := by simp [VOp.memPipe, hf]
  unfold Chip.vecComplete
  simp only [hq, findIdx_head hs hd hm, List.getElem?_cons_zero, hc]
  simp [hf, hh, hfl, Nat.not_lt.mpr hn]

theorem vecComplete_row {g : VCfg} (hq : (m.vec c).q = e :: t) (hs : e.started = true) (hd : e.done = false) (hf : e.op.1.fam = .row)
    (hc : e.cfg = some g) (cyc r : Nat) (third : Bool) :
    m.vecComplete c true cyc r third = ((m.vecRowMove c e g).count (K.vecVmemCyc c) cyc).vecFinish c 0 e := by
  have hm : e.op.1.memPipe = true := by simp [VOp.memPipe, hf]
  unfold Chip.vecComplete
  simp only [hq, findIdx_head hs hd hm, List.getElem?_cons_zero, hc, hf, if_true]

theorem vfsumo_not_row {o : VOp} (h : o.fam = .row) : o ≠ .vfsumo := fun e => by subst e; cases h

theorem fam_not_mem {o : VOp} (h : o.memPipe = false) : o.fam ≠ .mem := fun e => by simp [VOp.memPipe, e] at h

end

/-! ### The rows -/

section
variable {s : State} {c : Fin 64} (h : s.chip.coachOn c = true)
include h

theorem exec_vecEntryStart : exec (.vecEntryStart c) s = .next (s.onCoach c (s.chip.vecStart c)) :=
  onCoach_eq (f := fun m => m.vecStart c) h

theorem exec_vecElementResponse (i : Nat) : exec (.vecElementResponse c i) s = .next (s.onCoach c (s.chip.vecResponse c i)) :=
  onCoach_eq (f := fun m => m.vecResponse c i) h

theorem exec_vecEntryComplete (mem : Bool) (cyc r : Nat) (third : Bool) :
    exec (.vecEntryComplete c mem cyc r third) s = .next (s.onCoach c (s.chip.vecComplete c mem cyc r third)) :=
  onCoach_eq (f := fun m => m.vecComplete c mem cyc r third) h

end

/-- Settles O45: at the head of the queue of a clocked coach each row does what the lemmas above say of its entry. -/
theorem vectorEntriesRun : Obligations.VectorEntriesRun := by
  intro s c e t m k x ⟨hclk, hq⟩ done adv
  refine ⟨fun hs hg => ?_, fun g f hc hf hn hdev hheld hdone hlow => ?_, fun hs hd hm cyc => ?_,
    fun g cyc r b hs hd hf hc hh hn hfl => ?_, fun g cyc r b hs hd hf hc => ?_⟩
  · rw [exec_vecEntryStart hclk, vecStart_head hq hs hg]
    refine ⟨fun d hd => ?_, fun hok => ⟨fun hf hr => ?_, fun hm hr hc => ?_, fun hm hc hv => ?_⟩⟩
    · rw [startEntry_rejected hd]
    · rw [startEntry_chocked hok hf hr]
    · rw [startEntry_started hq hok hm hr hc]
    · rw [startEntry_sends hq hok hm hc hv]
  · rw [exec_vecElementResponse hclk, vecResponse_performs hq hc hf hn hdev hheld hdone hlow]
  · rw [exec_vecEntryComplete hclk, vecComplete_arith hq hs hd hm, vecArith_commits]
    simp only [fam_not_mem hm, false_or]
    rfl
  · have hdone : (m.count (K.vecVmemCyc c) cyc).modVec c (fun v => { v with
          q := (v.q.set 0 { e with done := true }).dropWhile (·.done),
          vresume := if e.op.1.fam = .mem ∨ e.op.1 = .vfsumo then 0 else v.vresume }) =
        (m.count (K.vecVmemCyc c) cyc).modVec c done :=
      modVec_congr (by rw [show ((m.count (K.vecVmemCyc c) cyc).vec c).q = e :: t from hq]; rfl)
    rw [exec_vecEntryComplete hclk, vecComplete_mem hq hs hd hf hc hh hn hfl, vecFinish_eq, hdone]
    rfl
  · rw [exec_vecEntryComplete hclk, vecComplete_row hq hs hd hf hc, vecFinish_eq]
    simp only [hf, vfsumo_not_row hf, reduceCtorEq, false_or, if_false]
    rfl

end Sys2Proof.Machine

/-! PROOFS. What the integer operations of the vector engine write, element by element (R182, R186, R187, R197). -/
namespace Sys2Proof.Machine

/-! ### Bits put into a word -/

theorem getLsbD_putBits {W : Nat} (x : BitVec W) (lo n v j : Nat) : (putBits x lo n v).getLsbD j =
    if lo ≤ j ∧ j < lo + n then decide (j < W) && v.testBit (j - lo) else x.getLsbD j := by
  have hones : ∀ i, (2 ^ n - 1).testBit i = decide (i < n) := fun i => by rw [Nat.testBit_two_pow_sub_one]
  simp only [putBits, BitVec.getLsbD_or, BitVec.getLsbD_and, BitVec.getLsbD_not, BitVec.getLsbD_shiftLeft, BitVec.getLsbD_ofNat,
    Nat.testBit_mod_two_pow, hones]
  by_cases hW : j < W
  · by_cases hlo : lo ≤ j
    · by_cases hhi : j < lo + n
      · have : j - lo < W ∧ j - lo < n := by omega
        simp [hW, hlo, hhi, this, Nat.not_lt_of_le hlo]
      · have : ¬ j - lo < n := by omega
        simp [hW, hhi, this]
    · simp [hW, hlo, Nat.lt_of_not_le hlo]
  · simp [hW, BitVec.getLsbD_of_ge x j (Nat.le_of_not_lt hW)]

/-- The field that was put reads back. -/
theorem extractLsb'_putBits_same {W : Nat} (x : BitVec W) {lo n : Nat} (v : Nat) (h : lo + n ≤ W) :
    (putBits x lo n v).extractLsb' lo n = BitVec.ofNat n v := by
  refine BitVec.eq_of_getLsbD_eq fun i hi => ?_
  have : lo + i < W ∧ lo + i < lo + n := by omega
  simp [-BitVec.getLsbD_eq_getElem, BitVec.getLsbD_extractLsb', getLsbD_putBits, BitVec.getLsbD_ofNat, hi, this]

/-- A field that shares no bit with the one that was put reads as before. -/
theorem extractLsb'_putBits_disjoint {W : Nat} (x : BitVec W) {lo lo' n : Nat} (v : Nat) (h : lo + n ≤ lo' ∨ lo' + n ≤ lo) :
    (putBits x lo n v).extractLsb' lo' n = x.extractLsb' lo' n := by
  refine BitVec.eq_of_getLsbD_eq fun i hi => ?_
  have : ¬ (lo ≤ lo' + i ∧ lo' + i < lo + n) := by omega
  simp only [BitVec.getLsbD_extractLsb', getLsbD_putBits, this, if_false]

/-! ### One element of a register group (R144, R182) -/

theorem reg_setVreg_same (k : VecEngine) {r : Nat} (x : BitVec 32768) (h : r < 32) : (k.setVreg r x).reg r = x := by
  simp [VecEngine.setVreg, VecEngine.reg, h]

theorem reg_setVreg_ne (k : VecEngine) {r s : Nat} (x : BitVec 32768) (h : r ≠ s) : (k.setVreg r x).reg s = k.reg s := by
  by_cases hr : r < 32
  · simp [VecEngine.setVreg, VecEngine.reg, hr, h]
  · simp [VecEngine.setVreg, hr]

theorem setVreg_changes_v (k : VecEngine) (r : Nat) (x : BitVec 32768) : k.setVreg r x = { k with v := (k.setVreg r x).v } := by
  by_cases hr : r < 32 <;> simp [VecEngine.setVreg, hr]

theorem vreg_eq_reg (k : VecEngine) (r : Fin 32) : k.v[r] = k.reg r := by simp [VecEngine.reg]

/-- The slot of an element is as wide as the element or, for the 6-bit formats, wider. -/
theorem bits_le_slot (F : Fmt) : F.bits ≤ F.slot := by
  unfold Fmt.slot
  split <;> omega

section
variable {F : Fmt} (hF : 0 < perReg F)
include hF

theorem slot_in_register (i : Nat) : i % perReg F * F.slot + F.slot ≤ 32768 :=
  calc i % perReg F * F.slot + F.slot = (i % perReg F + 1) * F.slot := (Nat.succ_mul _ _).symm
    _ ≤ perReg F * F.slot := Nat.mul_le_mul_right _ (Nat.mod_lt i hF)
    _ ≤ 32768 := Nat.div_mul_le_self _ _

/-- An element that was written, at a register that exists, reads back; every other element of the group reads as before. -/
theorem elem_setElem (k : VecEngine) {base i : Nat} (hi : base + i / perReg F < 32) (v j : Nat) :
    (k.setElem F base i v).elem F base j = if j = i then v % 2 ^ F.bits else k.elem F base j := by
  by_cases hreg : i / perReg F = j / perReg F
  · have hread : ((k.setElem F base i v).reg (base + j / perReg F)) =
        putBits (k.reg (base + j / perReg F)) (i % perReg F * F.slot) F.slot (v % 2 ^ F.bits) := by
      rw [← hreg]
      exact reg_setVreg_same k _ hi
    unfold VecEngine.elem
    rw [hread]
    by_cases hji : j = i
    · have hfits : v % 2 ^ F.bits < 2 ^ F.slot :=
        Nat.lt_of_lt_of_le (Nat.mod_lt _ (Nat.two_pow_pos _)) (Nat.pow_le_pow_right Nat.two_pos (bits_le_slot F))
      rw [if_pos hji, hji, extractLsb'_putBits_same _ _ (slot_in_register hF i), BitVec.toNat_ofNat, Nat.mod_eq_of_lt hfits,
        Nat.mod_mod]
    · have hslot : i % perReg F ≠ j % perReg F := fun h => hji (Nat.ext_div_mod hreg.symm h.symm)
      have hapart : i % perReg F * F.slot + F.slot ≤ j % perReg F * F.slot ∨ j % perReg F * F.slot + F.slot ≤ i % perReg F * F.slot := by
        rw [← Nat.succ_mul, ← Nat.succ_mul]
        exact hslot.lt_or_gt.imp (Nat.mul_le_mul_right _) (Nat.mul_le_mul_right _)
      rw [if_neg hji, extractLsb'_putBits_disjoint _ _ hapart]
  · have hji : j ≠ i := fun h => hreg (by rw [h])
    rw [if_neg hji, VecEngine.elem, VecEngine.elem, VecEngine.setElem, reg_setVreg_ne k _ (fun h => hreg (Nat.add_left_cancel h))]

end

/-! ### Elements written one after another -/

/-- Every position of a list takes its value of `f`: the fold that the elementwise operations run over their positions. -/
def VecEngine.setElems (k : VecEngine) (F : Fmt) (base : Nat) (f : Nat → Nat) (l : List Nat) : VecEngine :=
  l.foldl (fun g i => g.setElem F base i (f i)) k

theorem setElems_cons (k : VecEngine) (F : Fmt) (base : Nat) (f : Nat → Nat) (i : Nat) (l : List Nat) :
    k.setElems F base f (i :: l) = (k.setElem F base i (f i)).setElems F base f l := rfl

theorem elem_setElems {F : Fmt} (hF : 0 < perReg F) {base : Nat} (f : Nat → Nat) {l : List Nat} (h : ∀ i ∈ l, base + i / perReg F < 32)
    (k : VecEngine) (j : Nat) :
    (k.setElems F base f l).elem F base j = if j ∈ l then f j % 2 ^ F.bits else k.elem F base j := by
  induction l generalizing k with
  | nil => simp [VecEngine.setElems]
  | cons i l ih =>
    obtain ⟨hi, hl⟩ := List.forall_mem_cons.mp h
    rw [setElems_cons, ih hl, elem_setElem hF k hi]
    by_cases hjl : j ∈ l <;> by_cases hji : j = i <;> simp [hji, hjl]

theorem reg_setElems {F : Fmt} {base r : Nat} (f : Nat → Nat) {l : List Nat} (h : ∀ i ∈ l, base + i / perReg F ≠ r) (k : VecEngine) :
    (k.setElems F base f l).reg r = k.reg r := by
  induction l generalizing k with
  | nil => rfl
  | cons i l ih =>
    obtain ⟨hi, hl⟩ := List.forall_mem_cons.mp h
    exact (ih hl _).trans (reg_setVreg_ne k _ hi)

/-- Masks, VL, VTYPE, VCTL, VRESUME and the queue stay. -/
theorem setElems_changes_v (k : VecEngine) (F : Fmt) (base : Nat) (f : Nat → Nat) (l : List Nat) :
    k.setElems F base f l = { k with v := (k.setElems F base f l).v } := by
  induction l generalizing k with
  | nil => rfl
  | cons i l ih =>
    rw [setElems_cons, ih]
    exact congrArg (fun g : VecEngine => { g with v := ((k.setElem F base i (f i)).setElems F base f l).v })
      (setVreg_changes_v k _ _)

/-! ### The elementwise operations (R186, R187) -/

/-- The masked-off positions of the body (R186). -/
def VecEngine.maskedOff (k : VecEngine) (c : VCfg) : List Nat := (List.range c.vl.toNat).filter fun i => !k.mbit c.mreg i

theorem maskZero_eng (o : VOut) (k : VecEngine) (c : VCfg) (e : VEntry) (F : Fmt) (base : Nat) : (o.maskZero k c e F base 0).eng =
    o.eng.setElems F base (fun _ => 0) (if e.me && c.mzero then k.maskedOff c else []) := by
  unfold VOut.maskZero VecEngine.setElems VecEngine.maskedOff
  split
  · simp [List.foldl_filter]
  · rfl

theorem maskZero_flags (o : VOut) (k : VecEngine) (c : VCfg) (e : VEntry) (F : Fmt) (base lo : Nat) :
    (o.maskZero k c e F base lo).flags = o.flags := by
  unfold VOut.maskZero
  split <;> rfl

section
variable (F : Fmt) (base : Nat) (S : Int) (f : Nat → Nat × Flags)

/-- The results of the listed positions, put one after another. -/
def VOut.puts (o : VOut) (l : List Nat) : VOut := l.foldl (fun o i => (o.put F base i (f i).1 127 S false).flag (f i).2) o

theorem puts_eng (o : VOut) (l : List Nat) : (o.puts F base S f l).eng = o.eng.setElems F base (fun i => (f i).1) l := by
  induction l generalizing o with
  | nil => rfl
  | cons i l ih => exact ih _

theorem puts_flags (hf : ∀ i, (f i).2 = 0) (o : VOut) (l : List Nat) : (o.puts F base S f l).flags = o.flags := by
  induction l generalizing o with
  | nil => rfl
  | cons i l ih => exact (ih _).trans (by simp [VOut.flag, VOut.put, hf])

variable (k : VecEngine) (c : VCfg) (e : VEntry)

theorem each_eng : (k.each c e F base S f).eng = (k.setElems F base (fun i => (f i).1) (k.actives c e)).setElems F base (fun _ => 0)
    (if e.me && c.mzero then k.maskedOff c else []) :=
  (maskZero_eng _ k c e F base).trans (congrArg (VecEngine.setElems · F base _ _) (puts_eng F base S f k.out _))

theorem each_flags (hf : ∀ i, (f i).2 = 0) : (k.each c e F base S f).flags = 0 :=
  (maskZero_flags _ k c e F base 0).trans (puts_flags F base S f hf k.out _)

theorem each_changes_v : (k.each c e F base S f).eng = { k with v := (k.each c e F base S f).eng.v } := by
  rw [each_eng, setElems_changes_v, setElems_changes_v k]

variable {F base S f k c e}

theorem mem_actives {i : Nat} : i ∈ k.actives c e ↔ i < c.vl.toNat ∧ k.active c e i = true := by
  simp [VecEngine.actives]

theorem mem_maskedOff {i : Nat} : i ∈ k.maskedOff c ↔ i < c.vl.toNat ∧ k.mbit c.mreg i = false := by
  simp [VecEngine.maskedOff]

theorem mem_zeroed {i : Nat} : (i ∈ if e.me && c.mzero then k.maskedOff c else []) ↔
    c.mzero = true ∧ i < c.vl.toNat ∧ k.active c e i = false := by
  by_cases hme : e.me = true <;> by_cases hz : c.mzero = true <;> simp [hme, hz, mem_maskedOff, VecEngine.active]

/-- R186, R187: an active body position takes its result, a masked-off one is zeroed or kept, the tail is kept. -/
theorem elem_each (hF : 0 < perReg F) (hin : ∀ i < c.vl.toNat, base + i / perReg F < 32) (j : Nat) :
    (k.each c e F base S f).eng.elem F base j =
      if j < c.vl.toNat then
        if k.active c e j then (f j).1 % 2 ^ F.bits else if c.mzero then 0 else k.elem F base j
      else k.elem F base j := by
  rw [each_eng, elem_setElems hF _ (fun i hi => hin i (mem_zeroed.mp hi).2.1),
    elem_setElems hF _ (fun i hi => hin i (mem_actives.mp hi).1)]
  simp only [mem_zeroed, mem_actives]
  by_cases hj : j < c.vl.toNat
  · by_cases ha : k.active c e j = true <;> simp [hj, ha]
  · simp [hj]

theorem reg_each {r : Nat} (h : ∀ i < c.vl.toNat, base + i / perReg F ≠ r) : (k.each c e F base S f).eng.reg r = k.reg r := by
  rw [each_eng, reg_setElems _ (fun i hi => h i (mem_zeroed.mp hi).2.1), reg_setElems _ (fun i hi => h i (mem_actives.mp hi).1)]

end

/-! ### Groups that passed the checks (R182, R216) -/

theorem check_groupsAligned {e : VEntry} {c : VCfg} (h : e.check c = none) : ∀ g ∈ e.groups c, g.1 % g.2 = 0 := by
  by_contra hbad
  have hany : (e.groups c).any (fun g => g.1 % g.2 != 0) = true := by simpa using hbad
  simp only [VEntry.check, if_pos hany] at h
  split_ifs at h

theorem int_destination_grouped {e : VEntry} (c : VCfg) (h : e.op.1.fam = .int) : (e.vd, c.group) ∈ e.groups c := by
  simp only [VEntry.groups, h]
  split <;> simp

/-- A group size divides the number of registers, so an aligned group ends within them. -/
theorem aligned_group_in_registers (c : VCfg) {r : Nat} (hr : r < 32) (h : r % c.group = 0) : r + c.group ≤ 32 := by
  have hdvd : c.group ∣ 32 := by
    have : c.vtype.toNat / 64 % 4 ≤ 5 := by omega
    exact Nat.pow_dvd_pow 2 this
  obtain ⟨n, hn⟩ := hdvd
  obtain ⟨q, rfl⟩ := Nat.dvd_of_mod_eq_zero h
  rw [hn] at hr ⊢
  rw [← Nat.mul_succ]
  exact Nat.mul_le_mul_left _ (Nat.lt_of_mul_lt_mul_left hr)

/-- Every listed format has at least one element in a register (R182). -/
theorem perReg_fmt_pos (c : VCfg) : 0 < perReg c.fmt := by
  unfold VCfg.fmt Fmt.of
  split <;> decide

/-! ### Integer operations (R197) -/

theorem exec_int {k : VecEngine} {e : VEntry} (key : W64) (h : e.op.1.fam = .int) : k.exec e key = k.execInt k.cfg e := by
  unfold VecEngine.exec
  rw [h]

theorem intBits_natCast (w n : Nat) : intBits w n = n % 2 ^ w := by
  have hcast : (n : Int) % 2 ^ w = (n % 2 ^ w : Nat) := by push_cast; rfl
  rw [intBits, hcast, Int.toNat_natCast]

theorem intBits_lt (w : Nat) (v : Int) : intBits w v < 2 ^ w := by
  have := Int.emod_lt_of_pos v (show (0 : Int) < 2 ^ w by positivity)
  rw [intBits, Int.toNat_lt' (Nat.two_pow_pos w)]
  exact_mod_cast this

/-- The six operations, on elements of `w` bits, have the result that R197 gives them, whether the format is signed or not. -/
theorem intBits_intExact {o : VOp} {w a b r : Nat} (sg : Bool) (h : intResult o w a b = some r) (ha : a < 2 ^ w) (hb : b < 2 ^ w) :
    intBits w (intExact o sg w a b) = r := by
  unfold intResult at h
  split at h <;> cases h
  case h_1 => exact intBits_natCast w (a + b)
  case h_2 =>
    have hwrap : intBits w ((a : Int) - b) = intBits w ((a + 2 ^ w - b : Nat) : Int) := by
      rw [Nat.cast_sub (by omega)]
      simp [intBits, add_sub_right_comm]
    exact hwrap.trans (intBits_natCast w _)
  case h_3 => exact intBits_natCast w (a * b)
  case h_4 => exact (intBits_natCast w _).trans (Nat.mod_eq_of_lt (Nat.and_lt_two_pow a hb))
  case h_5 => exact (intBits_natCast w _).trans (Nat.mod_eq_of_lt (Nat.or_lt_two_pow ha hb))
  case h_6 => exact (intBits_natCast w _).trans (Nat.mod_eq_of_lt (Nat.xor_lt_two_pow ha hb))

theorem intResult_fam {o : VOp} {w a b r : Nat} (h : intResult o w a b = some r) : o.fam = .int ∧ o ≠ .vshl ∧ o ≠ .vshr := by
  unfold intResult at h
  split at h
  case h_7 => cases h
  all_goals exact ⟨rfl, nofun, nofun⟩

theorem intResult_lt {o : VOp} {w a b r : Nat} (h : intResult o w a b = some r) (ha : a < 2 ^ w) (hb : b < 2 ^ w) : r < 2 ^ w :=
  intBits_intExact false h ha hb ▸ intBits_lt w _

/-- The result of body position `i` where an operation has the value `f` of its operands and sets no flag. -/
def VecEngine.intElem (k : VecEngine) (e : VEntry) (F : Fmt) (f : Nat → Nat → Nat) (i : Nat) : Nat × Flags :=
  (f (k.opA e F i) (k.opB e F i), 0)

theorem elem_lt (k : VecEngine) (F : Fmt) (base i : Nat) : k.elem F base i < 2 ^ F.bits := Nat.mod_lt _ (Nat.two_pow_pos _)

section
variable {k : VecEngine} {c : VCfg} {e : VEntry} {w : Nat} (hF : c.fmt = .uint w ∨ c.fmt = .sint w)
include hF

theorem bits_of_intFmt : c.fmt.bits = w := by rcases hF with h | h <;> rw [h] <;> rfl

theorem opA_int (i : Nat) : k.opA e c.fmt i = if e.op.2 then e.f.toNat % 2 ^ w else k.elem c.fmt e.vs1 i := by
  rcases hF with h | h <;> rw [h] <;> rfl

theorem execInt_each (hl : e.op.1 ≠ .vshl) (hr : e.op.1 ≠ .vshr) : ∃ sg, k.execInt c e =
    k.each c e c.fmt e.vd 0 fun i => (intBits w (intExact e.op.1 sg w (k.opA e c.fmt i) (k.opB e c.fmt i)), 0) := by
  rcases hF with h | h
  · exact ⟨false, by simp [VecEngine.execInt, h, hl, hr, Fmt.bits]⟩
  · exact ⟨true, by simp [VecEngine.execInt, h, hl, hr, Fmt.bits]⟩

theorem opA_int_lt (i : Nat) : k.opA e c.fmt i < 2 ^ w := by
  rw [opA_int hF]
  split
  · exact Nat.mod_lt _ (Nat.two_pow_pos w)
  · exact bits_of_intFmt hF ▸ elem_lt k c.fmt e.vs1 i

theorem opB_int_lt (i : Nat) : k.opB e c.fmt i < 2 ^ w := bits_of_intFmt hF ▸ elem_lt k c.fmt e.vs2 i

variable {f : Nat → Nat → Nat} (hf : ∀ a b, intResult e.op.1 w a b = some (f a b))
include hf

/-- The six operations run elementwise with the result of R197 and without flags. -/
theorem execInt_results : k.execInt c e = k.each c e c.fmt e.vd 0 (k.intElem e c.fmt f) := by
  obtain ⟨-, hl, hr⟩ := intResult_fam (hf 0 0)
  obtain ⟨sg, heq⟩ := execInt_each (k := k) hF hl hr
  simp only [heq, intBits_intExact sg (hf _ _) (opA_int_lt hF _) (opB_int_lt hF _)]
  rfl

theorem intElem_mod (i : Nat) : (k.intElem e c.fmt f i).1 % 2 ^ c.fmt.bits = f (k.opA e c.fmt i) (k.opB e c.fmt i) := by
  rw [bits_of_intFmt hF]
  exact Nat.mod_eq_of_lt (intResult_lt (hf _ _) (opA_int_lt hF i) (opB_int_lt hF i))

end

/-- Settles O46: the operation is one elementwise run over a group within the registers. -/
theorem integerVectorResults : Obligations.IntegerVectorResults := by
  intro k e key w f c F g hfmt hf hcheck hvl o
  have hfam : e.op.1.fam = .int := (intResult_fam (hf 0 0)).1
  have hF : 0 < perReg F := perReg_fmt_pos c
  have hgroup : e.vd + g ≤ 32 := aligned_group_in_registers c (Nat.mod_lt _ (by decide))
    (check_groupsAligned hcheck _ (int_destination_grouped c hfam))
  have hbody (i : Nat) (hi : i < k.vl.toNat) : i / perReg F < g := Nat.div_lt_of_lt_mul (hi.trans_le hvl)
  have hin (i : Nat) (hi : i < k.vl.toNat) : e.vd + i / perReg F < 32 := by have := hbody i hi; omega
  have ho : o = k.each c e F e.vd 0 (k.intElem e F f) := by
    rw [← execInt_results hfmt hf]
    exact exec_int key hfam
  have helem (i : Nat) : o.eng.elem F e.vd i = if i < k.vl.toNat then
      if k.active c e i then (k.intElem e F f i).1 % 2 ^ F.bits else if c.mzero then 0 else k.elem F e.vd i
      else k.elem F e.vd i := ho ▸ elem_each hF hin i
  obtain ⟨v, hv⟩ : ∃ v, o.eng = { k with v := v } := ⟨_, ho ▸ each_changes_v ..⟩
  refine ⟨fun i hi ha => ?_, fun i hi ha => ?_, fun i hi _ => ?_, fun r hr => ?_, by rw [hv], by rw [hv], by rw [hv], by rw [hv], ?_⟩
  · rw [helem, if_pos hi, if_pos ha, intElem_mod hfmt hf]
    exact congrArg (f · _) (opA_int hfmt i)
  · rw [helem, if_pos hi, if_neg (by rw [ha]; decide)]
  · rw [helem, if_neg (Nat.not_lt.mpr hi)]
  · have hout (i : Nat) (hi : i < k.vl.toNat) : e.vd + i / perReg F ≠ r := by
      have := hbody i hi
      generalize i / perReg F = q at this ⊢
      omega
    rw [vreg_eq_reg, vreg_eq_reg, ho, reg_each hout]
  · rw [ho]
    exact each_flags _ _ _ _ _ _ _ fun _ => rfl

end Sys2Proof.Machine

/-! PROOFS. A descriptor's way through its dray stream: start, bursts sent and answered, completion (R226, R322 to R334, R349). -/
namespace Sys2Proof.Machine

section
variable {m : Chip} {c : Fin 64} {k : Fin 8} {e : DDesc} {q : List DDesc}

/-! ### DRAY_DESC_START (R327, R328, R349) -/

section
variable (hq : (m.stream c k).q = e :: q) (ha : (m.stream c k).active = false) (hz : m.bufZeroing c = false)
include hq ha hz

/-- A descriptor that was stopped goes on at its row. -/
theorem drayStart_resumes (hb : (m.stream c k).begun = true) (hg : m.drayGoes c k e true = true) : m.drayStart c k =
    (m.modStream c k fun t => { t with active := true, stopping := false, faulted := false, off := 0 }).outriderArm c k e := by
  unfold Chip.drayStart
  simp [hq, ha, hz, hb, hg]

section
variable (hb : (m.stream c k).begun = false) (hg : m.drayGoes c k e false = true)
include hb hg

theorem drayStart_rejects {r : Nat} (hr : e.check = some r) : m.drayStart c k = m.drayReject c k e r := by
  unfold Chip.drayStart
  simp [hq, ha, hz, hb, hg, hr]

/-- A descriptor that passes the checks starts at its first row once its gate bit, where it has one, is set. -/
theorem drayStart_starts (hr : e.check = none) (hgate : e.gate = true → (m.stream c k).gate.getLsbD e.gev = true) : m.drayStart c k =
    (m.modStream c k fun t => { t with
      active := true, begun := true, stopping := false, faulted := false, row := 0, off := 0, flags := 0, scales := [], again := none
      orNow := (m.reg (K.tlbOrBase c k), m.reg (K.tlbOrCtl c k)), orSet := false
      gate := if e.gate then t.gate &&& ~~~ (BitVec.ofNat 12 (2 ^ e.gev)) else t.gate }).outriderArm c k e := by
  have hopen : (e.gate && !(m.stream c k).gate.getLsbD e.gev) = false := by
    cases hge : e.gate
    · rfl
    · rw [hgate hge]; rfl
  unfold Chip.drayStart
  simp only [hq, ha, hz, hb, hg, hr, hopen, Bool.not_true, Bool.or_self, Bool.false_eq_true, if_false]

end
end

/-! ### DRAY_BURST_ISSUE (R226, R326, R329) -/

/-- A FILL has nothing to read. -/
theorem nextUnit_fill_rd (t : DStream) (h : e.op = opFill) : (e.nextUnit t).rd = [] := by
  unfold DDesc.nextUnit
  simp [h]

section
variable (hq : (m.stream c k).q = e :: q) (ha : (m.stream c k).active = true)
include hq ha

theorem drayIssue_plans {n : Nat} (hc : m.streamChocked c k = false) (hrow : (m.stream c k).row < e.rows)
    (hs : (m.stream c k).stopping = false) (hf : e.op = opFill) (hn : ((m.stream c k).open' false)[n]? = none) :
    m.drayIssue c k false n = m.modStream c k (·.plan e) := by
  unfold Chip.drayIssue
  simp [hq, ha, hc, hs, hn, nextUnit_fill_rd _ hf, Nat.not_le.mpr hrow]

section
variable {n i : Nat} {u : DUnit} {p : DPiece} (hmay : m.maySend c k u.id i = true)
include hmay

theorem drayIssue_read (hn : ((m.stream c k).open' false)[n]? = some (u, i, p)) :
    m.drayIssue c k false n = m.draySendRead c k e u i p := by
  unfold Chip.drayIssue
  simp [hq, ha, hn, hmay]

theorem drayIssue_write (hn : ((m.stream c k).open' true)[n]? = some (u, i, p)) :
    m.drayIssue c k true n = m.draySendWrite c k e u i p := by
  unfold Chip.drayIssue
  simp [hq, ha, hn, hmay]

end
end

section
variable {u : DUnit} {i : Nat} {p : DPiece}

theorem draySendRead_waits (h : m.hasCredit c k = false) : m.draySendRead c k e u i p = m.drayWait c k true := by
  unfold Chip.draySendRead
  simp [h]

/-- A burst of device memory needs no freight dray. -/
theorem needJob_isDev {wr : Bool} {g : XSeg} (h : g.isDev = true) : m.needJob c k e wr g = none := by
  unfold Chip.needJob
  simp [h]

theorem drayRead_isDev {id : Nat} {g : XSeg} (h : g.isDev = true) : m.drayRead c k e id i p g = m := by
  unfold XSeg.isDev at h
  unfold Chip.drayRead
  split
  case h_1 => rfl
  case h_2 _ hp => simp [hp] at h
  case h_3 _ _ _ hp => simp [hp] at h

section
variable (hcr : m.hasCredit c k = true) {b : Chip}
include hcr

theorem draySendRead_sends {g : XSeg} (hb : m.burstSeg c k e false p.a p.len = (b, .ok g)) (hg : g.isDev = true) :
    m.draySendRead c k e u i p = b.draySent c k u.id false i (some g) := by
  unfold Chip.draySendRead
  simp [hcr, hb, hg, needJob_isDev hg, drayRead_isDev hg]

theorem draySendRead_chocks {a : Nat} (hb : m.burstSeg c k e false p.a p.len = (b, .chock a)) :
    m.draySendRead c k e u i p = b.chockStream c k a u.id i := by
  unfold Chip.draySendRead
  simp [hcr, hb]

theorem draySendRead_fails (hb : m.burstSeg c k e false p.a p.len = (b, .fail)) :
    m.draySendRead c k e u i p = b.drayFaulted c k (·.id == u.id) := by
  unfold Chip.draySendRead
  simp [hcr, hb]

end

theorem draySendWrite_obuf (h : e.dkind = kObuf) : m.draySendWrite c k e u i p =
    if m.drayInterlock c e u.row then m else m.draySent c k u.id true i none := by
  unfold Chip.draySendWrite
  exact if_pos h

/-! ### DRAY_BURST_RESPONSE (R322, R326) -/

section
variable (hq : (m.stream c k).q = e :: q) (ha : (m.stream c k).active = true)
  (hu : (m.stream c k).units.find? (·.id == u.id) = some u) (hs : p.st = .sent) (n : Nvm)
include hq ha hu hs

theorem drayResponse_write (hw : u.writing = true) (hp : u.wr[i]? = some p) :
    drayResponse c k u.id i (n, m) = drayWriteDone c k e u i p (n, m) := by
  unfold drayResponse
  simp [hq, ha, hu, hw, hp, hs]

theorem drayResponse_read (hw : u.writing = false) (hp : u.rd[i]? = some p) {g : XSeg} (hg : p.seg = some g) :
    drayResponse c k u.id i (n, m) = drayReadDone c k e u.id i g (n, m) := by
  unfold drayResponse
  simp [hq, ha, hu, hw, hp, hs, hg]

end

theorem drayWriteDone_obuf (n : Nvm) (h : p.seg = none) :
    drayWriteDone c k e u i p (n, m) = (n, (m.drayObuf c e u i p).drayLanded c k u.id i p.len) := by
  unfold drayWriteDone
  rw [h]
  rfl

section
variable {g : XSeg} {a : Nat} (n : Nvm) (hmem : ∀ o, regionOf a ≠ .regs o)
include hmem

theorem drayWriteAt_mem (l : List Byte) :
    drayWriteAt c k e g a l (n, m) = ((n, m.segsWrite (streamId c k) e.cls e.noalloc l [g]), true) := by
  unfold drayWriteAt
  split
  · next o ho => exact absurd ho (hmem o)
  · rfl

theorem drayReadAt_mem : drayReadAt c k e g a (n, m) =
    let r := (m.scratchRead (m.ctx ⟨c, e.aft⟩).task a g.len).segsRead (streamId c k) e.cls e.noalloc [g]
    ((n, r.1), r.2.getD (List.replicate g.len 0)) := by
  unfold drayReadAt
  split
  · next o ho => exact absurd ho (hmem o)
  · rfl

theorem drayWriteDone_mem (hg : p.seg = some g) (hpl : g.place = .dev a) (hh : m.segsHeld e.cls true e.noalloc [g] = false) :
    drayWriteDone c k e u i p (n, m) =
      (n, (m.segsWrite (streamId c k) e.cls e.noalloc (u.slice i) [g]).drayLanded c k u.id i g.len) := by
  unfold drayWriteDone
  simp [hg, hpl, hh, drayWriteAt_mem n hmem, onSnd]

theorem drayReadDone_mem {id : Nat} (hpl : g.place = .dev a) (hh : m.segsHeld e.cls false e.noalloc [g] = false) :
    drayReadDone c k e id i g (n, m) =
      let r := (m.scratchRead (m.ctx ⟨c, e.aft⟩).task a g.len).segsRead (streamId c k) e.cls e.noalloc [g]
      (n, r.1.drayReadIn c k id i (r.2.getD (List.replicate g.len 0))) := by
  unfold drayReadDone
  simp [hpl, hh, drayReadAt_mem n hmem, onSnd]

end
end

/-! ### DRAY_DESC_COMPLETE (R175, R326, R349) -/

/-- The stream behind a descriptor that leaves the queue. -/
def DStream.left (t : DStream) (q : List DDesc) : DStream :=
  { t with q := q, active := false, begun := false, stopping := false, row := 0, off := 0, flags := 0, scales := [] }

/-- A completion but for OR_BASE and the events: the stream stands behind the descriptor, its freight jobs end, the flags `f` become
sticky, and the SR counter advances past a descriptor that used it. -/
def Chip.drayLeaves (m : Chip) (c : Fin 64) (k : Fin 8) (e : DDesc) (q : List DDesc) (f : Flags) : Chip :=
  ((((m.modStream c k (·.left q)).endJob (.stream c k false)).endJob (.stream c k true)).addFlags ⟨c, e.aft⟩ f).when e.usesSr
    (·.count (K.tallySrCtrD (Ctx.tally ⟨c, e.aft⟩) k) 1)

theorem drayComplete_eq (hq : (m.stream c k).q = e :: q) (ha : (m.stream c k).active = true) (hu : (m.stream c k).units = [])
    (hr : e.rows ≤ (m.stream c k).row) (hn : (m.stream c k).again = none) : m.drayComplete c k =
      (((m.outriderStep c k).drayLeaves c k e q (m.stream c k).flags).when e.notify (·.setEvents ⟨c, e.aft⟩ 0x1000)).when e.even
        (·.setEvents ⟨c, e.aft⟩ (BitVec.ofNat 16 (2 ^ e.ev))) := by
  unfold Chip.drayComplete
  simp only [hq, ha, hu, hn, hr, List.isEmpty_nil, Option.isNone_none, decide_true, Bool.and_self, if_true]
  rfl

theorem stream_modStream (m : Chip) (c : Fin 64) (k : Fin 8) (f : DStream → DStream) :
    (m.modStream c k f).stream c k = f (m.stream c k) := by
  unfold Chip.stream Chip.modStream Chip.modCoach
  simp

theorem ctx_modStream (m : Chip) (c : Fin 64) (k : Fin 8) (f : DStream → DStream) (aft : Bool) :
    (m.modStream c k f).ctx ⟨c, aft⟩ = m.ctx ⟨c, aft⟩ := by
  unfold Chip.ctx Chip.modStream Chip.modCoach
  rw [coach_setCoach]
  rfl

theorem stream_setEvents (m : Chip) (c : Fin 64) (k : Fin 8) (aft : Bool) (w : W16) :
    (m.setEvents ⟨c, aft⟩ w).stream c k = m.stream c k := by
  unfold Chip.stream Chip.setEvents
  rw [coach_modCtx m ⟨c, aft⟩, setSide_engines]

/-- The advance of OR_BASE changes no other register. -/
theorem outriderStep_regStep (m : Chip) (c : Fin 64) (k : Fin 8) : RegStep (· = K.tlbOrBase c k) m (m.outriderStep c k) := by
  unfold Chip.outriderStep
  dsimp only
  split
  · exact .refl m
  · exact .setFld m _ _ rfl

theorem tallyFlags_ne_tlbOrBase (t c : Nat) (k : Fin 8) : K.tallyFlags t ≠ K.tlbOrBase c k := by
  simp only [K.tallyFlags, K.tlbOrBase, pageBase]
  omega

theorem tallyFlags_ne_tallySrCtrD (t i : Nat) : K.tallyFlags t ≠ K.tallySrCtrD t i := by
  simp only [K.tallyFlags, K.tallySrCtrD]
  omega

/-- A part of the chip that no change of the event bits touches stays under events set on a condition. -/
theorem when_setEvents_keeps {β : Type} (g : Chip → β) {x : Ctx} {w : W16} (hg : ∀ m : Chip, g (m.setEvents x w) = g m) (m : Chip)
    (b : Bool) : g (m.when b (·.setEvents x w)) = g m := by
  cases b
  · rfl
  · exact hg m

theorem when_setEvents_events (m : Chip) (x : Ctx) (w : W16) (b : Bool) :
    ((m.when b (·.setEvents x w)).ctx x).events = (m.ctx x).events ||| if b then w else 0 := by
  cases b
  · exact (BitVec.or_zero ..).symm
  · show ((m.modCtx x fun k => { k with events := k.events ||| w }).ctx x).events = _
    rw [ctx_modCtx]
    rfl

section
variable (m : Chip) (c : Fin 64) (k : Fin 8) (e : DDesc) (q : List DDesc) (f : Flags)

/-- Beside the stream, only registers and freight jobs change. -/
theorem drayLeaves_frame : m.drayLeaves c k e q f = { m.modStream c k (·.left q) with
    regs := (m.drayLeaves c k e q f).regs, host := (m.drayLeaves c k e q f).host } := by
  unfold Chip.drayLeaves
  cases e.usesSr <;> rfl

theorem drayLeaves_keeps {β : Type} (g : Chip → β) (hg : ∀ (b : Chip) r h, g { b with regs := r, host := h } = g b) :
    g (m.drayLeaves c k e q f) = g (m.modStream c k (·.left q)) :=
  (congrArg g (drayLeaves_frame m c k e q f)).trans (hg _ _ _)

theorem drayLeaves_stream : (m.drayLeaves c k e q f).stream c k = (m.stream c k).left q :=
  (drayLeaves_keeps m c k e q f (·.stream c k) fun _ _ _ => rfl).trans (stream_modStream m c k _)

theorem drayLeaves_ctx : (m.drayLeaves c k e q f).ctx ⟨c, e.aft⟩ = m.ctx ⟨c, e.aft⟩ :=
  (drayLeaves_keeps m c k e q f (·.ctx ⟨c, e.aft⟩) fun _ _ _ => rfl).trans (ctx_modStream m c k _ _)

theorem drayLeaves_sends : (m.drayLeaves c k e q f).sends = m.sends := drayLeaves_keeps m c k e q f (·.sends) fun _ _ _ => rfl

/-- The flags join those of the context's TALLY page. -/
theorem drayLeaves_flags : (m.drayLeaves c k e q f).reg (K.tallyFlags (Ctx.tally ⟨c, e.aft⟩)) =
    m.reg (K.tallyFlags (Ctx.tally ⟨c, e.aft⟩)) ||| f.zeroExtend 64 := by
  have hcount (b : Chip) : (b.when e.usesSr (·.count (K.tallySrCtrD (Ctx.tally ⟨c, e.aft⟩) k) 1)).reg
      (K.tallyFlags (Ctx.tally ⟨c, e.aft⟩)) = b.reg (K.tallyFlags (Ctx.tally ⟨c, e.aft⟩)) := by
    cases e.usesSr
    · rfl
    · exact reg_setReg_ne b _ (tallyFlags_ne_tallySrCtrD _ _)
  exact (hcount _).trans (reg_setReg_same _ _ _)

end
end

/-! ### The rows -/

section
variable {s : State} {c : Fin 64} (h : s.chip.coachOn c = true) (k : Fin 8)
include h

theorem exec_drayDescStart : exec (.drayDescStart c k) s = .next (s.onCoach c (s.chip.drayStart c k)) :=
  onCoach_eq (f := fun m => m.drayStart c k) h

theorem exec_drayBurstIssue (wr : Bool) (n : Nat) :
    exec (.drayBurstIssue c k wr n) s = .next (s.onCoach c (s.chip.drayIssue c k wr n)) :=
  onCoach_eq (f := fun m => m.drayIssue c k wr n) h

theorem exec_drayDescComplete : exec (.drayDescComplete c k) s = .next (s.onCoach c (s.chip.drayComplete c k)) :=
  onCoach_eq (f := fun m => m.drayComplete c k) h

/-- A burst is answered with the chip and what survives every reset, and the log drains. -/
theorem exec_drayBurstResponse {id i : Nat} {n : Nvm} {t : Chip} (hr : drayResponse c k id i (s.nvm, s.chip) = (n, t)) :
    exec (.drayBurstResponse c k id i) s = .next (s.settled n (t.syncCoach c)) := by
  have hruns : s.chip.domRuns (coachDomain c.val) = true := h
  show execDrayBurstResponse c k id i s = _
  unfold execDrayBurstResponse onBoth
  simp only [hruns, if_true, hr]
  rfl

end

/-- Settles O48: at the head of the stream of a clocked coach each row does what the lemmas above say of its descriptor. -/
theorem drayDescriptorsRun : Obligations.DrayDescriptorsRun := by
  intro s c k e q m t x ⟨hclk, hq⟩
  refine ⟨fun ha hz => ⟨?resumed, ?fresh⟩, fun ha => ⟨?fill, ?read, ?toBuffer, ?answered, ?completed⟩⟩
  case resumed =>
    intro hb hg
    rw [exec_drayDescStart hclk, drayStart_resumes hq ha hz hb hg]
  case fresh =>
    refine fun hb hg => ⟨fun r hr => ?_, fun hr hgate => ?_⟩
    · rw [exec_drayDescStart hclk, drayStart_rejects hq ha hz hb hg hr]
      rfl
    · rw [exec_drayDescStart hclk, drayStart_starts hq ha hz hb hg hr hgate]
  case fill =>
    intro n hc hrow hs hf hn
    rw [exec_drayBurstIssue hclk, drayIssue_plans hq ha hc hrow hs hf hn]
  case read =>
    intro n i u p hmay hn
    rw [exec_drayBurstIssue hclk, drayIssue_read hq ha hmay hn]
    refine ⟨fun hcr => ?_, fun b g hcr hb hg => ?_, fun b a hcr hb => ?_, fun b hcr hb => ?_⟩
    · rw [draySendRead_waits hcr]
      rfl
    · rw [draySendRead_sends hcr hb hg]
    · rw [draySendRead_chocks hcr hb]
      rfl
    · rw [draySendRead_fails hcr hb]
  case toBuffer =>
    intro n i u p hmay hn hobuf
    rw [exec_drayBurstIssue hclk, drayIssue_write hq ha hmay hn, draySendWrite_obuf hobuf]
  case answered =>
    refine fun i u p hu hs => ⟨fun hw hp hg => ?_, fun g a hw hp hg hpl hmem hh => ?_, fun g a hw hp hg hpl hmem hh => ?_⟩
    · exact exec_drayBurstResponse hclk k ((drayResponse_write hq ha hu hs s.nvm hw hp).trans (drayWriteDone_obuf s.nvm hg))
    · exact exec_drayBurstResponse hclk k
        ((drayResponse_write hq ha hu hs s.nvm hw hp).trans (drayWriteDone_mem s.nvm hmem hg hpl hh))
    · exact exec_drayBurstResponse hclk k
        ((drayResponse_read hq ha hu hs s.nvm hw hp hg).trans (drayReadDone_mem s.nvm hmem hpl hh))
  case completed =>
    intro hu hr hn
    have hstep := outriderStep_regStep m c k
    have hkeeps {β : Type} (g : Chip → β) (hg : ∀ (b : Chip) w, g (b.setEvents x w) = g b) :
        g (m.drayComplete c k) = g ((m.outriderStep c k).drayLeaves c k e q t.flags) := by
      rw [drayComplete_eq hq ha hu hr hn, when_setEvents_keeps g (hg · _), when_setEvents_keeps g (hg · _)]
    refine ⟨m.drayComplete c k, exec_drayDescComplete hclk k, ?_, ?_, ?_, ?_⟩
    · rw [hkeeps (·.stream c k) fun b w => stream_setEvents b c k _ w, drayLeaves_stream, hstep.keeps (·.stream c k) fun _ => rfl]
      rfl
    · rw [hkeeps (·.reg (K.tallyFlags x.tally)) fun _ _ => rfl, drayLeaves_flags, hstep.reg _ (tallyFlags_ne_tlbOrBase _ _ k)]
    · rw [drayComplete_eq hq ha hu hr hn, when_setEvents_events, when_setEvents_events, drayLeaves_ctx,
        hstep.keeps (·.ctx x) fun _ => rfl]
    · rw [hkeeps (·.sends) fun _ _ => rfl, drayLeaves_sends, hstep.keeps (·.sends) fun _ => rfl]

end Sys2Proof.Machine

/-! PROOFS. Accesses to core memory, addressable depot and the stacks, and the rows of the depot, of patrol and of the freight drays
(R278, R284, R285, R291 to R293, R299, R316 to R318, R331). -/
namespace Sys2Proof.Machine

/-! ### Addresses and bytes -/

theorem regionOf_hbm {a : Nat} (h : a < depotBase) : regionOf a = .hbm := if_pos h

theorem depotBase_le_of_region {a : Nat} (h : regionOf a ≠ .hbm) : depotBase ≤ a :=
  Nat.le_of_not_lt fun hlt => h (regionOf_hbm hlt)

theorem regionOf_core_off {a c p off : Nat} (h : regionOf a = .core c p off) :
    0x20000000000 ≤ a ∧ off = (a - 0x20000000000) % 0x200 := by
  unfold regionOf at h
  split_ifs at h with h1 h2 h3
  injection h with _ _ hoff
  exact ⟨Nat.le_of_not_lt h3, hoff.symm⟩

theorem RowShaped.off_mod {a n c p off : Nat} (h : RowShaped a n c p off) : off % 8 = 0 := by
  have hoff := regionOf_core_off h.region
  have hwords := h.words
  omega

theorem badlyShaped_words {a n : Nat} (h : a % 8 = 0 ∧ n % 8 = 0) : badlyShaped a n = false := by
  simp [badlyShaped, wordShaped, h]

theorem rdBytes_count (m : Chip) (k d a n : Nat) : (m.count k d).rdBytes a n = m.rdBytes a n := by
  induction n generalizing a with
  | zero => rfl
  | succ n ih => exact congrArg (m.rdByte a :: ·) (ih (a + 1))

theorem wrBytes_badCrc (m : Chip) (a : Nat) (l : List Byte) : (m.wrBytes a l).badCrc = m.badCrc := by
  induction l generalizing m a with
  | nil => rfl
  | cons b t ih => exact ih (m.wrByte a b) (a + 1)

/-! ### Serving an access -/

theorem serve_read (m : Chip) (w : BitVec 16) (cls a n : Nat) (na : Bool) : m.serve ⟨w, cls, a, n, none⟩ na =
    (m.fabRead w cls a n na).1.emit (.access w a (m.fabRead w cls a n na).2) := rfl

theorem serve_write (m : Chip) (w : BitVec 16) (cls a n : Nat) (d : List Byte) (na : Bool) : m.serve ⟨w, cls, a, n, some d⟩ na =
    (m.fabWrite w cls a d na none).1.emit (.access w a (if (m.fabWrite w cls a d na none).2 then some [] else none)) := rfl

theorem scratchRead_noTask (m : Chip) (a n : Nat) : m.scratchRead 0 a n = m := rfl

/-! ### Rows of core memory (R278, R285) -/

section
variable {m : Chip} {a n c p off : Nat} (h : RowShaped a n c p off) (w : BitVec 16) (cls : Nat)

theorem coreRead_ready (hr : m.rowReady c p = true) :
    m.coreRead w c p off n = (m.count (K.cmemRowsRd c) 1, m.rdBytes (rowAddr c p + off) n) := if_pos hr

theorem coreRead_unpowered (hr : m.rowReady c p = false) :
    m.coreRead w c p off n = (m.unpowered w c p, List.replicate n 0) := if_neg (by simp [hr])

include h

theorem fabRead_row : m.fabRead w cls a n false = ((m.coreRead w c p off n).1, some (m.coreRead w c p off n).2) := by
  have hoff := h.off_mod
  obtain ⟨ha, hn⟩ := h.words
  obtain ⟨hpos, hin⟩ := h.inRow
  have hlo : off / 8 * 8 = off := by omega
  have hhi : (off + n + 7) / 8 * 8 - off = n := by omega
  unfold Chip.fabRead Chip.devRead
  simp only [badlyShaped_words h.words, h.region, hlo, hhi]
  rw [if_neg (by simp), if_pos ⟨by omega, hin, hpos⟩]

theorem fabWrite_row {d : List Byte} (hd : d.length = n) (hoff : off = 0) (hn : n = 512) :
    m.fabWrite w cls a d false none = (m.coreWrite w c p 0 d, true) := by
  unfold Chip.fabWrite Chip.devWrite
  simp only [hd, badlyShaped_words h.words, h.region]
  rw [if_neg (by simp), if_pos ⟨hoff, hn⟩]

theorem fabWrite_partRow {d : List Byte} (hd : d.length = n) (hn : n ≠ 512) :
    m.fabWrite w cls a d false none = (m.rowAccess w c a true, false) := by
  unfold Chip.fabWrite Chip.devWrite
  simp only [hd, badlyShaped_words h.words, h.region]
  rw [if_neg (by simp), if_neg fun hh => hn hh.2]

/-- An access to a row of core memory is served. -/
theorem exec_cmemFabricAccess {s : State} (hm : s.chip.memUp = true) (d : Option (List Byte)) :
    exec (.cmemFabricAccess w cls a n d) s = .next (s.on (s.chip.serve ⟨w, cls, a, n, d⟩ false)) := by
  show execCmemFabricAccess w cls a n d s = _
  rw [execCmemFabricAccess, onHbm_eq hm, Chip.cmemAccess, h.region]

end

/-! ### Addressable depot (R291, R292) -/

section
variable {m : Chip} {w : BitVec 16} {cls a n i x : Nat} (hreg : regionOf a = .depot i x)
include hreg

/-- A read of whole words within 256 bytes of a slice whose SPLIT does not run. -/
theorem fabRead_depot (hbusy : m.busy ⟨.depot, i⟩ = false) (ha : a % 8 = 0) (hn : n % 8 = 0) (h8 : 8 ≤ n) (hin : a % 256 + n ≤ 256)
    (na : Bool) : m.fabRead w cls a n na =
      if m.eighths i * 0x400000 < x + n then (m.addrRange i w a false, none) else (m, some (m.rdBytes a n)) := by
  have hlo : a / 8 * 8 = a := by omega
  have hhi : (a + n + 7) / 8 * 8 - a = n := by omega
  have hshape : depotShapeOk a n = true := decide_eq_true ⟨hn, h8, by omega, ha, hin⟩
  have hopen : m.openEighths i = m.eighths i := if_neg (by simp [depotPage, hbusy])
  unfold Chip.fabRead Chip.devRead
  simp only [badlyShaped_words ⟨ha, hn⟩, hreg, hlo, hhi, hshape, hopen]
  rw [if_neg (by simp), if_neg (by simp)]

/-- What no SPLIT holds is served; a master that is no context works for no task. -/
theorem depotAccess_read (hw : idKind w ≠ 2) (hheld : m.splitHeld cls a n = false) (na : Bool) :
    m.depotAccess ⟨w, cls, a, n, none⟩ na false = m.serve ⟨w, cls, a, n, none⟩ na := by
  have hhigh : ¬ a < depotBase := Nat.not_lt.mpr (depotBase_le_of_region (by simp [hreg]))
  have hcrc : m.crcHolds false na a n = false := by
    unfold Chip.crcHolds
    rw [decide_eq_false hhigh]
    rfl
  unfold Chip.depotAccess
  simp only [hheld, hreg, hcrc, if_neg hw, scratchRead_noTask, Option.isSome_none, Bool.false_and, Bool.false_eq_true, and_false, if_false]

end

/-! ### A line arrives (R293, R317) -/

/-- The line has left the fetches of its slice, and its read of the stack is counted. -/
def Chip.lineLeaves (m : Chip) (s : Nat) (f : DFetch) : Chip :=
  (m.modSlice s fun k => { k with fetch := k.fetch.erase f }.refill 512).count (K.hbmRdBytes s) 256

theorem lineFill_found {m : Chip} {s l : Nat} {f : DFetch} (hf : (m.slice s).fetch.find? (·.line == l) = some f) : m.lineFill s l =
    if f.drop then m.lineLeaves s f
    else if (m.badBlocks (m.hbmAddr s (l * 256)) 256).isEmpty then (m.lineLeaves s f).allocate s l f.dirty f.pf
    else if f.pf then (m.badBlocks (m.hbmAddr s (l * 256)) 256).foldl (fun m b => m.crcError (b * 64) 2 f.master) (m.lineLeaves s f)
    else if f.held then m
    else (m.badBlocks (m.hbmAddr s (l * 256)) 256).foldl (fun m b => m.crcError (b * 64) 0 f.master)
      (m.modSlice s fun k => { k with fetch := k.fetch.map fun g => if g = f then { g with held := true } else g }) := by
  unfold Chip.lineFill
  rw [hf]
  rfl

/-! ### Blocks of the stacks (R316, R317) -/

/-- Where no block of a range is bad, no block that meets the range is. -/
theorem notMem_badCrc {m : Chip} {a n b : Nat} (h : m.badBlocks a n = []) (hb : b * 64 < a + n ∧ a < b * 64 + 64) : b ∉ m.badCrc :=
  fun hmem => List.filter_eq_nil_iff.mp h b hmem (decide_eq_true hb)

theorem AtLine.region {m : Chip} {a n i l : Nat} (h : AtLine m a n i l) (hn : 0 < n) : regionOf a = .hbm :=
  regionOf_hbm (show a < 0x10000000000 by have := h.hbm; omega)

section
variable {m : Chip} {a i l : Nat} (h : AtLine m a 64 i l) (ha : a % 64 = 0) (w : BitVec 16)
include h ha

/-- A demand read of a good block: answered, unless its CRC fails twice. -/
theorem hbmRead_demand (fails : Nat) : m.hbmRead w a fails false =
    let m1 := m.count (K.hbmRdBytes i) 64
    let m2 := (m1.markBad (a / 64)).crcError a 0 w
    if fails = 0 then m1.emit (.access w a (some (m.rdBytes a 64)))
    else if fails = 1 then (m1.count (K.hbmCrcRetry i) 1).emit (.access w a (some (m.rdBytes a 64)))
    else { m2 with crcHeld := m2.crcHeld ++ [heldReq w (m.masterClass w) a none 64 true] } := by
  have hblock : a / 64 * 64 = a := by omega
  have hgood : m.badCrc.elem (a / 64) = false := by simpa using notMem_badCrc h.good (b := a / 64) (by omega)
  unfold Chip.hbmRead
  simp only [h.region (by decide), h.line, hblock, hgood, rdBytes_count]
  rfl

/-- A scrub read beside a pass that fails twice. -/
theorem hbmRead_scrub_bad (hbusy : m.busy ⟨.hbm, i⟩ = false) :
    m.hbmRead w a 2 true = ((m.count (K.hbmRdBytes i) 64).markBad (a / 64)).crcError a 2 w := by
  have hblock : a / 64 * 64 = a := by omega
  unfold Chip.hbmRead
  simp [h.region (by decide), h.line, hbmPage, hbusy, Chip.scrubBlock, hblock]

omit ha in
/-- A read of the running pass that does not fail takes the pass past its block. -/
theorem hbmRead_scrub_pass (hbusy : m.busy ⟨.hbm, i⟩ = true) (hpos : m.fld (K.hbmScrubPos i) F.hbmScrubPosAddr ≤ l / 64 * 64)
    (hend : l / 64 * 64 + 64 < 2 ^ 36) :
    m.hbmRead w a 0 true = (m.scrubTo i (l / 64 * 64)).scrubTo i (l / 64 * 64 + 64) := by
  unfold Chip.hbmRead
  simp only [h.region (by decide), h.line, hbmPage, hbusy, hpos, hend, decide_true, Bool.and_self, if_true]
  rfl

end

/-! ### Writes of HBM (R316) -/

theorem mem_partBlocks {a n b : Nat} (h : b ∈ partBlocks a n) : b = a / 64 ∨ b = (a + n - 1) / 64 := by
  simpa using List.mem_of_mem_filter h

/-- A range shorter than a block that stays within one covers it in part. -/
theorem partBlocks_within {a n : Nat} (h : a / 64 = (a + n - 1) / 64) (hn : n < 64) : partBlocks a n = [a / 64] := by
  have hpart : ¬ (a ≤ a / 64 * 64 ∧ a / 64 * 64 + 64 ≤ a + n) := by omega
  have hone : [a / 64, (a + n - 1) / 64].eraseDups = [a / 64] := by simp [← h, List.eraseDups_cons]
  rw [partBlocks, hone, List.filter_cons, decide_eq_false hpart]
  rfl

theorem mergeRead_good {m : Chip} {b : Nat} (h : b ∉ m.badCrc) (w : BitVec 16) : m.mergeRead b 0 w = m := by
  simp [Chip.mergeRead, h]

section
variable {m : Chip} {a : Nat} {d : List Byte} (hgood : m.badBlocks a d.length = []) (hd : 0 < d.length) (w : BitVec 16)
include hgood hd

/-- Over good blocks a write moves its bytes and then reads the blocks that it covers in part. -/
theorem hbmWrite_good (fails : Nat × Nat) : m.hbmWrite a d w fails = (partBlocks a d.length).foldl
    (fun m b => m.mergeRead b (if b = a / 64 then fails.1 else fails.2) w) (m.wrBytes a d) := by
  have hkeep : (m.wrBytes a d).badCrc.filter (fun b => !decide (a ≤ b * 64 ∧ b * 64 + 64 ≤ a + d.length)) =
      (m.wrBytes a d).badCrc := by
    refine List.filter_eq_self.mpr fun b hb => ?_
    rw [wrBytes_badCrc] at hb
    have hapart : ¬ (b * 64 < a + d.length ∧ a < b * 64 + 64) := fun hh => notMem_badCrc hgood hh hb
    simp only [Bool.not_eq_true', decide_eq_false_iff_not]
    omega
  unfold Chip.hbmWrite
  dsimp only
  rw [hkeep, if_neg (by simpa using List.ne_nil_of_length_pos hd)]

theorem hbmWrite_noFail : m.hbmWrite a d w (0, 0) = m.wrBytes a d := by
  have hblocks : ∀ b ∈ partBlocks a d.length, b ∉ (m.wrBytes a d).badCrc := fun b hb => by
    rw [wrBytes_badCrc]
    refine notMem_badCrc hgood ?_
    rcases mem_partBlocks hb with rfl | rfl <;> omega
  rw [hbmWrite_good hgood hd]
  simp only [ite_self]
  generalize partBlocks a d.length = l at hblocks
  induction l with
  | nil => rfl
  | cons b t ih =>
    obtain ⟨hb, ht⟩ := List.forall_mem_cons.mp hblocks
    rw [List.foldl_cons, mergeRead_good hb, ih ht]

theorem hbmWrite_fails_twice (hin : a / 64 = (a + d.length - 1) / 64) (hlt : d.length < 64) :
    m.hbmWrite a d w (2, 0) = ((m.wrBytes a d).markBad (a / 64)).crcError (a / 64 * 64) 1 w := by
  rw [hbmWrite_good hgood hd, partBlocks_within hin hlt, List.foldl_cons, List.foldl_nil, if_pos rfl]
  simp [Chip.mergeRead]

end

/-- A write of HBM outside the mirrors is a write of its stack, and tells the stage controller. -/
theorem hbmPut_stack {m : Chip} {a : Nat} (hreg : regionOf a = .hbm) (hmir : m.inMirror a = false) (w : BitVec 16) (d : List Byte)
    (fails : Nat × Nat) : m.hbmPut w a d fails =
      ((m.stackBytes (m.stackOf a).1 a d.length true).hbmWrite a d w fails).tagWrite w a d.length none := by
  simp [Chip.hbmPut, hreg, hmir]

/-! ### Quarters, patrol and freight drays (R284, R318, R331) -/

theorem quarterReady_notLast {m : Chip} {c q : Nat} (hon : (m.fld (K.cmemQpwr c) F.cmemQpwrOn).testBit q = true)
    (hrdy : (m.fld (K.cmemQpwr c) F.cmemQpwrReady).testBit q = false)
    (hlast : m.fld (K.cmemQpwr c) F.cmemQpwrReady + 2 ^ q ≠ m.fld (K.cmemQpwr c) F.cmemQpwrOn) :
    m.quarterReady c q = (m.zeroMem (rowAddr c (2048 * q)) (2048 * 512)).setFld (K.cmemQpwr c) F.cmemQpwrReady
      (m.fld (K.cmemQpwr c) F.cmemQpwrReady + 2 ^ q) := by
  simp [Chip.quarterReady, hon, hrdy, hlast]

theorem raiseWritebacks_busy {m : Chip} {i : Nat} (hb : m.busy ⟨.depot, i⟩ = true) :
    m.raiseWritebacks i = m.modSlice i fun k => { k with raised := true } := if_pos hb

theorem patrolStart_begins {m : Chip} {i : Nat} (hp : m.flag (K.hbmScrubCtl i) F.hbmScrubCtlPatrol = true)
    (hb : m.busy ⟨.hbm, i⟩ = false) (h8 : 8 ≤ m.phase) :
    m.patrolStart i = (m.beginCmd ⟨.hbm, i⟩ 1 ⟨0x8031, 0, 0, none⟩).setReg (K.hbmScrubPos i) 0 := by
  have hdue : (m.flag (K.hbmScrubCtl i) F.hbmScrubCtlPatrol && !m.busy (hbmPage i) && decide (8 ≤ m.phase)) = true := by
    simp [hbmPage, hp, hb, h8]
  rw [Chip.patrolStart, if_pos hdue]
  rfl

theorem freightEnd_xfer {m : Chip} {id x : Nat} {j : Job} (h : m.host.jobs.find? (fun k => k.id == id && k.granted) = some j)
    (hw : j.work = .xfer x) : m.freightEnd id = m.xferWork x := by
  unfold Chip.freightEnd
  rw [h]
  simp only [hw]

/-! ### The obligation -/

/-- Settles O49: each row does what the lemmas above say of the access, the line, the block or the job that it serves. -/
theorem memoryAccessesAreServed : Obligations.MemoryAccessesAreServed := by
  refine ⟨?rows, ?quarter, ?depot, fun s i => ⟨fun hm => ⟨?line, ?read, ?write, ?grant, ?jobEnd⟩, ?raise, ?patrol⟩⟩
  case rows =>
    intro s w cls a n c p off m h hm
    refine ⟨fun hr => ?_, fun hr => ?_, fun d hd => ⟨fun hoff hn hr => ?_, fun hn => ?_⟩⟩
    · rw [exec_cmemFabricAccess h w cls hm, serve_read, fabRead_row h, coreRead_ready w hr]
      rfl
    · rw [exec_cmemFabricAccess h w cls hm, serve_read, fabRead_row h, coreRead_unpowered w hr]
      rfl
    · rw [exec_cmemFabricAccess h w cls hm, serve_write, fabWrite_row h w cls hd hoff hn, Chip.coreWrite, if_pos hr]
      rfl
    · rw [exec_cmemFabricAccess h w cls hm, serve_write, fabWrite_partRow h w cls hd hn]
      rfl
  case quarter =>
    intro s c q m on rdy hon hrdy hlast
    show execQuarterReady c q s = _
    rw [execQuarterReady, onChip_eq, quarterReady_notLast hon hrdy hlast]
    rfl
  case depot =>
    intro s w cls a n i x na m hm hw hreg hbusy hheld ha hn h8 hin
    have hexec : exec (.depotAccess w cls a n none na false) s = .next (s.on (m.serve ⟨w, cls, a, n, none⟩ na)) := by
      show execDepotAccess w cls a n none na false s = _
      rw [execDepotAccess, onHbm_eq hm, depotAccess_read hreg hw hheld]
    refine ⟨fun hx => ?_, fun hx => ?_⟩
    · rw [hexec, serve_read, fabRead_depot hreg hbusy ha hn h8 hin, if_neg (Nat.not_lt.mpr hx)]
    · rw [hexec, serve_read, fabRead_depot hreg hbusy ha hn h8 hin, if_pos hx]
      rfl
  case line =>
    intro l f hf m1 bad
    have hexec : exec (.depotLineFill i l) s = .next (s.on (s.chip.lineFill i l)) := by
      show execDepotLineFill i l s = _
      rw [execDepotLineFill, onHbm_eq hm]
    rw [hexec, lineFill_found hf]
    refine ⟨fun hd => ?_, fun hd hb => ?_, fun hd hb hp => ?_, fun hd hb hp hh => ?_, fun hd hb hp hh => ?_⟩
    · rw [if_pos hd]
      rfl
    · rw [if_neg (by simp [hd]), if_pos (List.isEmpty_iff.mpr hb)]
      rfl
    · rw [if_neg (by simp [hd]), if_neg (mt List.isEmpty_iff.mp hb), if_pos hp]
      rfl
    · rw [if_neg (by simp [hd]), if_neg (mt List.isEmpty_iff.mp hb), if_neg (by simp [hp]), if_pos hh]
      rfl
    · rw [if_neg (by simp [hd]), if_neg (mt List.isEmpty_iff.mp hb), if_neg (by simp [hp]), if_neg (by simp [hh])]
  case read =>
    intro w a l ha h m1
    have hexec (fails : Nat) (scrub : Bool) : exec (.hbmRead w a fails scrub) s = .next (s.on (s.chip.hbmRead w a fails scrub)) := by
      show execHbmRead w a fails scrub s = _
      rw [execHbmRead, onHbm_eq hm]
    refine ⟨?_, ?_, ?_, fun hb => ?_, fun hb hpos hend => ?_⟩
    · rw [hexec, hbmRead_demand h ha]
      rfl
    · rw [hexec, hbmRead_demand h ha]
      rfl
    · rw [hexec, hbmRead_demand h ha]
      rfl
    · rw [hexec, hbmRead_scrub_bad h ha w hb]
    · rw [hexec, hbmRead_scrub_pass h w hb hpos hend]
  case write =>
    intro w a l d h hd hmir m1
    have hexec (fails : Nat × Nat) : exec (.hbmWrite w a d fails) s =
        .next (s.on (((s.chip.stackBytes i a d.length true).hbmWrite a d w fails).tagWrite w a d.length none)) := by
      show execHbmWrite w a d fails s = _
      rw [execHbmWrite, onHbm_eq hm, hbmPut_stack (h.region hd) hmir, h.line]
    have hgood : (s.chip.stackBytes i a d.length true).badBlocks a d.length = [] := h.good
    refine ⟨?_, fun hin hlt => ?_⟩
    · rw [hexec, hbmWrite_noFail hgood hd]
    · rw [hexec, hbmWrite_fails_twice hgood hd w hin hlt]
  case grant =>
    intro j hj
    show execFreightDrayGrant s = _
    rw [execFreightDrayGrant, onHbm_eq hm]
    cases hw : j.work <;> simp only [Chip.freightGrant, hj, hw]
  case jobEnd =>
    intro id j x hj hw
    show execFreightJobEnd id s = _
    rw [execFreightJobEnd, onHbm_eq hm, freightEnd_xfer hj hw]
  case raise =>
    intro hb
    show execWritebackRaise i s = _
    rw [execWritebackRaise, onChip_eq, raiseWritebacks_busy hb]
  case patrol =>
    intro hp hb h8
    show execPatrolStart i s = _
    rw [execPatrolStart, onChip_eq, patrolStart_begins hp hb h8]

end Sys2Proof.Machine

/-! PROOFS. Acceptance of an invalidation descriptor, and the posted writes that waited behind one (R358, R360). -/
namespace Sys2Proof.Machine

theorem drainLog_xlat (n : Nvm) (m : Chip) : (drainLog n m).2.xlat = m.xlat := by
  unfold drainLog; split <;> rfl

/-- The translation unit after INVAL_ACCEPT, once the posted writes that waited have gone on. -/
theorem exec_invalAccept_xlat {s : State} {m b : Chip} (h : exec .invalAccept (s.on m) = .next ((s.on m).on b)) :
    b.xlat = (postedAll (s.nvm, m.invalAccept)).2.xlat :=
  (congrArg (fun t : State => t.chip.xlat) (Host.Outcome.next.inj h)).symm.trans (drainLog_xlat _ _)

section
variable {m : Chip} {d : InvDesc} {t : List InvDesc}

/-- A descriptor that is not bad is accepted: what it removes leaves after the registers show it. -/
theorem invalAccept_good (hf : m.xlat.fifo = d :: t) (hd : d.bad = false) : m.invalAccept =
    ((Chip.syncFifo { m with xlat := { m.xlat with
        fifo := t ++ m.xlat.stalled.take 1, stalled := m.xlat.stalled.drop 1
        drains := m.xlat.drains ++ [⟨d, false, m.xlat.ser, m.counter 32, false⟩] } }).setFld
      K.invalLastAcc F.invalLastAccSeq d.seq).invalidate d := by
  unfold Chip.invalAccept
  simp only [hf, hd, Bool.false_eq_true, if_false]

theorem invalAccept_fifo (hf : m.xlat.fifo = d :: t) (hd : d.bad = false) :
    m.invalAccept.xlat.fifo = t ++ m.xlat.stalled.take 1 := by
  rw [invalAccept_good hf hd]
  rfl

theorem invalAccept_stalled (hf : m.xlat.fifo = d :: t) (hd : d.bad = false) :
    m.invalAccept.xlat.stalled = m.xlat.stalled.drop 1 := by
  rw [invalAccept_good hf hd]
  rfl

theorem invalAccept_host (hf : m.xlat.fifo = d :: t) (hd : d.bad = false) : m.invalAccept.host = m.host := by
  rw [invalAccept_good hf hd]
  rfl

theorem linkUp_invalAccept (hf : m.xlat.fifo = d :: t) (hd : d.bad = false) (l : Fin 2) :
    m.invalAccept.linkUp l.val = m.linkUp l.val := by
  have hacc : K.hostifLinkStat l.val ≠ K.invalLastAcc := by revert l; decide
  have hstat : K.hostifLinkStat l.val ≠ K.invalFifoStat := by revert l; decide
  rw [invalAccept_good hf hd]
  refine congrArg F.hostifLinkStatUp.bit ?_
  refine (reg_setFld_ne _ _ _ hacc).trans ?_
  exact (reg_setFld_ne _ _ _ hstat).trans (reg_setFld_ne _ _ _ hstat)

end

theorem postedAll_mcast {n : Nvm} {m : Chip} {l : Fin 2} {a : Nat} {bytes : List Byte} (h : m.host.behind = [(l, .mcast a bytes)]) :
    postedAll (n, m) = (n, Chip.invalMulticast { m with host := { m.host with behind := [] } } l a bytes) := by
  unfold postedAll
  rw [h]
  rfl

/-- The descriptor that 32 bytes spell, on link `l`. -/
def descOf (l : Fin 2) (bytes : List Byte) : InvDesc :=
  ⟨Vector.ofFn fun i => BitVec.ofNat 64 (leNat ((bytes.drop (8 * i.val)).take 8)), l⟩

theorem invalMulticast_descriptor {m : Chip} {l : Fin 2} {a : Nat} {bytes : List Byte} (hup : m.linkUp l.val = true)
    (hin : m.inMulticast l a = true) (hgo : m.linkStalled l = false) (ha : a % 32 = 0) (hl : bytes.length = 32) :
    m.invalMulticast l a bytes = m.invalPut (descOf l bytes) := by
  unfold Chip.invalMulticast
  simp only [hup, hin, hgo, ha, hl, Bool.not_true, Bool.or_self, Bool.false_eq_true, if_false, and_self, if_true]
  rfl

/-- A descriptor that finds the FIFO full waits on its link. -/
theorem invalPut_full {m : Chip} (h : 256 ≤ m.xlat.fifo.length) (d : InvDesc) :
    (m.invalPut d).xlat.stalled = m.xlat.stalled ++ [d] := by
  unfold Chip.invalPut
  rw [if_neg (by omega)]
  rfl

/-- A descriptor that waited behind one of its link, and finds the FIFO full, waits on the link itself. -/
theorem postedAll_stalled {n : Nvm} {m : Chip} {l : Fin 2} {a : Nat} {bytes : List Byte} (hb : m.host.behind = [(l, .mcast a bytes)])
    (hup : m.linkUp l.val = true) (hin : m.inMulticast l a = true) (hs : m.xlat.stalled = []) (hfull : 256 ≤ m.xlat.fifo.length)
    (ha : a % 32 = 0) (hl : bytes.length = 32) : (postedAll (n, m)).2.xlat.stalled = [descOf l bytes] := by
  have hgo : Chip.linkStalled { m with host := { m.host with behind := [] } } l = false := by
    unfold Chip.linkStalled
    simp only [hs, List.any_nil, Bool.or_self]
  rw [postedAll_mcast hb, invalMulticast_descriptor (by exact hup) (by exact hin) hgo ha hl]
  exact (invalPut_full (by exact hfull) _).trans (congrArg (· ++ _) hs)

/-- An invalidation of everything, from link 0. -/
def wholeDesc : InvDesc := ⟨#v[3, 0, 0, 0], 0⟩

/-- Link 0 is up and receives group 0 of its multicast window. 256 descriptors fill the FIFO, one more waits on the link, and the
32 bytes of another wait behind it. -/
def crowdedChip : Chip := Chip.setReg { Chip.reset with
  xlat := { Xlat.reset with fifo := List.replicate 256 wholeDesc, stalled := [wholeDesc] }
  host := { HostIf.reset with
    mcBase := #v[0x1000, 0], mcSize := #v[0x100, 0], mcRecv := #v[1, 0], behind := [(0, .mcast 0x1000 (List.replicate 32 0))] } }
  (K.hostifLinkStat 0) 1

theorem crowded_fifo : crowdedChip.xlat.fifo = wholeDesc :: List.replicate 255 wholeDesc := List.replicate_succ

theorem crowded_linkUp : crowdedChip.linkUp 0 = true := by
  have hstat : crowdedChip.reg (K.hostifLinkStat 0) = 1 := by rw [crowdedChip, reg_setReg_same]
  exact (congrArg F.hostifLinkStatUp.bit hstat).trans (by decide)

theorem crowded_inMulticast {m : Chip} (h : m.host = crowdedChip.host) : m.inMulticast 0 0x1000 = true := by
  unfold Chip.inMulticast
  rw [h, crowdedChip, setReg_host]
  decide

/-- The descriptor that waited on the link takes the free slot of the FIFO, and the one behind it waits on the link now. -/
theorem crowded_stalled (n : Nvm) :
    (postedAll (n, crowdedChip.invalAccept)).2.xlat.stalled = [descOf 0 (List.replicate 32 0)] := by
  have hgood : wholeDesc.bad = false := by decide
  have hhost := invalAccept_host crowded_fifo hgood
  have hfull : 256 ≤ crowdedChip.invalAccept.xlat.fifo.length := by
    rw [invalAccept_fifo crowded_fifo hgood, List.length_append, List.length_replicate]
    decide
  exact postedAll_stalled (congrArg HostIf.behind hhost) ((linkUp_invalAccept crowded_fifo hgood 0).trans crowded_linkUp)
    (crowded_inMulticast hhost) (invalAccept_stalled crowded_fifo hgood) hfull rfl List.length_replicate

/-- Refutes O51: when the FIFO of 256 is full, one descriptor waits on link 0 and a multicast write with another waits behind it, the
acceptance of the head lets both go on (R358): the first takes the free slot and the second waits on the link in its place, where the
statement asks that none is left waiting there. -/
theorem not_invalidationDrainsAndCompletes : ¬ Obligations.InvalidationDrainsAndCompletes := by
  unfold Obligations.InvalidationDrainsAndCompletes
  intro h
  obtain ⟨-, haccept, -, -⟩ := h (State.reset.on crowdedChip)
  obtain ⟨b, hexec, -, -, hnone, -, -⟩ := haccept wholeDesc (List.replicate 255 wholeDesc) crowded_fifo
  have hone := (congrArg Xlat.stalled (exec_invalAccept_xlat hexec)).trans (crowded_stalled _)
  exact absurd (hone.symm.trans hnone) (List.cons_ne_nil _ _)

end Sys2Proof.Machine

/-! PROOFS. Records of the stage's log leave the shunter as it was (R445 to R449). -/
namespace Sys2Proof.Machine

/-! ### Events and records -/

@[simp] theorem event_sh (m : Chip) (p : PageId) (i : Nat) : (m.event p i).sh = m.sh :=
  (event_step m p i).keeps (·.sh) fun _ _ _ => rfl

@[simp] theorem record_sh (m : Chip) (p : PageId) (code : Nat) (w : BitVec 16) (detail addr : Option Nat) (d : Nat) :
    (m.record p code w detail addr d).sh = m.sh := by
  unfold Chip.record
  dsimp only
  split <;> split
  · rfl
  · rfl
  · exact event_sh _ _ _
  · exact event_sh _ _ _

/-! ### The slices and the stacks -/

@[simp] theorem modSlice_sh (m : Chip) (s : Nat) (f : Slice → Slice) : (m.modSlice s f).sh = m.sh := by
  rw [modSlice_rest]

@[simp] theorem wrBytes_sh (m : Chip) (a : Nat) (l : List Byte) : (m.wrBytes a l).sh = m.sh := by
  induction l generalizing m a with
  | nil => rfl
  | cons b t ih => exact ih (m.wrByte a b) (a + 1)

@[simp] theorem writeBack_sh (m : Chip) (s l : Nat) : (m.writeBack s l).sh = m.sh := by
  simp [Chip.writeBack]

@[simp] theorem displace_sh (m : Chip) (s : Nat) (d : DLine) : (m.displace s d).sh = m.sh := by
  unfold Chip.displace
  dsimp only
  repeat' split
  all_goals simp

@[simp] theorem allocate_sh (m : Chip) (s n : Nat) (dirty pf : Bool) : (m.allocate s n dirty pf).sh = m.sh := by
  unfold Chip.allocate
  dsimp only
  repeat' split
  all_goals simp

@[simp] theorem stackBytes_sh (m : Chip) (s a n : Nat) (write : Bool) : (m.stackBytes s a n write).sh = m.sh := by
  unfold Chip.stackBytes
  split <;> simp only [count_sh]

@[simp] theorem depotHit_sh (m : Chip) (s n : Nat) (d : DLine) (write : Bool) : (m.depotHit s n d write).sh = m.sh := by
  unfold Chip.depotHit
  split <;> simp

/-- A write trains no tracker. -/
@[simp] theorem depotTouch_write_sh (m : Chip) (w : BitVec 16) (cls a n : Nat) (noalloc : Bool) :
    (m.depotTouch w cls a n true noalloc).sh = m.sh := by
  unfold Chip.depotTouch
  dsimp only
  repeat' split
  all_goals simp_all

@[simp] theorem crcError_sh (m : Chip) (a detail : Nat) (w : BitVec 16) : (m.crcError a detail w).sh = m.sh := by
  simp [Chip.crcError, Chip.crcRecord]

@[simp] theorem mergeRead_sh (m : Chip) (b fails : Nat) (w : BitVec 16) : (m.mergeRead b fails w).sh = m.sh := by
  unfold Chip.mergeRead Chip.markBad
  repeat' split
  all_goals simp

@[simp] theorem hbmWrite_sh (m : Chip) (a : Nat) (l : List Byte) (w : BitVec 16) (fails : Nat × Nat) :
    (m.hbmWrite a l w fails).sh = m.sh := by
  unfold Chip.hbmWrite
  dsimp only
  split
  · rfl
  · exact (foldl_keeps (·.sh) (fun m b => mergeRead_sh m b _ _) _ _).trans (wrBytes_sh m a l)

@[simp] theorem crcNote_sh (m : Chip) (w : BitVec 16) (write noalloc : Bool) (a n : Nat) : (m.crcNote w write noalloc a n).sh = m.sh := by
  unfold Chip.crcNote
  split
  · rfl
  · refine foldl_keeps (·.sh) (fun m b => ?_) _ _
    dsimp only
    split
    · rfl
    · exact crcError_sh m _ _ _

@[simp] theorem coreWrite_sh (m : Chip) (w : BitVec 16) (c p off : Nat) (l : List Byte) : (m.coreWrite w c p off l).sh = m.sh := by
  unfold Chip.coreWrite
  split
  · rw [wrBytes_sh, count_sh]
  · rw [Chip.unpowered, event_sh, record_sh]

/-! ### What the stage controller writes -/

@[simp] theorem addrRange_sh (m : Chip) (s : Nat) (w : BitVec 16) (a : Nat) (shape : Bool) : (m.addrRange s w a shape).sh = m.sh := by
  rw [Chip.addrRange, event_sh, record_sh]

/-- The stage controller writes mirrors too, and its writes carry no class (R435, R437). -/
theorem devWrite_stage_sh (m : Chip) (cls a : Nat) (l : List Byte) : (m.devWrite stageId cls a l false none).1.sh = m.sh := by
  have htag (b : Chip) (n : Nat) : b.tagWrite stageId a n none = b := if_pos rfl
  unfold Chip.devWrite
  split
  case h_1 =>
    rw [if_neg (by simp)]
    dsimp only
    rw [htag]
    split
    · rw [hbmWrite_sh, depotTouch_write_sh]
    · rw [wrBytes_sh, depotTouch_write_sh]
  case h_2 =>
    dsimp only
    split_ifs
    · exact addrRange_sh _ _ _ _ _
    · exact addrRange_sh _ _ _ _ _
    · rw [htag, wrBytes_sh]
  case h_3 => exact addrRange_sh _ _ _ _ _
  case h_4 =>
    split
    · exact coreWrite_sh _ _ _ _ _ _
    · rw [Chip.rowAccess, event_sh, record_sh]
  case h_5 => rfl

@[simp] theorem stageWrite_sh (m : Chip) (cls a : Nat) (l : List Byte) : (m.stageWrite cls a l).sh = m.sh := by
  rw [Chip.stageWrite, devWrite_stage_sh, crcNote_sh]

@[simp] theorem areaWrite_sh (m : Chip) (a : Nat) (l : List Byte) : (m.areaWrite a l).sh = m.sh := by
  unfold Chip.areaWrite
  refine foldl_keeps (·.sh) (fun m p => ?_) _ _
  dsimp only
  split <;> simp

@[simp] theorem checkFilling_sh (m : Chip) : m.checkFilling.sh = m.sh := by
  unfold Chip.checkFilling Chip.requestPost
  dsimp only
  split <;> simp

@[simp] theorem logAppend_sh (m : Chip) (r : LogRec) : (m.logAppend r).sh = m.sh := by
  have hrest (a : Chip) : (Chip.setFld { a with stg := { a.stg with log := a.stg.log ++ [r] } } K.stageLogUsed F.stageLogUsedBytes
      (m.logUsed + r.size)).sh = a.sh := rfl
  exact (hrest _).trans (areaWrite_sh m _ _)

@[simp] theorem logPut_sh (m : Chip) (r : LogRec) : (m.logPut r).sh = m.sh := by
  unfold Chip.logPut
  split
  · rfl
  split
  · rw [Chip.requestPost, setFld_sh, setFld_sh]
  · rw [checkFilling_sh, logAppend_sh]

@[simp] theorem logData_sh (m : Chip) (kind : LogKind) (w : BitVec 16) (task : W16) (value : Nat) (payload : List Byte) :
    (m.logData kind w task value payload).sh = m.sh := logPut_sh m _

@[simp] theorem emitRead_sh (m : Chip) (f a n id : Nat) (tags : List Nat) : (m.emitRead f a n id tags).sh = m.sh := by
  unfold Chip.emitRead
  exact foldl_keeps (·.sh) (fun m p => emit_sh m _) _ _

end Sys2Proof.Machine

/-! PROOFS. Entries of the submission queues are taken and carried out, and tasks are placed, dispatched, switched, sided, ended and
moved (R368, R377 to R399). -/
namespace Sys2Proof.Machine

/-! ### ENTRY_TAKE (R377) -/

/-- The link and the address of the slot of queue `q` that is taken next. -/
def Chip.sqSlot (m : Chip) (q : Nat) : Nat × Nat :=
  m.hostRoute (m.fld (K.doorbellSqBase q) F.doorbellSqBaseAddr * 4096 + m.fld (K.doorbellSqHead q) F.doorbellSqHeadIndex * 64)

/-- The part, live, once the slot has been read and the entry `w` in it counted and logged. -/
def Chip.entryRead (m : Chip) (q : Nat) (w : Vector W64 8) : Chip :=
  let index := m.fld (K.doorbellSqHead q) F.doorbellSqHeadIndex
  let r := m.sqSlot q
  let f := linkPf r.1
  let m1 := (m.emitRead f r.2 64 m.host.nextId (m.freeTags r.1 (m.readParts f r.2 64).length)).setFld (K.doorbellSqHead q)
    F.doorbellSqHeadIndex ((index + 1) % m.sqSize q)
  Chip.logData (Chip.count { m1 with host := { m1.host with nextId := m1.host.nextId + 1 } } (K.doorbellEntries q) 1) .entry shuntId 0
    (q + index * 2 ^ 16) (w.toList.flatMap fun v => leBytes 8 v.toNat)

theorem entryRead_sh (m : Chip) (q : Nat) (w : Vector W64 8) : (m.entryRead q w).sh = m.sh := by
  unfold Chip.entryRead
  simp only [logData_sh, count_sh, setFld_sh, emitRead_sh]

/-- An entry whose header is in order waits for its turn. -/
theorem putEntry_good {m : Chip} {w : Vector W64 8} (h : badHeader w = false) (q i : Nat) :
    m.putEntry q i w = m.modShunt fun s => { s with
      entries := s.entries ++ [⟨q, i, m.sh.taken, w, m.sh.order, false, 0⟩], order := s.order + 1, taken := s.taken + 1 } :=
  if_neg (by simp [h])

/-- The shunter goes, live, no entry waits for a BAD_TYPE completion alone, and the ring of queue `q` can be read. -/
structure TakesLive (m : Chip) (q : Nat) : Prop where
  goes : m.shuntGoes = true
  live : m.reexec = false
  good : ∀ e ∈ m.sh.entries, badHeader e.words = false
  up : m.linkUp (m.sqSlot q).1 = true
  bme : m.bme (linkPf (m.sqSlot q).1) = true
  room : m.readsOut (m.sqSlot q).1 + (m.readParts (linkPf (m.sqSlot q).1) (m.sqSlot q).2 64).length ≤ 768

namespace TakesLive

variable {m : Chip} {q : Nat} {w : Vector W64 8} (h : TakesLive m q)
include h

theorem noBadHeader : (m.sh.entries.find? fun e => badHeader e.words) = none :=
  List.find?_eq_none.mpr fun e he => by simp [h.good e he]

theorem entryTake_eq (hq : m.nextQueue (decide (2048 ≤ m.tasksHeld)) = some q) : m.entryTake q w =
    if (decide (2048 ≤ m.tasksHeld) && entryType w[0] == tTask) = true then m.modShunt fun s => { s with skip := q :: s.skip }
    else if m.logStalls 64 = true then m.logBlocked
    else ((m.entryRead q w).modShunt fun s =>
        { s with last := q, skip := if decide (2048 ≤ m.tasksHeld) = true then s.skip else [] }).putEntry q
      (m.fld (K.doorbellSqHead q) F.doorbellSqHeadIndex) w := by
  have hroom := h.room
  have hup := h.up
  have hbme := h.bme
  unfold Chip.sqSlot at hroom hup hbme
  unfold Chip.entryTake
  simp only [h.goes, h.live, h.noBadHeader, hq, hup, hbme, Nat.not_lt.mpr hroom, bne_self_eq_false, Bool.not_true, Bool.or_self,
    decide_false, Bool.false_eq_true, if_false]
  rfl

/-- An entry is taken under the next order number. -/
theorem entryTake_takes (hq : m.nextQueue false = some q) (hheld : m.tasksHeld < 2048) (hlog : m.logStalls 64 = false)
    (hw : badHeader w = false) : (m.entryTake q w).sh = { m.sh with
      last := q, skip := [], order := m.sh.order + 1, taken := m.sh.taken + 1
      entries := m.sh.entries ++
        [⟨q, m.fld (K.doorbellSqHead q) F.doorbellSqHeadIndex, m.sh.taken, w, m.sh.order, false, 0⟩] } := by
  have hfull : decide (2048 ≤ m.tasksHeld) = false := decide_eq_false (Nat.not_le.mpr hheld)
  rw [h.entryTake_eq (by rw [hfull]; exact hq), hfull, putEntry_good hw]
  simp only [hlog, Bool.false_and, Bool.false_eq_true, if_false, modShunt_sh, entryRead_sh]

/-- While 2,048 tasks are held a TASK stays in its ring, and its queue is passed over. -/
theorem entryTake_passes (hq : m.nextQueue true = some q) (hheld : 2048 ≤ m.tasksHeld) (hw : entryType w[0] = 0x01) :
    m.entryTake q w = m.modShunt fun s => { s with skip := q :: s.skip } := by
  have hfull : decide (2048 ≤ m.tasksHeld) = true := decide_eq_true hheld
  rw [h.entryTake_eq (by rw [hfull]; exact hq), hfull, if_pos (by simp [hw])]

end TakesLive

/-! ### The entries (R368, R379, R382, R383) -/

section
variable {m : Chip} {e : SEntry}

theorem taskEntry_rejects (h : EntryNext m 0x01 (fun _ => true) e) {k : W16}
    (hbad : badTask (m.taskOf e k) = true ∨ m.asidOk e.queue (m.taskOf e k).asid = false) : m.taskEntry k = m.finish e stBadArg 0 := by
  unfold Chip.taskEntry
  simp only [h.free, h.next, Bool.false_eq_true, if_false]
  exact if_pos (by simpa using hbad)

theorem taskEntry_accepts (h : EntryNext m 0x01 (fun _ => true) e) {k : W16} (hgood : badTask (m.taskOf e k) = false)
    (hasid : m.asidOk e.queue (m.taskOf e k).asid = true) (hk : k ≠ 0) (hnone : m.task k = none) (hfits : m.handleFits e k = true) :
    m.taskEntry k = { m with
      sh := { m.sh with entries := m.sh.entries.filter (·.order != e.order), tasks := m.sh.tasks ++ [m.taskOf e k] }
      stg := { m.stg with given := (e.ord, k) :: m.stg.given } } := by
  unfold Chip.taskEntry
  simp only [h.free, h.next, hgood, hasid, hk, hnone, hfits, Option.isSome_none, Bool.not_true, Bool.or_self, Bool.false_eq_true, or_self,
    if_false]
  rfl

theorem xferEntry_rejects {ty : Nat} {f : SEntry → Nat → Option Xfer} (h : EntryNext m ty (fun f => !f.started) e)
    (hbad : m.privOk e.queue = false ∨ f e m.sh.nextXfer = none) : m.xferEntry ty f = m.finish e stBadArg 0 := by
  unfold Chip.xferEntry
  simp only [h.free, h.next, Bool.false_eq_true, if_false]
  rcases hbad with hpriv | hx
  · simp only [hpriv, Bool.not_false, if_true]
  · simp only [hx, ite_self]

theorem xferEntry_starts {ty : Nat} {f : SEntry → Nat → Option Xfer} {x : Xfer} (h : EntryNext m ty (fun f => !f.started) e)
    (hpriv : m.privOk e.queue = true) (hx : f e m.sh.nextXfer = some x) : m.xferEntry ty f = m.xferStart e x := by
  unfold Chip.xferEntry
  simp only [h.free, h.next, hpriv, hx, Bool.not_true, Bool.false_eq_true, if_false]

theorem postEntry_noTask (h : EntryNext m 0x03 (fun _ => true) e) (ht : m.taskByTag e.queue e.words = none) :
    m.postEntry = m.finish e stNoTask 0 := by
  unfold Chip.postEntry
  simp only [h.free, h.next, ht, Bool.false_eq_true, if_false]

theorem postEntry_posts {t : Task} {b : Chip} (h : EntryNext m 0x03 (fun _ => true) e) (ht : m.taskByTag e.queue e.words = some t)
    (hb : (m.postTask t).entryEnds e 0 0 b) : m.postEntry = b := by
  obtain ⟨c, hc, rfl⟩ := hb
  unfold Chip.postEntry
  simp only [h.free, h.next, ht, hc, Bool.false_eq_true, if_false]

theorem endEntry_completes (h : EntryNext m 0x04 (fun f => f.started && (m.task f.aim).isNone) e) : m.endEntry = m.finish e stOk 0 := by
  unfold Chip.endEntry
  simp only [h.free, h.next, Bool.false_eq_true, if_false]

section
variable (h : EntryNext m 0x04 (fun f => !f.started) e) (hnone : m.nextEntry 0x04 (fun f => f.started && (m.task f.aim).isNone) = none)
include h hnone

theorem endEntry_noTask (ht : m.taskByTag e.queue e.words = none) : m.endEntry = m.finish e stNoTask 0 := by
  unfold Chip.endEntry
  simp only [h.free, hnone, h.next, ht, Bool.false_eq_true, if_false]

theorem endEntry_marks {t : Task} (ht : m.taskByTag e.queue e.words = some t) :
    m.endEntry = (m.startEntryOf e t.handle).markEnding t.handle stEnded 0 := by
  unfold Chip.endEntry
  simp only [h.free, hnone, h.next, ht, Bool.false_eq_true, if_false]

end

section
variable (h : EntryNext m 0x11 (fun _ => true) e)
include h

theorem adviseEntry_badRange (ha : adviseOf e.words = none) : m.adviseEntry = m.finish e stBadArg 0 := by
  unfold Chip.adviseEntry
  simp only [h.free, h.next, ha, Bool.false_eq_true, if_false]

variable {a : XAdvice} (ha : adviseOf e.words = some a) (hasid : m.asidOk e.queue a.asid.toNat = true)
include ha hasid

theorem adviseEntry_withdraws {b : Chip} (h4 : a.attr = 4)
    (hb : Chip.entryEnds (Chip.syncAdvice { m with xlat := { m.xlat with advice := m.xlat.advice.filter fun b =>
      !(b.asid == a.asid && decide (a.page ≤ b.page ∧ b.page + b.pages ≤ a.page + a.pages)) } }) e 0 0 b) : m.adviseEntry = b := by
  obtain ⟨c, hc, rfl⟩ := hb
  unfold Chip.adviseEntry
  simp only [h.free, h.next, ha, hasid, h4, hc, Bool.not_true, Bool.false_eq_true, if_false, if_true]

theorem adviseEntry_full (h4 : a.attr ≠ 4) (hfull : 256 ≤ m.xlat.advice.length) : m.adviseEntry = m.finish e stNoSpace 0 := by
  unfold Chip.adviseEntry
  simp only [h.free, h.next, ha, hasid, h4, hfull, Bool.not_true, Bool.false_eq_true, if_false, if_true]

theorem adviseEntry_advises {b : Chip} (h4 : a.attr ≠ 4) (hroom : m.xlat.advice.length < 256)
    (hb : Chip.entryEnds (Chip.syncAdvice { m with xlat := { m.xlat with advice := m.xlat.advice ++ [a] } }) e 0 0 b) :
    m.adviseEntry = b := by
  obtain ⟨c, hc, rfl⟩ := hb
  unfold Chip.adviseEntry
  simp only [h.free, h.next, ha, hasid, h4, Nat.not_le.mpr hroom, hc, Bool.not_true, Bool.false_eq_true, if_false]

end

end

/-! ### Placement, dispatch and switches (R387, R391, R392, R397) -/

theorem taskPlace_places {m : Chip} {t : Task} {p : Fin 64 × Nat × Nat × Nat} {l : List Task} (hgo : m.shuntGoes = true)
    (hstep : ∀ u ∈ m.endFenced.sh.tasks, m.endFenced.placeStep u = false) (hwait : m.endFenced.waitingTasks = t :: l)
    (hp : m.endFenced.placeOf t = some p) : m.taskPlace = m.endFenced.placeAt t p := by
  have hnone : m.endFenced.sh.tasks.find? m.endFenced.placeStep = none := List.find?_eq_none.mpr fun u hu => by simp [hstep u hu]
  unfold Chip.taskPlace
  simp only [hgo, hnone, hwait, List.findSome?_cons, hp, Option.map_some, Bool.not_true, Bool.false_eq_true, if_false]

theorem taskDispatch_best {m : Chip} {x : Ctx} {t : Task} (hgo : m.shuntGoes = true) (hidle : (m.ctx x).st = .idle)
    (ht : bestTask (m.readyFor x) = some t) (hfor : t.forTask = none) : m.taskDispatch x = m.enterCtx x t := by
  unfold Chip.taskDispatch
  simp [hgo, hidle, ht, hfor]

theorem decideSwitch_leaves (m : Chip) (x : Ctx) (u : Task) (h : HubStop) (t : W16) : m.decideSwitch x u h t = m.leaves x u h t := rfl

theorem taskSwitch_best {m : Chip} {t : Task} {v : Ctx × Task} (hgo : m.shuntGoes = true)
    (ht : bestTask (m.sh.tasks.filter fun t => m.wantsSwitch t && (m.victimOf t).isSome) = some t) (hv : m.victimOf t = some v) :
    m.taskSwitch = m.leaves v.1 v.2 .switch t.handle := by
  unfold Chip.taskSwitch
  simp only [hgo, ht, hv, decideSwitch_leaves, Bool.not_true, Bool.false_eq_true, if_false]

section
variable {m : Chip} {x : Ctx} {u t : Task} (hgo : m.shuntGoes = true) (hu : m.task (m.ctx x).task = some u) (hst : u.st = .running)
  (hend : u.ending = none)
include hgo hu hst hend

theorem sliceExpire_leaves (hsl : m.fld K.shuntShuntCtl F.shuntShuntCtlSlice ≠ 0)
    (ht : bestTask ((m.readyFor x).filter fun t => t.prio == u.prio) = some t) :
    let due := u.disp.toNat + m.fld K.shuntShuntCtl F.shuntShuntCtlSlice * 40000
    m.sliceExpire x = (m.setDom 32 fun d => { d with count := if d.count.toNat < due then BitVec.ofNat 64 due else d.count }).leaves
      x u .switch t.handle := by
  unfold Chip.sliceExpire
  simp [hgo, hu, hst, hend, hsl, ht, decideSwitch_leaves]

theorem vlimitSwitch_leaves (hx : x.aft = true) (hclaim : (m.coach x.coach).vown.claimA = true)
    (hlimit : (m.coach x.coach).vown.limitA = true) (ht : bestTask (m.readyFor x) = some t) : m.vlimitSwitch x.coach = m.leaves x u .yield t.handle := by
  obtain ⟨c, aft⟩ := x
  obtain rfl : aft = true := hx
  unfold Chip.vlimitSwitch
  simp [hgo, hu, hst, hend, hclaim, hlimit, ht, decideSwitch_leaves]

end

/-! ### Siding and ends (R394, R396) -/

section
variable {m : Chip} {r : XReq × W16} {l : List (XReq × W16)} {t : Task} (hfree : m.shuntHold = false) (hside : m.xlat.toSide = r :: l)
  (ht : m.task r.2 = some t)
include hfree hside ht

theorem sideTask_stops {x : Ctx} (hx : m.ctxOf r.2 = some x) (hend : t.ending = none) :
    m.sideTask = (Chip.askStop { m with xlat := { m.xlat with toSide := l } } x .side).modTask t.handle fun t =>
      { t with st := .leaving } := by
  have ht' : Chip.task { m with xlat := { m.xlat with toSide := l } } r.2 = some t := ht
  have hx' : Chip.ctxOf { m with xlat := { m.xlat with toSide := l } } r.2 = some x := hx
  unfold Chip.sideTask
  simp only [hside, hfree, ht', hx', hend, Option.isSome_none, Bool.false_eq_true, if_false]

/-- A task that has left its context meanwhile is sided where it stands. -/
theorem sideTask_sides (hx : Chip.ctxOf { m with xlat := { m.xlat with toSide := l } } r.2 = none) (hst : t.st = .ready)
    (hheld : Chip.taskHeld { m with xlat := { m.xlat with toSide := l } } t.handle = true) :
    m.sideTask = (Chip.modTask { m with xlat := { m.xlat with toSide := l } } t.handle fun t => { t with st := .sided }).count
      K.shuntSidings 1 := by
  have ht' : Chip.task { m with xlat := { m.xlat with toSide := l } } r.2 = some t := ht
  unfold Chip.sideTask
  simp only [hside, hfree, ht', hx, hst, hheld, beq_self_eq_true, Bool.and_self, Bool.false_eq_true, if_false, if_true]

end

theorem taskEnd_ends {m : Chip} {h : W16} {t : Task} {st : Nat} {res : W32} {b : Chip} (ht : m.task h = some t)
    (hend : t.ending = some (st, res)) (hx : m.ctxOf h = none) (hrb : m.stg.rb = .none) (hb : m.endTask t st res.toNat = some b) :
    m.taskEnd h = b := by
  unfold Chip.taskEnd
  simp [ht, hend, hx, hrb, hb]

/-- A running END command ends its task (R403). -/
theorem taskEnd_marks {m : Chip} {h : W16} {t : Task} (ht : m.task h = some t) (hend : t.ending = none) (hbusy : m.busy shuntPage = true)
    (hcode : m.cmdCode shuntPage = 1) (harg : m.cmdArg shuntPage = h.toNat) (hfree : m.shuntHold = false) :
    m.taskEnd h = m.markEnding h stEnded 0 := by
  unfold Chip.taskEnd
  simp [ht, hend, hbusy, hcode, harg, hfree]

/-! ### Relocation (R399) -/

theorem setCms_sh (m : Chip) (c : Fin 64) (a : Nat) (l : List W16) : (m.setCms c a l).sh = m.sh := by
  rw [(setCms_step c l m a).chip]

theorem putCells_sh (m : Chip) (lo n : Nat) (l : SMap MByte) : (m.putCells lo n l).sh = m.sh := by
  rw [Chip.putCells, zeroMem_rest]

theorem powerRows_sh (m : Chip) (c r n : Nat) : (m.powerRows c r n).sh = m.sh := by
  refine foldl_keeps (·.sh) (fun m q => ?_) _ _
  dsimp only
  rw [setFld_sh, setFld_sh, zeroMem_rest]

theorem setPart_sh (m : Chip) (c i : Nat) (v : W64) : (m.setPart c i v).sh = m.sh := by
  rw [Chip.setPart, Chip.bumpGen, count_sh, setReg_sh]

/-- The part once the rows, the words and the partition of a task have moved from coach `c` to coach `d`, and the engine it leaves
names it no longer. -/
def Chip.movedParts (m : Chip) (c d : Fin 64) (t : Task) : Chip :=
  let v := m.reg (K.cmemPart c.val t.part)
  let n := t.mlim + 1
  let m1 := (m.powerRows d.val t.row n).putCells (rowAddr d.val t.row) (n * 512) (m.cellsOf (rowAddr c.val t.row) (n * 512))
  let words := (List.range (t.clim + 1)).map fun i => m.cmWord c (t.cbase + i)
  let m2 := ((m1.setCms d t.cbase words).setPart d.val t.part v).setPart c.val t.part (F.cmemPartValid.put v 0)
  if (m.coach c).vown.tag = t.handle then
    (m2.modVec c fun k => { k with q := [] }).modVown c fun v => { v with tag := 0, dirty := false }
  else m2

theorem movedParts_sh (m : Chip) (c d : Fin 64) (t : Task) : (m.movedParts c d t).sh = m.sh := by
  unfold Chip.movedParts
  dsimp only
  split
  · rw [modVown_sh, modVec_sh, setPart_sh, setPart_sh, setCms_sh, putCells_sh, powerRows_sh]
  · rw [setPart_sh, setPart_sh, setCms_sh, putCells_sh, powerRows_sh]

/-- A task as it stands on coach `d`, once it has moved there. -/
def Chip.movedTask (m : Chip) (d : Fin 64) (h : W16) (t : Task) : Task :=
  { t with coach := d.val, st := if m.taskHeld h then .sided else .ready, since := m.sh.order, solo := false }

theorem moveTask_eq (m : Chip) (c d : Fin 64) (t : Task) : m.moveTask c d t =
    ((m.movedParts c d t).modTask t.handle (m.movedTask d t.handle)).modShunt fun s => { s with order := s.order + 1 } := rfl

theorem moveTask_tasks (m : Chip) (c d : Fin 64) (t : Task) :
    (m.moveTask c d t).sh.tasks = m.sh.tasks.map fun u => if u.handle = t.handle then m.movedTask d t.handle u else u := by
  rw [moveTask_eq, modShunt_sh, Chip.modTask, movedParts_sh]

/-- A stranded task has not moved. -/
theorem stranded_of_moveTask {m : Chip} {c d : Fin 64} {t u : Task} (hu : u ∈ (m.moveTask c d t).sh.tasks) (hs : u.st = .stranded) :
    u ∈ m.sh.tasks ∧ u.handle ≠ t.handle := by
  rw [moveTask_tasks] at hu
  obtain ⟨v, hv, rfl⟩ := List.mem_map.mp hu
  by_cases hh : v.handle = t.handle
  · rw [if_pos hh, Chip.movedTask] at hs
    cases hheld : m.taskHeld t.handle <;> simp [hheld] at hs
  · rw [if_neg hh]
    exact ⟨hv, hh⟩

theorem stranded_of_moves {c d : Fin 64} {u : Task} (hs : u.st = .stranded) (g : List Task) {m : Chip}
    (hu : u ∈ (g.foldl (fun m t => m.moveTask c d t) m).sh.tasks) : u ∈ m.sh.tasks ∧ ∀ t ∈ g, u.handle ≠ t.handle := by
  induction g generalizing m with
  | nil => exact ⟨hu, fun t ht => absurd ht List.not_mem_nil⟩
  | cons t g ih =>
    obtain ⟨hmoved, hrest⟩ := ih hu
    obtain ⟨hin, hne⟩ := stranded_of_moveTask hmoved hs
    exact ⟨hin, List.forall_mem_cons.mpr ⟨hne, hrest⟩⟩

/-- Once the group of a fenced coach has moved, no stranded task is left there. -/
theorem strandedOf_moveGroup (m : Chip) (c d : Fin 64) : (m.moveGroup c d (m.strandedOf c)).strandedOf c = [] := by
  refine List.eq_nil_iff_forall_not_mem.mpr fun u hu => ?_
  obtain ⟨hres, hst⟩ := List.mem_filter.mp hu
  obtain ⟨htask, hplaced⟩ := List.mem_filter.mp hres
  have hs : u.st = .stranded := by
    rw [Bool.and_eq_true] at hst
    exact eq_of_beq hst.1
  obtain ⟨hin, hne⟩ := stranded_of_moves hs _ htask
  exact hne u (List.mem_filter.mpr ⟨List.mem_filter.mpr ⟨hin, hplaced⟩, hst⟩) rfl

/-- Where no task of the group has split or is without a coach, and one coach takes them all, the group moves there. -/
theorem relocate_moves {m : Chip} {c d : Fin 64} (hf : m.fencedOff c = true) (hfree : m.shuntHold = false)
    (hdirty : (m.coach c).vown.dirty = false) (hne : m.endFenced.strandedOf c ≠ [])
    (hwhole : ∀ t ∈ m.endFenced.strandedOf c, t.solo = false ∧ m.endFenced.noCoach t = false)
    (hd : m.endFenced.targetFor (m.endFenced.strandedOf c) = some d) :
    m.relocate c = (m.endFenced.moveGroup c d (m.endFenced.strandedOf c)).clearParts c := by
  have hstay : (m.endFenced.strandedOf c).filter m.endFenced.noCoach = [] :=
    List.filter_eq_nil_iff.mpr fun t ht => by simp [hwhole t ht]
  have hall : (m.endFenced.strandedOf c).filter (!·.solo) = m.endFenced.strandedOf c :=
    List.filter_eq_self.mpr fun t ht => by simp [hwhole t ht]
  have hmove : m.endFenced.relocateAll c = m.endFenced.moveGroup c d (m.endFenced.strandedOf c) := by
    unfold Chip.relocateAll
    simp only [hall, hd, List.isEmpty_eq_false_iff.mpr hne, Bool.false_eq_true, if_false]
  unfold Chip.relocate Chip.relocateGo
  simp only [hf, hfree, hdirty, hstay, hmove, strandedOf_moveGroup, Bool.not_true, Bool.or_self, Bool.false_eq_true, if_false,
    List.filter_nil, List.foldl_nil]

/-- A row that acts on the chip alone. -/
theorem onChip_to {s : State} {b : Chip} (f : Chip → Chip) (h : f s.chip = b) : onChip f s = .next (s.on b) := by
  rw [onChip_eq, h]

/-- Settles O52, row by row. -/
theorem entriesAndTasksGoOn : Obligations.EntriesAndTasksGoOn := by
  unfold Obligations.EntriesAndTasksGoOn
  intro s m
  refine ⟨?take, ?task, ?others, ?contexts, ?stops, ?sides, ?ends, ?command, ?relocate⟩
  case take =>
    intro q w i r hgo hlive hgood hw hup hbme hroom
    have h : TakesLive m q.val := ⟨hgo, hlive, hgood, hup, hbme, hroom⟩
    exact ⟨fun hq hheld hlog => ⟨_, rfl, h.entryTake_takes hq hheld hlog hw⟩,
      fun hq hheld htask => onChip_to (·.entryTake q.val w) (h.entryTake_passes hq hheld htask)⟩
  case task =>
    intro e h k t
    exact ⟨fun hbad b hb => onChip_to (·.taskEntry k) ((taskEntry_rejects h hbad).trans (finish_ends hb)),
      fun hgood hasid hk hnone hfits => onChip_to (·.taskEntry k) (taskEntry_accepts h hgood hasid hk hnone hfits)⟩
  case others =>
    intro e
    refine ⟨fun h => ?xfer, fun h => ?migrate, fun h => ?post, fun h b hb => ?ended, fun h hnone => ?ending, fun h => ?advise⟩
    case xfer =>
      exact ⟨fun hbad b hb => onChip_to (·.xferEntry tXfer xferOf) ((xferEntry_rejects h hbad).trans (finish_ends hb)),
        fun x hpriv hx => onChip_to (·.xferEntry tXfer xferOf) (xferEntry_starts h hpriv hx)⟩
    case migrate =>
      exact ⟨fun hbad b hb => onChip_to (·.xferEntry tMigrate migrateOf) ((xferEntry_rejects h hbad).trans (finish_ends hb)),
        fun x hpriv hx => onChip_to (·.xferEntry tMigrate migrateOf) (xferEntry_starts h hpriv hx)⟩
    case post =>
      exact ⟨fun ht b hb => onChip_to _ ((postEntry_noTask h ht).trans (finish_ends hb)),
        fun t ht b hb => onChip_to _ (postEntry_posts h ht hb)⟩
    case ended => exact onChip_to _ ((endEntry_completes h).trans (finish_ends hb))
    case ending =>
      exact ⟨fun ht b hb => onChip_to _ ((endEntry_noTask h hnone ht).trans (finish_ends hb)),
        fun t ht => onChip_to _ (endEntry_marks h hnone ht)⟩
    case advise =>
      refine ⟨fun ha b hb => onChip_to _ ((adviseEntry_badRange h ha).trans (finish_ends hb)), fun a ha hasid => ⟨?_, ?_, ?_⟩⟩
      · exact fun h4 b hb => onChip_to _ (adviseEntry_withdraws h ha hasid h4 hb)
      · exact fun h4 hfull b hb => onChip_to _ ((adviseEntry_full h ha hasid h4 hfull).trans (finish_ends hb))
      · exact fun h4 hroom b hb => onChip_to _ (adviseEntry_advises h ha hasid h4 hroom hb)
  case contexts =>
    intro hgo
    refine ⟨?place, ?dispatch, ?switch, ?leave⟩
    case place =>
      intro n hmem t p l hstep hwait hp
      show onHbm Chip.taskPlace s = _
      rw [onHbm_eq hmem, taskPlace_places hgo hstep hwait hp]
    case dispatch => exact fun x t hidle ht hfor => onChip_to (·.taskDispatch x) (taskDispatch_best hgo hidle ht hfor)
    case switch => exact fun t v ht hv => onChip_to _ (taskSwitch_best hgo ht hv)
    case leave =>
      intro x u t hu hst hend
      exact ⟨fun hsl ht => onChip_to (·.sliceExpire x) (sliceExpire_leaves hgo hu hst hend hsl ht),
        fun hx hclaim hlimit ht => onChip_to (·.vlimitSwitch x.coach) (vlimitSwitch_leaves hgo hu hst hend hx hclaim hlimit ht)⟩
  case stops => exact fun r l t x hfree hside ht hx hend => onChip_to _ (sideTask_stops hfree hside ht hx hend)
  case sides => exact fun r l t hfree hside ht hx hst hheld => onChip_to _ (sideTask_sides hfree hside ht hx hst hheld)
  case ends => exact fun h t st res ht hend hx hrb b hb => onChip_to (·.taskEnd h) (taskEnd_ends ht hend hx hrb hb)
  case command =>
    exact fun h t ht hend hbusy hcode harg hfree => onChip_to (·.taskEnd h) (taskEnd_marks ht hend hbusy hcode harg hfree)
  case relocate =>
    intro c d hf hfree hdirty n g hne hwhole hd
    exact onChip_to (·.relocate c) (relocate_moves hf hfree hdirty hne hwhole hd)

end Sys2Proof.Machine

/-! PROOFS. What arrives on the Selfan ports: packets, acknowledgements and frames, replay, timeouts, training, lost locks, and the writes
that notify (R417 to R433). -/
namespace Sys2Proof.Machine

/-! ### A packet for this module (R417, R419) -/

theorem PacketRow.exec_eq {p : Fin 10} {f : Flits} {typ : PktType} {i : Sys2Proof.Instr} (h : PacketRow p f typ i) (s : State) :
    exec i s = .next (s.on (s.chip.flitsIn p typ f)) := by
  cases typ <;> (cases h; rfl)

/-- The counters of a port are no register of the COUPLE pages, so accepting a packet keeps the module's own address. -/
theorem accepted_ownAddr (m : Chip) (p : Fin 10) (lseq : BitVec 12) (k : Packet) : (m.accepted p lseq k).ownAddr = m.ownAddr := by
  have hcfg : (m.accepted p lseq k).reg (K.coupleCplCfg 0) = m.reg (K.coupleCplCfg 0) := by
    unfold Chip.accepted
    rw [reg_count, if_neg (by simp only [K.coupleCplCfg, K.linkRxBytes, pageBase]; omega),
      reg_count, if_neg (by simp only [K.coupleCplCfg, K.linkRxPkts, pageBase]; omega)]
    simp [Chip.reg, Chip.linkFlit, Chip.modPort]
  simp only [Chip.ownAddr, Chip.fld, hcfg]

/-- A packet that lands is accepted and handled; the link has nothing more to say. -/
theorem Lands.flitsIn_eq {m : Chip} {p : Fin 10} {f : Flits} {k : Packet} (h : Lands m p f k) :
    m.flitsIn p k.typ f = (m.accepted p f.lseq k).arrive p k := by
  have hhere : k.dst = (m.accepted p f.lseq k).ownAddr := h.here.trans (accepted_ownAddr m p f.lseq k).symm
  simp [Chip.flitsIn, Chip.selfanIn, h.spells, h.good, h.up, h.flit, h.room, flitRecv_lands h, hhere.symm]

theorem arrive_request {m : Chip} {k : Packet} (h : k.typ = .write ∨ k.typ = .read) (p : Nat) : m.arrive p k = m.inRequest p k := by
  rcases h with h | h <;> simp [Chip.arrive, h]

theorem arrive_response {m : Chip} {k : Packet} (h : k.typ = .writeRsp ∨ k.typ = .readRsp) (p : Nat) :
    m.arrive p k = m.inResponse p k := by
  rcases h with h | h <;> simp [Chip.arrive, h]

/-! ### The steps of a request (R425, R460) -/

theorem inRequest_off {m : Chip} (h : m.cplOn = false ∨ m.stageState = 5) (p : Nat) (k : Packet) : m.inRequest p k = m.slotDone p k := by
  have hdrop : (!m.cplOn || m.stageState == 5) = true := by simpa using h
  simp only [Chip.inRequest, hdrop, if_true]

theorem inRequest_unknown {m : Chip} {k : Packet} (hon : m.cplOn = true) (hrun : m.stageState ≠ 5) (hsrc : m.peerOf k.src = none)
    (p : Nat) :
    m.inRequest p k = ((m.count (K.coupleUnknownSrc 0) 1).event ⟨.couple, 0⟩ 19).slotDone p k := by
  simp [Chip.inRequest, hon, hrun, hsrc, couplePage]

/-- The coupling is on, the stage has not stopped, and the packet comes from peer `n`. -/
structure FromPeer (m : Chip) (k : Packet) (n : Nat) : Prop where
  on : m.cplOn = true
  runs : m.stageState ≠ 5
  peer : m.peerOf k.src = some n

/-- The request is a READ, or a WRITE that is not so far ahead that it is discarded. -/
def Chip.osnNear (m : Chip) (n : Nat) (k : Packet) : Prop := k.typ = .read ∨ m.osnFar n k.tag.toNat = false

/-- A test on writes alone does not stop a request that is a READ or fails it. -/
theorem write_and_false {k : Packet} {c : Bool} (h : k.typ = .read ∨ c = false) : (k.typ == .write && c) = false := by
  rcases h with h | h
  · rw [h]; rfl
  · rw [h, Bool.and_false]

theorem write_and_true {k : Packet} {c : Bool} (hw : k.typ = .write) (hc : c = true) : (k.typ == .write && c) = true := by
  rw [hw, hc]; rfl

namespace FromPeer
variable {m : Chip} {k : Packet} {n : Nat} (h : FromPeer m k n) (p : Nat)
include h

theorem inRequest_far (hw : k.typ = .write) (hfar : m.osnFar n k.tag.toNat = true) : m.inRequest p k = m.slotDone p k := by
  simp [Chip.inRequest, h.on, h.runs, h.peer, hw, hfar]

theorem inRequest_chocked (hnear : m.osnNear n k) (hc : m.chocked (peerId n) = true) :
    m.inRequest p k = ((m.markIf n k).respond n k 2 []).slotDone p k := by
  simp [Chip.inRequest, h.on, h.runs, h.peer, write_and_false hnear, hc]

theorem inRequest_outside (hnear : m.osnNear n k) (hc : m.chocked (peerId n) = false) (hw : m.windowOk n k = false) :
    m.inRequest p k = ((((m.chock ⟨.couple, k.win / 64⟩ (peerId n) 4 (k.win * 2 ^ 44 + k.off) 32).countFld
      (K.coupleWinCnt (k.win / 64) (k.win % 64)) F.coupleWinCntDenied 1).markIf n k).respond n k 3 []).slotDone p k := by
  simp [Chip.inRequest, h.on, h.runs, h.peer, write_and_false hnear, hc, hw, couplePage]

theorem inRequest_dup (hnear : m.osnNear n k) (hc : m.chocked (peerId n) = false) (hw : m.windowOk n k = true) (hwr : k.typ = .write)
    (hd : m.osnDup n k.tag.toNat = true) : m.inRequest p k = ((m.count (K.coupleDupCnt 0) 1).respond n k 1 []).slotDone p k := by
  simp [Chip.inRequest, h.on, h.runs, h.peer, write_and_false hnear, hc, hw, write_and_true hwr hd]

theorem inRequest_taken (hnear : m.osnNear n k) (hc : m.chocked (peerId n) = false) (hw : m.windowOk n k = true)
    (hnew : k.typ = .read ∨ m.osnDup n k.tag.toNat = false) : m.inRequest p k = m.takeInbound n p k := by
  simp [Chip.inRequest, h.on, h.runs, h.peer, write_and_false hnear, hc, hw, write_and_false hnew]

end FromPeer

/-! ### Responses (R424, R429) -/

theorem inResponse_ends {m : Chip} {p : Nat} {k : Packet} {o : CplOut}
    (h : (m.slotDone p k).outFrom k.src (k.typ == .writeRsp) k.tag = some o) :
    m.inResponse p k = (m.slotDone p k).endOut o k.status.toNat k.data := by
  simp only [Chip.inResponse, h]

theorem inResponse_unasked {m : Chip} {p : Nat} {k : Packet}
    (h : (m.slotDone p k).outFrom k.src (k.typ == .writeRsp) k.tag = none) : m.inResponse p k = m.slotDone p k := by
  simp only [Chip.inResponse, h]

theorem couplingTimeout_ends {m : Chip} {n : Nat} {wr : Bool} {tag : BitVec 32} {o : CplOut} (ho : m.outOf n wr tag = some o)
    (hp : o.port ≠ noPort) (hs : m.outStalls o = false) : m.couplingTimeout n wr tag = m.endOut o 0x11 [] := by
  simp [Chip.couplingTimeout, ho, hp, hs]

/-! ### NAK, acknowledgement and replay at a flit port (R417, R419, R420) -/

/-- The port asks for what it has not received: a NAK with the last good number. -/
def Chip.nakked (m : Chip) (p : Nat) (e : LinkEnd) : Chip :=
  (m.modPort p fun s => { s with flit := { e with naked := true } }).linkFlit p false (e.rx - 1)

theorem flitRecv_bad (m : Chip) (p : Nat) (lseq : BitVec 12) (k : Packet) :
    m.flitRecv p lseq false k = ((m.count (K.linkCrcErr p) 1).nakked p (m.sfPort p).flit, false) := rfl

theorem flitRecv_unordered {m : Chip} {p : Nat} {lseq : BitVec 12} (hs : lseq ≠ (m.sfPort p).flit.rx)
    (hn : (m.sfPort p).flit.naked = false) (k : Packet) : m.flitRecv p lseq true k = (m.nakked p (m.sfPort p).flit, false) := by
  simp [Chip.flitRecv, LinkEnd.recv, hs, hn, Chip.nakked]

/-- Words with a bad LCRC get a NAK, whatever they say. -/
theorem flitsIn_bad {m : Chip} {p : Nat} {f : Flits} (hup : m.portUp p = true) (hflit : m.portEth p = false) (hbad : f.good = false)
    (typ : PktType) : m.flitsIn p typ f = (m.count (K.linkCrcErr p) 1).nakked p (m.sfPort p).flit := by
  cases hk : f.packet with
  | none => simp [Chip.flitsIn, hk, hup, hflit, hbad, flitRecv_bad]
  | some k => simp [Chip.flitsIn, Chip.selfanIn, hk, hup, hflit, hbad, flitRecv_bad]

theorem flitsIn_unordered {m : Chip} {p : Nat} {f : Flits} {k : Packet} (hup : m.portUp p = true) (hflit : m.portEth p = false)
    (hgood : f.good = true) (hk : f.packet = some k) (hs : f.lseq ≠ (m.sfPort p).flit.rx) (hn : (m.sfPort p).flit.naked = false)
    (hroom : m.arrivalStalls k = false) : m.flitsIn p k.typ f = m.nakked p (m.sfPort p).flit := by
  simp [Chip.flitsIn, Chip.selfanIn, hk, hup, hflit, hgood, hroom, flitRecv_unordered hs hn]

theorem linkControl_ack {m : Chip} {p : Nat} (hup : m.portUp p = true) (hflit : m.portEth p = false) (lseq : BitVec 12)
    (cr : Vector Nat 10) : m.linkControl p false lseq cr true =
      (m.modPort p fun s => { s with flit := s.flit.acked lseq, limit := Vector.ofFn fun i => max s.limit[i] cr[i] }).pumpPort p := by
  simp [Chip.linkControl, hup, hflit]

theorem flitReplay_again {m : Chip} {p : Nat} (hr : (m.sfPort p).flit.replay ≠ []) (ht : (m.sfPort p).flit.tries < 16) :
    m.flitReplay p = (m.sfPort p).flit.replay.foldl (fun m t => m.emit (.packet p (t.pkt.flits t.lseq)))
      ((m.modPort p fun s => { s with flit := { (m.sfPort p).flit with tries := (m.sfPort p).flit.tries + 1 } }).count (K.linkRetries p) 1) := by
  simp [Chip.flitReplay, hr, Nat.not_le.mpr ht]

theorem flitReplay_down {m : Chip} {p : Nat} (hr : (m.sfPort p).flit.replay ≠ []) (ht : 16 ≤ (m.sfPort p).flit.tries) :
    m.flitReplay p = (m.portDown p 2).event ⟨.link, p⟩ 18 := by
  simp [Chip.flitReplay, hr, ht, linkPage]

theorem replayTimeout_eq {s : State} {p : Fin 10} {b : Chip} (hup : s.chip.portUp p = true) (hflit : s.chip.portEth p = false)
    (h : s.chip.flitReplay p = b) : exec (.replayTimeout p) s = .next (s.on b) :=
  onChip_to (fun m => m.when (m.portUp p && !m.portEth p) fun m => m.flitReplay p) ((when_pos (by rw [hup, hflit]; rfl)).trans h)

/-! ### Ethernet mode (R422) -/

theorem ethFrame_pause {m : Chip} {p : Nat} (hup : m.portUp p = true) (heth : m.portEth p = true)
    (hpfc : m.flag (K.linkPortCfg p) F.linkPortCfgPfc = true) (t : BitVec 16) (dst : BitVec 48) (pr : BitVec 8) :
    m.ethFrame p t dst true (.pause pr) = (m.modPort p fun s => { s with paused := pr }).pumpPort p := by
  simp [Chip.ethFrame, hup, heth, hpfc]

theorem ethFrame_filtered {m : Chip} {p : Nat} {t : BitVec 16} {dst : BitVec 48} {fcs : Bool} {b : EthBody} (hup : m.portUp p = true)
    (heth : m.portEth p = true) (hb : ∀ pr, b ≠ .pause pr)
    (h : fcs = false ∨ t.toNat ≠ m.fld (K.coupleCplCfg 0) F.coupleCplCfgEtype ∨ dst.toNat ≠ m.fld (K.coupleCplMac 0) F.coupleCplMacMac) :
    m.ethFrame p t dst fcs b = m.count (K.linkEthDrop p) 1 := by
  have hdrop : !fcs ∨ t.toNat ≠ m.fld (K.coupleCplCfg 0) F.coupleCplCfgEtype ∨ dst.toNat ≠ m.fld (K.coupleCplMac 0) F.coupleCplMacMac := by
    simpa using h
  cases b with
  | pause pr => exact absurd rfl (hb pr)
  | ack src good lseq => simp only [Chip.ethFrame, hup, heth, if_pos hdrop]; rfl
  | packet f => simp only [Chip.ethFrame, hup, heth, if_pos hdrop]; rfl

theorem ethFrame_ack {m : Chip} {p : Nat} {t : BitVec 16} {dst : BitVec 48} {src : BitVec 16} {n : Nat} (hup : m.portUp p = true)
    (heth : m.portEth p = true) (ht : t.toNat = m.fld (K.coupleCplCfg 0) F.coupleCplCfgEtype)
    (hd : dst.toNat = m.fld (K.coupleCplMac 0) F.coupleCplMacMac) (hn : m.ethPeer src = some n) (lseq : BitVec 12) :
    m.ethFrame p t dst true (.ack src true lseq) = (List.range 10).foldl Chip.pumpPort (m.setEth n ((m.ethEnd n).acked lseq)) := by
  simp [Chip.ethFrame, hup, heth, ht, hd, hn]

theorem ethReplay_again {m : Chip} {n q : Nat} {b : Chip} (hr : (m.ethEnd n).replay ≠ [])
    (hq : m.choosePort n (m.peerCtl n) = some (q, b)) :
    m.ethReplay n = (m.ethEnd n).replay.foldl (fun m t => m.emit (.frame q (m.ethHead t.mac) (t.pkt.flits t.lseq)))
      (b.count (K.linkRetries q) 1) := by
  unfold Chip.ethReplay
  cases hl : (m.ethEnd n).replay with
  | nil => exact absurd hl hr
  | cons t l => simp only [hl, hq]

/-! ### Training (R433) -/

/-- PORT_STAT of a port whose training has ended. -/
def Chip.trainedStat (m : Chip) (p : Nat) : W64 := F.linkPortStatTraining.put (m.reg (K.linkPortStat p)) 0

/-- A port that is up after its training, with the address that its far end reports. -/
def Chip.trainedUp (m : Chip) (p : Nat) (seen : BitVec 16) : Chip :=
  ((m.ethRestart p).setReg (K.linkPortStat p) (F.linkPortStatSeen.put (F.linkPortStatLock.put (F.linkPortStatUp.put (m.trainedStat p) 1) 15)
    (if m.portEth p then 0 else seen.toNat))).modPort p fun s => { s with locked := true }

/-- The first acknowledgement of a flit port that comes up: its credits (R420). -/
def Chip.firstAck (m : Chip) (p : Nat) : Chip := m.linkFlit p true ((m.sfPort p).flit.rx - 1)

theorem trainDone_up {m : Chip} {p : Nat} (ht : m.flag (K.linkPortStat p) F.linkPortStatTraining = true) (seen : BitVec 16) :
    m.trainDone p true seen = ((((if m.portEth p then m.trainedUp p seen else (m.trainedUp p seen).firstAck p).event
      ⟨.link, p⟩ 16).endCmd ⟨.link, p⟩ 0).syncRun ⟨.link, p⟩) := by
  simp [Chip.trainDone, ht, linkPage, Chip.trainedUp, Chip.trainedStat, Chip.firstAck]

theorem trainDone_fails {m : Chip} {p : Nat} (ht : m.flag (K.linkPortStat p) F.linkPortStatTraining = true) (seen : BitVec 16) :
    m.trainDone p false seen = ((((m.setReg (K.linkPortStat p) (F.linkPortStatCause.put (m.trainedStat p) 4)).record ⟨.link, p⟩ 0x80 0
      none none (22 + p)).endCmd ⟨.link, p⟩ 4).syncRun ⟨.link, p⟩) := by
  simp [Chip.trainDone, ht, linkPage, Chip.trainedStat]

/-! ### NOTIFY_DELIVER (R428, R443) -/

theorem inboundEnd_turn {m : Chip} {id : Nat} {i : Inbound} (hi : m.sf.inb.find? (·.id == id) = some i)
    (hjob : m.hasJob (.inbound id) = true) (hw : i.pkt.typ = .write) (hn : i.pkt.notify = true)
    (hheld : m.devHeld (i.pkt.cls + 1) true false i.addr i.pkt.bytes = false) (hturn : m.osnAhead i.peer i.pkt.tag.toNat = 1) :
    m.inboundEnd id true = m.inboundWrite i := by
  simp [Chip.inboundEnd, hi, hjob, hw, hn, hheld, hturn]

theorem Inbound.notice_notify {i : Inbound} (h : i.pkt.notify = true) : i.notice = some ⟨i.peer, i.pkt.win, i.winCtl⟩ := if_pos h

/-- A write that notifies, is new and has room for its record: the record, the bytes, the notice, then the OSN, the count and OK. -/
theorem inboundWrite_notifies {m : Chip} {i : Inbound} (hn : i.pkt.notify = true) (hnew : m.osnDup i.peer i.pkt.tag.toNat = false)
    (hfit : m.targetFails i.addr i.pkt.data.length true = false) (hroom : m.logStalls i.pkt.data.length = false)
    (hnow : m.waitsTurn = false) :
    m.inboundWrite i = ((((((m.logRec (dataRec .peerWrite (peerId i.peer) 0 i.addr i.pkt.data
      (some ⟨i.pkt.cls + 1, some i.cls, some ⟨i.peer, i.pkt.win, i.winCtl⟩⟩))).peerPut (peerId i.peer) (i.pkt.cls + 1) i.addr i.pkt.data
      (some i.cls)).notifyWindow ⟨i.peer, i.pkt.win, i.winCtl⟩).osnMark i.peer i.pkt.tag.toNat).countFld
      (K.coupleWinCnt (i.pkt.win / 64) (i.pkt.win % 64)) F.coupleWinCntServed 1).inboundDone i 0 []) := by
  simp [Chip.inboundWrite, hnew, hfit, hroom, hnow, i.notice_notify hn]

/-! ### The rows -/

/-- Settles O54, row by row: what lands goes through the steps of R425. -/
theorem peersAndPortsAreServed : Obligations.PeersAndPortsAreServed := by
  unfold Obligations.PeersAndPortsAreServed
  intro s m
  refine ⟨?lands, ?flit, ?eth, ?ethReplay, ?lock, ?train, ?timeout, ?notify⟩
  case lands =>
    intro p f k i hl hrow b
    have hexec : exec i s = .next (s.on (b.arrive p k)) := by rw [hrow.exec_eq, hl.flitsIn_eq]
    refine ⟨fun hreq => ?request, fun hrsp => ?response⟩
    case request =>
      rw [hexec, arrive_request hreq]
      refine ⟨fun hoff => by rw [inRequest_off hoff], fun hon hrun =>
        ⟨fun hsrc => by rw [inRequest_unknown hon hrun hsrc], fun n hpeer => ?known⟩⟩
      have h : FromPeer b k n := ⟨hon, hrun, hpeer⟩
      refine ⟨fun hw hfar => by rw [h.inRequest_far p hw hfar], fun hnear => ⟨fun hc => ?_, fun hc hwin => ?_, fun hc hwin =>
        ⟨fun hw hd => ?_, fun hnew => ?_⟩⟩⟩
      · rw [h.inRequest_chocked p hnear hc]
      · rw [h.inRequest_outside p hnear hc hwin]
      · rw [h.inRequest_dup p hnear hc hwin hw hd]
      · rw [h.inRequest_taken p hnear hc hwin hnew]
    case response =>
      rw [hexec, arrive_response hrsp]
      exact ⟨fun o ho => by rw [inResponse_ends ho], fun hnone => by rw [inResponse_unasked hnone]⟩
  case flit =>
    intro p lseq hup hflit e
    refine ⟨fun f typ i hbad hrow => ?_, fun f k i hgood hk hs hn hroom hrow => ?_, fun cr => ?_, fun hr ht => ?_, fun hr ht => ?_⟩
    · rw [hrow.exec_eq, flitsIn_bad hup hflit hbad]; rfl
    · rw [hrow.exec_eq, flitsIn_unordered hup hflit hgood hk hs hn hroom]; rfl
    · exact onChip_to (·.linkControl p false lseq cr true) (linkControl_ack hup hflit lseq cr)
    · exact replayTimeout_eq hup hflit (flitReplay_again hr ht)
    · exact replayTimeout_eq hup hflit (flitReplay_down hr ht)
  case eth =>
    intro p t dst fcs b hup heth
    refine ⟨fun pr hpfc => ?_, fun hb h => ?_, fun src lseq n hf ht hd hn => ?_⟩
    · exact onChip_to (·.ethFrame p t dst true (.pause pr)) (ethFrame_pause hup heth hpfc t dst pr)
    · exact onChip_to (·.ethFrame p t dst fcs b) (ethFrame_filtered hup heth hb h)
    · subst hf
      exact onChip_to (·.ethFrame p t dst true (.ack src true lseq)) (ethFrame_ack hup heth ht hd hn lseq)
  case ethReplay =>
    exact fun n q b heth hr hq => onChip_to (fun m => m.when (F.couplePeerCtlEth.bit (m.peerCtl n)) fun m => m.ethReplay n)
      ((when_pos heth).trans (ethReplay_again hr hq))
  case lock => exact fun p hup => onChip_to (fun m => m.when (m.portUp p) fun m => m.portDown p 3) (when_pos hup)
  case train =>
    intro p seen ht st m1 m2
    exact ⟨onChip_to (·.trainDone p true seen) (trainDone_up ht seen),
      onChip_to (·.trainDone p false seen) (trainDone_fails ht seen)⟩
  case timeout => exact fun n wr tag o ho hp hs => onChip_to (·.couplingTimeout n wr tag) (couplingTimeout_ends ho hp hs)
  case notify =>
    intro id i hmem hi hjob k w hw hn hheld hturn hnew hfit hroom hnow
    show onHbm (·.inboundEnd id true) s = _
    rw [onHbm_eq hmem, inboundEnd_turn hi hjob hw hn hheld hturn, inboundWrite_notifies hn hnew hfit hroom hnow]

end Sys2Proof.Machine

/-! PROOFS. The commands of the STAGE page (R439, R441, R445, R450, R460, R463). -/
namespace Sys2Proof.Machine

/-! ### What the launch of a command leaves of the stage and of the map of memory -/

theorem beginCmd_stg (m : Chip) (p : PageId) (code : Nat) (l : Launch) : (m.beginCmd p code l).stg = m.stg :=
  (beginCmd_step m p code l).keeps (·.stg) fun _ => rfl

theorem beginCmd_sh (m : Chip) (p : PageId) (code : Nat) (l : Launch) : (m.beginCmd p code l).sh = m.sh :=
  (beginCmd_step m p code l).keeps (·.sh) fun _ => rfl

theorem beginCmd_blockFld (m : Chip) (p : PageId) (code : Nat) (l : Launch) {k : Nat} (f : Fld) (hk : 0x100 ≤ k % 0x1000) :
    (m.beginCmd p code l).fld k f = m.fld k f :=
  congrArg f.get (beginCmd_blockReg m p code l hk)

theorem beginCmd_stageState (m : Chip) (p : PageId) (code : Nat) (l : Launch) : (m.beginCmd p code l).stageState = m.stageState :=
  beginCmd_blockFld m p code l _ (by decide)

theorem beginCmd_stackOf (m : Chip) (p : PageId) (code : Nat) (l : Launch) : (m.beginCmd p code l).stackOf = m.stackOf := by
  funext a
  unfold Chip.stackOf
  rw [beginCmd_blockFld m p code l _ (by decide)]

theorem beginCmd_hbmAddr (m : Chip) (p : PageId) (code : Nat) (l : Launch) : (m.beginCmd p code l).hbmAddr = m.hbmAddr := by
  funext s a
  unfold Chip.hbmAddr
  rw [beginCmd_blockFld m p code l _ (by decide)]

theorem beginCmd_pairOn (m : Chip) (p : PageId) (code : Nat) (l : Launch) : (m.beginCmd p code l).pairOn = m.pairOn := by
  funext s
  unfold Chip.pairOn
  rw [beginCmd_blockReg m p code l (by decide)]

theorem beginCmd_mirrorOf (m : Chip) (p : PageId) (code : Nat) (l : Launch) : (m.beginCmd p code l).mirrorOf = m.mirrorOf := by
  funext a
  unfold Chip.mirrorOf
  rw [beginCmd_stackOf, beginCmd_hbmAddr, beginCmd_pairOn]

theorem beginCmd_gibOk (m : Chip) (p : PageId) (code : Nat) (l : Launch) : (m.beginCmd p code l).gibOk = m.gibOk := by
  funext a
  unfold Chip.gibOk
  rw [beginCmd_mirrorOf]

theorem beginCmd_imgBase (m : Chip) (p : PageId) (code : Nat) (l : Launch) : (m.beginCmd p code l).imgBase = m.imgBase :=
  congrArg (· * 2 ^ 30) (beginCmd_blockFld m p code l _ (by decide))

theorem beginCmd_logBase (m : Chip) (p : PageId) (code : Nat) (l : Launch) : (m.beginCmd p code l).logBase = m.logBase :=
  congrArg (· * 2 ^ 30) (beginCmd_blockFld m p code l _ (by decide))

theorem beginCmd_logGib (m : Chip) (p : PageId) (code : Nat) (l : Launch) : (m.beginCmd p code l).logGib = m.logGib :=
  congrArg (clamp 1 64) (beginCmd_blockFld m p code l _ (by decide))

theorem beginCmd_areasOk (m : Chip) (p : PageId) (code : Nat) (l : Launch) : (m.beginCmd p code l).areasOk = m.areasOk := by
  unfold Chip.areasOk Chip.imgOk Chip.logSize
  rw [beginCmd_gibOk, beginCmd_imgBase, beginCmd_logBase, beginCmd_logGib]

theorem beginCmd_guardsOk (m : Chip) (p : PageId) (code : Nat) (l : Launch) : (m.beginCmd p code l).guardsOk = m.guardsOk := by
  unfold Chip.guardsOk
  rw [beginCmd_mirrorOf, beginCmd_stg]

/-! ### A task that is freed (R386) -/

theorem syncCoach_rest (m : Chip) (c : Nat) : m.syncCoach c = { m with regs := (m.syncCoach c).regs } :=
  (RegStep.foldl (P := fun _ => True) Chip.syncRun _ (fun m p _ => (syncRun_regStep m p).mono fun _ _ => trivial) m).rest

theorem syncCoach_sh (m : Chip) (c : Nat) : (m.syncCoach c).sh = m.sh := by rw [syncCoach_rest]

theorem endCmd_sh (m : Chip) (p : PageId) (err : Nat) : (m.endCmd p err).sh = m.sh :=
  (endCmd_step m p err).keeps (·.sh) fun _ _ _ => rfl

theorem releaseVec_sh (m : Chip) (x : Ctx) : (m.releaseVec x).sh = m.sh := by
  unfold Chip.releaseVec Chip.claimVec
  dsimp only
  split <;> rfl

theorem clearSide_sh (m : Chip) (x : Ctx) : (m.clearSide x).sh = m.sh := by
  refine (foldl_keeps (·.sh) (fun a s => ?_) _ _).trans ?_ <;> rfl

theorem idleCtx_sh (m : Chip) (x : Ctx) : (m.idleCtx x).sh = m.sh :=
  syncCoach_sh _ _

theorem dropVec_sh (m : Chip) (c : Fin 64) (h : W16) : (m.dropVec c h).sh = m.sh := by
  unfold Chip.dropVec
  split <;> rfl

/-- The handles of the tasks that are held, in their order. -/
def Chip.handles (m : Chip) : List W16 := m.sh.tasks.map (·.handle)

theorem modTask_handles (m : Chip) (h : W16) {f : Task → Task} (hf : ∀ t, (f t).handle = t.handle) :
    (m.modTask h f).handles = m.handles := by
  unfold Chip.handles Chip.modTask
  rw [List.map_map]
  refine List.map_congr_left fun t _ => ?_
  show (if t.handle = h then f t else t).handle = t.handle
  split
  · exact hf t
  · rfl

theorem wakeSided_handles (m : Chip) : m.wakeSided.handles = m.handles := by
  refine foldl_keeps Chip.handles (fun a t => ?_) _ _
  exact modTask_handles a t.handle fun _ => rfl

theorem leaveFaults_handles (m : Chip) (h : W16) : (m.leaveFaults h).handles = m.handles := by
  unfold Chip.leaveFaults Chip.when
  dsimp only
  split
  · exact wakeSided_handles _
  · rfl

theorem dropCode_handles (m : Chip) (h : W16) : (m.dropCode h).handles = m.handles := rfl

/-- A task that is freed leaves the list, and no other does. -/
theorem freeTask_handles (m : Chip) (t : Task) : (m.freeTask t).handles = m.handles.filter (· != t.handle) := by
  have hjobs (a : Chip) (l : List (Fin 8)) (c : Nat) : (l.foldl (fun (m : Chip) (s : Fin 8) =>
      (m.endJob (.stream c s.val false)).endJob (.stream c s.val true)) (a.endJob (.vec c))).sh = a.sh := by
    refine (foldl_keeps (·.sh) (fun b s => ?_) _ _).trans ?_ <;> rfl
  unfold Chip.freeTask
  extract_lets c m1 m2 m2' m3 m4 stg m5
  have h1 : m1.handles = m.handles := leaveFaults_handles m t.handle
  have h2 : m2.sh = m1.sh := by
    unfold m2
    split
    · rfl
    · rw [idleCtx_sh, clearSide_sh, hjobs, releaseVec_sh]
  have h3 : m3.sh = m1.sh := by
    unfold m3
    split
    · exact (setPart_sh _ _ _ _).trans ((dropVec_sh _ _ _).trans h2)
    · exact h2
  have h5 : m5.handles = m.handles.filter (· != t.handle) := by
    rw [← h1]
    unfold Chip.handles
    rw [syncCoach_sh, List.filter_map, ← h3]
    rfl
  split
  · unfold Chip.handles
    rw [endCmd_sh]
    exact h5
  · exact h5

/-! ### The launches (R463) -/

/-- Row `i` is command `code` of STAGE: it refuses an argument, ends as not idle while `c` holds, and else does `f`. -/
structure Checked (i : Sys2Proof.Instr) (s : State) (code : Nat) (l : Launch) (c : Prop) (f : Chip → Chip) : Prop where
  badArg : l.arg ≠ 0 → Launches i s stagePage code l fun b => b.endCmd stagePage 0x02
  notIdle : l.arg = 0 → c → Launches i s stagePage code l fun b => b.endCmd stagePage 0x03
  goes : l.arg = 0 → ¬ c → Launches i s stagePage code l f

section
variable {s : State} {l : Launch}

theorem launches_arm_badArg (h : l.arg ≠ 0 ∨ s.chip.areasOk = false ∨ s.chip.guardsOk = false) :
    Launches (.arm l) s stagePage 1 l fun b => b.endCmd stagePage 0x02 :=
  launches_issue (run := fun l m => m.arm l) rfl (if_pos (by
    rw [beginCmd_areasOk, beginCmd_guardsOk]
    simpa [or_assoc] using h))

theorem launches_arm_notIdle (h0 : l.arg = 0) (ha : s.chip.areasOk = true) (hg : s.chip.guardsOk = true) (h : s.chip.stg.armed = true) :
    Launches (.arm l) s stagePage 1 l fun b => b.endCmd stagePage 0x03 :=
  launches_issue (run := fun l m => m.arm l) rfl ((if_neg (by
    rw [beginCmd_areasOk, beginCmd_guardsOk]
    simp [h0, ha, hg])).trans (if_pos (by rwa [beginCmd_stg])))

theorem launches_arm (h0 : l.arg = 0) (ha : s.chip.areasOk = true) (hg : s.chip.guardsOk = true) (h : s.chip.stg.armed = false) :
    Launches (.arm l) s stagePage 1 l fun b =>
      (((s.chip.stg.tags.filter (·.2 == clsGuarded)).map (·.1)).foldl Chip.mirrorGranule b).askPost 1 :=
  launches_issue (run := fun l m => m.arm l) rfl (by
    unfold Chip.arm
    rw [beginCmd_areasOk, beginCmd_guardsOk, beginCmd_stg, if_neg (by simp [h0, ha, hg]), if_neg (by simp [h])])

theorem checked_issue {i : Sys2Proof.Instr} {code : Nat} {run : Launch → Chip → Chip} {c : Prop} [Decidable c] {f : Chip → Chip}
    (he : exec i s = .next (s.on (s.chip.issue stagePage code l run)))
    (hrun : run l (s.chip.beginCmd stagePage code l) =
      if l.arg ≠ 0 then (s.chip.beginCmd stagePage code l).endCmd stagePage 0x02
      else if c then (s.chip.beginCmd stagePage code l).endCmd stagePage 0x03 else f (s.chip.beginCmd stagePage code l)) :
    Checked i s code l c f where
  badArg h := launches_issue he (hrun.trans (if_pos h))
  notIdle h hc := launches_issue he (hrun.trans ((if_neg (not_not.mpr h)).trans (if_pos hc)))
  goes h hc := launches_issue he (hrun.trans ((if_neg (not_not.mpr h)).trans (if_neg hc)))

variable (s l)

theorem checked_disarm : Checked (.disarm l) s 2 l (s.chip.stg.armed = false) (·.askPost 2) :=
  checked_issue (run := fun l m => m.disarm l) rfl (by
    unfold Chip.disarm
    rw [beginCmd_stg]
    exact if_congr Iff.rfl rfl (if_congr (by simp) rfl rfl))

theorem checked_post : Checked (.post l) s 3 l (s.chip.stageState = 5) (·.askPost 3) :=
  checked_issue (run := fun l m => m.postCommand l) rfl (by
    unfold Chip.postCommand
    rw [beginCmd_stageState]
    exact if_congr Iff.rfl rfl (if_congr beq_iff_eq rfl rfl))

theorem checked_rollback : Checked (.rollback l) s 4 l (s.chip.stageState ≠ 1) fun b =>
    (b.modStg fun s => { s with postCmd := 4 }).report (b.recEvent causeCommand l.m 0 32) :=
  checked_issue (run := fun l m => m.rollbackCommand l) rfl (by
    unfold Chip.rollbackCommand
    rw [beginCmd_stageState]
    exact if_congr Iff.rfl rfl (if_congr bne_iff_ne rfl rfl))

theorem checked_abandon : Checked (.abandon l) s 5 l (s.chip.stageState ≠ 5) fun b =>
    (Chip.modStg { s.chip.sh.tasks.foldl (fun (m : Chip) t => (m.endTask t stEnded 0).getD m) b with crcSeen := [] } fun s =>
      { s with events := [], current := none }).askPost 5 :=
  checked_issue (run := fun l m => m.abandon l) rfl (by
    unfold Chip.abandon
    rw [beginCmd_stageState, beginCmd_sh]
    exact if_congr Iff.rfl rfl (if_congr bne_iff_ne rfl rfl))

variable {s l}

/-- The registration that REG_DST, REG_CTL and REG_SRC name (R439). -/
def Chip.regAsked (m : Chip) : Registration :=
  ⟨m.fld K.stageRegDst F.stageRegDstAddr, m.fld K.stageRegCtl F.stageRegCtlPages, m.reg K.stageRegSrc,
    m.flag K.stageRegCtl F.stageRegCtlPeer⟩

theorem beginCmd_regAsked (m : Chip) (p : PageId) (code : Nat) (l : Launch) : (m.beginCmd p code l).regAsked = m.regAsked := by
  unfold Chip.regAsked Chip.flag
  rw [beginCmd_blockFld m p code l _ (by decide), beginCmd_blockFld m p code l _ (by decide), beginCmd_blockReg m p code l (by decide),
    beginCmd_blockFld m p code l _ (by decide)]

theorem registerCommand_eq (m : Chip) (l : Launch) : m.registerCommand l =
    if l.arg ≠ 0 ∨ m.regAsked.count = 0 ∨ granulesOk m.regAsked.first m.regAsked.count = false ∨
      sourceOk m.regAsked.src m.regAsked.peer = false then m.endCmd stagePage 0x02
    else match m.registerRange m.regAsked with | some t => t.endCmd stagePage 0 | none => m.endCmd stagePage 0x20 := by
  unfold Chip.registerCommand
  dsimp only
  refine (if_congr ?_ rfl rfl).trans rfl
  simp [Chip.regAsked, or_assoc]

theorem launches_register_badArg (h : l.arg ≠ 0 ∨ s.chip.regAsked.count = 0 ∨
    granulesOk s.chip.regAsked.first s.chip.regAsked.count = false ∨ sourceOk s.chip.regAsked.src s.chip.regAsked.peer = false) :
    Launches (.register l) s stagePage 6 l fun b => b.endCmd stagePage 0x02 :=
  launches_issue (run := fun l m => m.registerCommand l) rfl (by
    rw [registerCommand_eq, beginCmd_regAsked, if_pos h])

theorem launches_register (h0 : l.arg = 0) (hn : s.chip.regAsked.count ≠ 0)
    (hg : granulesOk s.chip.regAsked.first s.chip.regAsked.count = true)
    (hs : sourceOk s.chip.regAsked.src s.chip.regAsked.peer = true) : Launches (.register l) s stagePage 6 l fun b =>
      match b.registerRange s.chip.regAsked with | some t => t.endCmd stagePage 0 | none => b.endCmd stagePage 0x20 :=
  launches_issue (run := fun l m => m.registerCommand l) rfl (by
    rw [registerCommand_eq, beginCmd_regAsked, if_neg (by simp [h0, hn, hg, hs])])

theorem launches_release_badArg (h : 2 ^ 26 ≤ l.arg.toNat) : Launches (.release l) s stagePage 7 l fun b => b.endCmd stagePage 0x02 :=
  launches_issue (run := fun l m => m.releaseCommand l) rfl (if_pos h)

theorem launches_release_noReg (h : l.arg.toNat < 2 ^ 26) (hn : s.chip.stg.regist.find? (·.first == l.arg.toNat) = none) :
    Launches (.release l) s stagePage 7 l fun b => b.endCmd stagePage 0x21 :=
  launches_issue (run := fun l m => m.releaseCommand l) rfl (by
    unfold Chip.releaseCommand
    rw [if_neg (Nat.not_le.mpr h), beginCmd_stg, hn])

theorem launches_release (h : l.arg.toNat < 2 ^ 26) {r : Registration}
    (hr : s.chip.stg.regist.find? (·.first == l.arg.toNat) = some r) :
    Launches (.release l) s stagePage 7 l fun b => (b.endReg r).endCmd stagePage 0 :=
  launches_issue (run := fun l m => m.releaseCommand l) rfl (by
    unfold Chip.releaseCommand
    rw [if_neg (Nat.not_le.mpr h), beginCmd_stg, hr])

end

/-- Settles O43: each row launches its command, whose checks ask for nothing that the launch itself changes. -/
theorem stageCommandsTakeEffect : Obligations.StageCommandsTakeEffect := by
  intro s l m p ask
  have hdisarm := checked_disarm s l
  have hpost := checked_post s l
  have hroll := checked_rollback s l
  have habandon := checked_abandon s l
  refine ⟨fun h => ⟨launches_arm_badArg (.inl h), hdisarm.badArg h, hpost.badArg h, hroll.badArg h, habandon.badArg h,
      launches_register_badArg (.inl h)⟩,
    fun h0 => ⟨launches_arm h0, fun h => launches_arm_badArg (.inr h), launches_arm_notIdle h0,
      fun h => hdisarm.goes h0 (ne_false_of_eq_true h), hdisarm.notIdle h0,
      fun h => ⟨hpost.goes h0 h, habandon.notIdle h0 h⟩, fun h => ⟨hpost.notIdle h0 h, habandon.goes h0 (not_not.mpr h)⟩,
      freeTask_handles, fun h => hroll.goes h0 (not_not.mpr h), hroll.notIdle h0,
      fun h => launches_register_badArg (.inr h), launches_register h0⟩,
    launches_release_badArg, fun h => ⟨fun hn => launches_release_noReg h ?_, fun r hr => launches_release h hr⟩⟩
  exact List.find?_eq_none.mpr fun r hr => by simpa using hn r hr

end Sys2Proof.Machine

/-! PROOFS. What the report of an error and the moves of memory leave alone (R317, R444, R450). -/
namespace Sys2Proof.Machine

/-! ### Reports of errors -/

/-- The chip apart from what the report of an error changes: registers, records, messages and the errors that wait for their level. -/
def Chip.unreported (m : Chip) : Chip :=
  { m with regs := [], errq := [], out := [], tick := 0, host := { m.host with msixPend := [] }, stg := { m.stg with events := [] } }

theorem unreported_of_evt {P : Nat → Prop} {m a : Chip} (h : EvtStep P m a) : a.unreported = m.unreported :=
  h.keeps Chip.unreported fun _ _ _ => rfl

theorem unreported_of_regs {P : Nat → Prop} {m a : Chip} (h : RegStep P m a) : a.unreported = m.unreported :=
  h.keeps Chip.unreported fun _ => rfl

theorem event_unreported (m : Chip) (p : PageId) (i : Nat) : (m.event p i).unreported = m.unreported :=
  unreported_of_evt (event_step m p i)

theorem record_unreported (m : Chip) (p : PageId) (code : Nat) (w : BitVec 16) (detail addr : Option Nat) (d : Nat) :
    (m.record p code w detail addr d).unreported = m.unreported := by
  unfold Chip.record
  dsimp only
  split <;> split
  · rfl
  · rfl
  · exact event_unreported _ _ _
  · exact event_unreported _ _ _

theorem crcRecord_unreported (m : Chip) (a detail : Nat) (w : BitVec 16) : (m.crcRecord a detail w).unreported = m.unreported :=
  (event_unreported _ _ _).trans (record_unreported _ _ _ _ _ _ _)

theorem report_unreported (m : Chip) (e : RecEvent) : (m.report e).unreported = m.unreported := rfl

theorem syncRun_unreported (m : Chip) (p : PageId) : (m.syncRun p).unreported = m.unreported :=
  unreported_of_regs (syncRun_regStep m p)

theorem syncCoach_unreported (m : Chip) (c : Nat) : (m.syncCoach c).unreported = m.unreported :=
  foldl_keeps Chip.unreported syncRun_unreported _ m

theorem endCmd_unreported (m : Chip) (p : PageId) (err : Nat) : (m.endCmd p err).unreported = m.unreported :=
  unreported_of_evt (endCmd_step m p err)

/-! ### Memory, staged shadows and the host interface -/

/-- The chip apart from reports, memory and its slices, staged shadows, the host interface and the ostler. -/
def Chip.bare (m : Chip) : Chip :=
  { m.unreported with
    mem := [], veils := [], slices := Chip.reset.slices, badCrc := [], crcSeen := [], staged := [], host := HostIf.reset
    mg := Ostler.reset }

theorem bare_of_unreported {m a : Chip} (h : a.unreported = m.unreported) : a.bare = m.bare :=
  congrArg (fun c : Chip => { c with
    mem := [], veils := [], slices := Chip.reset.slices, badCrc := [], crcSeen := [], staged := [], host := HostIf.reset
    mg := Ostler.reset }) h

theorem event_bare (m : Chip) (p : PageId) (i : Nat) : (m.event p i).bare = m.bare := bare_of_unreported (event_unreported m p i)

theorem syncRun_bare (m : Chip) (p : PageId) : (m.syncRun p).bare = m.bare := bare_of_unreported (syncRun_unreported m p)

theorem syncCoach_bare (m : Chip) (c : Nat) : (m.syncCoach c).bare = m.bare := bare_of_unreported (syncCoach_unreported m c)

theorem endCmd_bare (m : Chip) (p : PageId) (err : Nat) : (m.endCmd p err).bare = m.bare := bare_of_unreported (endCmd_unreported m p err)

theorem setReg_bare (m : Chip) (a : Nat) (v : W64) : (m.setReg a v).bare = m.bare := rfl

theorem count_bare (m : Chip) (a n : Nat) : (m.count a n).bare = m.bare := setReg_bare m a _

theorem setCells_bare (m : Chip) (lo n : Nat) (f : Nat → MByte) : (m.setCells lo n f).bare = m.bare := by
  rw [setCells_rest]; rfl

theorem zeroMem_bare (m : Chip) (lo n : Nat) : (m.zeroMem lo n).bare = m.bare := by
  rw [zeroMem_rest]; rfl

theorem putCells_bare (m : Chip) (lo n : Nat) (l : SMap MByte) : (m.putCells lo n l).bare = m.bare := zeroMem_bare m lo n

theorem copyMem_bare (m : Chip) (src dst n : Nat) : (m.copyMem src dst n).bare = m.bare := by
  unfold Chip.copyMem
  split
  · exact setCells_bare _ _ _ _
  · exact putCells_bare _ _ _ _

theorem copyCount_bare (m : Chip) (src dst : Nat) : (m.copyCount src dst).bare = m.bare := by
  unfold Chip.copyCount
  dsimp only
  split
  · exact count_bare _ _ _
  · exact (count_bare _ _ _).trans (count_bare _ _ _)

theorem crcError_bare (m : Chip) (a detail : Nat) (w : BitVec 16) : (m.crcError a detail w).bare = m.bare :=
  bare_of_unreported (crcRecord_unreported m a detail w)

theorem crcNote_bare (m : Chip) (w : BitVec 16) (write noalloc : Bool) (a n : Nat) : (m.crcNote w write noalloc a n).bare = m.bare := by
  unfold Chip.crcNote
  split
  · rfl
  · refine foldl_keeps Chip.bare (fun b k => ?_) _ _
    dsimp only
    split
    · rfl
    · exact crcError_bare b _ _ _

theorem mirrorGranule_bare (m : Chip) (g : Nat) : (m.mirrorGranule g).bare = m.bare := by
  unfold Chip.mirrorGranule
  dsimp only
  split
  · exact (crcNote_bare _ _ _ _ _ _).trans ((copyCount_bare _ _ _).trans (copyMem_bare _ _ _ _))
  · rfl

theorem imageCount_bare (m : Chip) (key : Nat → Nat) : (m.imageCount key).bare = m.bare := by
  refine (foldl_keeps Chip.bare (fun b s => ?_) _ _).trans ?_
  · exact count_bare b _ _
  · rfl

theorem writeImage_bare (m : Chip) : m.writeImage.bare = m.bare := imageCount_bare _ _

theorem applyStaged_bare (m : Chip) (p : PageId) : (m.applyStaged p).bare = m.bare := by
  unfold Chip.applyStaged
  split
  · exact (event_bare _ _ _).trans (foldl_keeps Chip.bare (f := fun (b : Chip) (e : Nat × W64) => b.setReg e.1 e.2) (fun _ _ => rfl) _ m)
  · rfl

theorem emitRead_bare (m : Chip) (f a n id : Nat) (tags : List Nat) : (m.emitRead f a n id tags).bare = m.bare := by
  unfold Chip.emitRead
  refine foldl_keeps Chip.bare (fun b r => ?_) _ m
  rfl

theorem pumpReads_bare (m : Chip) : m.pumpReads.bare = m.bare := by
  refine foldl_keeps Chip.bare (fun b r => ?_) _ m
  dsimp only
  split
  · exact emitRead_bare _ _ _ _ _ _
  · rfl

theorem platform_bare (m : Chip) (k : PlatKind) : (m.platform k).bare = m.bare := by
  unfold Chip.platform
  split <;> rfl

end Sys2Proof.Machine

/-! PROOFS. A staging post goes through its phases (R441, R442, R443, R444, R446, R449). -/
namespace Sys2Proof.Machine

/-! ### The stage controller apart from what a post hands on -/

/-- The stage controller apart from the errors that wait, the command that the post ends and the inputs that are deferred. -/
def Chip.stageCore (m : Chip) : StageCtl := { m.stg with events := [], postCmd := 0, deferred := [] }

theorem stageCore_of_bare {m a : Chip} (h : a.bare = m.bare) : a.stageCore = m.stageCore :=
  (congrArg Chip.stageCore h :)

theorem deferred_of_bare {m a : Chip} (h : a.bare = m.bare) : a.stg.deferred = m.stg.deferred :=
  (congrArg (·.stg.deferred) h :)

theorem resumeCtxs_stg (m : Chip) : m.resumeCtxs.stg = m.stg := by
  refine foldl_keeps (·.stg) (fun b x => ?_) _ m
  dsimp only
  split
  · rw [syncCoach_rest]; rfl
  · rfl

theorem freeStage_stageCore (m : Chip) (err : Nat) : (m.freeStage err).stageCore = m.stageCore := by
  unfold Chip.freeStage
  split
  · exact (stageCore_of_bare (endCmd_bare _ _ _)).trans rfl
  · rfl

/-- With nothing deferred only the reads that wait are sent. -/
theorem applyAll_bare {m : Chip} (h : m.stg.deferred = []) : m.applyAll.bare = m.bare := by
  unfold Chip.applyAll
  rw [h, List.foldl_nil]
  refine (pumpReads_bare _).trans ?_
  show ({ m with stg := { m.stg with deferred := [] } } : Chip).bare = _
  rw [← h]

theorem stageRecord_bare (m : Chip) (code : Nat) (w : BitVec 16) (detail addr : Option Nat) :
    (m.stageRecord code w detail addr).bare = m.bare :=
  bare_of_unreported (record_unreported _ _ _ _ _ _ _)

theorem when_tellState_bare (m : Chip) (c : Bool) : (m.when c Chip.tellState).bare = m.bare := by
  unfold Chip.when
  split
  · exact platform_bare m _
  · rfl

/-! ### STAGE_TIMER_EXPIRE and STAGING_POST (R441, R442) -/

theorem clamp_eq {lo hi : Nat} (h : lo ≤ hi) (v : Nat) : clamp lo hi v = max lo (min hi v) := by
  unfold clamp
  split
  · omega
  · split <;> omega

/-- The milliseconds after which a stage is posted. -/
def Chip.stageLen (m : Chip) : Nat := max 250 (min 60000 (m.fld K.stageStageLen F.stageStageLenMs))

theorem stageTimer_expires {m : Chip} (ha : m.stg.armed = true) (hs : m.stageState = 1) (hp : m.stg.post = .none)
    (ht : m.fld K.stageTimer F.stageTimerMs ≤ m.stageLen) :
    m.stageTimer = (m.setFld K.stageTimer F.stageTimerMs m.stageLen).requestPost := by
  unfold Chip.stageTimer
  dsimp only
  rw [if_pos (by simp [ha, hs, hp]), clamp_eq (by decide), ← Chip.stageLen, Nat.max_eq_left ht]

theorem postDue_requested {m : Chip} (hr : m.flag K.stageStageStat F.stageStageStatPostPend = true) (hp : m.stg.post = .none)
    (hrb : m.stg.rb = .none) (hs : m.stageState < 4) (hc : m.stg.postCmd ≠ 4) : m.postDue = true := by
  have h4 : m.stageState ≠ 4 := Nat.ne_of_lt hs
  have h5 : m.stageState ≠ 5 := by omega
  simp [Chip.postDue, hr, hp, hrb, h4, h5, hc]

/-- The chip once the Hold phase holds the page and the request is taken. -/
def Chip.postHeld (m : Chip) : Chip :=
  Chip.heldPage (Chip.setFld (Chip.setFld
    { m with stg := { m.stg with post := .quiesce, postAt := m.counter 32, postFrom := m.stageState } }
    K.stageStageStat F.stageStageStatState 2) K.stageStageStat F.stageStageStatPostPend 0)

theorem takePost_quiesces {m : Chip} (hs : m.stageState < 4) : m.takePost = allCtxs.foldl Chip.quiesceCtx m.postHeld :=
  when_neg (decide_eq_false (by omega))

theorem quiesceCtx_going {m : Chip} {x : Ctx} (hg : (m.ctx x).st.going = true) (hs : (m.ctx x).stopReq.elem .side = false) :
    m.quiesceCtx x = (m.setCtx x { m.ctx x with
      stopReq := (m.ctx x).stopReq.filter (fun h => h != .switch && h != .side && h != .yield && h != .quiesce) ++ [.quiesce] }).modTask
      (m.ctx x).task fun t => if t.st == .leaving then { t with st := .running, forTask := none } else t := by
  unfold Chip.quiesceCtx
  dsimp only
  rw [if_pos hg, if_neg (by simpa using hs)]

/-! ### POST_QUIESCED (R442, R444) -/

/-- The Save phase writes an image where one is asked for, and the Mirror phase begins. -/
theorem postSave_stage (m : Chip) : m.postSave.stg.post = .mirror ∧
    m.postSave.stg.nextImage = if m.saveAllVec.postImages then some m.postImage else none := by
  refine ⟨rfl, ?_⟩
  unfold Chip.postSave
  extract_lets m1 img m2
  have h2 : m2.stageCore.nextImage = if m1.postImages then some img else none := by
    unfold m2
    split
    · rw [stageCore_of_bare (writeImage_bare _)]; rfl
    · rfl
  exact h2

/-! ### POST_COMMIT (R443, R446) -/

/-- The stage controller after the commit of a post that leaves the page armed or not. -/
def StageCtl.committed (s : StageCtl) (armed : Bool) : StageCtl :=
  { s with
    armed := armed, image := s.nextImage, nextImage := none, half := if s.nextImage.isSome then !s.half else s.half
    written := [], log := [], stale := [], third := [], given := [], aborted := [], counted := [], diverged := [], bDuring := 0
    mirrorBad := false, post := .none }

theorem postCommit_stageCore {m : Chip} (h : m.stg.deferred = []) : m.postCommit.stageCore = m.stageCore.committed m.postMirrors := by
  unfold Chip.postCommit
  extract_lets armed m1 m2 st m3 m4 last m5
  have h1 : m1.bare = m.bare := by
    unfold m1
    split
    · exact foldl_keeps Chip.bare mirrorGranule_bare _ m
    · rfl
  have h3 : m3.stageCore = m.stageCore.committed armed := congrArg (·.committed armed) (stageCore_of_bare h1)
  have hd : m3.stg.deferred = [] := (deferred_of_bare h1).trans h
  have h4 : m4 = m3 := by
    unfold m4
    rw [hd]
    exact ite_self _
  have h5 : m5.bare = m3.bare := by
    refine (event_bare _ _ _).trans ((applyStaged_bare _ _).trans ((setReg_bare _ _ _).trans ?_))
    rw [h4]
  calc ((m5.applyAll.resumeCtxs).freeStage cmdOk |>.syncRun stagePage).stageCore
      = m5.applyAll.resumeCtxs.stageCore := (stageCore_of_bare (syncRun_bare _ _)).trans (freeStage_stageCore _ _)
    _ = m5.applyAll.stageCore := by unfold Chip.stageCore; rw [resumeCtxs_stg]
    _ = m3.stageCore := stageCore_of_bare ((applyAll_bare ((deferred_of_bare h5).trans hd)).trans h5)
    _ = m.stageCore.committed armed := h3

/-! ### POST_QUIESCE_TIMEOUT (R442) -/

theorem postLate_stageCore {m : Chip} (h : m.stg.deferred = []) :
    m.postLate.stageCore = Chip.stageCore { m with stg := { m.stg with post := .retry } } := by
  unfold Chip.postLate
  extract_lets m1 m2
  have hrec : (m1.stageRecord 0x85 stageId none none).bare = m1.bare := stageRecord_bare _ _ _ _ _
  have h2 : m2.stageCore = Chip.stageCore { m with stg := { m.stg with post := .retry } } := by
    refine (stageCore_of_bare (when_tellState_bare _ _)).trans ?_
    unfold Chip.stageCore
    rw [resumeCtxs_stg]
    exact stageCore_of_bare ((applyAll_bare ((deferred_of_bare hrec).trans h)).trans hrec)
  split
  · exact (freeStage_stageCore _ _).trans h2
  · exact h2

/-! ### The rows -/

theorem onHbm_to {s : State} {b : Chip} (f : Chip → Chip) (hm : s.chip.memUp = true) (h : f s.chip = b) :
    onHbm f s = .next (s.on b) := by
  rw [onHbm_eq hm, h]

theorem onLog_to {s : State} {b : Chip} (f : Chip → Chip) (h : f s.chip = b) : onLog f s = .next (s.settled s.nvm b) := by
  rw [onLog_eq, h]

/-- Settles O55, row by row. -/
theorem postsRunThroughTheirPhases : Obligations.PostsRunThroughTheirPhases := by
  intro s m
  refine ⟨?timer, ?post, fun b x => quiesceCtx_going, ?quiesced, ?commit, ?late, ?retry, ?overflow⟩
  case timer => exact fun ha hs hp ht => onChip_to Chip.stageTimer (stageTimer_expires ha hs hp ht)
  case post =>
    intro hr hp hrb hs hc b
    exact onChip_to (fun m => m.when m.postDue Chip.takePost)
      ((when_pos (postDue_requested hr hp hrb hs hc)).trans (takePost_quiesces hs))
  case quiesced =>
    intro hmem hp hq
    have hexec : exec .postQuiesced s = .next (s.on m.postSave) :=
      onHbm_to (fun m => m.when (m.stg.post == .quiesce && m.quiesced) Chip.postSave) hmem (when_pos (by rw [hp, hq]; rfl))
    obtain ⟨hpost, himage⟩ := postSave_stage m
    exact ⟨fun h => ⟨_, hexec, hpost, himage.trans (if_pos h)⟩,
      fun h => ⟨_, hexec, hpost, himage.trans (if_neg (ne_true_of_eq_false h))⟩⟩
  case commit =>
    intro hmem hp hfail hd
    have hexec : exec .postCommit s = .next (s.on m.postCommit) :=
      onHbm_to (fun m => m.when (m.stg.post == .mirror) fun m =>
        if m.mirrorFails then m.dirtyList.foldl (fun (m : Chip) g => m.crcNote stageId false true (g * 65536) 65536) m
        else m.postCommit) hmem ((when_pos (by rw [hp]; rfl)).trans (if_neg (ne_true_of_eq_false hfail)))
    have h := postCommit_stageCore hd
    exact ⟨_, hexec, congrArg StageCtl.post h, congrArg StageCtl.image h, congrArg StageCtl.nextImage h, congrArg StageCtl.armed h,
      congrArg StageCtl.written h, congrArg StageCtl.log h, congrArg StageCtl.stale h, congrArg StageCtl.bDuring h⟩
  case late =>
    intro hp hq hd
    have hexec : exec .postQuiesceTimeout s = .next (s.on m.postLate) :=
      onChip_to (fun m => m.when (m.stg.post == .quiesce && !m.quiesced) Chip.postLate) (when_pos (by rw [hp, hq]; rfl))
    have h := postLate_stageCore hd
    exact ⟨_, hexec, congrArg StageCtl.post h, (congrArg StageCtl.image h :)⟩
  case retry =>
    intro hp b
    exact onChip_to (fun m => m.when (m.stg.post == .retry) fun m =>
      let m1 := m.modStg fun s => { s with post := .none }
      if m1.postDue then m1.takePost else m1) (when_pos (by rw [hp]; rfl))
  case overflow =>
    intro hl hf
    exact onLog_to (fun m => m.when (m.logging && m.flag K.stageStageStat F.stageStageStatFull) fun m =>
      m.escalate (m.recEvent causeOverflow stageId 0 32)) (when_pos (by rw [hl, hf]; rfl))

end Sys2Proof.Machine

/-! PROOFS. Errors take their level, and the phases of a rollback begin (R450 to R452, R454 to R456, R460). -/
namespace Sys2Proof.Machine

/-! ### The level at which an error is handled (R450, R451) -/

theorem handleNow_free {m : Chip} {e : RecEvent} (h5 : m.stageState ≠ 5) (hrb : m.stg.rb = .none)
    (ha : (m.levelOf e).2 = .a → m.stg.current = none) : m.handleNow e = some (m.levelOf e) := by
  unfold Chip.handleNow
  dsimp only
  rw [if_neg (by simpa using h5), if_neg (by simp [hrb])]
  split
  · rename_i h
    rw [ha h]
    rfl
  · rfl

/-- The first error that waits takes its level, unless a repair holds it. -/
theorem recovery_first {m : Chip} {e : RecEvent} {t : List RecEvent} (he : m.stg.events = e :: t) (h5 : m.stageState ≠ 5)
    (hrb : m.stg.rb = .none) (ha : (m.levelOf e).2 = .a → m.stg.current = none) :
    m.recovery none = Chip.handleEvent { m with stg := { m.stg with events := t } } (m.levelOf e).1 (m.levelOf e).2 := by
  have hfind : (m.stg.events.findSome? fun e => (m.handleNow e).map fun r => (e, r)) = some (e, m.levelOf e) := by
    rw [he, List.findSome?_cons, handleNow_free h5 hrb ha]; rfl
  have herase : (m.modStg fun s => { s with events := s.events.erase e }) = { m with stg := { m.stg with events := t } } :=
    congrArg (fun l => ({ m with stg := { m.stg with events := l } } : Chip)) (by rw [he, List.erase_cons_head])
  unfold Chip.recovery Chip.detect
  dsimp only
  rw [hfind]
  dsimp only
  rw [herase]

section
variable {b : Chip} {e : RecEvent}

theorem handleEvent_none (h6 : e.cause ≠ 0x06) (h3 : e.cause ≠ 0x03) : b.handleEvent e .none = b :=
  (if_neg h6).trans (if_neg h3)

theorem handleEvent_mirror (h : e.cause = 0x03) :
    b.handleEvent e .none = (b.modStg fun s => { s with mirrorBad := true }).requestPost :=
  (if_neg (by rw [h]; decide)).trans (if_pos h)

theorem handleEvent_repeated (h : e.cause = 0x06) {i : Image} (hi : b.stg.image = some i) {x : Ctx}
    (hx : x = ⟨⟨idIndex e.unit / 2 % 64, Nat.mod_lt _ (by decide)⟩, idIndex e.unit % 2 == 1⟩) : b.handleEvent e .none =
      ((b.setCtx x { (i.coaches[x.coach.val]).side x.aft with st := .idle, task := 0, asid := 0, stopReq := [] }).syncCoach
        x.coach).markEnding e.task 0x0A 0 := by
  subst hx
  refine (if_pos h).trans ?_
  unfold Chip.repeatFault
  dsimp only
  rw [hi]

/-- A repair is noted; one of a reloadable granule asks for a freight dray. -/
theorem handleEvent_a : b.handleEvent e .a =
    let c := (b.noted e 1).modStg fun s => { s with current := some e }
    if (e.cause = 0x02 ∨ e.cause = 0x04) ∧ b.tag (e.addr.toNat / 65536) = 2 then c.askJob (.reload (e.addr.toNat / 65536)) 0x8005 1 else c := by
  unfold Chip.handleEvent
  dsimp only
  refine if_congr ?_ rfl rfl
  simp only [Bool.and_eq_true, Bool.or_eq_true, decide_eq_true_eq]
  rfl

theorem freeStage_eq (m : Chip) (err : Nat) : m.freeStage err = m.freedPage err := by
  by_cases h : m.stg.postCmd = 0
  · exact (if_neg (not_not.mpr h)).trans (if_pos h).symm
  · exact (if_pos h).trans (if_neg h).symm

end

theorem levelB_disarmed {m : Chip} {e : RecEvent} (h : m.stg.armed = false) : m.levelB e = (e, .c) := if_pos (by simp [h])

theorem levelB_first {m : Chip} {e : RecEvent} (h : m.stg.armed = true) (hm : m.stg.mirrorBad = false)
    (hc : m.fld K.stageStageStat F.stageStageStatBcount < 2) : m.levelB e = (e, .b) :=
  (if_neg (by simp [h, hm])).trans (if_neg (Nat.not_le.mpr hc))

theorem levelB_third {m : Chip} {e : RecEvent} (h : m.stg.armed = true) (hm : m.stg.mirrorBad = false)
    (hc : 2 ≤ m.fld K.stageStageStat F.stageStageStatBcount) : m.levelB e = ({ e with cause := 0x0C }, .c) :=
  (if_neg (by simp [h, hm])).trans (if_pos hc)

/-! ### A repair (R450) -/

/-- A guarded block whose mirror is good is rewritten from it. -/
theorem repairDone_guarded {m : Chip} {e : RecEvent} {b : Nat} (hcur : m.stg.current = some e) (hc : e.cause = 0x02)
    (ht : m.tag (e.addr.toNat / 65536) = 1) (hb : m.mirrorOf e.addr.toNat = some b) (hgood : b / 64 ∉ m.badCrc) :
    m.repairDone = (Chip.count ((m.copyBlock b e.addr.toNat).modStg fun s => { s with current := none }) K.stageCntA 1).event stagePage 21 := by
  unfold Chip.repairDone
  rw [hcur]
  dsimp only
  rw [if_neg (by rw [hc]; decide), if_pos (.inl hc), if_neg (by rw [granuleOf, ht]; decide), hb]
  exact if_neg (by simpa using hgood)

theorem copyBlock_good {m : Chip} {src : Nat} (h : src / 64 ∉ m.badCrc) (dst : Nat) : m.copyBlock src dst =
    { m.copyMem (src / 64 * 64) (dst / 64 * 64) 64 with
      badCrc := (m.copyMem (src / 64 * 64) (dst / 64 * 64) 64).badCrc.filter (· != dst / 64) } :=
  if_neg (by simpa using h)

/-! ### The Restart (R452) -/

/-- The end of a Restart: STATE reads 4 and the contexts go on; a ROLLBACK that waits, or no command, frees the page. -/
def Chip.letGo (b : Chip) : Chip :=
  let c := (b.setFld K.stageStageStat F.stageStageStatState 4).resumeCtxs
  Chip.pumpReads (if c.stg.postCmd = 4 ∨ c.stg.postCmd = 0 then c.freedPage 0 else c)

theorem letGo_eq (b : Chip) : b.letGo =
    let c := (b.setStage 4).resumeCtxs
    Chip.pumpReads (if c.stg.postCmd = 4 || c.stg.postCmd = 0 then c.freeStage cmdOk else c) := by
  unfold Chip.letGo Chip.setStage
  simp only [Bool.or_eq_true, decide_eq_true_eq, freeStage_eq]

/-- With no coach to fence the Restart relocates nothing. -/
theorem restart_unfenced {m : Chip} (hf : m.stg.rbFence = none)
    (hc : ∀ c : Fin 64, m.flag (K.shuntCoachCfg c) F.shuntCoachCfgFenced = false) : m.restart =
      Chip.letGo { m with stg := { m.stg with rb := .none, rbFence := none, rbRun := m.counter 32, bDuring := m.stg.bDuring + m.queuedB.length } } := by
  have hnone : ((List.finRange 64).filter fun c => m.stg.rbFence == some c.val ||
      m.flag (K.shuntCoachCfg c.val) F.shuntCoachCfgFenced) = [] :=
    List.filter_eq_nil_iff.mpr fun c _ => by simp [hf, hc c]
  unfold Chip.restart
  dsimp only
  rw [hnone, List.foldl_nil]
  exact (letGo_eq _).symm

/-! ### The re-execution (R454 to R456) -/

/-- A recorded write that is held by nothing is performed once more, with its notice. -/
theorem applyWrite_lands {m : Chip} {r : LogRec} (hd : ∀ d ∈ m.stg.deferred, d.entry ≠ r)
    (hheld : m.logReach.devHeld (r.land.getD ⟨3, none, none⟩).cls true false r.value.toNat r.payload.length = false) :
    m.applyWrite r =
      let t := r.land.getD ⟨3, none, none⟩
      let b := m.logReach.peerPut r.master t.cls r.value.toNat r.payload t.rc
      match t.notify with | some n => b.notifyWindow n | none => b := by
  have hfilter : m.logReach.stg.deferred.filter (fun d : Deferred => d.entry != r) = m.logReach.stg.deferred :=
    List.filter_eq_self.mpr fun d hin => bne_iff_ne.mpr (hd d hin)
  have hsame : (m.logReach.modStg fun s => { s with deferred := s.deferred.filter fun (d : Deferred) => d.entry != r }) = m.logReach :=
    congrArg (fun l => ({ m.logReach with stg := { m.logReach.stg with deferred := l } } : Chip)) hfilter
  unfold Chip.applyWrite
  dsimp only
  rw [hsame]
  exact if_neg fun h => ne_true_of_eq_false hheld h.2

theorem dataApply_write {m : Chip} {r : LogRec} (hr : m.logHead = some r) (hk : r.kind = .peerWrite ∨ r.kind = .bar2Write) :
    m.dataApply = (m.applyWrite r).pumpPeers.pumpReads := by
  unfold Chip.dataApply
  rw [hr]
  rcases hk with hk | hk <;> simp only [hk]

theorem diverge_ends {m : Chip} {h : W16} (hre : m.reexec = true) (h0 : h ≠ 0) (hd : h ∈ m.stg.diverged) : m.diverge h =
    ((((m.stageRecord 0x84 stageId none none).skipTask h).modStg fun s => { s with diverged := s.diverged.filter (· != h) }).markEnding h
      stRbAbort 0).pumpPeers.pumpReads := by
  unfold Chip.diverge
  rw [if_neg (by simp [hre, hd])]
  dsimp only
  rw [if_neg h0]

/-- What the end of a re-execution sets in the registers of the stage. -/
def Chip.reexecShown (m : Chip) : Chip :=
  Chip.event (((m.setStage 1).count K.stageCntB 1).setReg K.stageLastRb (BitVec.ofNat 64
    (((m.stg.rbRun - m.stg.rbAt).toNat / 400) % 2 ^ 32 + m.usSince m.stg.rbRun / 1000 % 2 ^ 32 * 2 ^ 32))) stagePage 18

theorem reexecShown_ctx (m : Chip) (x : Ctx) : m.reexecShown.ctx x = m.ctx x := by
  unfold Chip.ctx Chip.coach Chip.reexecShown Chip.setStage
  rw [event_coaches, setReg_coaches, count_coaches, setFld_coaches]

theorem reexecShown_logCtl (m : Chip) : m.reexecShown.reg K.stageLogCtl = m.reg K.stageLogCtl := by
  unfold Chip.reexecShown
  rw [(event_step _ _ _).reg _ (by simp only [evtKey, K.pageEvt, K.hostifMsixDrop, K.stageLogCtl, PageId.base, pageBase]; decide),
    reg_setReg_ne _ _ (by decide), reg_count, if_neg (by decide)]
  exact reg_setFld_ne _ _ _ (by decide)

theorem reexecEnd_eq (m : Chip) : m.reexecEnd =
    let b := m.reexecShown
    let c := if b.flag K.stageLogCtl F.stageLogCtlNotice then
      (allCtxs.filter fun x => (b.ctx x).intEn.getLsbD 2).foldl (fun b x => b.postInt x 2) b else b
    (c.modStg fun s => { s with diverged := [] }).pumpPeers.pumpReads := by
  have hflag : m.reexecShown.flag K.stageLogCtl F.stageLogCtlNotice = m.flag K.stageLogCtl F.stageLogCtlNotice := by
    unfold Chip.flag Chip.fld
    rw [reexecShown_logCtl]
  simp only [hflag, reexecShown_ctx]
  rfl

end Sys2Proof.Machine

/-! PROOFS. The Stop, Restore and Restart phases of a rollback (R452, R398, R401, R435, R444). -/
namespace Sys2Proof.Machine

/-! ### The Stop phase -/

/-- A coach as the Stop phase leaves it. -/
def Coach.halted (k : Coach) : Coach :=
  { k with
    fore := k.fore.halted, aft := k.aft.halted, vec := { k.vec with q := [] }, mtx := { k.mtx with queue := [], arr := [] }
    dray := Vector.replicate 8 DStream.reset, vown := { k.vown with claimF := false, claimA := false, evict := false } }

/-- The chip as the Stop phase leaves it, apart from registers; `xf` says that transfers go on. -/
def Chip.halted (m : Chip) (xf : Bool) : Chip :=
  { m with
    coaches := m.coaches.map Coach.halted, sends := [], xlat := { m.xlat with miss := [], toSide := [], limited := [] }
    host := { m.host with
      held := m.host.held.filter fun w => w.kind == .record || w.kind == .inval || (xf && w.kind == .transfer)
      jobs := m.host.jobs.filter fun j => j.work.isInbound || (xf && j.work.isXfer)
      reads := m.host.reads.filter fun r => r.dest.isWalk || (xf && r.isTransfer) }
    sf := { m.sf with
      out := [], gather := [], wait := []
      port := m.sf.port.map fun p => { p with wait := p.wait.filter fun w => w.ser.isNone } } }

theorem syncHeld_rest (m : Chip) : m.syncHeld = { m with regs := m.syncHeld.regs } := rfl

theorem syncCoaches_rest (m : Chip) (l : List Nat) : l.foldl Chip.syncCoach m = { m with regs := (l.foldl Chip.syncCoach m).regs } := by
  induction l generalizing m with
  | nil => rfl
  | cons c t ih =>
    rw [List.foldl_cons, ih, syncCoach_rest]

theorem stopAll_rest (m : Chip) (xf : Bool) : m.stopAll xf = { m.halted xf with regs := (m.stopAll xf).regs } :=
  syncCoaches_rest (m.halted xf).syncHeld (List.range 64)

theorem coach_halted (m : Chip) (xf : Bool) (c : Fin 64) : (m.halted xf).coach c = (m.coach c).halted :=
  Vector.getElem_map ..

theorem coach_stopAll (m : Chip) (xf : Bool) (c : Fin 64) : (m.stopAll xf).coach c = (m.coach c).halted := by
  have h : (m.stopAll xf).coaches = (m.halted xf).coaches := by rw [stopAll_rest]
  unfold Chip.coach
  rw [h]
  exact coach_halted m xf c

theorem side_halted (k : Coach) (aft : Bool) : k.halted.side aft = (k.side aft).halted := by
  cases aft <;> rfl

theorem ctx_stopAll (m : Chip) (xf : Bool) (x : Ctx) : (m.stopAll xf).ctx x = (m.ctx x).halted := by
  unfold Chip.ctx
  rw [coach_stopAll, side_halted]

theorem stream_halted (m : Chip) (xf : Bool) (c : Fin 64) (k : Fin 8) : (m.stopAll xf).stream c k = DStream.reset := by
  unfold Chip.stream
  rw [coach_stopAll]
  exact Vector.getElem_replicate ..

/-! ### The Restart -/

theorem mem_allCtxs (x : Ctx) : x ∈ allCtxs := by
  obtain ⟨c, aft⟩ := x
  refine List.mem_flatMap.mpr ⟨c, List.mem_finRange c, ?_⟩
  cases aft <;> simp

/-- A fold that acts on each context alone, and does nothing more when it acts twice. -/
theorem foldl_ctx {f : Chip → Ctx → Chip} {g : Context → Context} (hself : ∀ m x, (f m x).ctx x = g (m.ctx x))
    (hne : ∀ m x y, y ≠ x → (f m x).ctx y = m.ctx y) (hg : ∀ k, g (g k) = g k) (l : List Ctx) (m : Chip) (y : Ctx) :
    (l.foldl f m).ctx y = if y ∈ l then g (m.ctx y) else m.ctx y := by
  induction l generalizing m with
  | nil => rfl
  | cons x t ih =>
    rw [List.foldl_cons, ih]
    by_cases hx : y = x
    · subst hx
      rw [hself, if_pos List.mem_cons_self, hg, ite_self]
    · simp only [hne m x y hx, List.mem_cons, hx, false_or]

theorem Context.resumed_resumed (k : Context) : k.resumed.resumed = k.resumed := by
  by_cases h : k.stopReq.elem .quiesce = true
  · have hgone : ¬ k.resumed.stopReq.elem .quiesce = true := by
      rw [Context.resumed, if_pos h]
      simp
    exact if_neg hgone
  · rw [Context.resumed.eq_1 k, if_neg h]
    exact if_neg h

theorem ctx_syncCoach (m : Chip) (c : Nat) (x : Ctx) : (m.syncCoach c).ctx x = m.ctx x := by
  unfold Chip.ctx Chip.coach
  rw [syncCoach_coaches]

/-- The step of the Restart for one context. -/
def Chip.resumeCtx (m : Chip) (x : Ctx) : Chip :=
  if (m.ctx x).stopReq.elem .quiesce then (m.setCtx x (m.ctx x).resumed).syncCoach x.coach else m

theorem resumeCtxs_eq (m : Chip) : m.resumeCtxs = allCtxs.foldl Chip.resumeCtx m := by
  have hstep : Chip.resumeCtx = fun m x =>
      let k := m.ctx x
      if k.stopReq.elem .quiesce then
        let r := k.stopReq.filter (· != .quiesce)
        (m.setCtx x { k with stopReq := r, st := if k.st == .stopped && r.isEmpty then .running else k.st }).syncCoach x.coach.val
      else m := by
    funext m x
    unfold Chip.resumeCtx Context.resumed
    by_cases h : (m.ctx x).stopReq.elem .quiesce = true
    · simp only [if_pos h]
    · simp only [if_neg h]
  rw [hstep]
  rfl

theorem ctx_resumeCtx (m : Chip) (x : Ctx) : (m.resumeCtx x).ctx x = (m.ctx x).resumed := by
  unfold Chip.resumeCtx
  split
  · rw [ctx_syncCoach, ctx_setCtx]
  · rename_i h
    exact (if_neg h).symm

theorem ctx_resumeCtx_ne (m : Chip) (x y : Ctx) (h : y ≠ x) : (m.resumeCtx x).ctx y = m.ctx y := by
  unfold Chip.resumeCtx
  split
  · rw [ctx_syncCoach, ctx_setCtx_ne _ _ h]
  · rfl

theorem ctx_resumeCtxs (m : Chip) (x : Ctx) : m.resumeCtxs.ctx x = (m.ctx x).resumed := by
  rw [resumeCtxs_eq, foldl_ctx ctx_resumeCtx ctx_resumeCtx_ne Context.resumed_resumed, if_pos (mem_allCtxs x)]

theorem resumeCtxs_rest (m : Chip) : m.resumeCtxs.mem = m.mem ∧ m.resumeCtxs.sh = m.sh := by
  have hstep (b : Chip) (x : Ctx) : (b.resumeCtx x).mem = b.mem ∧ (b.resumeCtx x).sh = b.sh := by
    unfold Chip.resumeCtx
    split
    · rw [syncCoach_rest]; exact ⟨rfl, rfl⟩
    · exact ⟨rfl, rfl⟩
  rw [resumeCtxs_eq]
  exact ⟨foldl_keeps (·.mem) (fun b x => (hstep b x).1) _ m, foldl_keeps (·.sh) (fun b x => (hstep b x).2) _ m⟩

/-! ### A granule copied from its mirror (R435, R450) -/

theorem copyCount_unreported (m : Chip) (src dst : Nat) : (m.copyCount src dst).unreported = m.unreported := by
  have hcount (a : Chip) (k n : Nat) : (a.count k n).unreported = a.unreported := rfl
  unfold Chip.copyCount
  dsimp only
  split
  · exact hcount _ _ _
  · exact (hcount _ _ _).trans (hcount _ _ _)

/-- The chip apart from reports and the blocks whose CRC is bad. -/
def Chip.unmarked (m : Chip) : Chip := { m.unreported with badCrc := [] }

theorem unmarked_of_unreported {m a : Chip} (h : a.unreported = m.unreported) : a.unmarked = m.unmarked :=
  congrArg (fun c : Chip => { c with badCrc := [] }) h

/-- But for reports and marks of bad blocks the granule is copied. -/
theorem restoreGranule_unmarked {m : Chip} {g a : Nat} (h : m.mirrorOf (g * 65536) = some a) :
    (m.restoreGranule g).unmarked = (m.copyMem a (g * 65536) 65536).unmarked := by
  unfold Chip.restoreGranule
  rw [h]
  refine (foldl_keeps Chip.unmarked (fun b k => ?_) _ _).trans ?_
  · exact unmarked_of_unreported (crcRecord_unreported b _ _ _)
  · exact (unmarked_of_unreported (copyCount_unreported (m.copyMem a (g * 65536) 65536) a (g * 65536)) :)

theorem bare_of_unmarked {m a : Chip} (h : a.unmarked = m.unmarked) : a.bare = m.bare :=
  (congrArg Chip.bare h :)

theorem restoreGranule_bare (m : Chip) (g : Nat) : (m.restoreGranule g).bare = m.bare := by
  cases h : m.mirrorOf (g * 65536) with
  | none => unfold Chip.restoreGranule; rw [h]
  | some a => exact (bare_of_unmarked (restoreGranule_unmarked h)).trans (copyMem_bare _ _ _ _)

end Sys2Proof.Machine

/-! PROOFS. What the Restore phase of a rollback brings back (R386, R398, R401, R440, R444, R452). -/
namespace Sys2Proof.Machine

/-! ### Up to the image -/

/-- What looks at nothing that reports and moves of memory change is as before. -/
theorem view_of_bare {β : Type} {m a : Chip} (g : Chip → β) (hg : ∀ c, g (Chip.bare c) = g c) (h : a.bare = m.bare) : g a = g m :=
  (hg a).symm.trans ((congrArg g h).trans (hg m))

/-- The chip once every open fault is closed and nothing is marked diverged. -/
def Chip.faultless (m : Chip) : Chip :=
  { m with xlat := { m.xlat with faults := [], toSide := [], full := [], limited := [] }, stg := { m.stg with diverged := [] } }

/-- The chip with what an image holds of coaches, control memory, buffers, tasks, transfers, registrations and the log. -/
def Chip.imaged (m : Chip) (i : Image) : Chip :=
  Chip.modStg { m with
    coaches := Vector.zipWith restoreCoach m.coaches i.coaches
    cm := i.cm, obuf := i.obuf, sh := restoreShunter m.sh i.sh
    host := { m.host with
      jobs := m.host.jobs ++ i.jobs
      reads := m.host.reads ++ i.reads.map fun r => { r with sent := false } } } fun s =>
    { s with regist := i.regist, log := s.log.map fun r => { r with reached := false } }

theorem closeFaults_bare (m : Chip) : m.closeFaults.bare =
    Chip.bare { m with xlat := { m.xlat with faults := [], toSide := [], full := [], limited := [] } } :=
  event_bare _ _ _

theorem dropLines_bare (m : Chip) (g : Nat) : (m.dropLines g).bare = m.bare := by
  unfold Chip.dropLines
  dsimp only
  split
  · rw [modSlice_rest]; rfl
  · rfl

theorem restorePower_bare (m : Chip) (i : Image) : (m.restorePower i).bare = m.bare := by
  refine foldl_keeps Chip.bare (fun b c => foldl_keeps Chip.bare (fun b q => ?_) _ b) _ m
  split
  · exact zeroMem_bare _ _ _
  · rfl

theorem restoreRegs_bare (m : Chip) (i : Image) : (m.restoreRegs i).bare = m.bare := rfl

theorem restoreRows_bare (m : Chip) (i : Image) : (m.restoreRows i).bare = m.bare := rfl

theorem restoreOsn_bare (m : Chip) (i : Image) : (m.restoreOsn i).bare = m.bare := by
  refine foldl_keeps Chip.bare (fun b n => ?_) _ m
  dsimp only
  split
  · rfl
  · exact setReg_bare _ _ _

theorem regUsed_bare (m : Chip) : m.regUsed.bare = m.bare := setReg_bare _ _ _

theorem syncHeld_bare (m : Chip) : m.syncHeld.bare = m.bare := setReg_bare _ _ _

theorem imaged_bare {m a : Chip} (h : a.bare = m.bare) (i : Image) : (a.imaged i).bare = (m.imaged i).bare :=
  (congrArg (fun c : Chip => (c.imaged i).bare) h :)

theorem restoreImage_eq (m : Chip) (i : Image) : m.restoreImage i =
    (((((m.restorePower i).restoreRegs i).restoreRows i).restoreOsn i).imaged i).regUsed := rfl

theorem restoreImage_bare (m : Chip) (i : Image) : (m.restoreImage i).bare = (m.imaged i).bare := by
  rw [restoreImage_eq, regUsed_bare]
  refine imaged_bare ?_ i
  rw [restoreOsn_bare, restoreRows_bare, restoreRegs_bare, restorePower_bare]

theorem doomed_nil {m : Chip} {i : Image} (h : m.sparesAll i) : m.doomed = [] :=
  List.filter_eq_nil_iff.mpr fun t ht => by
    obtain ⟨hmode, hstale⟩ := h.1 t ht
    simp [hmode, hstale]

theorem copied_bare (m : Chip) : (m.dirtyList.foldl Chip.restoreGranule (m.dirtyList.foldl Chip.dropLines m.closeFaults)).bare =
    Chip.bare { m with xlat := { m.xlat with faults := [], toSide := [], full := [], limited := [] } } :=
  (foldl_keeps Chip.bare restoreGranule_bare _ _).trans ((foldl_keeps Chip.bare dropLines_bare _ _).trans (closeFaults_bare m))

/-- The chip once the Restore phase has written the image back, before it ends tasks of the image. -/
def Chip.rewritten (m : Chip) (i : Image) : Chip :=
  let m2 := m.dirtyList.foldl Chip.restoreGranule (m.dirtyList.foldl Chip.dropLines m.closeFaults)
  let rewritten (e : RecEvent) : Bool :=
    (e.cause == causeHbmCrc || e.cause == causeDepot) && m.dirtyList.elem (granuleOf e.addr.toNat)
  ((m2.modStg fun s => { s with events := s.events.filter (!rewritten ·), diverged := [] }).restoreImage i).imageCount fun s => K.hbmRdBytes s

theorem rewritten_bare (m : Chip) (i : Image) : (m.rewritten i).bare = (m.faultless.imaged i).bare := by
  unfold Chip.rewritten
  extract_lets m2 rewritten
  refine (imageCount_bare _ _).trans ((restoreImage_bare _ i).trans (imaged_bare ?_ i))
  exact (congrArg (fun c : Chip => Chip.bare { c with stg := { c.stg with diverged := [] } }) (copied_bare m) :)

theorem restoredDoomed_nil {m : Chip} {i : Image} (h : m.sparesAll i) : (m.rewritten i).restoredDoomed = [] := by
  have htasks : (m.rewritten i).sh.tasks = i.sh.tasks := view_of_bare (·.sh.tasks) (fun _ => rfl) (rewritten_bare m i)
  have haborted : (m.rewritten i).stg.aborted = m.stg.aborted := 
    (view_of_bare (·.stg.aborted) (fun _ => rfl) (rewritten_bare m i) :)
  unfold Chip.restoredDoomed
  rw [htasks, haborted]
  exact List.filter_eq_nil_iff.mpr fun t ht => by
    obtain ⟨hmode, hord⟩ := h.2 t ht
    simp [hmode, hord]

/-! ### What the end of the Restore phase leaves -/

/-- A context apart from its state and its interrupt sources. -/
def Context.program (k : Context) : Context := { k.unposted with st := .idle }

def Coach.program (k : Coach) : Coach := { k with fore := k.fore.program, aft := k.aft.program }

theorem side_program (k : Coach) (aft : Bool) : k.program.side aft = (k.side aft).program := by
  cases aft <;> rfl

/-- The chip apart from reports and memory, the states and sources of contexts, and the states of tasks. -/
def Chip.recovered (m : Chip) : Chip :=
  { m.bare with
    coaches := m.coaches.map Coach.program
    sh := { m.sh with tasks := m.sh.tasks.map fun t => { t with st := .ready, since := 0 }, order := 0 } }

theorem recovered_of_bare {m a : Chip} (h : a.bare = m.bare) : a.recovered = m.recovered :=
  (congrArg Chip.recovered h :)

theorem view_of_recovered {β : Type} {m a : Chip} (g : Chip → β) (hg : ∀ c, g (Chip.recovered c) = g c)
    (h : a.recovered = m.recovered) : g a = g m :=
  (hg a).symm.trans ((congrArg g h).trans (hg m))

theorem recovered_of_coaches {m : Chip} {v : Vector Coach 64} (h : ∀ c : Fin 64, v[c].program = (m.coach c).program) :
    Chip.recovered { m with coaches := v } = m.recovered := by
  have hv : v.map Coach.program = m.coaches.map Coach.program :=
    Vector.ext fun n hn => by simpa [Chip.coach] using h ⟨n, hn⟩
  unfold Chip.recovered
  rw [hv]
  rfl

theorem coach_program_of_recovered {m a : Chip} (h : a.recovered = m.recovered) (c : Fin 64) :
    (a.coach c).program = (m.coach c).program := by
  have hc : (a.coaches.map Coach.program)[c.val] = (m.coaches.map Coach.program)[c.val] := (congrArg (·.coaches[c.val]) h :)
  simpa [Chip.coach] using hc

theorem handles_of_recovered {m a : Chip} (h : a.recovered = m.recovered) : a.handles = m.handles := by
  have ht := (congrArg (fun c : Chip => c.sh.tasks.map (·.handle)) h :)
  simpa [Chip.recovered, Chip.handles, List.map_map, Function.comp_def] using ht

theorem modCtx_recovered (m : Chip) (x : Ctx) {f : Context → Context} (hf : ∀ k, (f k).program = k.program) :
    (m.modCtx x f).recovered = m.recovered := by
  refine recovered_of_coaches (v := (m.modCtx x f).coaches) fun c => ?_
  show ((m.modCtx x f).coach c).program = _
  by_cases h : c = x.coach
  · subst h
    rw [coach_modCtx]
    unfold Coach.setSide Chip.ctx Coach.side
    split
    · exact congrArg (fun k => { (m.coach x.coach).program with aft := k }) (hf _)
    · exact congrArg (fun k => { (m.coach x.coach).program with fore := k }) (hf _)
  · exact congrArg Coach.program (coach_setCoach_ne m _ h)

theorem unfenceCtxs_recovered (m : Chip) : m.unfenceCtxs.recovered = m.recovered := by
  refine foldl_keeps Chip.recovered (fun b x => ?_) _ m
  split
  · exact modCtx_recovered b x fun _ => rfl
  · rfl

theorem wakeSided_recovered (m : Chip) : m.wakeSided.recovered = m.recovered := by
  refine foldl_keeps Chip.recovered (fun b t => ?_) _ m
  have htasks : (b.modTask t.handle fun t => { t with st := .ready, since := b.sh.order }).sh.tasks.map
      (fun t => { t with st := .ready, since := 0 }) = b.sh.tasks.map fun t => { t with st := .ready, since := 0 } := by
    unfold Chip.modTask
    rw [List.map_map]
    refine List.map_congr_left fun u _ => ?_
    dsimp only [Function.comp]
    split <;> rfl
  unfold Chip.recovered
  rw [modShunt_sh]
  rw [htasks]
  rfl

theorem holdSources_recovered (m : Chip) (x : Ctx) : (m.holdSources x).recovered = m.recovered := by
  rw [holdSources_rest]
  exact recovered_of_coaches fun c => (congrArg Coach.program (holdSources_unposted m x c) :)

theorem restored_recovered {m a : Chip} (h : a.recovered = m.recovered) :
    (a.modStg fun s => { s with rb := .restored, stale := [] }).recovered =
      (m.modStg fun s => { s with rb := .restored, stale := [] }).recovered :=
  (congrArg (fun c : Chip => c.modStg fun s => { s with rb := .restored, stale := [] }) h :)

/-- With no access held at a bad block none is tried again. -/
theorem releaseCrc_none {m : Chip} (h : m.crcHeld = []) (p : HeldReq → Bool) (f : HeldReq → HeldReq) (g : Nat) :
    (Chip.releaseCrc { m with crcHeld := (m.crcHeld.filter p).map f } g).bare = m.bare := by
  have hsame : ({ m with crcHeld := (m.crcHeld.filter p).map f } : Chip) = m :=
    congrArg (fun l => ({ m with crcHeld := l } : Chip)) (show (m.crcHeld.filter p).map f = m.crcHeld by rw [h]; rfl)
  rw [hsame]
  unfold Chip.releaseCrc
  rw [h]
  show ({ m with crcHeld := [], crcSeen := _ } : Chip).bare = m.bare
  rw [← h]
  rfl

/-- The Restore phase from the written image on. -/
def Chip.restoreTail (m : Chip) : Chip :=
  let m5 := (m.restoredDoomed.foldl Chip.dropRestored m).unfenceCtxs
  let m6 := (m5.wakeSided).modStg fun s => { s with rb := .restored, stale := [] }
  let m6 : Chip := { m6 with slices := m6.slices.map fun k => { k with held := k.held.filter fun (h : HeldReq) => !h.target } }
  let m7 := allCtxs.foldl Chip.holdSources ((List.range 64).foldl Chip.syncCoach m6.syncHeld)
  Chip.releaseCrc { m7 with crcHeld := (m7.crcHeld.filter fun h => idKind h.master == 1 && !h.target).map fun h =>
    { h with parity := false } } 0

theorem restore_eq {m : Chip} {i : Image} (hi : m.stg.image = some i) (h : m.sparesAll i) : m.restore = (m.rewritten i).restoreTail := by
  have himage : (m.dirtyList.foldl Chip.restoreGranule (m.dirtyList.foldl Chip.dropLines m.closeFaults)).stg.image = some i := by
    rw [← hi]
    exact (view_of_bare (·.stg.image) (fun _ => rfl) (copied_bare m) :)
  unfold Chip.restore
  rw [doomed_nil h]
  extract_lets dirty m1 m2 rewritten m3 m4
  have h4 : m4 = m.rewritten i := by
    unfold m4
    rw [show m3.stg.image = some i from himage]
    rfl
  clear_value m4
  exact congrArg Chip.restoreTail h4

/-- Where no task of the image ends, the end of the Restore phase leaves it, but for the sources that a warning holds. -/
theorem restoreTail_recovered {m : Chip} (hd : m.restoredDoomed = []) (hc : m.crcHeld = []) :
    m.restoreTail.recovered = (m.modStg fun s => { s with rb := .restored, stale := [] }).recovered := by
  unfold Chip.restoreTail
  rw [hd, List.foldl_nil]
  extract_lets m5 m6 m6' m7
  have h6 : m6.recovered = (m.modStg fun s => { s with rb := .restored, stale := [] }).recovered :=
    restored_recovered ((wakeSided_recovered m5).trans (unfenceCtxs_recovered m))
  clear_value m6
  have h6' : m6'.recovered = m6.recovered := rfl
  clear_value m6'
  have h7 : m7.recovered = m6'.recovered :=
    (foldl_keeps Chip.recovered holdSources_recovered _ _).trans
      ((foldl_keeps Chip.recovered (fun b c => recovered_of_bare (syncCoach_bare b c)) _ _).trans (recovered_of_bare (syncHeld_bare m6')))
  clear_value m7
  have hall := h7.trans (h6'.trans h6)
  have hheld : m7.crcHeld = [] := (view_of_recovered (·.crcHeld) (fun _ => rfl) hall).trans hc
  exact (recovered_of_bare (releaseCrc_none hheld _ _ 0)).trans hall

/-- Where no task ends, the Restore phase leaves the image. -/
theorem restore_recovered {m : Chip} {i : Image} (hi : m.stg.image = some i) (hc : m.crcHeld = []) (h : m.sparesAll i) :
    m.restore.recovered = ((m.faultless.imaged i).modStg fun s => { s with rb := .restored, stale := [] }).recovered := by
  have hw := rewritten_bare m i
  rw [restore_eq hi h, restoreTail_recovered (restoredDoomed_nil h) ((view_of_bare (·.crcHeld) (fun _ => rfl) hw :).trans hc)]
  exact restored_recovered (recovered_of_bare hw)

end Sys2Proof.Machine

/-! PROOFS. The rows of recovery (R450 to R452, R454 to R456, R460). -/
namespace Sys2Proof.Machine

/-! ### The rows -/

/-- The first error that waits takes its level, in the row RECOVERY_EVENT. -/
theorem recoveryEvent_first {s : State} {e : RecEvent} {t : List RecEvent} (he : s.chip.stg.events = e :: t) (h5 : s.chip.stageState ≠ 5)
    (hrb : s.chip.stg.rb = .none) (ha : (s.chip.levelOf e).2 = .a → s.chip.stg.current = none) {c : Chip}
    (hc : Chip.handleEvent { s.chip with stg := { s.chip.stg with events := t } } (s.chip.levelOf e).1 (s.chip.levelOf e).2 = c) :
    exec (.recoveryEvent none) s = .next (s.settled s.nvm c) :=
  onLog_to (·.recovery none) ((recovery_first he h5 hrb ha).trans hc)

/-- A rollback begins: the repair and the post are given up, and a post that ran stays requested. -/
theorem handleEvent_b (b : Chip) (e : RecEvent) : b.handleEvent e .b =
    let n := b.noted e 2; let n1 := n.setFld K.stageStageStat F.stageStageStatBcount (n.fld K.stageStageStat F.stageStageStatBcount + 1)
    let n2 := if n1.stg.post = .none then n1 else n1.setFld K.stageStageStat F.stageStageStatPostPend 1
    let n3 : Chip := { n2 with stg := { n2.stg with
      current := none, post := .none, nextImage := none, rb := .begun, rbAt := b.counter 32, rbFence := if e.cause = 0x01 then e.coach else none
      third := if e.cause = 0x06 then (e.task, e.retired) :: n2.stg.third else n2.stg.third } }
    ((n3.setFld K.stageStageStat F.stageStageStatState 3).event ⟨.stage, 0⟩ 17).heldPage := by
  have hpend (n : Chip) : (if n.stg.post != .none then n.setFld K.stageStageStat F.stageStageStatPostPend 1 else n) =
      if n.stg.post = .none then n else n.setFld K.stageStageStat F.stageStageStatPostPend 1 := by
    by_cases h : n.stg.post = .none <;> simp [h]
  unfold Chip.handleEvent Chip.beginRollback
  dsimp only
  rw [hpend]
  rfl

/-- An escalation gives up repair, post and rollback and stops everything; the ostler is told. -/
theorem handleEvent_c (b : Chip) (e : RecEvent) : b.handleEvent e .c =
    let n := (b.noted e 3).count K.stageCntC 1
    let n1 : Chip := { n with stg := { n.stg with current := none, post := .none, rb := .none, rbFence := none, nextImage := none } }
    let n2 := (n1.setFld K.stageStageStat F.stageStageStatState 5).stopAll true
    let n3 := if n2.busy ⟨.stage, 0⟩ then n2.freedPage 4 else n2
    (((n3.event ⟨.stage, 0⟩ 19).emit (.notify ⟨.stage, 0⟩)).logEvent (.levelC e.cause)).tellState := by
  unfold Chip.handleEvent Chip.escalate
  dsimp only
  rw [freeStage_eq]
  rfl

/-- A repair that is done from a good mirror rewrites its block, counts and lets the checks of its granule go on. -/
theorem levelARepairDone_guarded {s : State} {e : RecEvent} {b : Nat} (hmem : s.chip.memUp = true) (hcur : s.chip.stg.current = some e)
    (hc : e.cause = 0x02) (ht : s.chip.tag (e.addr.toNat / 65536) = 1) (hb : s.chip.mirrorOf e.addr.toNat = some b)
    (hgood : b / 64 ∉ s.chip.badCrc) : exec .levelARepairDone s = .next (s.on
      (let c := s.chip.copyMem (b / 64 * 64) (e.addr.toNat / 64 * 64) 64
       let r : Chip := { c with badCrc := c.badCrc.filter (· != e.addr.toNat / 64), stg := { c.stg with current := none } }
       ((r.count K.stageCntA 1).event ⟨.stage, 0⟩ 21).releaseCrc (e.addr.toNat / 65536))) := by
  refine onHbm_to (fun m => match m.stg.current with | some e => m.repairDone.releaseCrc (granuleOf e.addr.toNat) | none => m) hmem ?_
  dsimp only
  rw [hcur]
  dsimp only
  rw [repairDone_guarded hcur hc ht hb hgood, copyBlock_good hgood]
  rfl

/-- A recorded write that is held by nothing is performed, and the reads and peers that waited go on. -/
theorem dataApply_lands {m : Chip} {r : LogRec} (hr : m.logHead = some r) (hk : r.kind = .peerWrite ∨ r.kind = .bar2Write)
    (hd : ∀ d ∈ m.stg.deferred, d.entry ≠ r)
    (hheld : m.logReach.devHeld (r.land.getD ⟨3, none, none⟩).cls true false r.value.toNat r.payload.length = false) : m.dataApply =
      let t := r.land.getD ⟨3, none, none⟩
      let b := m.logReach.peerPut r.master t.cls r.value.toNat r.payload t.rc
      (match t.notify with | some n => b.notifyWindow n | none => b).pumpPeers.pumpReads :=
  (dataApply_write hr hk).trans (congrArg (fun c : Chip => c.pumpPeers.pumpReads) (applyWrite_lands hd hheld))

/-! ### What stays of a coach in its program -/

theorem side_restoreCoach (k i : Coach) (aft : Bool) : (restoreCoach k i).side aft = restoreCtx (k.side aft) (i.side aft) := by
  cases aft <;> rfl

theorem engines_of_program {m b : Chip} {c : Fin 64} {i : Coach} (h : (m.coach c).program = (restoreCoach (b.coach c) i).program) :
    (m.vec c).v = i.vec.v ∧ (m.mtx c).queue = i.mtx.queue :=
  ⟨(congrArg (·.vec.v) h :), (congrArg (·.mtx.queue) h :)⟩

theorem ctx_of_program {m b : Chip} {x : Ctx} {i : Coach} (h : (m.coach x.coach).program = (restoreCoach (b.coach x.coach) i).program) :
    (m.ctx x).pc = (restoreCtx (b.ctx x) (i.side x.aft)).pc ∧ (m.ctx x).main = (restoreCtx (b.ctx x) (i.side x.aft)).main := by
  have hside : (m.ctx x).program = (restoreCtx (b.ctx x) (i.side x.aft)).program := by
    rw [Chip.ctx, Chip.ctx, ← side_program, h, side_program, side_restoreCoach]
  exact ⟨(congrArg (·.pc) hside :), (congrArg (·.main) hside :)⟩

/-- Where a rollback ends no task, the image is back when the Restore phase ends. -/
theorem restore_shows {b : Chip} {i : Image} (hi : b.stg.image = some i) (hc : b.crcHeld = []) (hs : b.sparesAll i) : let t := b.restore
    t.stg.rb = .restored ∧ t.stg.stale = [] ∧ t.stg.diverged = [] ∧ t.stg.image = some i ∧ t.stg.regist = i.regist ∧
    t.stg.log = (b.stg.log.map fun r => { r with reached := false }) ∧ t.xlat.faults = [] ∧ t.cm = i.cm ∧ t.obuf = i.obuf ∧
    t.handles = (i.sh.tasks.map fun u => u.handle) ∧ t.sh.entries = i.sh.entries ∧
    (∀ c : Fin 64, (t.vec c).v = (i.coaches[c.val]).vec.v ∧ (t.mtx c).queue = (i.coaches[c.val]).mtx.queue) ∧
    ∀ x : Ctx, (t.ctx x).pc = (restoreCtx (b.ctx x) ((i.coaches[x.coach.val]).side x.aft)).pc ∧
      (t.ctx x).main = (restoreCtx (b.ctx x) ((i.coaches[x.coach.val]).side x.aft)).main := by
  have h := restore_recovered hi hc hs
  have hcoach (c : Fin 64) : (b.restore.coach c).program = (restoreCoach (b.coach c) i.coaches[c.val]).program :=
    (coach_program_of_recovered h c).trans (congrArg Coach.program (Vector.getElem_zipWith ..))
  exact ⟨view_of_recovered (·.stg.rb) (fun _ => rfl) h, view_of_recovered (·.stg.stale) (fun _ => rfl) h,
    view_of_recovered (·.stg.diverged) (fun _ => rfl) h, (view_of_recovered (·.stg.image) (fun _ => rfl) h).trans hi,
    view_of_recovered (·.stg.regist) (fun _ => rfl) h, view_of_recovered (·.stg.log) (fun _ => rfl) h,
    view_of_recovered (·.xlat.faults) (fun _ => rfl) h, view_of_recovered (·.cm) (fun _ => rfl) h,
    view_of_recovered (·.obuf) (fun _ => rfl) h, handles_of_recovered h, view_of_recovered (·.sh.entries) (fun _ => rfl) h,
    fun c => engines_of_program (hcoach c), fun x => ctx_of_program (hcoach x.coach)⟩

/-! ### What a stop leaves -/

/-- A stop leaves the halted chip but for its registers. -/
theorem view_stopAll {β : Type} (b : Chip) (xf : Bool) (g : Chip → β) (hg : ∀ c r, g { c with regs := r } = g c := by exact fun _ _ => rfl) :
    g (b.stopAll xf) = g (b.halted xf) := by
  rw [stopAll_rest]
  exact hg _ _

theorem vecq_stopAll (b : Chip) (xf : Bool) (c : Fin 64) : ((b.stopAll xf).vec c).q = [] := by
  rw [Chip.vec, coach_stopAll]
  rfl

theorem queue_stopAll (b : Chip) (xf : Bool) (c : Fin 64) : ((b.stopAll xf).mtx c).queue = [] := by
  rw [Chip.mtx, coach_stopAll]
  rfl

theorem arr_stopAll (b : Chip) (xf : Bool) (c : Fin 64) : ((b.stopAll xf).mtx c).arr = [] := by
  rw [Chip.mtx, coach_stopAll]
  rfl

/-- Settles O56, row by row and phase by phase. -/
theorem recoveryRollsBackAndRunsAgain : Obligations.RecoveryRollsBackAndRunsAgain := by
  refine ⟨?rows, ?stopAll, ?resume, ?granule, ?image⟩
  case rows =>
    intro s
    refine ⟨?event, fun e => ⟨levelB_disarmed, levelB_first, levelB_third⟩, ?repair, ?stop, ?restore, ?restart, ?apply, ?diverge, ?reexecEnd⟩
    case event =>
      intro e0 t he h5 hrb b e lev does
      have hgo (c : Chip) (ha : lev = .a → s.chip.stg.current = none) (hc : b.handleEvent e lev = c) : does c :=
        recoveryEvent_first he h5 hrb ha hc
      have himage : b.stg.image = s.chip.stg.image := rfl
      have hcounter : b.counter 32 = s.chip.counter 32 := rfl
      clear_value does lev b
      refine ⟨fun hl h6 h3 => ?_, fun hl h3 => ?_, fun i hl h6 hi x hx => ?_, fun hl hcur => ⟨fun h2 ht => ?_, fun h => ?_⟩, fun hl => ?_,
        fun hl => ?_⟩ <;> subst hl
      · exact hgo _ nofun (handleEvent_none h6 h3)
      · exact hgo _ nofun (handleEvent_mirror h3)
      · exact hgo _ nofun (handleEvent_repeated h6 (himage.trans hi) hx)
      · exact hgo _ (fun _ => hcur) (handleEvent_a.trans (if_pos ⟨h2, ht⟩))
      · exact hgo _ (fun _ => hcur) (handleEvent_a.trans (if_neg fun hn => h.elim (fun hne => hn.1.elim hne.1 hne.2) (· hn.2)))
      · exact hgo _ nofun (hcounter ▸ handleEvent_b b e)
      · exact hgo _ nofun (handleEvent_c b e)
    case repair =>
      exact fun e b => levelARepairDone_guarded
    case stop =>
      exact fun h => onChip_to (fun m => m.when (m.stg.rb == .begun) fun m => (m.stopAll false).modStg fun s => { s with rb := .stopped })
        (when_pos (by rw [h]; rfl))
    case restore =>
      exact fun hmem h hd => onHbm_to (fun m => m.when (m.stg.rb == .stopped && !m.depotWorks) Chip.restore) hmem
        (when_pos (by rw [h, hd]; rfl))
    case restart =>
      intro h hf hc
      exact onChip_to (fun m => m.when (m.stg.rb == .restored) Chip.restart) ((when_pos (by rw [h]; rfl)).trans (restart_unfenced hf hc))
    case apply =>
      intro r hmem hre hr hk hd t hheld
      exact onHbm_to (fun m => m.when m.reexec Chip.dataApply) hmem ((when_pos hre).trans (dataApply_lands hr hk hd hheld))
    case diverge =>
      intro h hre h0 hd
      exact onChip_to (·.diverge h) (diverge_ends hre h0 hd)
    case reexecEnd =>
      intro hre hrb hlog
      exact onChip_to (fun m => m.when (m.reexec && m.stg.rb == .none && m.logHead.isNone) Chip.reexecEnd)
        ((when_pos (by rw [hre, hrb, hlog]; rfl)).trans (reexecEnd_eq s.chip))
  case stopAll =>
    intro b xf
    exact ⟨ctx_stopAll b xf, fun c => ⟨vecq_stopAll b xf c, queue_stopAll b xf c, arr_stopAll b xf c, stream_halted b xf c⟩,
      view_stopAll b xf (·.sends), view_stopAll b xf (·.xlat), view_stopAll b xf (·.sf.out), view_stopAll b xf (·.sf.wait),
      view_stopAll b xf (·.host.held), view_stopAll b xf (·.host.jobs), view_stopAll b xf (·.host.reads), view_stopAll b xf (·.mem),
      view_stopAll b xf (·.veils), view_stopAll b xf (·.cm), view_stopAll b xf (·.obuf), view_stopAll b xf (·.slices),
      view_stopAll b xf (·.badCrc), view_stopAll b xf (·.sh), view_stopAll b xf (·.stg), view_stopAll b xf (·.chocks),
      view_stopAll b xf (·.errq), view_stopAll b xf (·.out)⟩
  case resume =>
    exact fun b => ⟨ctx_resumeCtxs b, (resumeCtxs_rest b).1, (resumeCtxs_rest b).2, resumeCtxs_stg b⟩
  case granule =>
    intro b g a ha t c
    have h := restoreGranule_unmarked ha
    have hbare := restoreGranule_bare b g
    exact ⟨(congrArg (·.mem) h :), (congrArg (·.veils) h :), (congrArg (·.coaches) hbare :), (congrArg (·.sh) hbare :)⟩
  case image =>
    exact fun b i hi hc hs => restore_shows hi hc hs

end Sys2Proof.Machine
